-- ==== Sys2Proof/Word.lean ====
section
/-! DEFINITION. The word types of the DP4032 model and their plainest arithmetic. -/

namespace Sys2Proof

/-- One byte. -/
abbrev Byte := BitVec 8
/-- One 32-bit word (accumulator element, FP32 pattern). -/
abbrev Word32 := BitVec 32
/-- One 64-bit word (a register, a scalar register, a doorbell word). -/
abbrev Word64 := BitVec 64
/-- A table keyed by a unit, line or slot number: strictly rising keys, no entry at the default value
(the canonical form that `Machine/Tbl.lean` keeps). -/
abbrev Tbl (α : Type) := List (Nat × α)

end Sys2Proof
end

