-- ==== Sys2Proof/Types.lean ====
section
/-! DEFINITION. The types that operands of commands and the state share: participants, rights, packets, roles. -/

namespace Sys2Proof

/-- A participant (R33, Table 2.2): a host logical device (port × 16 + LD-ID), a ROF endpoint, or a queue group. -/
inductive Part where
  | ld (n : Nat)
  | ep (n : Nat)
  | grp (n : Nat)
  deriving DecidableEq, Repr

/-- A set of access rights (Table 2.3, Table 3.2). -/
structure Rights where
  read : Bool := false
  write : Bool := false
  reduce : Bool := false
  atomic : Bool := false
  deriving DecidableEq, Repr

/-- A ROF packet: the 32-byte header of Table 11.4, field by field, and the payload. -/
structure Packet where
  dst : BitVec 16
  src : BitVec 16
  typ : BitVec 8
  vc : BitVec 3
  last : Bool := false
  mcast : Bool := false
  pin : Bool := false
  rsvd5 : BitVec 2 := 0
  length : BitVec 13
  rsvd6 : BitVec 3 := 0
  seq : BitVec 24
  keyEpoch : BitVec 8
  tenant : BitVec 10
  rsvd12 : BitVec 6 := 0
  birth : BitVec 16
  pktCount : BitVec 16 := 1
  arg1 : BitVec 16 := 0
  arg0 : BitVec 64
  crc : BitVec 32
  payload : List Byte := []
  deriving DecidableEq, Repr

/-- The kind of an extent (Table 2.3). -/
inductive ExtKind where
  | ordinary | balloon | sealed
  deriving DecidableEq, Repr

/-- Where a block lives (Table 2.3): interleaved over the device, or local to one quadrant. -/
inductive Placement where
  | deviceWide
  | localTo (q : Fin 4)
  deriving DecidableEq, Repr

/-- Who answers a recall: a ROF endpoint by a packet on a port, or a host logical device by a CXL response that names a
host physical address; `data` is the modified line of a MemWr, `poison` its poison bit (R96). -/
inductive Answerer where
  | rof (port : Fin 64) (p : Packet)
  | host (ld : Fin 64) (hpa : Nat) (data : List Byte) (poison : Bool)
  deriving DecidableEq, Repr

/-- What an allocation names (Table 2.3). -/
structure ExtentReq where
  tenant : Fin 1024
  pvaBase : Nat
  blocks : Nat
  light : Bool := false
  place : Placement := .deviceWide
  grainLog2 : Nat := 12
  kind : ExtKind := .ordinary
  rights : Rights := {}
  overrides : List (Part × Rights) := []
  minBlocks : Nat := 0
  maxBlocks : Nat := 0
  /-- OWNER_KEY_DIGEST of a sealed region. -/
  ownerKey : BitVec 384 := 0
  deriving DecidableEq, Repr

/-- What a tether binds (R42): an extent, a queue group, or a kite attachment on a version's extent. -/
inductive TetherObj where
  | extent (e : Nat)
  | group (g : Nat)
  | attach (e : Nat)
  deriving DecidableEq, Repr

/-- What an access needs (R70): `own` needs both the read and the write right. -/
inductive Access where
  | read | write | reduce | atomic | own
  deriving DecidableEq, Repr


/-- What SET_PORT_CONFIG writes (Table 11.7). -/
structure PortConfig where
  pair : Bool
  widthPolicy : Fin 4
  minWidthLog2 : Fin 8
  srcCheck : Bool
  srcBase : BitVec 16
  srcMask : BitVec 16
  laneDisable : BitVec 16
  parkHoldUs : BitVec 16
  deriving DecidableEq, Repr

/-- A flow of the device with another endpoint: own quadrant, the multicast group or pair link it uses if any, the other
endpoint (or the partner's SIDE on a pair link), the channel. -/
structure Flow where
  q : Fin 4
  group : Option (Fin 4096) := none
  pair : Bool := false
  other : BitVec 16
  vc : Fin 8
  deriving DecidableEq, Repr

/-- Who owns a group (Table 5.1). -/
inductive Owner where
  | host (ld : Nat)
  | endpoint (id : Nat)
  | pool
  deriving DecidableEq, Repr

/-- A management role (R400). -/
inductive Role where
  | operator | auditor | custodian
  deriving DecidableEq, Repr

/-- Where a register access goes: a BAR of Table 19.1 and the offset in it, or the host's back-invalidate enable of a CXL 3.1
function, for which the manual names no register (R334, Table 13.7). -/
inductive RegPlace where
  | bar0 (off : Nat)
  | bar2 (off : Nat)
  | bar4 (off : Nat)
  | biEnable
  deriving DecidableEq, Repr

/-- A register access (R476 to R489): the logical device it goes through; over the management network, that device's SELF
copies are named (R483) and the session has a role (R401); the size in bytes and the value of a write, or a read. -/
structure RegAccess where
  ld : Fin 64
  mgmt : Bool := false
  role : Role := .operator
  place : RegPlace
  size : Nat := 8
  write : Option (BitVec 64) := none
  deriving DecidableEq, Repr

/-- The 66-bit blocks a link frame comes in (R274): for each IDLE block before it and each block of it, how many of its
bits the line turned. -/
structure RxBlocks where
  idle : List Nat := []
  frame : List Nat := []
  deriving DecidableEq, Repr

/-- A control word as a port receives it (R278): the port and the word's 32 bytes. -/
structure RxControl where
  port : Fin 64
  bytes : List Byte
  deriving DecidableEq, Repr

/-- The fields beside ENABLE that a PORT_ENABLE sets (R344): MLD_ALLOW, and DC_RESPONSE_MS where it is given. -/
structure CxlPortSet where
  mldAllow : Bool
  dcResponseMs : Option (BitVec 16) := none
  deriving DecidableEq, Repr

/-- The line a patrol scrub reads (R365): an address in it, the bytes found in error, and the words of a stray pattern
(R364) where the damage is none of those. -/
structure ScrubRead where
  ppa : Nat
  errs : Nat := 0
  stray : Option (BitVec 10 × BitVec 10) := none
  deriving DecidableEq, Repr

end Sys2Proof
end

