-- ==== Sys2Proof/Machine/Blocks.lean ====
section
/-! DEFINITION. The parts of the state as plain data, block by block in the order of the manual's chapters, and what the
block sends. -/

namespace Sys2Proof.Machine

/-- The status names (R8), with the numeric values of Table 5.10 in `Status.code`. -/
inductive Status where
  | ok | poison | mappingWithdrawn | tileFault | tenantRevoked | conflict | partial_ | timeout | waitTimeout
  | abandoned | orphaned | coreFenced | deferredExpired | policed | unverified
  deriving DecidableEq, Repr

/-! ### Observability: counters are one table (`State.cnt`); the event recorder (chapter 18). -/

/-- One record of the event recorder (Table 18.4); `body` holds 8-byte fields, little-endian. -/
structure LogRec where
  kind : Nat
  flags : Nat
  seq : Nat
  time : Nat
  hours : Nat
  cycles : Nat
  subject : Nat
  body : List Nat
  deriving DecidableEq, Repr

/-- The event recorder, the observation lands, the debug access port (Tables 18.8 to 18.12, R463 to R474). -/
structure RecState where
  /-- REC_CTRL.PERIOD_MIN -/
  periodMin : Nat := 0x3C
  /-- REC_CTRL.WINDOW_LD -/
  windowLd : BitVec 64 := 0
  /-- Committed records, oldest first. -/
  log : List LogRec := []
  /-- SEQ of the next record. -/
  seq : Nat := 0
  full : Bool := false
  clearing : Bool := false
  /-- The CLEAR record being prepared while an erase runs. -/
  clearBody : List Nat := []
  clears : Nat := 0
  lost : Nat := 0
  /-- Records that arise during an erase (R470), oldest first. -/
  staging : List LogRec := []
  /-- Recorded extreme of each metric plus one (R467); 0 before there is one. -/
  extremes : Tbl Nat := []
  /-- Bucket counts of the period: key metric × 16 + bucket. -/
  buckets : Tbl Nat := []
  /-- Smallest and largest sample of the period, by metric. -/
  mins : Tbl (Option Nat) := []
  maxs : Tbl (Option Nat) := []
  /-- Counter values at the last metric sample, for the rate metrics, by metric. -/
  prev : Tbl Int := []
  /-- Start of the recording period (R465). -/
  periodAt : Nat := 0
  /-- CURSOR of each logical device's window (Table 18.12). -/
  cursor : Tbl (BitVec 15) := []
  /-- Observation lands: (GROUP, QUADRANT, INDEX) (Table 18.10). -/
  obsSel : Tbl (Nat × Nat × Nat) := []
  /-- The test access port's instruction code (Table 18.7) and selected quadrant. -/
  tapInstr : Nat := 0
  tapQuadrant : Nat := 0
  /-- EXTEST drives the electrical lands. -/
  tapDriving : Bool := false
  deriving DecidableEq, Repr

/-! ### Pool memory objects (chapter 2). -/

/-- Extent states (Tables 2.4, 2.8, 2.10). -/
inductive ExtState where
  | free | preparing | active | held | releasing | scrubbing
  | sealedEmpty | loading | sealed | sealedHeld | current | superseded | retired
  deriving DecidableEq, Repr

/-- One extent (R36, Table 2.3). -/
structure Extent where
  st : ExtState := .free
  tenant : Nat := 0
  /-- PVA base, a multiple of 256 MiB. -/
  pvaBase : Nat := 0
  /-- Pool-physical blocks in PVA order. -/
  blocks : List Nat := []
  light : Bool := false
  place : Placement := .deviceWide
  grainLog2 : Nat := 12
  kind : ExtKind := .ordinary
  rights : Rights := {}
  /-- At most 16 (participant, rights) overrides. -/
  overrides : List (Part × Rights) := []
  minBlocks : Nat := 0
  maxBlocks : Nat := 0
  /-- Balloon blocks being zero-filled before they join (R39). -/
  growing : List Nat := []
  /-- Balloon blocks withdrawn and draining, and then scrubbed (R39). -/
  shrinking : List Nat := []
  scrubbing : List Nat := []
  /-- Position of the first withdrawn block, counted from the PVA base (R39). -/
  shrinkAt : Nat := 0
  /-- Kite and version of an extent that is a kite version (R52). -/
  kite : Option Nat := none
  version : Nat := 0
  /-- Write rights withdrawn by a publish (R54). -/
  readOnly : Bool := false
  /-- A forced release waits for the cut of its host windows (R339). -/
  releaseAfterCut : Bool := false
  /-- A fabric-manager release waits for a publish that holds this extent (R54). -/
  releaseWaits : Bool := false
  /-- Blocks that the sweep of a rekey passes, in its order, and its pointer in granules of 16 KiB (R394). -/
  sweep : List Nat := []
  swept : Nat := 0
  /-- The logical device with an HDM-H exclusive window, the only participant with rights (R115). -/
  exclusive : Option Nat := none
  deriving DecidableEq, Repr

/-- One tether. -/
structure Tether where
  holder : Part
  obj : TetherObj
  /-- The tenant whose quota it counts against. -/
  tenant : Nat
  deriving DecidableEq, Repr

/-- A holder's lease (R43): its period in ms, the pool time of its last renewal, whether its tethers have lapsed, and the
stamp of a late renewal that waits for the tick which records the lapse (R45). -/
structure Lease where
  periodMs : Nat := 2000
  renewedAt : Nat := 0
  lapsed : Bool := false
  late : Option Nat := none
  /-- LAST_TAG of a logical device (Table 2.7). -/
  lastTag : Nat := 0
  deriving DecidableEq, Repr

/-- One kite (R51) and its version record. -/
structure Kite where
  tenant : Nat := 0
  sealed : Bool := false
  keepRetired : Bool := false
  version : Nat := 0
  /-- Extent of the current version; none when nothing is published or it was released (R57). -/
  extent : Option Nat := none
  /-- The publish that holds the version record (R54): its extent and the queue and slot to complete. -/
  held : Option (Nat × Nat × Nat) := none
  /-- Kite operations waiting behind the held publish: queue and slot, oldest first. -/
  waiting : List (Nat × Nat) := []
  deriving DecidableEq, Repr

/-- The pool-memory tables (chapter 2). -/
structure PoolState where
  extents : Tbl Extent := []
  /-- (endpoint, tenant) pairs (R35). -/
  members : List (Nat × Nat) := []
  tethers : List Tether := []
  leases : List (Part × Lease) := []
  /-- Tether quota of each tenant (R42). -/
  quotas : Tbl Nat := []
  kites : Tbl (Option Kite) := []
  deriving DecidableEq, Repr

/-! ### Translation (chapter 3). -/

/-- A leaf as the page tables hold it (Table 3.2), with the overrides that apply to it. -/
structure Leaf where
  rights : Rights
  sealed : Bool
  light : Bool
  /-- RUN of the leaf and the table level it stands at. -/
  run : Nat
  level : Nat
  /-- PPA of the first byte of the page or run. -/
  ppa : Nat
  extent : Nat
  overrides : List (Part × Rights)
  deriving DecidableEq, Repr

/-- A TLB or run entry (R68, R69), tagged with tenant, PVA, size and selector. -/
structure TlbEntry where
  tenant : Nat
  pva : Nat
  size : Nat
  sel : Bool
  leaf : Leaf
  draining : Bool
  deriving DecidableEq, Repr

/-- An invalidation (R72): who it names, whether it takes rights away, which units it has reached and which have
reported it complete. -/
structure Inval where
  tenant : Nat
  lo : Nat
  hi : Nat
  withdraws : Bool
  /-- Time it reached each quadrant's unit. -/
  reached : Tbl (Option Nat) := []
  /-- Number of the first beat issued after it reached each quadrant's unit (R72 steps 2 and 3). -/
  beats : Tbl Nat := []
  /-- Its place in the order in which each quadrant's unit received invalidations (R72). -/
  turn : Tbl Nat := []
  /-- The anchor ordered it, and waits for every unit's report. -/
  ordered : Bool := true
  done : List Nat := []
  /-- The drain bound has expired at these quadrants (R74). -/
  bounded : List Nat := []
  /-- This is the drain of a table switch (R77). -/
  isSwitch : Bool := false
  deriving DecidableEq, Repr

/-- A translation fault record (Table 3.7). -/
structure FaultRec where
  time : Nat
  pva : Nat
  reason : Nat
  access : Nat
  level : Nat
  tenant : Nat
  /-- NO_LEAF is 1 exactly when no extent is named. -/
  extent : Option Nat
  source : Nat
  sourceId : Nat
  tableEpoch : Nat
  seq : Nat
  deriving DecidableEq, Repr

/-- Page-table roots of one tenant (Table 3.13). -/
structure Roots where
  activeSel : Bool := false
  switchPending : Bool := false
  rootA : Nat := 0
  rootB : Nat := 0
  tableEpoch : Nat := 0
  /-- Quadrants whose old-selector entries are still draining. -/
  drainLeft : List Nat := []
  deriving DecidableEq, Repr

/-- An address-translation-cache entry (R81). -/
structure AtcEntry where
  ld : Nat
  pasid : Nat
  page : Nat
  size : Nat
  /-- Translated address. -/
  hpa : Nat
  draining : Bool
  deriving DecidableEq, Repr

/-- An ATS invalidation in progress (R82). -/
structure AtsInval where
  ld : Nat
  pasid : Nat
  page : Nat
  size : Nat
  itag : Nat
  time : Nat
  /-- DMA reads issued under the drained entries and still outstanding, by number (R82). -/
  reads : List Nat
  deriving DecidableEq, Repr

/-- A non-leaf entry in the walk cache (R68): it names the level 1 table page of 64 GiB of a tenant's space. -/
structure WalkEntry where
  tenant : Nat
  pva : Nat
  sel : Bool
  draining : Bool := false
  deriving DecidableEq, Repr

/-- One quadrant's translation unit (Tables 3.9 to 3.12). -/
structure XltUnit where
  drainBoundUs : BitVec 8 := 0x10
  tlb : List TlbEntry := []
  walkCache : List WalkEntry := []
  /-- Invalidations received. -/
  turns : Nat := 0
  faultHead : BitVec 6 := 0
  faultTail : BitVec 6 := 0
  overflow : Bool := false
  faultLog : Tbl (Option FaultRec) := []
  /-- SEQ of the next fault record. -/
  faultSeq : BitVec 32 := 0
  atc : List AtcEntry := []
  atsInvals : List AtsInval := []
  deriving DecidableEq, Repr

/-- Translation, all quadrants. -/
structure XltState where
  units : Tbl XltUnit := []
  roots : Tbl Roots := []
  invals : List Inval := []
  deriving DecidableEq, Repr

/-! ### Homes and directories (chapter 4). -/

/-- Directory states (Table 4.2). -/
inductive DirSt where
  | i | s | o | u
  deriving DecidableEq, Repr

/-- A directory entry (Table 4.2). -/
structure DirEntry where
  st : DirSt := .i
  coarse : Bool := false
  ptrs : List Part := []
  groups : BitVec 1024 := 0
  lds : BitVec 64 := 0
  dirtyPossible : Bool := false
  deriving DecidableEq, Repr

/-- What a request asks of its line (Table 4.3, and the engines' reads and writes). -/
inductive ReqKind where
  | rdOnce | rdShared | rdOwn | upgrade | wrLine | wrPart | atomic | reduce | reduceW
  | engRead | engWrite | victim | resolve | cleanEvict
  /-- A place in a line's order that a windowed contribution holds until all its lines are free (R178). -/
  | hold
  deriving DecidableEq, Repr

/-- Where the answer of a request goes. -/
inductive Reply where
  | rof (srcId dst : Nat) (vc seq tenant : Nat) (tag : Nat)
  | cxl (ld tag : Nat)
  /-- The answer of an effect of a job, kept in `answers` until its commit completes. -/
  | kept
  | silent
  deriving DecidableEq, Repr

/-- What a windowed contribution names (R177, R182), the first destination line of its chunk, whether it was ordered after a
disarm (R181), and whether it holds its place at its destination lines. -/
structure Contrib where
  window : Nat
  chunk : Nat
  contributor : Nat
  gen : Nat
  base : Nat := 0
  refused : Bool := false
  placed : Bool := false
  deriving DecidableEq, Repr

/-- One request at a home's ordering point. -/
structure LineReq where
  kind : ReqKind
  who : Part
  tenant : Nat
  pva : Nat
  /-- Quadrant whose translation unit issued the beat. -/
  entryQ : Nat
  /-- Bytes written, by position in the line, and the mask of those that count. -/
  data : List Byte := []
  mask : Nat := 0
  /-- Offset and length of the bytes read, in the line. -/
  off : Nat := 0
  len : Nat := 64
  /-- Atomic operation byte or RED byte, and the atomic's operands. -/
  op : Nat := 0
  opA : List Byte := []
  opC : List Byte := []
  /-- The answer this request belongs to, and the position of its bytes in that answer's data. -/
  pend : Nat := 0
  pos : Nat := 0
  /-- Number of the beat, in issue order (R72). -/
  beat : Nat := 0
  /-- Queue and descriptor slot that own an engine's beat (R74), and the tile it belongs to (R200). -/
  owner : Option (Nat × Nat) := none
  tile : Nat := 0
  /-- Position of an engine's beat in the byte order of its near-memory descriptor (R162). -/
  nmPos : Nat := 0
  /-- The contribution of its message that an unwindowed contribution's line belongs to: the packet's SEQ. -/
  part : Nat := 0
  /-- A windowed contribution (R178). -/
  win : Option Contrib := none
  /-- A host's write that carries poison (R341). -/
  poison : Bool := false
  deriving DecidableEq, Repr

/-- One unwindowed contribution of a message: its lines still to be served, its status so far, its RED byte and home
quadrant (Tables 6.15, 18.3). -/
structure Tally where
  left : Nat := 0
  status : Status := .ok
  red : Nat := 0
  home : Nat := 0
  deriving DecidableEq, Repr

/-- An answer under assembly: lines still to be served, the status so far and the bytes read. -/
structure Pend where
  reply : Reply
  kind : ReqKind
  left : Nat
  /-- More packets of the message are to come (R315). -/
  isOpen : Bool := false
  status : Status := .ok
  data : List Byte := []
  /-- The unwindowed contributions it answers, by packet SEQ. -/
  parts : Tbl Tally := []
  deriving DecidableEq, Repr

/-- An outstanding recall to one holder (R98). -/
structure Recall where
  holder : Part
  share : Bool
  tenant : Nat
  pva : Nat
  /-- The host address it named, for a logical device. -/
  hpa : Nat := 0
  deriving DecidableEq, Repr

/-- One line at its home: directory entry, transaction in progress, queue, recall set and line buffer. -/
structure Line where
  dir : DirEntry := {}
  cur : Option LineReq := none
  queue : List LineReq := []
  recalls : List Recall := []
  /-- Pool time of the last (re)send of the recalls. -/
  recallTime : Nat := 0
  /-- Target entry once the recall set is empty. -/
  target : DirEntry := {}
  /-- Data of a writeback absorbed and not yet superseded, and the pool time of that (R102). -/
  buf : Option (List Byte) := none
  bufTime : Nat := 0
  /-- Last use, for victim choice (R94). -/
  used : Nat := 0
  deriving DecidableEq, Repr

/-- A directory scan in progress at a home (R334, R339, R343): the logical device whose entries it looks for, the extent
of the closed window or all, whether the entries are resolved rather than snooped, and whether a link-down counts them. -/
structure Scan where
  q : Nat
  ld : Nat
  extent : Option Nat
  dead : Bool
  link : Bool := false
  deriving DecidableEq, Repr

/-- Home agents of the four quadrants: lines keyed by PPA / 64; per quadrant RECALL_TIMEOUT_US and PRIO_PTR, and the
pool time and port of the last accepted request for the tie rule (R87). -/
structure DirState where
  lines : Tbl Line := []
  pends : Tbl (Option Pend) := []
  /-- Answers of jobs' effects, by answer number (R201). -/
  answers : Tbl (Option (Status × List Byte)) := []
  nextPend : Nat := 1
  nextBeat : Nat := 1
  recallTimeoutUs : Tbl Nat := []
  prioPtr : Tbl Nat := []
  /-- Requests accepted in the present cycle: (quadrant, line, port). -/
  cycle : List (Nat × Nat × Nat) := []
  cycleTime : Nat := 0
  /-- Requests that wait at an input port because a home's busy lines or queue slots are used up (R88):
  (line, port, request), oldest first. -/
  waitIn : List (Nat × Nat × LineReq) := []
  /-- Lines that a home which has rejoined is still to recall, beyond its limit of busy lines (R88, R416). -/
  due : List Nat := []
  /-- Directory scans in progress. -/
  scans : List Scan := []
  deriving DecidableEq, Repr

/-! ### Memory stacks (chapter 14). -/

/-- A merge-buffer entry (R363): bytes with a mask, the time of the last combine, the writer and the tenant. -/
structure MergeEnt where
  mask : Nat
  data : List Byte
  time : Nat
  writer : Part
  tenant : Nat
  /-- A contribution has been combined into it (MERGE_WRITEBACKS). -/
  contrib : Bool := false
  deriving DecidableEq, Repr

/-- Owner tag of a light-coded line (R358): the two copies, each (tenant, SYSTEM). -/
structure OwnerTag where
  t1 : Nat
  s1 : Bool
  t2 : Nat
  s2 : Bool
  deriving DecidableEq, Repr

/-- A block-map entry (Table 14.12). -/
structure BlockEnt where
  valid : Bool := false
  system : Bool := false
  /-- A block of system space that holds page tables (R66). -/
  tables : Bool := false
  tag : Bool := false
  light : Bool := false
  place : Placement := .deviceWide
  grainLog2 : Nat := 0
  frame : Nat := 0
  extent : Nat := 0
  /-- The key slot that the block's lines were last written under as a whole, by a fill or a sweep; none for the system key
  (R385, R393). -/
  slot : Option Nat := none
  deriving DecidableEq, Repr

/-- Stack states (Table 14.8). -/
inductive StackSt where
  | inService | degraded | retiring | retired | failed
  deriving DecidableEq, Repr

/-- One stack (Table 14.8). -/
structure Stack where
  st : StackSt := .inService
  tempC : Nat := 0
  stateTime : Nat := 0
  trained : Bool := false
  /-- In self-refresh, contents intact (R410, R445). -/
  selfRefresh : Bool := false
  /-- Failed pseudo-channels of the stack, 0 to 63 (Table 14.4). -/
  failedPcs : List Nat := []
  deriving DecidableEq, Repr

/-- A retirement slot or the re-interleave (Table 14.9, Table 14.13). -/
structure Mig where
  /-- 0 idle, 1 running, 2 paused, 3 complete -/
  st : Nat := 0
  stack : Nat := 0
  extent : Nat := 0
  total : Nat := 0
  moved : Nat := 0
  startTime : Nat := 0
  /-- Retirement map: block to (substitute stack, substitute frame). -/
  map : Tbl (Option (Nat × Nat)) := []
  /-- Target blocks of a re-interleave, and its placement and grain. -/
  targets : List Nat := []
  place : Placement := .deviceWide
  grainLog2 : Nat := 12
  /-- The switch of a re-interleave has been ordered (R373 step 3). -/
  switched : Bool := false
  /-- Old lines handed over to their target home. -/
  handed : List Nat := []
  /-- Blocks of the extent before the switch (R373). -/
  old : List Nat := []
  /-- Moved bitmap of a retirement (R370): pseudo-channel index × 65536 + granule. -/
  movedSet : List Nat := []
  deriving DecidableEq, Repr

/-- A memory error record (Table 14.11). -/
structure MemErr where
  time : Nat
  ppa : Nat
  kind : Nat
  pc : Nat
  row : Nat
  bank : Nat
  symbols : Nat
  tenant : Nat
  source : Nat
  sourceId : Nat
  deriving DecidableEq, Repr

/-- One channel's retry state (R355): the alert time, consecutive alerts on the same command. -/
structure Chan where
  alert : Option Nat := none
  /-- The failing command, and how often in a row its replay has raised an alert. -/
  failing : Option (Nat × Nat) := none
  repeats : Nat := 0
  /-- Last commands issued, newest first, at most 64: (number, 2 × line + 1 for a write). -/
  retry : List (Nat × Nat) := []
  /-- Number of the next command. -/
  nextCmd : Nat := 0
  deriving DecidableEq, Repr

/-- Stacks, controllers and pool memory contents. `bytes` is keyed by PPA; an unlisted byte reads 0. -/
structure MemState where
  bytes : List Host.Cell := []
  poison : Tbl Bool := []
  /-- Bytes of a stored line in error (R356), by line. -/
  lineErr : Tbl Nat := []
  /-- Owner tags of light-coded lines that differ from the owning tenant's (R358). -/
  tags : Tbl (Option OwnerTag) := []
  merge : Tbl (Option MergeEnt) := []
  blocks : Tbl BlockEnt := []
  stk : Tbl Stack := []
  migs : Tbl Mig := []
  patrolHours : Nat := 0x18
  actThreshold : Nat := 0x400
  ceRemap : Nat := 0x10
  migratePct : Nat := 0x19
  rate : Nat := 0
  fillDone : Bool := false
  errHead : BitVec 8 := 0
  errTail : BitVec 8 := 0
  errOverflow : Bool := false
  errLog : Tbl (Option MemErr) := []
  /-- Activation tables: bank number (pc × 16 + bank) to its (row, count) entries (R354). -/
  acts : Tbl (List (Nat × Nat)) := []
  /-- Open row of each bank (R352). -/
  openRows : Tbl (Option Nat) := []
  /-- Start of the refresh window of each bank (R353). -/
  refreshStart : Tbl Nat := []
  chans : Tbl Chan := []
  /-- Remap tables: pseudo-channel to its failing (bank row) entries (R364). -/
  remap : Tbl (List Nat) := []
  /-- Corrections found in a row this patrol period: key (pc × 16 + bank) × 65536 + row. -/
  rowCe : Tbl Nat := []
  deriving DecidableEq, Repr

/-! ### The optical fabric (chapter 11). -/

/-- Port states (Table 11.7). -/
inductive PortSt where
  | disabled | probing | lighting | training | up
  deriving DecidableEq, Repr

/-- A frame that waits for transmission on a port: the packet, and the port it entered by when it is in transit. -/
structure TxFrame where
  pkt : Packet
  entry : Option Nat
  deriving DecidableEq, Repr

/-- A frame in a receive buffer: its counter value, the packet, its arrival time, whether its forwarding and its local
part are done, and the copies of it that have not started yet (R287, R300). -/
structure RxFrame where
  id : Nat
  pkt : Packet
  time : Nat
  fwd : Bool
  loc : Bool
  copies : Nat := 0
  deriving DecidableEq, Repr

/-- One virtual channel of a port (Table 11.8) with its audit and credit counts. -/
structure VcState where
  /-- RX_WORDS as the fabric manager set it; none at the reset value of Table 11.3. -/
  rxWords : Option Nat := none
  /-- The partition in force, advertised at the last training or credit retrain. -/
  rxInForce : Nat := 0
  txWindow : Nat := 0
  txAvail : Nat := 0
  txLeaked : Nat := 0
  /-- Words of frames sent, and of frames accepted from the partner, modulo 2^16 since training (R288). -/
  sent : Nat := 0
  recvd : Nat := 0
  /-- Freed words not yet returned by CREDIT (R287). -/
  owed : Nat := 0
  /-- Words of received frames held in this channel's partition. -/
  held : Nat := 0
  /-- The frame at the head of the transmit queue waits for credits since this time (R301). -/
  stallAt : Option Nat := none
  deriving DecidableEq, Repr

/-- A port (Table 11.7) with its link state. -/
structure Port where
  enable : Bool := false
  pair : Bool := false
  widthPolicy : Nat := 0
  minWidthLog2 : Nat := 0
  srcCheck : Bool := false
  srcBase : BitVec 16 := 0
  srcMask : BitVec 16 := 0
  laneDisable : BitVec 16 := 0
  parkHoldUs : Nat := 0x3E8
  st : PortSt := .disabled
  txMask : BitVec 16 := 0
  rxMask : BitVec 16 := 0
  rxReady : BitVec 16 := 0
  /-- Lanes the partner reports as receive-locked (its LANE_READY). -/
  partnerReady : BitVec 16 := 0
  laneFault : BitVec 16 := 0
  /-- Lanes the partner has declared faulty (its LANE_FAULT). -/
  txFault : BitVec 16 := 0
  /-- Lanes lit at operating power. -/
  lit : BitVec 16 := 0
  /-- Lanes out of the mask and lit, with the time they left it (R283). -/
  parked : Tbl (Option Nat) := []
  partnerId : Nat := 0
  partnerPair : Bool := false
  partnerSide : Bool := false
  trainSeen : Bool := false
  /-- Fragments of the partner's key-agreement parts: (part, index) to (total, data) (R388). -/
  keyParts : List ((Nat × Nat) × (Nat × List Byte)) := []
  /-- The partner's PART 0 is whole and this side has sent its PART 2. -/
  keySigned : Bool := false
  keyAgreed : Bool := false
  /-- Number of the ephemeral key of the agreement, until it is zeroised at UP (R389). -/
  ephemeral : Option Nat := none
  /-- Link keys of the session by direction: 32 bytes of key and 4 of salt; empty when there are none (R389). -/
  linkTx : List Byte := []
  linkRx : List Byte := []
  /-- Width that policy 1 has decided to widen to and that waits for the partner's LANE_READY; 0 when none (R285). -/
  wantWidth : Nat := 0
  creditSeen : Bool := false
  stateTime : Nat := 0
  fctrTx : Nat := 0
  fctrRx : Nat := 0
  /-- Consecutive TAG failures (R277). -/
  tagFails : Nat := 0
  /-- Frames queued for transmission, oldest first. -/
  txq : List TxFrame := []
  /-- Frames received and held, oldest first. -/
  rxq : List RxFrame := []
  /-- Audits received and not yet answered: the frame counter at each, and the words accepted before it by channel. -/
  audits : List (Nat × List Nat) := []
  /-- Sent counts at the outstanding AUDIT, by channel. -/
  auditSent : List Nat := []
  /-- Pool time of the last AUDIT, or of the entry to UP. -/
  auditAt : Nat := 0
  /-- This transmitter waits for RETRAIN_ACK (R289). -/
  retraining : Bool := false
  /-- The receive side is retraining since this time, with the frame counter at the RETRAIN word (R289). -/
  rxRetrain : Option (Nat × Nat) := none
  deriving DecidableEq, Repr

/-- The optical fabric (Tables 11.6 to 11.11). -/
structure RofState where
  adaptBiasW : Nat := 0x80
  auditUs : Nat := 0x64
  retrainDrainUs : Nat := 0x32
  trainLimitMs : Nat := 2
  ports : Tbl Port := []
  /-- Virtual channels: key port × 8 + channel. -/
  vcs : Tbl VcState := []
  route : Tbl (BitVec 64) := []
  /-- Multicast groups: (PORTS, VALID, LOCAL). -/
  mcast : Tbl (BitVec 64 × Bool × Bool) := []
  /-- Port last chosen by each quadrant (R295). -/
  lastPort : Tbl Nat := []
  deriving DecidableEq, Repr

/-! ### End-to-end transport (chapter 12). -/

/-- A packet kept by its source (R303): first and last transmission times, acknowledged or not. -/
structure SentPkt where
  pkt : Packet
  first : Nat
  lastTx : Nat
  acked : Bool := false
  deriving DecidableEq, Repr

/-- A send context (Table 12.1), keyed by quadrant, destination and channel. -/
structure SendCtx where
  isOpen : Bool := false
  nextSeq : Nat := 0
  /-- Live packets, oldest first (R308). -/
  pkts : List SentPkt := []
  lastAck : Nat := 0
  lastTx : Nat := 0
  /-- Packets waiting to be sent on this flow, oldest first. -/
  waiting : List Packet := []
  /-- The context exists; otherwise its packets wait for a place in the table or for the end of the quiet period (R304,
  R321). -/
  made : Bool := true
  /-- Why the first of them waits, as far as that is counted or a place is awaited: 1 the quarantine, 2 replay space, 3 a
  context (R308, R312, R304). -/
  stall : Nat := 0
  deriving DecidableEq, Repr

/-- A receive context (R306, R307): BASE and one bit for each of the 1,024 numbers from BASE upwards. -/
structure RecvCtx where
  base : Nat
  bits : List Nat := []
  lastArrival : Nat
  /-- An acknowledgement is owed since this time (R310). -/
  ackDue : Option Nat := none
  deriving DecidableEq, Repr

/-- A reassembly record (R316): the message's first SEQ, its common header fields, and the indexes accepted. -/
structure Reasm where
  typ : Nat
  tenant : Nat
  keyEpoch : Nat
  pktCount : Nat
  got : List Nat
  taken : Nat
  lastReq : Nat
  /-- The answer the message's packets share. -/
  pend : Nat
  /-- Invalidations since its first packet: the unit each reached and the range it named (R72 step 3). -/
  cut : List (Nat × Nat × Nat) := []
  deriving DecidableEq, Repr

/-- A retained atomic (R320). -/
structure Retained where
  tenant : Nat
  pva : Nat
  op : Nat
  a : List Byte
  c : List Byte
  /-- The result; none while the atomic is still being served. -/
  result : Option (Status × List Byte)
  /-- Answers of copies that arrived while it was being served. -/
  waiters : List Nat := []
  time : Nat
  deriving DecidableEq, Repr

/-- The key of a flow: own quadrant, the other endpoint, channel. -/
structure FlowKey where
  q : Nat
  other : Nat
  vc : Nat
  deriving DecidableEq, Repr

/-- A completion (Table 5.8), before PHASE is known; `slot` is the descriptor's submission index (R123), of which
SQ_SLOT is the slot; a window's completion names no slot (R323). -/
structure Compl where
  queue : Nat
  slot : Nat
  window : Bool := false
  tag : Nat
  status : Status
  detail : Nat := 0
  result0 : Nat := 0
  result1 : Nat := 0
  ext : List Byte := []
  paused : Bool := false
  notify : Bool := false
  waitVerified : Bool := false
  deriving DecidableEq, Repr

/-- A ring read the device has outstanding on the fabric (R317, R512): quadrant, ring endpoint, address, the queue that
fetches, and the SEQ of its request once it has started. -/
structure RingRead where
  q : Nat
  other : Nat
  addr : Nat
  queue : Nat
  seq : Option Nat := none
  deriving DecidableEq, Repr

/-- A completion write to an accelerator-resident ring that is not acknowledged yet (R153, R317): quadrant, ring
endpoint, line address, completion index, and the completion. -/
structure RingWrite where
  q : Nat
  other : Nat
  addr : Nat
  idx : Nat
  compl : Compl
  /-- SEQ of its packet once that has started, whether an Ack has covered it, and whether its Cmp has come. -/
  seq : Option Nat := none
  acked : Bool := false
  answered : Bool := false
  deriving DecidableEq, Repr

/-- Transport state (Tables 12.9 to 12.11). -/
structure E2eState where
  resendUs : Tbl Nat := []
  resendLimitUs : Tbl Nat := []
  reasmUs : Tbl Nat := []
  send : List (FlowKey × SendCtx) := []
  recv : List (FlowKey × RecvCtx) := []
  reasm : List ((FlowKey × Nat) × Reasm) := []
  /-- Retention table keyed by (home quadrant, SRC, tag). -/
  retained : List ((Nat × Nat × Nat) × Retained) := []
  requests : List RingRead := []
  ringWrites : List RingWrite := []
  /-- DPC_E2E_COLL: DEADLINE_US, COMPLETION_Q, COMPLETION_Q_VALID, MISSING_PVA by window. -/
  collDeadline : Tbl Nat := []
  collQ : Tbl Nat := []
  collValid : Tbl Bool := []
  collMissing : Tbl Nat := []
  parent : Nat := 0
  parentValid : Bool := false
  root : Bool := false
  alt : Nat := 0
  altValid : Bool := false
  locked : Bool := false
  everLocked : Bool := false
  holdover : Bool := false
  depth : Nat := 0
  offsetPs : BitVec 32 := 0
  lockTime : Nat := 0
  /-- Consecutive exchanges with a small offset (R326). -/
  goodExchanges : Nat := 0
  /-- Last Time packet received on each port: its ARG0 and its arrival time. -/
  timeEcho : Tbl (Option (Nat × Nat)) := []
  /-- The quiet period after a reset runs until this time; none once it has ended (R321). -/
  quietUntil : Option Nat := none
  deriving DecidableEq, Repr

/-! ### Queues, groups and jobs (chapter 5). -/

/-- Queue states (Table 5.20). -/
inductive QueueSt where
  | disabled | running | stopped | disabling
  deriving DecidableEq, Repr

/-- A descriptor in flight (R125): its slot and bytes, whether and when it has started, and its near-memory progress. -/
structure Desc where
  slot : Nat
  bytes : List Byte
  started : Bool := false
  startTime : Nat := 0
  /-- Pool time of the doorbell that covered it (R266). -/
  stamp : Nat := 0
  /-- The job this descriptor runs. -/
  job : Option Nat := none
  /-- Stripes of a near-memory descriptor, and those carried out (R158). -/
  stripes : Nat := 0
  stripesDone : List Nat := []
  /-- Stripes in progress, each with the core whose move engine it holds (R158). -/
  running : List (Nat × Nat) := []
  /-- Invalidations that reached the unit of a stripe in progress: the stripe and the range named (R72 step 3). -/
  cut : List (Nat × Nat × Nat) := []
  /-- The move engine that runs a descriptor of one engine (R165, R170): its core. -/
  engine : Option Nat := none
  /-- The lowest failure: position, status, extension (R162). -/
  failure : Option (Nat × Status × List Byte) := none
  stopped : Bool := false
  /-- COMPARE result: lowest differing offset found, and the two bytes there. -/
  diff : Option (Nat × Byte × Byte) := none
  /-- REDUCE: elements of each destination line whose result is NaN, by the line's number in the range. -/
  nans : Tbl Nat := []
  /-- Pattern line or source list, once the first stripe has read it. -/
  aux : Option (List Byte) := none
  /-- Its outcome is decided, and its completion is not written yet. -/
  ended : Bool := false
  deriving DecidableEq, Repr

/-- A completion written to a ring: its index, its address there, and whether it counts towards notification. -/
structure Post where
  idx : Nat
  addr : Nat
  notify : Bool
  deriving DecidableEq, Repr

/-- One queue (Table 5.20). -/
structure Queue where
  sqBase : Nat := 0
  cqBase : Nat := 0
  sqLog : Nat := 6
  cqLog : Nat := 6
  placement : Nat := 0
  ringEndpoint : Nat := 0
  pasid : Nat := 0
  notifyKind : Nat := 0
  msixVector : Nat := 0
  notifyEndpoint : Nat := 0
  coalesceCount : Nat := 0
  coalesceUs : Nat := 0
  notifyPva : Nat := 0
  enable : Bool := false
  defaultLimitMs : Nat := 0
  cqHead : BitVec 32 := 0
  st : QueueSt := .disabled
  fault : Nat := 0
  sqHead : BitVec 32 := 0
  sqTail : BitVec 32 := 0
  cqTail : BitVec 32 := 0
  /-- Descriptors in flight, in submission order. -/
  flight : List Desc := []
  /-- Window completions counted in flight (R322). -/
  windowsInFlight : Nat := 0
  /-- Completions with NOTIFY since the last notification, and the time of the first (R146). -/
  coalesced : Nat := 0
  coalesceSince : Nat := 0
  /-- Pool time of each waiting doorbelled descriptor's doorbell, oldest first (R265). -/
  stamps : List Nat := []
  /-- A completion read from a ring is awaited: descriptor DMA or fabric read in progress. -/
  fetching : Bool := false
  /-- Completions whose ring address waits for its host's translation (R81), oldest first. -/
  awaiting : List Compl := []
  /-- The completion index whose extension record has been written and whose main slot has not (R141). -/
  extOut : Option Nat := none
  /-- Completions written whose ring write is not visible yet, oldest first (R146). -/
  posts : List Post := []
  deriving DecidableEq, Repr

/-- Group states (Table 5.18). -/
inductive GroupSt where
  | unbound | active | quiescing | lapsed | orphaned | releasing
  deriving DecidableEq, Repr

/-- One queue group (Tables 5.17, 5.18). -/
structure Group where
  tenant : Nat := 0
  quadrant : Nat := 0
  owner : Owner := .host 0
  dbPva : Nat := 0
  st : GroupSt := .unbound
  renewSeen : Bool := false
  /-- Undelivered completions, oldest first (R153, R155). -/
  held : List Compl := []
  stateTime : Nat := 0
  /-- The tenant is being removed: the group's work ends with TENANT_REVOKED (R395). -/
  revoking : Bool := false
  /-- Words of a pool owner's doorbell line that ordered writes have changed since the queue block last read the line
  (R127). -/
  dbMask : Nat := 0
  /-- Pool time at which the last such write of each word was ordered (R266). -/
  dbTime : Tbl Nat := []
  deriving DecidableEq, Repr

/-- Job phases: admission steps 1 to 4 of R149; ready; running; stopping (R202); stopped at a tile boundary without a
paused record (R152); paused. -/
inductive JobPhase where
  | header | image | digest | ready | running | stopping | halted | paused
  deriving DecidableEq, Repr

/-- Why a running job is being stopped (Table 7.10); an ended outcome waits for a commit whose held effects have begun to
issue (R202). -/
inductive StopWhy where
  | none_ | preempt | quiesce | timeLimit | release | tileFault
  | ended (st : Status) (detail : Nat) (ext : List Byte)
  deriving DecidableEq, Repr

/-- A context as a snapshot keeps it (R199): next operation index, the 64 scalar registers, or that it has ended. -/
structure CtxSnap where
  pc : Nat
  regs : Tbl (BitVec 64)
  ended : Bool := false
  deriving DecidableEq, Repr

/-- A held effect (R201): rank of its core, commit it belongs to, context, addresses of its rows, operator byte, the
core-store address it is read from, operands of an atomic and the register of its result, the semaphore it signals;
rows issued whole, and answers still awaited. -/
structure HeldEff where
  rank : Nat
  commit : Nat
  ctx : Nat
  isAtomic : Bool
  rows : List Nat
  op : Nat
  src : Nat := 0
  opA : Nat := 0
  opC : Nat := 0
  reg : Nat := 0
  signal : Option Nat := none
  issued : Nat := 0
  answers : List Nat := []
  deriving DecidableEq, Repr

/-- The fence of one of a job's cores (R206): core, rank, pool time, the commit whose held effects were issuing, how many
the core had in it and how many were issued whole, and the next one's bytes done and first address. -/
structure FenceRec where
  core : Nat
  rank : Nat
  time : Nat
  commit : Option Nat
  held : Nat
  issued : Nat
  partialBytes : Nat
  pva : Nat
  deriving DecidableEq, Repr

/-- A job (R147 to R152, R191). -/
structure Job where
  group : Nat
  queue : Nat
  slot : Nat
  tag : Nat
  notify : Bool := false
  waitVerified : Bool := false
  imagePva : Nat
  argPva : Nat
  width : Nat
  phase : JobPhase := .header
  why : StopWhy := .none_
  header : List Byte := []
  /-- Entry table and operations (R191), constant section, binding table, arguments. -/
  entries : List Nat := []
  program : List (BitVec 128) := []
  consts : List Byte := []
  binds : List Byte := []
  args : List Nat := []
  digest : BitVec 384 := 0
  nonIdem : Bool := false
  energyClass : Nat := 0
  contexts : Nat := 1
  coreStoreBytes : Nat := 0
  tilesEst : Nat := 0
  /-- Cores the job holds, by rank. -/
  cores : List Nat := []
  /-- Ready-list quadrant and age stamp (R260, R266). -/
  quadrant : Nat := 0
  readySince : Nat := 0
  /-- Pool time of its first admission. -/
  firstAdmit : Option Nat := none
  /-- Last completed commit and, at it, each core's contexts by rank; none before the first admission. -/
  commits : Nat := 0
  snaps : List (List CtxSnap) := []
  /-- Completed commits by rank (Table 7.12): a core whose contexts have ended takes part in no later one. -/
  rankCommits : Tbl Nat := []
  /-- Snapshots of later commits, at the cores that have arrived: key commit × 256 + rank. -/
  newSnaps : Tbl (List CtxSnap) := []
  /-- Signals of COMMITs not yet completed: commit, rank, semaphore (R200). -/
  signals : List (Nat × Nat × Nat) := []
  effects : List HeldEff := []
  /-- The commit whose held effects have begun to issue. -/
  issuing : Option Nat := none
  /-- Commit at which a stopping job is held (R202). -/
  target : Nat := 0
  /-- Fenced cores of the job whose test is awaited (R206). -/
  fences : List FenceRec := []
  /-- Windowed contributions whose answer is awaited: answer number and tile (R205). -/
  waits : List (Nat × Nat) := []
  /-- Commits completed, summed over its cores; energy in femtojoules (R143, R255). -/
  tiles : Nat := 0
  energyFj : Nat := 0
  /-- Serial number drawn at admission for stochastic rounding (R217), and the controls in force (R232). -/
  serial : Nat := 0
  srFixed : Bool := false
  srSeed : BitVec 64 := 0
  /-- Paused record and its generation while paused (R152). -/
  record : Option (Nat × Nat) := none
  /-- Stopped by a quiesce (R155, R156). -/
  quiesced : Bool := false
  /-- Fault record that goes with a TILE_FAULT (Table 3.7). -/
  ext : List Byte := []
  deriving DecidableEq, Repr

/-- Queue-block state (chapter 5). -/
structure QueState where
  groups : Tbl Group := []
  queues : Tbl Queue := []
  jobs : Tbl (Option Job) := []
  nextJob : Nat := 1
  /-- Generation of each paused record (R152), and the job that holds it. -/
  recordGen : Tbl Nat := []
  recordJob : Tbl (Option Nat) := []
  /-- Digests kept for images in kite versions (R150): (kite, version, PVA) to digest. -/
  digests : List ((Nat × Nat × Nat) × BitVec 384) := []
  /-- Completions whose pair verification is awaited (R134), oldest first. -/
  unverified : List Compl := []
  deriving DecidableEq, Repr

/-! ### Near-memory operations and reduction windows (chapter 6). -/

/-- Window states (Table 6.14). -/
inductive WinSt where
  | idle | arming | armed | complete | disarmed
  deriving DecidableEq, Repr

/-- A reduction window (Tables 6.13, 6.14) with its chunk bitmaps. -/
structure Window where
  dstPva : Nat := 0
  tenant : Nat := 0
  length : Nat := 0
  chunkLog2 : Nat := 8
  red : Nat := 0
  init : Bool := false
  contributors : Nat := 0
  armFault : Nat := 0
  notifyPva : Nat := 0
  st : WinSt := .idle
  generation : BitVec 32 := 0
  chunksDone : Nat := 0
  chunksFailed : Nat := 0
  duplicates : Nat := 0
  armTime : Nat := 0
  /-- Contribution bitmap of each chunk (bit i: contributor i). -/
  bitmap : Tbl Nat := []
  /-- Chunks already counted in CHUNKS_FAILED. -/
  failed : List Nat := []
  /-- A disarm has been ordered and not every home has taken it; the homes that it has reached (R181). -/
  disarming : Bool := false
  takenBy : List Nat := []
  /-- COMPLETE has just been entered: its NOTIFY_PVA write and queue completion are due (Table 6.11, R323). -/
  due : Bool := false
  /-- The PARTIAL event of this arm has happened; the queue completion of this arm has been written. -/
  partialDone : Bool := false
  completed : Bool := false
  deriving DecidableEq, Repr

/-- Near-memory state. -/
structure NmState where
  windows : Tbl Window := []
  deriving DecidableEq, Repr

/-! ### Quadrants, straits, fences (chapters 1 and 16). -/

/-- Codes of the fence status lines (R413). -/
inductive FenceCode where
  | inService | anchor | spare | fenced
  deriving DecidableEq, Repr

/-- One quadrant's standing: its own fence (R410), a fence of position (R414, R418), and the code it drives and has
sampled on the other lines (R413). -/
structure Quad where
  faultFenced : Bool := false
  positionFenced : Bool := false
  sampled : Tbl FenceCode := []
  /-- Quadrants of the island it was fenced with (R414, R416). -/
  island : List Nat := []
  /-- Lines that its home held in O at the moment it became unreachable (R412). -/
  owned : List Nat := []
  deriving DecidableEq, Repr

/-- Fences, islands, the anchor role (Tables 16.7 to 16.9). -/
structure FenState where
  quads : Tbl Quad := []
  /-- Straits lost: numbers 0 to 5 for T01, T02, T03, T12, T13, T23. -/
  straitLost : Tbl Bool := []
  /-- Quadrant that holds the anchor role, none while no quadrant does (R417). -/
  anchor : Option Nat := some 0
  /-- Q2 lost spare standing when it left the island; it returns after R416 step 3. -/
  spareLost : Bool := false
  /-- Admission is paused by an anchor move until this time (R419). -/
  anchorMoveUntil : Option Nat := none
  /-- Fenced cores: cause and time (Table 16.9); cause 0 is none. -/
  coreCause : Tbl Nat := []
  coreTime : Tbl Nat := []
  fencedOe : Tbl Bool := []
  fencedCxl : Tbl Bool := []
  /-- Blocks fenced under R396: (kind, instance). -/
  fencedBlocks : List (Nat × Nat) := []
  /-- Repair record of boot flash: fault-fenced units (kind, number) and those UNFENCE has released (R407). -/
  repair : List (Nat × Nat) := []
  unfenced : List (Nat × Nat) := []
  /-- Lost-line lists by quadrant that holds the list, and overflow flags (R412). -/
  lostLines : Tbl (List Nat) := []
  lostOverflow : Tbl Bool := []
  deriving DecidableEq, Repr

/-! ### Clocks, reset and start-up (chapters 17 and 20). -/

/-- Where the device stands between reset and release. -/
inductive Phase where
  | inReset      -- a reset cause is asserted
  | starting     -- the start sequence of Table 17.6 runs
  | released     -- admission open (R450)
  | dormant      -- R453
  | tripped      -- stopped by an over-temperature trip (R442)
  | frozen       -- R472
  | dead         -- the always-on oscillator did not become stable (R440)
  deriving DecidableEq, Repr

/-- Causes of a reset (Table 17.10). -/
inductive RstCause where
  | coreRails | coldRstN | overTemp | stackRail | warmRstN | watchdog | command | selfFence | wakeN
  deriving DecidableEq, Repr

/-- One quadrant's clocks (R437 to R439). -/
structure QClock where
  pllLock : Bool := false
  divUncore : Nat := 32
  divControl : Nat := 32
  /-- Closed clock gates: gate numbers of the quadrant's tree (0 root, 1 core domain root, 2 uncore root, 3 control
  root, 4 maintenance root, 8 to 47 the cores, 48 on the other blocks). -/
  closed : Tbl Bool := []
  deriving DecidableEq, Repr

/-- Clock, reset and package state (Tables 17.9 to 17.11, R498 to R503). -/
structure ClkState where
  phase : Phase := .starting
  q : Tbl QClock := []
  refPresent : Bool := false
  aonOscOk : Bool := false
  aonClkLost : Bool := false
  gateRefused : Nat := 0
  lastLevel : Nat := 0
  lastCause : RstCause := .coreRails
  /-- Level and cause of the reset in progress: true is cold. -/
  resetCold : Bool := true
  memoryKept : Bool := false
  warmResets : Nat := 0
  releaseTime : Nat := 0
  operatingHours : Nat := 0
  powerCycles : Nat := 0
  cmpOvertemp : Bool := false
  cmpSupply : Bool := true
  cmpWake : Bool := false
  cmpFreeze : Bool := false
  tripped : Bool := false
  supplyLost : Bool := false
  aonTicks : Nat := 0
  /-- Pool time at which the ticks were last read. -/
  tickAt : Nat := 0
  /-- Pool-time hold: pool time and tick count at the last reset or dormant entry (Table 17.2). -/
  holdTime : Nat := 0
  holdTicks : Nat := 0
  /-- OPERATING_HOURS and POWER_CYCLES as the boot flash holds them. -/
  flashHours : Nat := 0
  flashCycles : Nat := 0
  watchdogAt : Nat := 0
  /-- Start-up work done: stacks trained, firmware verified and loaded, BCR accepted. -/
  trained : Bool := false
  firmwareOk : Bool := false
  bcrOk : Bool := false
  /-- Pins: THERM_TRIP_N and DORMANT_N asserted. -/
  thermTrip : Bool := false
  dormantN : Bool := false
  /-- Rails absent (0 core, 1 stack, 2 optical) (R442, R503). -/
  railLost : Tbl Bool := []
  /-- A wake from dormant waits for the core and optical rails (R454). -/
  wakePending : Bool := false
  /-- Fibre-array connectors mated for 1 ms (FA_PRES_N) (R498). -/
  faPresent : Tbl Bool := []
  /-- The stack rail has been lost: the next start is cold (R442). -/
  coldNext : Bool := false
  deriving DecidableEq, Repr

/-! ### Compute cores (chapters 7 and 8). -/

/-- Context standing: not used, ready for dispatch, waiting at a barrier channel (R240), ended. -/
inductive CtxSt where
  | idle | ready | barrier (chan : Nat) | ended
  deriving DecidableEq, Repr

/-- A COMMIT that a context has dispatched and its core has not arrived at (R199): the snapshot and the semaphore. -/
structure Mark where
  commit : Nat
  snap : CtxSnap
  signal : Option Nat
  deriving DecidableEq, Repr

/-- A sequencer context (R192): pc, 64 scalar registers (s0 reads 0), COMMITs dispatched, and its wait watchdog. -/
structure Ctx where
  st : CtxSt := .idle
  pc : Nat := 0
  regs : Tbl (BitVec 64) := []
  commits : Nat := 0
  marks : List Mark := []
  /-- Semaphore that a BARRIER signals at its release. -/
  barrierSignal : Option Nat := none
  /-- Start of the present wait that the watchdog covers (R237), its cause and number (Table 9.9). -/
  waitSince : Option Nat := none
  waitCause : Nat := 0
  waitNumber : Nat := 0
  /-- Draws that its ACCRDs and VCVTs have taken since its last commit point (R217). -/
  accDraws : Nat := 0
  cvtDraws : Nat := 0
  deriving DecidableEq, Repr

/-- An operation in an engine's queue: its context, the counter and rows it counts under (Table 18.3), the semaphore to
signal, the core-store ranges it reads and writes (R187), and the ranges of pool memory that it writes. -/
structure EngOp where
  ctx : Nat
  count : Nat
  rows : Nat
  signal : Option Nat
  reads : List (Nat × Nat) := []
  writes : List (Nat × Nat) := []
  pool : List (Nat × Nat) := []
  /-- The operation word, and the registers and COMMITs of its context at its dispatch. -/
  word : BitVec 128 := 0
  regs : Tbl (BitVec 64) := []
  commits : Nat := 0
  /-- Its effect is still to come: it waits in the queue for a line that is being recalled, or behind an operation that
  does; and the core-store ranges that operations it is not ordered with have written meanwhile. -/
  waits : Bool := false
  raced : List (Nat × Nat) := []
  deriving DecidableEq, Repr

/-- One core (Table 7.12, R186 to R207). -/
structure Core where
  job : Option Nat := none
  rank : Nat := 0
  stateTime : Nat := 0
  /-- Stopped under R202: it dispatches nothing more. -/
  frozen : Bool := false
  /-- Commits it has arrived at (R199). -/
  arrived : Nat := 0
  ctxs : Tbl Ctx := []
  /-- Core store bytes; an unlisted byte reads 0. -/
  store : Tbl Byte := []
  /-- Accumulators: key ((engine × 4 + accumulator) × 128 + row) × 128 + column, FP32 patterns. -/
  acc : Tbl Nat := []
  /-- Semaphore counts (R234). -/
  sems : Tbl Nat := []
  /-- Queues of the engines: 0, 1 matrix; 2 vector; 3 move; 4 reduce. -/
  engines : Tbl (List EngOp) := []
  /-- Since when each engine holds an operation (R460). -/
  busyAt : Tbl Nat := []
  /-- Energy since the last class window in femtojoules (R255, R256), when running power was last added, and the limit of
  R256. -/
  energyFj : Nat := 0
  meterAt : Nat := 0
  limited : Bool := false
  /-- The context dispatched last: the rotation of R192 goes on after it. -/
  rota : Nat := 7
  deriving DecidableEq, Repr

/-- A barrier channel (Table 9.10); `sense` is the sense of the last completed episode. -/
structure Chan9 where
  job : Option Nat := none
  logical : Nat := 0
  members : Nat := 0
  sense : Bool := false
  /-- Cores that have arrived in the current episode. -/
  arrived : List Nat := []
  deriving DecidableEq, Repr

/-- A registered object (Table 9.11). -/
structure SyncObj where
  wordPva : Nat := 0
  tenant : Nat := 0
  memListPva : Nat := 0
  members : Nat := 0
  /-- 0 FREE, 1 REGISTERED, 2 ABANDONED as Table 9.11 numbers STATE -/
  st : Nat := 0
  regFault : Nat := 0
  stateTime : Nat := 0
  /-- The member list read at registration. -/
  list : List Nat := []
  /-- A registration waits for a line of its member list that is being recalled. -/
  reading : Bool := false
  deriving DecidableEq, Repr

/-- Cores and synchronisation. -/
structure CoreState where
  cores : Tbl Core := []
  srFixed : Bool := false
  srSeed : BitVec 64 := 0
  /-- Next job serial of each quadrant (R217). -/
  serials : Tbl Nat := []
  watchdogMs : Nat := 0x3E8
  wdogTime : Nat := 0
  wdogCore : Nat := 0
  wdogCtx : Nat := 0
  wdogCause : Nat := 0
  wdogNumber : Nat := 0
  wdogGroup : Nat := 0
  chans : Tbl Chan9 := []
  objs : Tbl SyncObj := []
  deriving DecidableEq, Repr

/-! ### Scheduling, shaping and power (chapter 10). -/

/-- One quadrant's power state (Table 10.7). -/
structure PwrQ where
  budgetW : Nat := 0x2BC
  bucketMaxMj : Nat := 0x46
  opReq : Nat := 0
  opCur : Nat := 0
  opCap : Nat := 0
  divider : Nat := 4
  emergThermal : Bool := false
  emergRail : Bool := false
  emergAlert : Bool := false
  throttle : Bool := false
  tj : Nat := 0
  railW : Nat := 0
  bucketUj : Int := 0
  emergTime : Nat := 0
  /-- Core voltage commanded to the regulator, in mV (R254, R501). -/
  voltMv : Nat := 600
  /-- Time the cause of each emergency was last present: thermal, rail, alert (R268). -/
  causeAt : Tbl Nat := []
  /-- Time the throttle last lowered, and the last raise, of OP_CAP (R267). -/
  stepAt : Nat := 0
  clearAt : Nat := 0
  /-- Rail power has been above 700 W since this time (R268). -/
  railSince : Option Nat := none
  /-- The engine limit of the rail response holds, and since when rail power has been at or below 650 W (Table 10.3). -/
  railLimited : Bool := false
  railLowSince : Option Nat := none
  /-- The throttle for Tj holds (Table 10.3). -/
  tjThrottle : Bool := false
  /-- Measured core-rail energy not yet counted in CORE_ENERGY_MJ, in µJ. -/
  energyRemUj : Nat := 0
  /-- OP_CAP is held down by a throttle or emergency that has cleared: time of the last raise, or of the clearing. -/
  raiseFrom : Option Nat := none
  deriving DecidableEq, Repr

/-- An ingress contract (R263). -/
structure Contract where
  tenant : Nat := 0
  anyTenant : Bool := false
  port : Nat := 0
  anyPort : Bool := false
  valid : Bool := false
  rateMbps : Nat := 0
  burstB : Nat := 0
  /-- TOKENS in thousandths of a byte (R263), as of `tokenTime`. -/
  milli : Nat := 0
  tokenTime : Nat := 0
  deriving DecidableEq, Repr

/-- Scheduler, shaping and power state (Tables 10.7 to 10.15). -/
structure SchState where
  q : Tbl PwrQ := []
  alertN : Bool := false
  alertSince : Option Nat := none
  /-- DPC_PWR_ACT (Table 10.8): STATE 0 none, 1 deferred, 2 activating; LAST_STATUS; REQ_TIME. -/
  actState : Nat := 0
  actLast : Nat := 0
  actReqTime : Nat := 0
  /-- Pool time of the request that is deferred or carried out (R270). -/
  actSince : Nat := 0
  /-- Pending activation: release level and package digest; admission is paused while one is carried out (R404). -/
  actPkg : Option (Nat × BitVec 384) := none
  actPause : Bool := false
  ageLimitMs : Nat := 0xA
  fitHorizonUs : Nat := 0x3E8
  shedMarginC : Nat := 5
  classRate : Tbl Nat := []
  classBurstUs : Tbl Nat := []
  classCredit : Tbl Int := []
  groupClass : Tbl Nat := []
  qDepth : Tbl Nat := []
  qDelay : Tbl Nat := []
  qMaxDelay : Tbl Nat := []
  contracts : Tbl Contract := []
  deriving DecidableEq, Repr

/-! ### CXL host ports (chapter 13). -/

/-- A CXL port (Table 13.6). -/
structure CxlPort where
  linkState : Nat := 0
  version : Nat := 0
  width : Nat := 0
  rateGts : Nat := 0
  mld : Bool := false
  enable : Bool := false
  mldAllow : Bool := false
  ldCount : Nat := 0
  dcResponseMs : Nat := 0x3E8
  stateTime : Nat := 0
  /-- Link-down time while its scans run (R343), and its counts: requests completed, lines poisoned, queues stopped. -/
  downAt : Option Nat := none
  downReqs : Nat := 0
  downPoisoned : Nat := 0
  downQueues : Nat := 0
  deriving DecidableEq, Repr

/-- A logical device (Table 13.7). -/
structure LogDev where
  tenant : Nat := 0
  bound : Bool := false
  biEnabled : Bool := false
  dcd : Bool := false
  resetTime : Nat := 0
  /-- Event interrupt policy and QoS settings (R342, R344). -/
  eventPolicy : Nat := 0
  /-- Error Not Committed of each HDM decoder (R334). -/
  errNotCommitted : BitVec 32 := 0
  bwShare : Nat := 0
  bwLimit : Nat := 0
  deriving DecidableEq, Repr

/-- Window states (Table 13.8). -/
inductive WdwSt where
  | empty | granted | open_ | cut
  deriving DecidableEq, Repr

/-- A grant and its window (Table 13.8). -/
structure Wdw where
  extent : Nat := 0
  mode : Nat := 0
  st : WdwSt := .empty
  balloon : Bool := false
  region : Nat := 0
  dpaBase : Nat := 0
  size : Nat := 0
  hpaBase : Nat := 0
  decoder : Nat := 0
  /-- The first access refused after a cut has been recorded (R335). -/
  refusedSeen : Bool := false
  /-- The anchor has ordered a cut that has not reached the port (R339). -/
  ordered : Bool := false
  /-- Cut in progress: the directory scans have not ended. -/
  cutting : Bool := false
  /-- The cut takes this grant alone (REVOKE_GRANT), or the extent is being released. -/
  revoked : Bool := false
  /-- The host has not accepted the grant's capacity yet (R337). -/
  offered : Bool := false
  /-- A commit that waits for the withdrawal of the other participants' rights (R115): decoder and HPA base. -/
  opening : Option (Nat × Nat) := none
  /-- The grant's tether is an attachment on a kite version (R333). -/
  attach : Bool := false
  deriving DecidableEq, Repr

/-- A dynamic-capacity exchange in progress (R337, R338): logical devices still to answer. -/
structure DcOp where
  extent : Nat
  add : Bool
  /-- The grant that is added or released whole; none for a balloon's growth or shrink. -/
  grant : Option (Nat × Nat) := none
  blocks : List Nat := []
  /-- The added blocks have been filled and the events sent. -/
  sent : Bool := false
  /-- Logical devices still to answer, each with its deadline. -/
  wait : List (Nat × Nat) := []
  /-- A release that was not answered in time has been reported (R338). -/
  reported : Bool := false
  deriving DecidableEq, Repr

/-- A DMA read of a queue block that awaits its data (R340): its number, logical device, queue, PASID and address; its
data are discarded once the drain bound of an ATS invalidation has passed (R82). -/
structure DmaRead where
  id : Nat
  ld : Nat
  queue : Nat
  pasid : Nat
  addr : Nat
  discard : Bool := false
  deriving DecidableEq, Repr

/-- CXL ports, logical devices and windows. -/
structure CxlState where
  ports : Tbl CxlPort := []
  lds : Tbl LogDev := []
  /-- Windows: key logical device × 32 + grant. -/
  wins : Tbl Wdw := []
  /-- Event logs: key logical device × 4 + log; records as (handle, type, values). -/
  events : Tbl (List (Nat × Nat × List Nat)) := []
  nextHandle : Tbl Nat := []
  qosHigh : Nat := 0
  qosLow : Nat := 0
  dcOps : List DcOp := []
  /-- Queue-block DMA reads outstanding. -/
  dmaReads : List DmaRead := []
  nextDma : Nat := 0
  deriving DecidableEq, Repr

/-! ### Security and tenancy (chapter 15). -/

/-- Tenant states (Table 15.4). -/
inductive TenSt where
  | free | active | rekeying | revoking | scrubbing
  deriving DecidableEq, Repr

/-- Key-slot states (Table 15.5). -/
inductive SlotSt where
  | empty | active | revoking
  deriving DecidableEq, Repr

/-- One tenant (Table 15.10). -/
structure Tenant where
  st : TenSt := .free
  epoch : Nat := 0
  slotEven : SlotSt := .empty
  slotOdd : SlotSt := .empty
  /-- Keys that the slots hold, by the number of the draw that made each: the data key of slot 2t, that of slot 2t + 1, and the
  tag key, which a rekey moves along (R390, R394). A zeroised key is none. -/
  dataEven : Option Nat := none
  dataOdd : Option Nat := none
  tagKey : Option Nat := none
  contentKey : Bool := false
  memoryOnly : Bool := false
  stateTime : Nat := 0
  /-- Start of the removal. -/
  removedAt : Nat := 0
  /-- Blocks fenced under R396, whose counters of this tenant read zero: kind and instance. -/
  zeroed : List (Nat × Nat) := []
  /-- The drain alert of this removal has been given (R396). -/
  alerted : Bool := false
  /-- Number of the next beat, and pool time, at the last rekey: work before them belongs to the old epoch (R392). -/
  rekeyBeat : Nat := 0
  rekeyTime : Nat := 0
  deriving DecidableEq, Repr

/-- A sealed region's keys and load (R379 to R384). -/
structure Sealed where
  /-- SHA-384 of the owner public key bound to the region. -/
  ownerKey : BitVec 384 := 0
  /-- Number of the live release key, its NONCE and when it was signed for. -/
  releaseKey : Option Nat := none
  nonce : List Byte := []
  signedAt : Nat := 0
  /-- Admitted images and accepted release packages. -/
  admitted : List (BitVec 384) := []
  fwAccepted : List (BitVec 384) := []
  /-- Content key while it is held, and PACKAGE_NONCE. -/
  contentKey : Option (List Byte) := none
  packageNonce : List Byte := []
  /-- Pages of the load, and whether one has failed (R383). -/
  pages : Nat := 0
  loadFailed : Bool := false
  deriving DecidableEq, Repr

/-- A management session. -/
structure Session where
  /-- Its role once the handshake is complete. -/
  role : Option Role
  /-- SHA-384 of the client's certificate. -/
  digest : BitVec 384 := 0
  start : Nat
  last : Nat
  port : Nat
  deriving DecidableEq, Repr

/-- Security state, and the contents of boot flash that the two devices hold alike (Table 17.7). -/
structure SecState where
  releaseLevel : Nat := 0
  bootSlot : Nat := 0
  identityFault : Bool := false
  keysZeroised : Bool := false
  /-- SHA-384 of the active release package. -/
  fwDigest : BitVec 384 := 0
  /-- The release package whose attestation key is in use, and that key's certificate (R378). -/
  ak : Option (BitVec 384) := none
  akCert : List Byte := []
  sessions : Tbl (Option Session) := []
  nextSession : Nat := 1
  tenants : Tbl Tenant := []
  sealeds : Tbl Sealed := []
  /-- Release-key numbers handed out. -/
  nextKey : Nat := 1
  /-- The system key, by the number of its draw; a cold reset clears it and the start that follows makes a new one (R385). -/
  systemKey : Option Nat := some 0
  /-- Boot flash: release slots A and B as (level, package digest), boot selector, board configuration record. -/
  slots : Tbl (Option (Nat × BitVec 384)) := []
  selector : Nat := 0
  flashBcr : List Byte := []
  /-- The board configuration record in force (Table 17.8). -/
  bcr : List Byte := []
  bcrDigest : BitVec 384 := 0
  minRelease : Nat := 0
  endpointBase : Nat := 0x0100
  side : Bool := false
  pairCapable : Bool := false
  partnerSerial : List Byte := []
  /-- A rollback authorisation: exact release level and its expiry (R403). -/
  rollback : Option (Nat × Nat) := none
  deriving DecidableEq, Repr

/-! ### Register map (chapter 19). -/

/-- Access-error registers and privileges. -/
structure MapState where
  priv : BitVec 64 := 0
  badWrite : Tbl Bool := []
  badRead : Tbl Bool := []
  lastOffset : Tbl Nat := []
  /-- MSI-X tables and CXL component registers of the logical devices, by 64-bit word (Table 19.2): key logical device ×
  8192 + word. -/
  msix : Tbl Nat := []
  comp : Tbl Nat := []
  /-- Words written to the memory-device region of BAR4 (Table 19.7): key logical device × 512 + word. -/
  mbox : Tbl Nat := []
  deriving DecidableEq, Repr


/-! ### The order stream (R426, R434). -/

/-- What an order record tells the standby. -/
inductive OrderRec where
  | empty
  /-- A ROF input, by flow and SEQ. -/
  | input (src vc seq : Nat)
  /-- An in-pool beat accepted at a home: the participant its core or queue block acts as, and the line. -/
  | beat (unit l : Nat)
  | desc (queue : Nat) (bytes : List Byte)
  | cxlRead (d tag hpa m : Nat)
  | cxlWrite (d tag hpa mask : Nat) (data : List Byte) (poison : Bool)
  | cxlInv (d tag hpa : Nat)
  | dmaRead (queue : Nat) (data : List Byte)
  /-- A job is admitted to cores, with the serial number that the active gave it (R217). -/
  | admitJob (job serial : Nat) (cores : List Nat)
  | commit (job n : Nat)
  | entropy (w : BitVec 64)
  | seed (w : BitVec 64)
  /-- The value of a line below the mark that the active has written (R432). -/
  | line (l : Nat) (data : List Byte)
  /-- A line that the active found uncorrectable while it copied (R432). -/
  | poison (l : Nat)
  /-- The place of the snapshot in the stream (R434). -/
  | snapshot
  /-- The active's block map, sent before the first granule (R432). -/
  | blockMap (m : Tbl BlockEnt)
  /-- The partner is to enter SUSPECT (R430). -/
  | suspect
  deriving DecidableEq, Repr

/-- ResilverState (R434): directory, queue and paused-record, window, object, tether, key-slot, epoch, transport and
scheduler state, and SEED. -/
structure Snapshot where
  pool : PoolState := {}
  roots : Tbl Roots := []
  dir : DirState := {}
  que : QueState := {}
  nm : NmState := {}
  objs : Tbl SyncObj := []
  serials : Tbl Nat := []
  cxl : CxlState := {}
  tenants : Tbl Tenant := []
  sealeds : Tbl Sealed := []
  e2e : E2eState := {}
  sch : SchState := {}
  srFixed : Bool := false
  srSeed : BitVec 64 := 0
  deriving DecidableEq, Repr

/-! ### Outputs. -/

/-- Kinds of fabric-manager alert. -/
inductive Alert where
  | tetherLapse | heldExtent | unresponsive | badEntry | stack | coreFence | quadrantFence | drain | emergency
  | poolFull | pairMismatch | stale | other
  deriving DecidableEq, Repr

/-- What the block sends. -/
inductive Out where
  /-- Completion of a fabric-manager or management command: status and returned values. -/
  | fm (status : Status) (vals : List Nat)
  | alert (kind : Alert) (vals : List Nat)
  | alertCleared (kind : Alert) (vals : List Nat)
  /-- A frame started on a port. -/
  | frame (port : Nat) (p : Packet) (wire : List (Option Nat × BitVec 272))
  /-- A control word of Table 11.1. -/
  | control (port ctype : Nat) (vals : List Nat) (wire : List (Option Nat × BitVec 272))
  /-- The 1 µs probe on L0. -/
  | probe (port : Nat)
  /-- Completion of a CXL.mem request: tag, poison, granted Meta0-State code, data. -/
  | cxl (ld tag : Nat) (poison : Bool) (grant : Nat) (data : List Byte)
  /-- BISnpInv or BISnpData to a host. -/
  | snoop (ld : Nat) (share : Bool) (hpa : Nat)
  | biConflictAck (ld tag : Nat)
  /-- DMA write to host memory. -/
  | dmaWrite (ld pasid addr : Nat) (data : List Byte)
  | dmaRead (ld pasid addr len : Nat)
  | atsRequest (ld pasid page : Nat)
  | atsInvalComplete (ld itag : Nat)
  | msix (ld vector : Nat)
  /-- A CXL FM API response: return code and payload values. -/
  | fmApi (code : Nat) (vals : List Nat)
  /-- A mailbox response: return code and payload values. -/
  | mailbox (ld code : Nat) (vals : List Nat)
  /-- The non-memory state that an active sends to end a re-silvering (R434). -/
  | snapshot (x : Snapshot)
  /-- A dynamic-capacity or general event notice to a host. -/
  | hostEvent (ld typ : Nat) (vals : List Nat)
  | tap (bits : List Nat)
  /-- A pin driven: number of Table 20 group and value. -/
  | pin (name : Nat) (level : Bool)
  /-- Register read data returned. -/
  | data (bytes : List Byte)
  deriving DecidableEq, Repr

/-! ### The redundant pair (chapter 16). -/

/-- Pair states (Table 16.11). -/
inductive PairSt where
  | solo | waiting | active | standbySync | standby | suspect | passive
  deriving DecidableEq, Repr

/-- The partner's interlock pattern (Table 16.11). -/
inductive Pattern where
  | absent | hz256 | hz1024 | hz4096
  deriving DecidableEq, Repr

/-- A unit of output awaiting its digest (R428, R429): quadrant, unit number, the bytes' CRC-64, verified or not. -/
structure DigestUnit where
  q : Nat
  unit : Nat
  crc : Nat
  time : Nat
  deriving DecidableEq, Repr

/-- The pair (Tables 16.11, 16.12). -/
structure PairState where
  enable : Bool := false
  groups : Tbl Nat := []
  st : PairSt := .solo
  partner : Pattern := .absent
  ownOk : Bool := false
  intlkFault : Bool := false
  memoryCurrent : Bool := false
  digestLagNs : Nat := 0
  stateTime : Nat := 0
  /-- RESILVER_MARK (always-on domain): next granule not both written and acknowledged, or next to send. -/
  mark : Nat := 0
  /-- Pieces of granules that have arrived and await the rest of their granule: granule, piece (R432). -/
  chunks : List (Nat × Nat) := []
  /-- Output gate (R424): open only in ACTIVE after the hold. Devices outside a pair are never gated. -/
  gateOpen : Bool := false
  /-- ACTIVE has been driven since this time (gate hold). -/
  driveActive : Nat := 0
  /-- Time the partner was last seen ACTIVE (hold-offs of Table 16.5). -/
  partnerActiveAt : Nat := 0
  /-- PAIR_LEAD has been issued for this WAITING. -/
  lead : Bool := false
  /-- Order records sent, highest acknowledged, highest applied, time of the last record sent and received. -/
  sent : Nat := 0
  acked : Nat := 0
  applied : Nat := 0
  lastSent : Nat := 0
  lastRecv : Nat := 0
  /-- Inputs the standby holds and no record names yet (R426), with the port each came by. -/
  inputs : List (Nat × Packet) := []
  /-- Inputs the active has named in records that are not acknowledged yet: record, packet (R427). -/
  kept : List (Nat × Packet) := []
  /-- An input requested by InputFetch and awaited (R427): SRC, VC, SEQ. -/
  stalledOn : Option (Nat × Nat × Nat) := none
  /-- In-pool beats of a standby that no record names yet: line, input port, request (R426). -/
  beats : List (Nat × Nat × LineReq) := []
  /-- Commits that the active has completed and this standby has not: job, commit. -/
  commitsDue : List (Nat × Nat) := []
  /-- The snapshot, while records before it have not been applied. -/
  snapIn : Option Snapshot := none
  /-- Order records received and not applied: number, pool time of the decision, decision. -/
  recs : List (Nat × Nat × OrderRec) := []
  /-- Values of the active's entropy that records have brought (R426). -/
  entropy : List (BitVec 64) := []
  /-- What follows this active's order stream: 0 none, 1 a device in STANDBY_SYNC, 2 one in STANDBY, 3 one in SUSPECT. -/
  follower : Nat := 0
  /-- Outputs that wait for an OrderAck (R427): the last record each depends on, and the output; oldest first. -/
  held : List (Nat × Out) := []
  /-- The open output unit of each quadrant: bytes in it and their CRC-64 (R428); number of the open unit. -/
  streams : Tbl (Nat × Nat) := []
  nextUnit : Tbl Nat := []
  /-- Own units that await the partner's digest, digests of the partner that await the own unit, units that failed. -/
  units : List DigestUnit := []
  early : List DigestUnit := []
  failed : List (Nat × Nat) := []
  /-- Units that hold effects of descriptors: queue, slot, quadrant, unit (R429). -/
  effects : List (Nat × Nat × Nat × Nat) := []
  /-- A re-silvering copy is in progress on the active (R432), and granules sent and not acknowledged. -/
  copying : Bool := false
  inTransit : List Nat := []
  /-- Dirty record (R448): granules below the mark with unacknowledged writes. -/
  dirty : List Nat := []
  /-- Line values sent in records that are not acknowledged: record, granule. -/
  pendingLines : List (Nat × Nat) := []
  /-- Record after which the snapshot counts as acknowledged; admission is paused until then (R434). -/
  snapshotAt : Option Nat := none
  /-- The copy has ended and jobs are being pre-empted for the snapshot (R434). -/
  snapshotDue : Bool := false
  deriving DecidableEq, Repr

end Sys2Proof.Machine
end

