-- ==== Sys2Proof/Config.lean ====
section
/-! DEFINITION. What an implementation fixes and the values the spec leaves open. Every `opaque` constant here is a
free value: nothing can evaluate it, so a claim holds whatever it is. -/

namespace Sys2Proof.Config

/-- A fresh open value, applied to the state's counter `free` (R305, R217, R73, R187, R170, R232 and the like). -/
opaque freeWord : Nat → BitVec 64
/-- A fresh open byte, applied to the counter and a position. -/
opaque freeByte : Nat → Nat → BitVec 8
/-- Whether a line beyond its code's guarantee is found uncorrectable (R356), applied to the counter. -/
opaque freeBool : Nat → Bool
/-- Choices of an order that the spec leaves to the device (R172, R228), applied to the counter and a position. -/
opaque pick : Nat → Nat → Nat
/-- The order in which the devices of a pair combine, at a place in their common work that the numbers name (R225). -/
opaque pairPick : List Nat → Nat → Nat
/-- The hash of a line address that chooses its directory set (R90). -/
opaque dirHash : Nat → Nat
/-- The 32-byte words that a transfer with so many data bytes takes on a strait (Table 18.2 counts them; the manual gives
no layout of a strait transfer). -/
opaque straitWords : Nat → Nat
/-- The width kept by the matrix engines beyond the 40 bits that R221 guarantees. -/
opaque mmaExtra : Nat
/-- The FP32 value that the device gives for an elementary function, applied to the function code and the operand's bits; it
acts where it lies within the bound of Table 8.4 (R229). -/
opaque vfuncValue : Nat → BitVec 32 → BitVec 32
/-- The 12-bit check of a block over its data bits and KIND (R274); the manual gives no polynomial. -/
opaque blockCheck : BitVec 256 → Nat → BitVec 12
/-- The number that a port's next link word has in its transmit stream, IDLE words counted, applied to the outputs so far
(R275). -/
opaque linkWord : Nat → Nat → Nat
/-- AES-256-GCM without additional data: ciphertext and tag, from key, IV and plaintext (R389). -/
opaque gcmSeal : List (BitVec 8) → List (BitVec 8) → List (BitVec 8) → List (BitVec 8) × List (BitVec 8)
/-- Whether an ECDSA P-384 signature verifies: key digest, message digest, signature (R379, R382, R404). -/
opaque ecdsaOk : BitVec 384 → BitVec 384 → List (BitVec 8) → Bool
/-- The attestation key derived from the identity seed and the digest of a release package (R378): its public part, its
certificate signed by the DIK, in DER, and its ECDSA signature over a digest. -/
opaque akPublic : BitVec 384 → List (BitVec 8)
opaque akCertificate : List (BitVec 8) → List (BitVec 8)
opaque akSign : BitVec 384 → BitVec 384 → List (BitVec 8)
/-- The certificates of the DIK and of the intermediate authorities, in DER (R377, R379). -/
opaque dikCertificate : List (BitVec 8)
opaque intermediates : List (BitVec 8)
/-- Whether a release blob decrypts under a live release key, and to what bytes (R382). -/
opaque unwrap : Nat → List (BitVec 8) → Option (List (BitVec 8))
/-- The public part of a fresh key of the device, applied to the counter (R380, R388). -/
opaque publicKey : Nat → List (BitVec 8)
/-- An ephemeral key of the device for a link: the public part of the key that a draw numbers (R388). -/
opaque linkPublic : Nat → List (BitVec 8)
/-- What a partner's certificate chain in DER proves: the digest of the anchor it ends at and of its leaf's key; none where
a signature of the chain fails (R388). -/
opaque chainEnd : List (BitVec 8) → Option (List (BitVec 8) × BitVec 384)
/-- The ECDH secret of the device's ephemeral key and a partner's public key (R389). -/
opaque ecdh : Nat → List (BitVec 8) → List (BitVec 8)
/-- HKDF-SHA-384: input keying material, salt, info, length (R389). -/
opaque hkdf : List (BitVec 8) → List (BitVec 8) → List (BitVec 8) → Nat → List (BitVec 8)
/-- A 16-bit draw of a stochastic-rounding generator: path (0 ACCRD, 1 VCVT), the four seed terms of R217 (SEED, serial,
rank, commit number) and the number of the draw. -/
opaque srDraw : Nat → BitVec 64 → Nat → Nat → Nat → Nat → BitVec 16
/-- The GMAC tag of a page of a sealed region: number of the tag key, extent, page number, the page's bytes (R386). -/
opaque gmac : Nat → Nat → Nat → List (BitVec 8) → BitVec 128

/-- Whether a chain ends at a key that the silicon's root certifies: the signer's key digest (R376, R403). -/
opaque rootOk : BitVec 384 → Bool
/-- The device's identity key: its public part (R377). -/
opaque dikPublic : List (BitVec 8)
/-- A page of a weight package decrypted under a content key: PACKAGE_NONCE, page number, ciphertext, tag; none when the tag
fails (R383). -/
opaque openPage : List (BitVec 8) → List (BitVec 8) → Nat → List (BitVec 8) → List (BitVec 8) → Option (List (BitVec 8))
/-- Payload of an Order packet: number of the record, pool time of the decision, decision; the manual gives no layout. -/
opaque orderBytes : Nat → Nat → Machine.OrderRec → List (BitVec 8)
/-- A signal on an observation land: group, quadrant, index (R474); the list of signals is a file of its own. -/
opaque obsSignal : Nat → Nat → Nat → Bool
/-- What a scan of a quadrant's flip-flops shows (R473), and the boundary cells. -/
opaque scanBits : Nat → List (BitVec 8)
opaque boundaryBits : List (BitVec 8)

/-- What a read of a register whose layout the CXL or PCIe specification gives shows (R476, R489): the model's counter, the
word's offset and the value last written there. -/
opaque cxlView : Nat → Nat → Nat → BitVec 64

end Sys2Proof.Config
end

