-- ==== Sys2Proof/Machine/Tbl.lean ====
section
/-! DEFINITION. Tables: sparse data by key in one canonical form (keys strictly rising, no entry equal to the
default). Every array of registers, every directory and the pool memory are held in this form. -/

namespace Sys2Proof.Machine

/-- The value at key `k`; an unlisted key reads as the default `d`. -/
def tget {α : Type} (d : α) : Tbl α → Nat → α
  | [], _ => d
  | (a, v) :: r, k => if k = a then v else tget d r k

/-- Removes every entry at key `k`. -/
def terase {α : Type} (t : Tbl α) (k : Nat) : Tbl α :=
  t.filter (fun c => c.1 != k)

/-- Inserts or replaces the entry at key `k`, keeping the keys rising. -/
def tinsert {α : Type} (k : Nat) (v : α) : Tbl α → Tbl α
  | [] => [(k, v)]
  | (a, w) :: r =>
    if k < a then (k, v) :: (a, w) :: r
    else if k = a then (k, v) :: r
    else (a, w) :: tinsert k v r

/-- Writes `v` at key `k`: writing the default removes the entry. -/
def tput {α : Type} [DecidableEq α] (d : α) (t : Tbl α) (k : Nat) (v : α) : Tbl α :=
  if v = d then terase t k else tinsert k v t

/-- Applies `f` to the value at key `k`. -/
def tmod {α : Type} [DecidableEq α] (d : α) (t : Tbl α) (k : Nat) (f : α → α) : Tbl α :=
  tput d t k (f (tget d t k))

/-- Applies `f` to every listed entry and drops the entries that become the default. -/
def tmapAll {α : Type} [DecidableEq α] (d : α) (f : Nat → α → α) (t : Tbl α) : Tbl α :=
  (t.map (fun c => (c.1, f c.1 c.2))).filter (fun c => c.2 ≠ d)

/-- Removes every entry whose key lies in `lo ≤ k < hi`. -/
def tclear {α : Type} (t : Tbl α) (lo hi : Nat) : Tbl α :=
  t.filter (fun c => !(decide (lo ≤ c.1) && decide (c.1 < hi)))

/-- Keys strictly rising from `lo` on, and no entry at the default. -/
def twfFrom {α : Type} [DecidableEq α] (d : α) : Nat → Tbl α → Bool
  | _, [] => true
  | lo, (a, v) :: r => decide (lo ≤ a) && decide (v ≠ d) && twfFrom d (a + 1) r

/-- The canonical form of a table. -/
def twf {α : Type} [DecidableEq α] (d : α) (t : Tbl α) : Bool := twfFrom d 0 t

/-- The listed values whose key and value meet `p`. -/
def tcount {α : Type} (p : Nat → α → Bool) (t : Tbl α) : Nat :=
  (t.filter (fun c => p c.1 c.2)).length

/-- The lowest key below `n` that meets `p`, searched from `k` upwards. -/
def lowestFrom (p : Nat → Bool) : Nat → Nat → Option Nat
  | 0, _ => none
  | n + 1, k => if p k then some k else lowestFrom p n (k + 1)

/-- The lowest number below `n` that meets `p`. -/
def lowest (n : Nat) (p : Nat → Bool) : Option Nat := lowestFrom p n 0

/-- Replaces the `i`th element. -/
def lset {α : Type} : List α → Nat → α → List α
  | [], _, _ => []
  | _ :: r, 0, v => v :: r
  | x :: r, i + 1, v => x :: lset r i v

/-- A saturating increase of a count with limit `m` (R457, R456). -/
def satAdd (m a n : Nat) : Nat := min m (a + n)

/-- The largest value of a `w`-bit field. -/
def ones (w : Nat) : Nat := 2 ^ w - 1

/-- Bits `[lo + w - 1 : lo]` of a number. -/
def field (x lo w : Nat) : Nat := (x / 2 ^ lo) % 2 ^ w

/-- Bit `i` of a number. -/
def bitOf (x i : Nat) : Bool := field x i 1 == 1

/-- One bit as a number. -/
def b2n (b : Bool) : Nat := if b then 1 else 0

/-- The `n` little-endian bytes of a number (R6). -/
def leBytes : Nat → Nat → List Byte
  | 0, _ => []
  | n + 1, x => BitVec.ofNat 8 x :: leBytes n (x / 256)

/-- The number that little-endian bytes spell (R6). -/
def leNat : List Byte → Nat
  | [] => 0
  | b :: r => b.toNat + 256 * leNat r

/-- The `i`th byte of a list, 0 beyond its end. -/
def byteAt (l : List Byte) (i : Nat) : Byte := l.getD i 0

/-- `n` bytes of a list from offset `o` (zeros beyond its end). -/
def slice (l : List Byte) (o n : Nat) : List Byte := (List.range n).map (fun i => byteAt l (o + i))

/-- `n` little-endian bytes of a list from offset `o`, as a number. -/
def leAt (l : List Byte) (o n : Nat) : Nat := leNat (slice l o n)

/-- Every byte is zero. -/
def allZero (l : List Byte) : Bool := l.all (· == 0)

/-- The bit length of a number (0 for 0). -/
def bitLen (x : Nat) : Nat := if x = 0 then 0 else Nat.log2 x + 1

/-- Rounds up to a multiple of `m`. -/
def ceilDiv (a m : Nat) : Nat := (a + m - 1) / m

/-- Clamps a control value into its acting range. -/
def clampN (lo hi x : Nat) : Nat := max lo (min hi x)

end Sys2Proof.Machine
end

