-- ==== Sys2Proof/Machine/Arith.lean ====
section
/-! DEFINITION. Number formats and arithmetic (chapter 8): every value is an exact dyadic number, rounded once where
the spec rounds. -/

namespace Sys2Proof.Machine

/-- A value: NaN, an infinity, or (−1)^neg × m × 2^e exactly (zero keeps its sign, R210, R219). -/
inductive Fp where
  | nan
  | inf (neg : Bool)
  | fin (neg : Bool) (m : Nat) (e : Int)
  deriving DecidableEq, Repr

/-- Layout of a floating-point format (Table 8.1): exponent bits, mantissa bits, bias, and its special encodings
(Table 8.2). -/
structure FmtSpec where
  eb : Nat
  mb : Nat
  bias : Int
  /-- 0 no special encodings; 1 only the all-ones code is NaN (E4M3); 2 infinities and NaNs (IEEE) -/
  special : Nat
  /-- Finite overflow in nearest and stochastic rounding saturates (Table 8.3) rather than giving an infinity. -/
  satNear : Bool
  deriving DecidableEq, Repr

def fE2M1 : FmtSpec := { eb := 2, mb := 1, bias := 1, special := 0, satNear := true }
def fE3M2 : FmtSpec := { eb := 3, mb := 2, bias := 3, special := 0, satNear := true }
def fE2M3 : FmtSpec := { eb := 2, mb := 3, bias := 1, special := 0, satNear := true }
def fE4M3 : FmtSpec := { eb := 4, mb := 3, bias := 7, special := 1, satNear := true }
def fE5M2 : FmtSpec := { eb := 5, mb := 2, bias := 15, special := 2, satNear := true }
def fBf16 : FmtSpec := { eb := 8, mb := 7, bias := 127, special := 2, satNear := false }
def fFp32 : FmtSpec := { eb := 8, mb := 23, bias := 127, special := 2, satNear := false }

/-- Sign bit position. -/
def FmtSpec.w (f : FmtSpec) : Nat := f.eb + f.mb

/-- Largest finite magnitude code. -/
def maxCode (f : FmtSpec) : Nat :=
  match f.special with
  | 0 => 2 ^ f.w - 1
  | 1 => 2 ^ f.w - 2
  | _ => 2 ^ f.w - 2 ^ f.mb - 1

/-- Code of infinity (IEEE formats). -/
def infCode (f : FmtSpec) : Nat := 2 ^ f.w - 2 ^ f.mb

/-- Canonical NaN (Table 8.2). -/
def nanCode (f : FmtSpec) : Nat :=
  match f.special with
  | 1 => 2 ^ f.w - 1
  | _ => infCode f + 2 ^ (f.mb - 1)

/-- The value of an encoding (R209, R210). -/
def fpDecode (f : FmtSpec) (x : Nat) : Fp :=
  let neg := bitOf x f.w
  let c := x % 2 ^ f.w
  let ex := c / 2 ^ f.mb
  let m := c % 2 ^ f.mb
  if maxCode f < c then (if f.special = 2 ∧ m = 0 then .inf neg else .nan)
  else if ex = 0 then .fin neg m (1 - f.bias - f.mb)
  else .fin neg (2 ^ f.mb + m) ((ex : Int) - f.bias - f.mb)

/-- Rounding modes of R215: 0 nearest with ties to even, 1 stochastic with a 16-bit draw, 2 toward zero. -/
inductive Round where
  | near
  | stoch (r : Nat)
  | zero
  deriving DecidableEq, Repr

/-- Rounds m / 2^s to an integer (R215, R216). -/
def roundShift (md : Round) (m s : Nat) : Nat :=
  let k := m / 2 ^ s
  let rem := m % 2 ^ s
  match md with
  | .near => if 2 * rem > 2 ^ s ∨ (2 * rem = 2 ^ s ∧ k % 2 = 1) then k + 1 else k
  | .stoch r => if rem * 65536 / 2 ^ s + r ≥ 65536 then k + 1 else k
  | .zero => k

/-- Exponent of the leading bit. -/
def fpExp (m : Nat) (e : Int) : Int := e + (bitLen m : Int) - 1

/-- Integer shift of a magnitude to a quantum 2^q, rounded. -/
def toQuantum (md : Round) (m : Nat) (e q : Int) : Nat :=
  if q ≤ e then m * 2 ^ (e - q).toNat else roundShift md m (q - e).toNat

/-- The encoding of a value, rounded (R215 to R219, Table 8.3). -/
def fpEncode (f : FmtSpec) (md : Round) (x : Fp) : Nat :=
  let sgn (n : Bool) : Nat := b2n n * 2 ^ f.w
  match x with
  | .nan => nanCode f
  | .inf n => if f.special = 2 then sgn n + infCode f else sgn n + maxCode f
  | .fin n m e =>
    if m = 0 then sgn n
    else
      let qmin : Int := 1 - f.bias - f.mb
      let q := max (fpExp m e - f.mb) qmin
      let c := (q - qmin).toNat * 2 ^ f.mb + toQuantum md m e q
      if maxCode f < c then
        if f.satNear || decide (md = .zero) then sgn n + maxCode f else sgn n + infCode f
      else sgn n + c

/-- Signed integer of a finite value at a common exponent q not above its own. -/
def fpInt (n : Bool) (m : Nat) (e q : Int) : Int :=
  let v : Int := (m : Int) * 2 ^ (e - q).toNat
  if n then -v else v

/-- Rebuilds a value from a signed integer; a zero sum is +0. -/
def fpOfInt (v q : Int) : Fp := .fin (decide (v < 0)) v.natAbs q

def fpNeg : Fp → Fp
  | .nan => .nan
  | .inf n => .inf (!n)
  | .fin n m e => .fin (!n) m e

/-- Exact sum. −0 + −0 is −0; an exact cancellation is +0 (nearest rounding). -/
def fpAdd (a b : Fp) : Fp :=
  match a, b with
  | .nan, _ => .nan
  | _, .nan => .nan
  | .inf x, .inf y => if x = y then .inf x else .nan
  | .inf x, _ => .inf x
  | _, .inf y => .inf y
  | .fin na ma ea, .fin nb mb eb =>
    if ma = 0 ∧ mb = 0 then .fin (na && nb) 0 0
    else fpOfInt (fpInt na ma ea (min ea eb) + fpInt nb mb eb (min ea eb)) (min ea eb)

/-- Exact product; an infinity times a zero is NaN. -/
def fpMul (a b : Fp) : Fp :=
  match a, b with
  | .nan, _ => .nan
  | _, .nan => .nan
  | .inf x, .inf y => .inf (x != y)
  | .inf x, .fin n m _ => if m = 0 then .nan else .inf (x != n)
  | .fin n m _, .inf y => if m = 0 then .nan else .inf (n != y)
  | .fin na ma ea, .fin nb mb eb => .fin (na != nb) (ma * mb) (ea + eb)

/-- a < b on values that are not NaN, with −0 below +0 (R227). -/
def fpLt (a b : Fp) : Bool :=
  match a, b with
  | .nan, _ => false
  | _, .nan => false
  | .inf x, .inf y => x && !y
  | .inf x, _ => x
  | _, .inf y => !y
  | .fin na ma ea, .fin nb mb eb =>
    if ma = 0 ∧ mb = 0 then na && !nb
    else decide (fpInt na ma ea (min ea eb) < fpInt nb mb eb (min ea eb))

/-- IEEE 754-2019 minimum and maximum (R227). -/
def fpMin (a b : Fp) : Fp := if a = .nan ∨ b = .nan then .nan else if fpLt b a then b else a
def fpMax (a b : Fp) : Fp := if a = .nan ∨ b = .nan then .nan else if fpLt a b then b else a

/-- FP32 operations rounded to nearest even (R226). -/
def f32 (x : Nat) : Fp := fpDecode fFp32 (x % 2 ^ 32)
def toF32 (x : Fp) : Nat := fpEncode fFp32 .near x
def f32Add (a b : Nat) : Nat := toF32 (fpAdd (f32 a) (f32 b))
def f32Min (a b : Nat) : Nat := toF32 (fpMin (f32 a) (f32 b))
def f32Max (a b : Nat) : Nat := toF32 (fpMax (f32 a) (f32 b))

/-- Two's complement of n bits, to and from integers. -/
def sgnOf (n x : Nat) : Int := if x % 2 ^ n < 2 ^ (n - 1) then (x % 2 ^ n : Nat) else ((x % 2 ^ n : Nat) : Int) - 2 ^ n
def ofSgn (n : Nat) (v : Int) : Nat := (v % 2 ^ n).toNat

/-- A value rounded and clamped to a signed integer of n bits (R215, Table 8.3): NaN gives 0. -/
def fpToInt (n : Nat) (md : Round) (x : Fp) : Nat :=
  let lo : Int := -(2 ^ (n - 1))
  let hi : Int := 2 ^ (n - 1) - 1
  match x with
  | .nan => 0
  | .inf s => ofSgn n (if s then lo else hi)
  | .fin s m e =>
    let k : Int := toQuantum md m e 0
    ofSgn n (max lo (min hi (if s then -k else k)))

/-- An integer as a value. -/
def fpOfSgn (v : Int) : Fp := fpOfInt v 0

/-! Reduction operators (Tables 6.6, 6.8, R173). -/

/-- The contribution format's element bytes: FP32 4, BF16 2, E4M3 and E5M2 1, S32 and U32 4, B64 8. -/
def redSrcBytes (red : Nat) : Nat :=
  match red % 16 with
  | 1 => 4 | 2 => 2 | 3 => 1 | 4 => 1 | 5 => 4 | 6 => 4 | 7 => 8 | _ => 0

/-- Valid combinations of OP and FMT (Table 6.8). -/
def redValid (red : Nat) : Bool :=
  match red / 16 % 16 with
  | 1 => red % 16 == 1 || red % 16 == 2 || red % 16 == 3 || red % 16 == 4
  | 2 => red % 16 == 1 || red % 16 == 2 || red % 16 == 5 || red % 16 == 6
  | 3 => red % 16 == 1 || red % 16 == 2 || red % 16 == 5 || red % 16 == 6
  | 4 => red % 16 == 7
  | 5 => red % 16 == 7
  | 6 => red % 16 == 7
  | _ => false

/-- Destination element bytes (Table 6.8): ADD always FP32. -/
def redDstBytes (red : Nat) : Nat := if red / 16 % 16 = 1 then 4 else redSrcBytes red

/-- Combines one destination element with one contribution element (Table 6.8, R226, R227). -/
def redCombine (red old c : Nat) : Nat :=
  match red / 16 % 16, red % 16 with
  | 1, 1 => f32Add old c
  | 1, 2 => toF32 (fpAdd (f32 old) (fpDecode fBf16 (c % 2 ^ 16)))
  | 1, 3 => toF32 (fpAdd (f32 old) (fpDecode fE4M3 (c % 2 ^ 8)))
  | 1, 4 => toF32 (fpAdd (f32 old) (fpDecode fE5M2 (c % 2 ^ 8)))
  | 2, 1 => f32Min old c
  | 3, 1 => f32Max old c
  | 2, 2 => fpEncode fBf16 .near (fpMin (fpDecode fBf16 old) (fpDecode fBf16 c))
  | 3, 2 => fpEncode fBf16 .near (fpMax (fpDecode fBf16 old) (fpDecode fBf16 c))
  | 2, 5 => if sgnOf 32 c < sgnOf 32 old then c % 2 ^ 32 else old % 2 ^ 32
  | 3, 5 => if sgnOf 32 old < sgnOf 32 c then c % 2 ^ 32 else old % 2 ^ 32
  | 2, 6 => min (old % 2 ^ 32) (c % 2 ^ 32)
  | 3, 6 => max (old % 2 ^ 32) (c % 2 ^ 32)
  | 4, _ => (old % 2 ^ 64) &&& (c % 2 ^ 64)
  | 5, _ => (old % 2 ^ 64) ||| (c % 2 ^ 64)
  | 6, _ => (old % 2 ^ 64) ^^^ (c % 2 ^ 64)
  | _, _ => old

/-- The identity of an operator (R173). -/
def redIdentity (red : Nat) : Nat :=
  match red / 16 % 16, red % 16 with
  | 2, 1 => 0x7F800000
  | 2, 2 => 0x7F80
  | 2, 5 => 0x7FFFFFFF
  | 2, 6 => 0xFFFFFFFF
  | 3, 1 => 0xFF800000
  | 3, 2 => 0xFF80
  | 3, 5 => 0x80000000
  | 4, _ => 2 ^ 64 - 1
  | _, _ => 0

/-- Combines contribution bytes into destination bytes, element by element. -/
def redBytes (red : Nat) : Nat → List Byte → List Byte → List Byte
  | 0, dst, _ => dst
  | n + 1, dst, src =>
    let d := redDstBytes red
    let c := redSrcBytes red
    leBytes d (redCombine red (leNat (dst.take d)) (leNat (src.take c))) ++ redBytes red n (dst.drop d) (src.drop c)

/-! Atomics (Tables 4.7, 4.8, R110, R111). -/

/-- Operand bytes of an atomic's TYPE. -/
def atomBytes (op : Nat) : Nat :=
  match op % 16 with
  | 1 => 4 | 2 => 4 | 3 => 8 | 4 => 8 | 5 => 4 | 6 => 16 | _ => 0

/-- Valid combinations of OP and TYPE (Table 4.8). -/
def atomValid (op : Nat) : Bool :=
  match op / 16 % 16 with
  | 1 => op % 16 == 1 || op % 16 == 3 || op % 16 == 5
  | 2 => decide (1 ≤ op % 16) && decide (op % 16 ≤ 5)
  | 3 => decide (1 ≤ op % 16) && decide (op % 16 ≤ 5)
  | 4 => op % 16 == 1 || op % 16 == 3
  | 5 => op % 16 == 1 || op % 16 == 3
  | 6 => op % 16 == 1 || op % 16 == 3
  | 7 => op % 16 == 1 || op % 16 == 3 || op % 16 == 6
  | 8 => op % 16 == 1 || op % 16 == 3 || op % 16 == 6
  | _ => false

/-- The new value of an atomic (Table 4.8): old, operand a, comparand c, all below 2^(8 × operand bytes). OP 15 is the
device's own release of a barrier word (R250); no request can name it (`atomValid`). -/
def atomNew (op old a c : Nat) : Nat :=
  let w := 8 * atomBytes op
  let ty := op % 16
  match op / 16 % 16 with
  | 1 => if ty = 5 then f32Add old a else (old + a) % 2 ^ w
  | 2 =>
    if ty = 5 then f32Min old a
    else if ty = 2 ∨ ty = 4 then (if sgnOf w a < sgnOf w old then a else old)
    else min old a
  | 3 =>
    if ty = 5 then f32Max old a
    else if ty = 2 ∨ ty = 4 then (if sgnOf w old < sgnOf w a then a else old)
    else max old a
  | 4 => old &&& a
  | 5 => old ||| a
  | 6 => old ^^^ a
  | 7 => a
  | 8 => if old = c then a else old
  | 15 => old / 2 ^ 33 * 2 ^ 33 + (if bitOf old 32 then 0 else 2 ^ 32)
  | _ => old

end Sys2Proof.Machine
end

