-- ==== Sys2Proof/Machine/Operands.lean ====
section
/-! DEFINITION. Operand forms: packets and their fields (Tables 11.4, 11.5), the CRC-32C of R314, doorbell words
(Table 5.2). -/

namespace Sys2Proof.Machine

/-- One bit step of the reflected CRC-32C (R314). -/
def crcBit (c : BitVec 32) : BitVec 32 := if c.getLsbD 0 then (c >>> 1) ^^^ 0x82F63B78#32 else c >>> 1

/-- One byte step. -/
def crcByte (c : BitVec 32) (b : Byte) : BitVec 32 :=
  crcBit (crcBit (crcBit (crcBit (crcBit (crcBit (crcBit (crcBit (c ^^^ b.setWidth 32))))))))

/-- CRC-32C over bytes: initial value and final XOR all ones (R314). -/
def crc32c (l : List Byte) : BitVec 32 := (l.foldl crcByte 0xFFFFFFFF#32) ^^^ 0xFFFFFFFF#32

/-- Header bytes 0 to 27 (Table 11.4). -/
def headerBytes (p : Packet) : List Byte :=
  leBytes 2 p.dst.toNat ++ leBytes 2 p.src.toNat ++ [p.typ,
    BitVec.ofNat 8 (p.vc.toNat + 8 * b2n p.last + 16 * b2n p.mcast + 32 * b2n p.pin + 64 * p.rsvd5.toNat)] ++
  leBytes 2 (p.length.toNat + 8192 * p.rsvd6.toNat) ++ leBytes 3 p.seq.toNat ++ [p.keyEpoch] ++
  leBytes 2 (p.tenant.toNat + 1024 * p.rsvd12.toNat) ++ leBytes 2 p.birth.toNat ++ leBytes 2 p.pktCount.toNat ++
  leBytes 2 p.arg1.toNat ++ leBytes 8 p.arg0.toNat

/-- The CRC a packet must carry: header bytes 0 to 27, four zero bytes, the payload (R314). -/
def packetCrc (p : Packet) : BitVec 32 := crc32c (headerBytes p ++ [0, 0, 0, 0] ++ p.payload)

/-- The end-to-end check (R313 step 2). -/
def crcOk (p : Packet) : Bool := decide (p.crc = packetCrc p)

/-- 32-byte link words of the packet's frame: header 32, trailer 24, payload (R276). -/
def frameWords (p : Packet) : Nat := ceilDiv (56 + p.payload.length) 32

/-- Packet types (Table 11.5). -/
abbrev tRdOnce : Nat := 0x01
abbrev tRdShared : Nat := 0x02
abbrev tRdOwn : Nat := 0x03
abbrev tUpgrade : Nat := 0x04
abbrev tAtomic : Nat := 0x05
abbrev tData : Nat := 0x10
abbrev tDataS : Nat := 0x11
abbrev tDataO : Nat := 0x12
abbrev tCmp : Nat := 0x13
abbrev tAtomicResult : Nat := 0x14
abbrev tRecallInv : Nat := 0x20
abbrev tRecallShare : Nat := 0x21
abbrev tRecallMiss : Nat := 0x28
abbrev tRecallAck : Nat := 0x29
abbrev tRecallData : Nat := 0x2A
abbrev tWrBack : Nat := 0x2B
abbrev tWrLine : Nat := 0x30
abbrev tWrPart : Nat := 0x31
abbrev tReduceWr : Nat := 0x38
abbrev tReduceWrW : Nat := 0x39
abbrev tDoorbell : Nat := 0x40
abbrev tTetherBeat : Nat := 0x41
abbrev tNotify : Nat := 0x42
abbrev tResetNotice : Nat := 0x43
abbrev tAck : Nat := 0x44
abbrev tResendReq : Nat := 0x45
abbrev tTime : Nat := 0x48

/-- The channel of a packet type (Table 11.3); none for a reserved type. -/
def channelOf (t : Nat) : Option Nat :=
  if 0x01 ≤ t ∧ t ≤ 0x05 then some 0
  else if 0x10 ≤ t ∧ t ≤ 0x14 then some 1
  else if 0x20 ≤ t ∧ t ≤ 0x21 then some 2
  else if 0x28 ≤ t ∧ t ≤ 0x2B then some 3
  else if 0x30 ≤ t ∧ t ≤ 0x31 then some 4
  else if 0x38 ≤ t ∧ t ≤ 0x39 then some 5
  else if 0x40 ≤ t ∧ t ≤ 0x45 then some 6
  else if t = 0x48 then some 7
  else if t = 0x50 ∨ (0x54 ≤ t ∧ t ≤ 0x57) then some 4
  else if 0x51 ≤ t ∧ t ≤ 0x53 then some 6
  else none

/-- The packet types of the redundant pair (Table 16.3). -/
def isPairType (t : Nat) : Bool := decide (0x50 ≤ t) && decide (t ≤ 0x5F)

/-- LENGTH allowed for a type (Table 11.5). -/
def lengthOk (t n : Nat) : Bool :=
  if t = tRdOnce ∨ t = tRdShared ∨ t = tRdOwn ∨ t = tUpgrade ∨ t = tCmp ∨ t = tRecallInv ∨ t = tRecallShare ∨
     t = tRecallMiss ∨ t = tRecallAck ∨ t = tTetherBeat ∨ t = tNotify ∨ t = tResetNotice then n == 0
  else if t = tAtomic then n == 40
  else if t = tAtomicResult then n == 24
  else if t = tRecallData ∨ t = tWrBack then n == 64
  else if t = tWrLine then decide (64 ≤ n) && decide (n ≤ 4096) && n % 64 == 0
  else if t = tWrPart then n == 72
  else if t = tReduceWr then decide (4 ≤ n) && decide (n ≤ 4096)
  else if t = tReduceWrW then decide (1 ≤ n) && decide (n ≤ 4096)
  else if t = tDoorbell then n == 8
  else if t = tAck ∨ t = tResendReq then n == 128
  else if t = tTime then n == 24
  else decide (n ≤ 4096)

/-- The bits of ARG0 that a type gives a meaning (Table 11.5), as a mask. -/
def arg0Mask (t : Nat) : Nat :=
  if t = tRdOnce then 2 ^ 60 - 1
  else if t = tRdShared ∨ t = tRdOwn ∨ t = tUpgrade then 2 ^ 48 - 1
  else if t = tAtomic ∨ t = tReduceWr then 2 ^ 56 - 1
  else if 0x10 ≤ t ∧ t ≤ 0x14 then 2 ^ 35 - 1
  else if t = tReduceWrW then 2 ^ 54 - 1
  else if t = tDoorbell then 2 ^ 13 - 1
  else if t = tTetherBeat ∨ t = tResetNotice then 0
  else if t = tNotify then (2 ^ 13 - 1) + (2 ^ 32 - 1) * 2 ^ 32
  else if t = tAck ∨ t = tResendReq then 2 ^ 27 - 1
  else if t = tTime ∨ isPairType t then 2 ^ 64 - 1
  else 2 ^ 48 - 1

/-- ARG1 has a meaning of its own when PKT_COUNT is 1 (Table 11.5). -/
def arg1Used (t : Nat) : Bool := t == tReduceWrW || isPairType t

/-- The header checks of R292; `onPair`: the packet arrived on a pair port. -/
def headerOk (p : Packet) (onPair : Bool) : Bool :=
  let t := p.typ.toNat
  match channelOf t with
  | none => false
  | some c =>
    decide (p.vc.toNat = c) && decide (p.rsvd5 = 0) && decide (p.rsvd6 = 0) && decide (p.rsvd12 = 0) &&
    decide (p.arg0.toNat &&& (2 ^ 64 - 1 - arg0Mask t) = 0) &&
    (!(decide (p.pktCount = 1)) || arg1Used t || decide (p.arg1 = 0)) &&
    lengthOk t p.length.toNat && decide (p.length.toNat = p.payload.length) &&
    decide (p.pktCount ≠ 0) && (t != tReduceWrW || decide (p.pktCount = 1)) &&
    (decide (p.pktCount.toNat ≤ 1) || decide (p.arg1.toNat < p.pktCount.toNat)) &&
    (!(isPairType t) || onPair)

/-- First SEQ of the packet's message (R306). -/
def firstSeq (p : Packet) : Nat :=
  if p.pktCount.toNat > 1 then (p.seq.toNat + 2 ^ 24 - p.arg1.toNat) % 2 ^ 24 else p.seq.toNat

/-- PVA of ARG0 [47:0]. -/
def argPva (p : Packet) : Nat := p.arg0.toNat % 2 ^ 48

/-- ARG0 of a response: STATUS, SEQ of the request, its channel (Table 11.5). -/
def respArg (code seq vc : Nat) : BitVec 64 := BitVec.ofNat 64 (code % 256 + seq % 2 ^ 24 * 2 ^ 8 + vc % 8 * 2 ^ 32)

/-- The line pieces of a byte range: (line number offset, first byte in the line, bytes, position in the range). -/
def pieces (a n : Nat) : List (Nat × Nat × Nat × Nat) :=
  (List.range ((a % 64 + n + 63) / 64)).map (fun i =>
    let lo := if i = 0 then a % 64 else 0
    let pos := if i = 0 then 0 else 64 * i - a % 64
    (i, lo, min (64 - lo) (n - pos), pos))

/-- Fields of a doorbell word (Table 5.2). -/
def dbValue (w : BitVec 64) : BitVec 32 := w.setWidth 32
def dbKind (w : BitVec 64) : Nat := field w.toNat 32 2
def dbReserved (w : BitVec 64) : Bool := field w.toNat 34 30 != 0

end Sys2Proof.Machine
end

