-- ==== Sys2Proof/Syntax.lean ====
section
/-! DEFINITION. The commands of the DP4032: one constructor per row of the opcode table, with the row's operands.
Unit numbers are bounded by their type (`Fin`); fields of packets and registers are bit vectors; times and lengths
are natural numbers. Timed commands carry `now`, the pool time (R9) at which the event falls. -/

namespace Sys2Proof

open Machine

/-- The commands, in the order of the opcode table. -/
inductive Instr where
  /-- STRAIT_LOST (R14): A strait fails to complete a retry within 1 µs, is declared lost, and the islands are re-evaluated. -/
  | straitLost (i : Fin 6) (now : Nat)
  /-- STRAIT_RESTORED (R16): A lost strait returns to service and the set of islands is re-evaluated. -/
  | straitRestored (i : Fin 6) (now : Nat)
  /-- ANCHOR_FAILOVER (R419): The spare observes the fence of Q0 on the fence status lines, takes the anchor role and resumes admission within 5 ms. -/
  | anchorFailover (now : Nat)
  /-- FENCE_STATUS_SAMPLE (R413): Every 1 µs each quadrant samples the fence status lines of the other three quadrants. -/
  | fenceStatusSample (now : Nat)
  /-- ALLOCATE_EXTENT (R40): The fabric manager allocates an extent, which takes its blocks and attributes and enters PREPARING. -/
  | allocateExtent (e : Fin 16384) (a : ExtentReq)
  /-- EXTENT_ZERO_FILL_COMPLETE (R41): The PREPARING fill of an extent ends and the extent becomes ACTIVE, or SEALED_EMPTY for a sealed region. -/
  | extentZeroFillComplete (e : Fin 16384)
  /-- EXTENT_WITHDRAWAL_DRAINED (R40): Every withdrawal of a RELEASING extent has drained, and its SCRUBBING fill starts. -/
  | extentWithdrawalDrained (e : Fin 16384)
  /-- EXTENT_SCRUB_COMPLETE (R41): The SCRUBBING fill of an extent ends and its blocks return to FREE. -/
  | extentScrubComplete (e : Fin 16384)
  /-- RELEASE_EXTENT (R40): The fabric manager releases an extent, ordinarily or by forced release, and its mappings are withdrawn. -/
  | releaseExtent (e : Fin 16384) (forced : Bool)
  /-- BALLOON_GROW (R39): A balloon grows by whole blocks at its upper end, each block zero-filled before it becomes visible. -/
  | balloonGrow (e : Fin 16384) (n : Nat)
  /-- BALLOON_SHRINK (R39): A balloon shrinks at its upper end, each removed block following the release rule. -/
  | balloonShrink (e : Fin 16384) (n : Nat)
  /-- RIGHTS_CHANGE (R38): The fabric manager changes an extent's default rights or rights overrides, withdrawing or adding mappings. -/
  | rightsChange (e : Fin 16384) (r : Rights) (ov : List (Part × Rights))
  /-- SET_TETHER_QUOTA (R42): The fabric manager sets a tenant's tether quota. -/
  | setTetherQuota (t : Fin 1024) (n : Nat)
  /-- SET_TETHER_PERIOD (R43): The fabric manager sets a holder's tether period, refused with POLICED if out of range. -/
  | setTetherPeriod (h : Part) (ms : Nat)
  /-- PMM_BEAT (R44): A write to DPC_PMM_BEAT renews every tether held by the writing logical device and records LAST_TAG. -/
  | pmmBeat (d : Fin 64) (tag : BitVec 32)
  /-- TETHER_DEADLINE_TICK (R45): At each 1 ms tick of pool time the device tests every holder's tether deadline. -/
  | tetherDeadlineTick (now : Nat)
  /-- RELEASE_TETHER (R47): The fabric manager releases a tether, ordinarily if it has lapsed and by forced release otherwise. -/
  | releaseTether (h : Part) (o : TetherObj) (forced : Bool)
  /-- CREATE_KITE (R51): The fabric manager creates a kite for a tenant, ordinary or sealed, with its KEEP_RETIRED attribute. -/
  | createKite (k : Fin 4096) (t : Fin 1024) (sealed keep : Bool)
  /-- SET_KITE_ATTRIBUTE (R51): The fabric manager changes KEEP_RETIRED, and a change to 0 releases every RETIRED version. -/
  | setKiteAttribute (k : Fin 4096) (keep : Bool)
  /-- KITE_PUBLISH (R54): A publish is tested at the kite's home, then holds the version record and withdraws write rights on the staging extent. -/
  | kitePublish (n : Fin 8192) (slot : Nat)
  /-- KITE_PUBLISH_DRAINED (R54): The withdrawals and recalls of a publish have drained, so the home writes the version record and completes the publish. -/
  | kitePublishDrained (k : Fin 4096)
  /-- KITE_ATTACH (R55): An attach is ordered at the kite's home and either creates an attachment tether or returns CONFLICT. -/
  | kiteAttach (n : Fin 8192) (slot : Nat)
  /-- KITE_DETACH (R138): A detach drops an attachment, which may move a SUPERSEDED version to RETIRED. -/
  | kiteDetach (n : Fin 8192) (slot : Nat)
  /-- KITE_RECLAIM (R56): The owning tenant reclaims a RETIRED version with KEEP_RETIRED 1, restoring write rights or releasing a sealed version. -/
  | kiteReclaim (n : Fin 8192) (slot : Nat)
  /-- WALK_RESULT (R68): A page-table walk returns its table lines and the translation unit fills its TLB or faults the request. -/
  | walkResult (q : Fin 4) (t : Fin 1024) (pva : BitVec 48) (who : Part) (port admitted : Bool) (acc : Access) (ents : List (BitVec 64 × Bool))
  /-- INVALIDATION (R72): An invalidation naming a tenant and PVA range reaches a translation unit and its overlapping entries enter DRAINING. -/
  | invalidation (q : Fin 4) (t : Fin 1024) (lo hi now : Nat)
  /-- INVALIDATION_COMPLETE (R72): Every beat issued under the draining entries has completed, so the unit frees them and reports to the anchor. -/
  | invalidationComplete (q : Fin 4) (t : Fin 1024) (lo hi : Nat)
  /-- DRAIN_BOUND_EXPIRY (R74): The drain bound passes before an invalidation completes, so owning queues are stopped and unordered beats cancelled. -/
  | drainBoundExpiry (q : Fin 4) (t : Fin 1024) (lo hi now : Nat)
  /-- TABLE_SWITCH (R77): The anchor orders a switch of a tenant's root table slot and old-selector entries enter DRAINING. -/
  | tableSwitch (t : Fin 1024) (root : BitVec 26) (now : Nat)
  /-- ATS_TRANSLATION_COMPLETION (R81): An ATS Translation Completion arrives and fills the ATC, or stops the queue with HOST_NO_TRANSLATION if denied. -/
  | atsTranslationCompletion (d : Fin 64) (pasid page size hpa : Nat) (granted : Bool) (n : Fin 8192)
  /-- ATS_INVALIDATE_REQUEST (R82): An ATS Invalidate Request puts matching ATC entries into DRAINING until their DMA reads complete. -/
  | atsInvalidateRequest (d : Fin 64) (pasid page size itag now : Nat)
  /-- ATS_INVALIDATE_COMPLETE (R82): The DMA reads under drained ATC entries complete and the Invalidate Completion is sent. -/
  | atsInvalidateComplete (d : Fin 64) (itag : Nat)
  /-- ATS_INVAL_BOUND_EXPIRY (R82): The drain bound passes for an ATS invalidation, stopping the queue with HOST_INVAL_BOUND and sending the completion. -/
  | atsInvalBoundExpiry (d : Fin 64) (itag now : Nat)
  /-- FAULT_TAIL_WRITE (R84): Software advances FAULT_TAIL to consume translation fault records. -/
  | faultTailWrite (q : Fin 4) (data : BitVec 64)
  /-- RDONCE (R99): A read without keeping a copy is translated, ordered at its home and served per the directory state. -/
  | rdonce (n : Fin 64) (p : Packet)
  /-- RDSHARED (R99): A read keeping a shared copy allocates or updates a directory entry and may recall an owner. -/
  | rdshared (n : Fin 64) (p : Packet)
  /-- RDOWN (R99): A read for ownership recalls other holders and grants the line in O. -/
  | rdown (n : Fin 64) (p : Packet)
  /-- UPGRADE (R103): A request for ownership of a line held in S recalls other holders and completes with Cmp or DataO. -/
  | upgrade (n : Fin 64) (p : Packet)
  /-- WRLINE (R99): An uncached full-line write recalls any holders and is written at its home. -/
  | wrline (n : Fin 64) (p : Packet)
  /-- WRPART (R363): An uncached write of masked bytes is ordered and merged through the line's merge-buffer entry. -/
  | wrpart (n : Fin 64) (p : Packet)
  /-- WRBACK (R98): Modified data of an owned line is absorbed if the sender is the recorded owner and otherwise counted in STALE_WB. -/
  | wrback (n : Fin 64) (p : Packet)
  /-- CLEAN_EVICT (R99): A holder's notice of a dropped clean copy updates a precise entry and is answered with Cmp. -/
  | cleanEvict (d : Fin 64) (tag hpa : Nat)
  /-- ATOMIC (R112): An atomic is checked, ordered, run in the home or memory-side ALU and answered with the old value. -/
  | atomic (n : Fin 64) (p : Packet)
  /-- RECALL_MISS (R100): A holder's answer that it holds no copy completes its part of an outstanding recall. -/
  | recallMiss (a : Answerer)
  /-- RECALL_ACK (R98): A holder's answer that its copy was given up or downgraded unmodified completes its part of a recall. -/
  | recallAck (a : Answerer)
  /-- RECALL_DATA (R98): A holder returns modified data in answer to a recall, which replaces memory and is forwarded to the requester. -/
  | recallData (a : Answerer)
  /-- LINE_QUEUE_SERVE (R88): A busy line's transaction ends and the next request in its line queue is served. -/
  | lineQueueServe (l : Nat)
  /-- RECALL_TIMEOUT_FIRST (R106): The first RECALL_TIMEOUT expiry moves the entry to U, sets DIRTY_POSSIBLE and re-sends the recall. -/
  | recallTimeoutFirst (l now : Nat)
  /-- RECALL_TIMEOUT_SECOND (R107): The second expiry declares remaining holders unresponsive, poisons the line if dirty and returns the entry to I. -/
  | recallTimeoutSecond (l now : Nat)
  /-- BICONFLICT (R96): A host's BIConflict is answered with BIConflictAck under the CXL 3.1 conflict rules. -/
  | biconflict (d : Fin 64) (tag : Nat)
  /-- CXL_MEM_READ (R30): A CXL.mem read hits an HDM window, is converted to a PVA in the logical device's tenant and served. -/
  | cxlMemRead (d : Fin 64) (tag hpa : Nat) (m : Fin 3)
  /-- CXL_MEM_WRITE (R96): A CXL.mem MemWr or MemWrPtl is taken as WrBack from the recorded owner and as WrLine or WrPart otherwise. -/
  | cxlMemWrite (d : Fin 64) (tag hpa : Nat) (mask : BitVec 64) (data : List Byte) (poison : Bool)
  /-- CXL_MEM_INV (R95): A CXL.mem MemInv with MetaValue A is handled as an Upgrade. -/
  | cxlMemInv (d : Fin 64) (tag hpa : Nat)
  /-- MERGE_HOLD_EXPIRY (R178): 1 µs after its last combine a merge-buffer entry is encrypted and written back to the stack. -/
  | mergeHoldExpiry (l now : Nat)
  /-- SQ_TAIL_DOORBELL (R129): A KIND 0 doorbell sets SQ_TAIL, stamps its descriptors and renews the group's tethers, or faults the queue if invalid. -/
  | sqTailDoorbell (n : Fin 8192) (value : BitVec 32) (rsvd : BitVec 30)
  /-- CQ_HEAD_DOORBELL (R129): A KIND 1 doorbell sets CQ_HEAD and renews the group's tethers, or faults the queue if invalid. -/
  | cqHeadDoorbell (n : Fin 8192) (value : BitVec 32) (rsvd : BitVec 30)
  /-- HEARTBEAT_DOORBELL (R130): A KIND 2 doorbell renews every tether of the group and has no other effect. -/
  | heartbeatDoorbell (n : Fin 8192) (value : BitVec 32) (rsvd : BitVec 30)
  /-- RESERVED_KIND_DOORBELL (R129): A KIND 3 doorbell is invalid, changes no index and stops a RUNNING queue with BAD_DOORBELL. -/
  | reservedKindDoorbell (n : Fin 8192) (value : BitVec 32) (rsvd : BitVec 30)
  /-- FOREIGN_DOORBELL (R120): A doorbell or register write from a source other than the group's owner is ignored and counted in FOREIGN_ACCESS. -/
  | foreignDoorbell (n : Fin 8192)
  /-- DOORBELL_PACKET (R127): A doorbell packet on the sync/management channel delivers a doorbell word from an endpoint owner. -/
  | doorbellPacket (port : Fin 64) (p : Packet)
  /-- POOL_DOORBELL_READ (R127): The queue block's read of the doorbell line returns and acts as one doorbell per changed word. -/
  | poolDoorbellRead (g : Fin 1024)
  /-- DESCRIPTOR_FETCH (R125): The queue block fetches a descriptor when fewer than 64 are in flight and enough completion slots are free. -/
  | descriptorFetch (n : Fin 8192)
  /-- RING_READ_FAILED (R153): A descriptor read returns poison or is refused, stopping the queue with RING_READ_FAILED. -/
  | ringReadFailed (n : Fin 8192)
  /-- NOP (R134): A NOP descriptor does nothing and completes, marking a point when FENCE is set. -/
  | nop (n : Fin 8192) (slot : Nat)
  /-- RESERVED_OPCODE (R133): A descriptor with a reserved opcode or non-zero reserved field completes with POLICED and does nothing. -/
  | reservedOpcode (n : Fin 8192) (slot : Nat)
  /-- FILL (R163): A FILL descriptor writes a constant, line or sequence pattern over a destination range in stripes. -/
  | fill (n : Fin 8192) (slot : Nat)
  /-- COPY (R164): A COPY descriptor copies a range, descending on one engine when ranges overlap upwards. -/
  | copy (n : Fin 8192) (slot : Nat)
  /-- COMPARE (R167): A COMPARE descriptor finds the lowest differing offset between a range and a range or pattern. -/
  | compare (n : Fin 8192) (slot : Nat)
  /-- GATHER (R168): A GATHER descriptor reads indexed elements and packs them at the dense address. -/
  | gather (n : Fin 8192) (slot : Nat)
  /-- SCATTER (R170): A SCATTER descriptor writes packed elements to indexed addresses, in list order unless UNIQUE. -/
  | scatter (n : Fin 8192) (slot : Nat)
  /-- REDUCE (R174): A REDUCE descriptor combines NSRC source ranges element by element into a destination. -/
  | reduce (n : Fin 8192) (slot : Nat)
  /-- STRIPE_START (R158): A waiting stripe is placed on an idle move engine in the home or group quadrant and starts. -/
  | stripeStart (n : Fin 8192) (slot i : Nat) (c : Fin 160)
  /-- NM_DESCRIPTOR_COMPLETE (R162): A near-memory descriptor's stripes end and its completion is written with the bytes-done prefix and status. -/
  | nmDescriptorComplete (n : Fin 8192) (slot : Nat)
  /-- NM_FIRST_FAILURE_KNOWN (R162): A beat of a near-memory descriptor faults or returns uncorrectable, so every stripe stops issuing. -/
  | nmFirstFailureKnown (n : Fin 8192) (slot : Nat)
  /-- COALESCE_TIMER_EXPIRY (R146): COALESCE_US passes since the first uncovered completion and a notification is sent. -/
  | coalesceTimerExpiry (n : Fin 8192) (now : Nat)
  /-- DESCRIPTOR_TIME_LIMIT_EXPIRY (R135): A descriptor's time limit expires, stopping a job at tile boundaries or a near-memory descriptor with TIMEOUT. -/
  | descriptorTimeLimitExpiry (n : Fin 8192) (slot now : Nat)
  /-- JOB (R149): A JOB descriptor checks alignment and reads the job image header under the group's tenant. -/
  | job (n : Fin 8192) (slot : Nat)
  /-- JOB_HEADER_READ (R149): The image header arrives and is checked, then the whole image and argument block are read. -/
  | jobHeaderRead (n : Fin 8192) (slot : Nat)
  /-- JOB_IMAGE_READ (R149): The image and argument block arrive, the binding table and program are decoded and the digest computation starts. -/
  | jobImageRead (n : Fin 8192) (slot : Nat)
  /-- JOB_DIGEST_COMPUTED (R149): The SHA-384 of the image completes, is compared with DIGEST and the job joins the ready list. -/
  | jobDigestComputed (n : Fin 8192) (slot : Nat)
  /-- RESUME (R137): A RESUME descriptor restarts a paused job at the tile where it paused, or fails with BAD_HANDLE. -/
  | resume (n : Fin 8192) (slot : Nat)
  /-- DISCARD (R137): A DISCARD descriptor frees a paused record and completes with OK. -/
  | discard (n : Fin 8192) (slot : Nat)
  /-- JOB_PREEMPT (R151): The scheduler pre-empts a job, whose cores stop at the next tile boundary and return it to a ready list. -/
  | jobPreempt (n : Fin 8192) (slot : Nat)
  /-- JOB_COMPLETE (R142): Every context of a job has ended and its effects are ordered, so its completion is written. -/
  | jobComplete (n : Fin 8192) (slot : Nat)
  /-- QUEUE_ENABLE (R153): ENABLE written 1 moves a DISABLED queue to RUNNING or to STOPPED with BAD_CONFIG. -/
  | queueEnable (n : Fin 8192)
  /-- QUEUE_DISABLE (R153): ENABLE written 0 stops fetching and moves the queue to DISABLING. -/
  | queueDisable (n : Fin 8192)
  /-- QUEUE_RESTART (R153): RESTART written 1 clears FAULT, retries a held completion and resumes fetching at SQ_HEAD. -/
  | queueRestart (n : Fin 8192)
  /-- GROUP_BIND (R154): The fabric manager binds a group to tenant, owner and quadrant and creates its group tether. -/
  | groupBind (g : Fin 1024) (t : Fin 1024) (o : Owner) (q : Fin 4) (dbPva : Nat)
  /-- GROUP_RELEASE (R154): The fabric manager releases a group, stopping running jobs and moving it to RELEASING. -/
  | groupRelease (g : Fin 1024)
  /-- GROUP_QUIESCE_DRAINED (R155): Nothing of a QUIESCING group runs and every completion is delivered, so it becomes ACTIVE or LAPSED. -/
  | groupQuiesceDrained (g : Fin 1024)
  /-- GROUP_REARM (R156): The fabric manager re-arms an ORPHANED group, delivering held completions and ORPHANED statuses. -/
  | groupRearm (g : Fin 1024)
  /-- GROUP_RELEASE_DRAINED (R154): Nothing of a RELEASING group runs, so its records, descriptors, queues and tethers are dropped and it is UNBOUND. -/
  | groupReleaseDrained (g : Fin 1024)
  /-- REDUCE_WR (R177): An unwindowed reduce-on-write contribution is checked, ordered on its lines and combined in the merge buffer. -/
  | reduceWr (port : Fin 64) (p : Packet)
  /-- REDUCE_WR_W (R182): A windowed contribution is ordered on its chunk bitmap line and applied once, or discarded as a duplicate. -/
  | reduceWrW (port : Fin 64) (p : Packet)
  /-- RWIN_ASSIGN (R180): The fabric manager assigns a reduction window to a tenant, refused while ARMING or ARMED. -/
  | rwinAssign (w t : Fin 1024)
  /-- RWIN_ARM (R181): ARM written 1 increments GENERATION, zeroes bitmaps and starts the identity fill, or sets ARM_FAULT. -/
  | rwinArm (w : Fin 1024) (contributors : BitVec 13)
  /-- RWIN_ARM_FILL_DONE (R181): The arm fills of a window complete and the window becomes ARMED. -/
  | rwinArmFillDone (w : Fin 1024) (now : Nat)
  /-- RWIN_DISARM (R181): DISARM written 1 orders a disarm at every bitmap line's home. -/
  | rwinDisarm (w : Fin 1024)
  /-- RWIN_DISARM_DONE (R181): Every home has taken the disarm and the window becomes DISARMED. -/
  | rwinDisarmDone (w : Fin 1024)
  /-- COLLECTIVE_DEADLINE_EXPIRY (R323): DEADLINE_US passes with the window ARMED, so bitmaps are scanned and a PARTIAL completion written. -/
  | collectiveDeadlineExpiry (w : Fin 1024) (now : Nat)
  /-- SALU (R194): A scalar operation on registers or an immediate writes register D. -/
  | salu (n : Fin 160) (c : Fin 8)
  /-- BRANCH (R194): A branch continues at instruction X when its MODE condition holds. -/
  | branch (n : Fin 160) (c : Fin 8)
  /-- SYNC (R194): A SYNC does no work and carries only semaphore wait and signal. -/
  | sync (n : Fin 160) (c : Fin 8)
  /-- BARRIER (R240): A context arrives at a compute-class barrier channel and waits for the episode. -/
  | barrier (n : Fin 160) (c : Fin 8)
  /-- BARRIER_RELEASE (R241): The last member's sense inversion propagates and releases every waiting context after the fixed latency. -/
  | barrierRelease (p : Fin 16) (now : Nat)
  /-- COMMIT (R199): A context dispatches a commit point, and a core arriving at commit n writes a snapshot. -/
  | commit (n : Fin 160) (c : Fin 8)
  /-- HELD_EFFECTS_ISSUE (R201): Every core has arrived at a commit, held effects are pre-checked and issued in order or the job pauses. -/
  | heldEffectsIssue (n : Fin 160) (rows : Nat)
  /-- COMMIT_COMPLETE (R200): A commit's beats, snapshots and held effects are all ordered, so the commit completes and signals. -/
  | commitComplete (n : Fin 8192) (slot : Nat)
  /-- END (R194): A context ends. -/
  | endOp (n : Fin 160) (c : Fin 8)
  /-- TLOAD (R194): Rows are read from pool memory or the constant section into the core store. -/
  | tload (n : Fin 160) (c : Fin 8)
  /-- TSTORE (R194): Rows are written from the core store to pool memory. -/
  | tstore (n : Fin 160) (c : Fin 8)
  /-- TREDUCE (R201): Rows are recorded as held unwindowed contributions, issued at the next commit. -/
  | treduce (n : Fin 160) (c : Fin 8)
  /-- TREDUCEW (R194): One chunk is sent at once as a windowed contribution. -/
  | treducew (n : Fin 160) (c : Fin 8)
  /-- TATOMIC (R201): An atomic is recorded as a held effect and its old value written to a register at the commit. -/
  | tatomic (n : Fin 160) (c : Fin 8)
  /-- TCOPY (R194): Bytes are copied within the core store. -/
  | tcopy (n : Fin 160) (c : Fin 8)
  /-- MMA (R221): A matrix multiply-accumulate adds 128 exact products per output into an accumulator, rounded once. -/
  | mma (n : Fin 160) (c : Fin 8)
  /-- ACCRD (R224): Accumulator rows are converted to FD with the selected rounding and written to the core store. -/
  | accrd (n : Fin 160) (c : Fin 8)
  /-- ACCWR (R224): FP32 rows are loaded into an accumulator exactly. -/
  | accwr (n : Fin 160) (c : Fin 8)
  /-- VBIN (R226): An element-wise binary vector operation. -/
  | vbin (n : Fin 160) (c : Fin 8)
  /-- VFMA (R226): An element-wise fused multiply-add rounded once. -/
  | vfma (n : Fin 160) (c : Fin 8)
  /-- VFUNC (R229): An element-wise function within the error bounds of Table 8.4. -/
  | vfunc (n : Fin 160) (c : Fin 8)
  /-- VROWRED (R228): Each row is reduced by sum, max or min into a column. -/
  | vrowred (n : Fin 160) (c : Fin 8)
  /-- VBCAST (R194): A column operand is broadcast across rows with add, sub or mul. -/
  | vbcast (n : Fin 160) (c : Fin 8)
  /-- VCVT (R214): Elements are converted between formats, with MX scales chosen per block. -/
  | vcvt (n : Fin 160) (c : Fin 8)
  /-- RACC (R194): The reduce engine combines A into D under a reduction operator byte. -/
  | racc (n : Fin 160) (c : Fin 8)
  /-- TILE_OP_COMPLETE (R187): An engine finishes an operation with the core store and signals its semaphore. -/
  | tileOpComplete (n : Fin 160) (e : Fin 5) (now : Nat)
  /-- CORE_FENCE (R206): A core is fenced, stops at once, and the job's other cores stop dispatching. -/
  | coreFence (n : Fin 160) (cause : Fin 8) (now : Nat)
  /-- CORE_FENCE_TEST (R206): Once issued beats are ordered the fenced core's held effects are tested and the job completes CORE_FENCED or returns. -/
  | coreFenceTest (n : Fin 8192) (slot : Nat)
  /-- SET_SR_CONTROLS (R232): The fabric manager writes SR_FIXED or SEED for jobs admitted afterwards. -/
  | setSrControls (fixed : Bool) (seed : BitVec 64)
  /-- WAIT_WATCHDOG_EXPIRY (R238): A context's wait watchdog expires and the job ends with WAIT_TIMEOUT. -/
  | waitWatchdogExpiry (n : Fin 160) (c : Fin 8) (now : Nat)
  /-- OBJ_ASSIGN (R245): The fabric manager assigns a registered-object slot to a tenant. -/
  | objAssign (o : Fin 1024) (t : Fin 1024)
  /-- OBJ_REGISTER (R246): REGISTER written 1 reads the member list and registers the object, or sets REG_FAULT. -/
  | objRegister (o : Fin 1024) (d : Option (Fin 64))
  /-- OBJ_DEREGISTER (R246): DEREGISTER written 1 returns the object to FREE, leaving its word. -/
  | objDeregister (o : Fin 1024) (d : Option (Fin 64))
  /-- SEM_SET (R251): A debug command sets a core semaphore's count at the end of a core cycle. -/
  | semSet (r : Role) (who : Nat) (n : Fin 160) (k : Fin 64) (v : Fin 256)
  /-- CHAN_RELEASE (R251): A debug command completes a barrier channel's episode as if every member had arrived. -/
  | chanRelease (r : Role) (who : Nat) (p : Fin 16)
  /-- OBJ_MARK (R250): A debug command marks a registered object under R248. -/
  | objMark (r : Role) (who : Nat) (o : Fin 1024)
  /-- OBJ_RELEASE (R250): A debug command zeroes COUNT and inverts SENSE so every waiter returns OK. -/
  | objRelease (r : Role) (who : Nat) (o : Fin 1024)
  /-- VF_STEP (R254): Each µs the sequencer moves the divider or core voltage one step toward the operating point in force. -/
  | vfStep (q : Fin 4) (now : Nat)
  /-- ENERGY_BUCKET_TICK (R257): Every 1 µs the quadrant's bucket gains BUDGET_W × 1 µs less the measured core-rail energy. -/
  | energyBucketTick (q : Fin 4) (uj now : Nat)
  /-- CLASS_OVERRUN_WINDOW (R256): Each 10 µs a core's meter is compared with its declared power and its matrix engines limited if exceeded. -/
  | classOverrunWindow (q : Fin 4) (now : Nat)
  /-- SCHEDULER_TICK (R261): At each 1 µs tick or core idling the quadrant scheduler admits candidate jobs that fit. -/
  | schedulerTick (q : Fin 4) (now : Nat)
  /-- CLASS_CREDIT_TICK (R262): Every 1 µs each shaping class's CREDIT is updated by RATE and engines in use. -/
  | classCreditTick (stripes : List (Nat × Nat)) (now : Nat)
  /-- QUEUE_SAMPLE_TICK (R265): Every 1 µs each queue's DEPTH, DELAY and MAX_DELAY are sampled. -/
  | queueSampleTick (now : Nat)
  /-- CLEAR_MAX (R265): CLEAR_MAX written 1 sets a queue's MAX_DELAY_US to 0. -/
  | clearMax (n : Fin 8192)
  /-- SENSOR_SAMPLE (R267): Every 1 µs each quadrant samples Tj and rail power against the hardware limits. -/
  | sensorSample (q : Fin 4) (tj : BitVec 12) (railW : BitVec 10) (now : Nat)
  /-- THROTTLE_STEP_TIMER (R267): Every 100 µs while a throttle lasts OP_CAP is lowered one more step. -/
  | throttleStepTimer (q : Fin 4) (now : Nat)
  /-- RAIL_EMERGENCY (R268): Rail power stays above 700 W for 10 µs and the quadrant enters a rail emergency. -/
  | railEmergency (q : Fin 4) (now : Nat)
  /-- PWR_ALERT_N (R504): PWR_ALERT_N sampled low for 1 µs starts a power emergency in every quadrant. -/
  | pwrAlertN (low : Bool) (now : Nat)
  /-- EMERGENCY_CLEAR (R268): An emergency's cause is absent for 10 ms, admission resumes and the engine limit lifts. -/
  | emergencyClear (q : Fin 4) (kind : Fin 3) (now : Nat)
  /-- OP_CAP_RAISE (R267): Each 1 ms after a throttle or emergency clears OP_CAP rises one step. -/
  | opCapRaise (q : Fin 4) (now : Nat)
  /-- ACTIVATION_REQUEST (R270): A firmware activation request is deferred while any EMERG bit is set, or refused with CONFLICT if one is deferred. -/
  | activationRequest (r : Role) (now : Nat)
  /-- DEFERRAL_TICK (R270): At each 1 ms tick a deferred activation begins once every EMERG bit is clear. -/
  | deferralTick (now : Nat)
  /-- DEFERRAL_EXPIRY (R270): 60 s pass without a clear tick and the request completes with DEFERRED_EXPIRED. -/
  | deferralExpiry (now : Nat)
  /-- SET_OP_REQ (R253): The fabric manager sets a quadrant's requested operating point. -/
  | setOpReq (q : Fin 4) (k : Fin 4)
  /-- SET_BUDGET (R257): The fabric manager sets BUDGET_W and BUCKET_MAX_MJ of a quadrant. -/
  | setBudget (q : Fin 4) (w mj : BitVec 10)
  /-- SET_CLASS (R262): The fabric manager sets a shaping class's RATE and BURST_US. -/
  | setClass (c : Fin 256) (rate : BitVec 16) (burstUs : BitVec 32)
  /-- SET_GROUP_CLASS (R262): The fabric manager assigns a queue group to a shaping class. -/
  | setGroupClass (g : Fin 1024) (c : Fin 256)
  /-- SET_SCH_CTRL (R272): The fabric manager sets AGE_LIMIT_MS, FIT_HORIZON_US and SHED_MARGIN_C. -/
  | setSchCtrl (ageMs fitUs : BitVec 16) (shedC : BitVec 8)
  /-- SET_CONTRACT (R263): The fabric manager writes an ingress contract, resetting its TOKENS to BURST_B. -/
  | setContract (k : Fin 4096) (t : Fin 1024) (anyTenant : Bool) (port : Fin 64) (anyPort valid : Bool) (rate burst : BitVec 32)
  /-- SET_MEMBERSHIP (R35): The fabric manager adds or removes an (endpoint, tenant) pair in the membership table. -/
  | setMembership (id : Fin 65536) (t : Fin 1024) (add : Bool)
  /-- ROF_PORT_ENABLE (R282): The fabric manager enables an optical port, which begins probing. -/
  | rofPortEnable (n : Fin 64)
  /-- ROF_PORT_DISABLE (R282): The fabric manager disables an optical port, darkening lanes and rerouting queued frames. -/
  | rofPortDisable (n : Fin 64)
  /-- SET_PORT_CONFIG (R302): The fabric manager writes a port's PAIR, width policy, SRC check and lane settings. -/
  | setPortConfig (n : Fin 64) (c : PortConfig)
  /-- SET_VC_PARTITION (R286): The fabric manager sets a VC's RX_WORDS, refused if limits break, effective at next retrain. -/
  | setVcPartition (n : Fin 64) (v : Fin 8) (words : BitVec 16)
  /-- SET_ROUTE (R302): The fabric manager writes a route entry, effective for packets routed afterwards. -/
  | setRoute (d : BitVec 16) (ports : BitVec 64)
  /-- SET_MCAST (R302): The fabric manager writes a multicast group entry. -/
  | setMcast (g : Fin 4096) (ports : BitVec 64) (valid loc : Bool)
  /-- SET_ROF_CTRL (R302): The fabric manager sets ADAPT_BIAS_W, AUDIT_US, RETRAIN_DRAIN_US and TRAIN_LIMIT_MS. -/
  | setRofCtrl (adaptBiasW auditUs : BitVec 16) (retrainDrainUs : BitVec 10) (trainLimitMs : BitVec 16)
  /-- PROBE_EMIT (R280): Every 10 ms a PROBING port emits a 1 µs probe on L0. -/
  | probeEmit (n : Fin 64) (now : Nat)
  /-- PARTNER_DETECTED (R280): A probe or continuous light on L0 detects the partner and the port lights its lanes. -/
  | partnerDetected (n : Fin 64) (now : Nat)
  /-- RECEIVE_LOCK (R282): Receive lock on a lane moves a LIGHTING port to TRAINING and starts TRAIN and KEYX exchange. -/
  | receiveLock (n : Fin 64) (lane : Fin 16) (now : Nat)
  /-- TRAINING_COMPLETE (R282): Key, TRAIN and CREDIT words are exchanged, FCTR resets and the port becomes UP. -/
  | trainingComplete (n : Fin 64) (now : Nat)
  /-- TRAIN_LIMIT_EXPIRY (R282): TRAIN_LIMIT_MS expires, or key agreement fails, and the port darkens and returns to PROBING. -/
  | trainLimitExpiry (n : Fin 64) (now : Nat)
  /-- LOSS_OF_SIGNAL (R281): Signal lost on every receive lane for 10 µs returns the port to PROBING and darkens it within 40 µs. -/
  | lossOfSignal (n : Fin 64) (now : Nat)
  /-- FULL_RETRAIN (R282): A full-retrain trigger takes an UP port to TRAINING with a new session and rerouted frames. -/
  | fullRetrain (n : Fin 64) (byFm : Bool)
  /-- FRAME_RECEIVE (R277): A link frame is received and dropped for a lost word, LCRC, FCTR or TAG failure, or passed on. -/
  | frameReceive (n : Fin 64) (p : Packet) (blocks : RxBlocks) (lcrcOk tagOk : Bool) (fctr : BitVec 32) (now : Nat)
  /-- FRAME_TRANSMIT (R287): A queued frame starts on a channel once TX_AVAIL covers its word count. -/
  | frameTransmit (n : Fin 64) (v : Fin 8) (now : Nat)
  /-- CREDIT (R287): A CREDIT control word returns freed words to TX_AVAIL on each channel. -/
  | credit (n : Fin 64) (counts : List (BitVec 16))
  /-- CREDIT_RETURN_TIMER (R287): At least every 100 ns while words are owed the receiver sends a CREDIT word. -/
  | creditReturnTimer (n : Fin 64) (now : Nat)
  /-- LANE_SET (R285): A LANE_SET word switches the receiver to the new transmit mask from the next word. -/
  | laneSet (n : Fin 64) (mask : BitVec 16)
  /-- LANE_READY (R285): A LANE_READY word reports the partner's receive-locked lanes. -/
  | laneReady (n : Fin 64) (mask : BitVec 16)
  /-- LANE_FAULT (R284): A LANE_FAULT word makes the transmitter narrow to the widest permitted good-lane width. -/
  | laneFault (n : Fin 64) (mask : BitVec 16)
  /-- AUDIT_TIMER (R288): Every AUDIT_US a transmitter sends an AUDIT word. -/
  | auditTimer (n : Fin 64) (now : Nat)
  /-- AUDIT (R288): An AUDIT word is answered with AUDIT_ACK once every earlier frame is freed. -/
  | audit (n : Fin 64) (counts : List (BitVec 16))
  /-- AUDIT_ACK (R288): An AUDIT_ACK sets TX_LEAKED and starts a credit retrain if any exceeds half the window. -/
  | auditAck (n : Fin 64) (counts : List (BitVec 16))
  /-- RETRAIN (R289): A RETRAIN word starts a credit retrain, or a full retrain when byte 2 is 1. -/
  | retrain (n : Fin 64) (byte2 : BitVec 8) (now : Nat)
  /-- RETRAIN_ACK (R289): A RETRAIN_ACK and full credits reset TX_LEAKED and TX_AVAIL and the transmitter resumes. -/
  | retrainAck (n : Fin 64) (counts : List (BitVec 16))
  /-- RETRAIN_DRAIN_EXPIRY (R289): Frames still held at C + RETRAIN_DRAIN_US are dropped and counted in DROP_RETRAIN. -/
  | retrainDrainExpiry (n : Fin 64) (now : Nat)
  /-- TRAIN (R282): A TRAIN word gives the partner's endpoint ID, pair mode and side, failing training on mismatch. -/
  | train (n : Fin 64) (id : BitVec 16) (pair side : Bool) (ready : BitVec 16)
  /-- KEYX (R388): A KEYX fragment carries part of the link key agreement, whose parts are verified and keys derived. -/
  | keyx (n : Fin 64) (part : Fin 4) (index total : BitVec 16) (data : List Byte)
  /-- CONTROL_WORD_DISCARD (R278): A control word with a bad CRC or reserved CTYPE is discarded. -/
  | controlWordDiscard (w : RxControl)
  /-- WIDTH_NARROW (R283): Under policy 1, utilisation below 25% for 100 µs halves the transmit width. -/
  | widthNarrow (n : Fin 64)
  /-- WIDTH_WIDEN (R283): Under policy 1, utilisation above 75% or a deep VC queue doubles the transmit width. -/
  | widthWiden (n : Fin 64)
  /-- LANE_PARK_EXPIRY (R283): A lane out of the mask darkens after PARK_HOLD_US. -/
  | laneParkExpiry (n : Fin 64) (lane : Fin 16) (now : Nat)
  /-- FORWARD (R293): A packet not addressed to the device is aged, routed under R295 and forwarded store-and-forward. -/
  | forward (n : Fin 64) (p : Packet)
  /-- MULTICAST (R300): A multicast packet is copied to every UP branch port and, with LOCAL, terminated locally. -/
  | multicast (n : Fin 64) (p : Packet)
  /-- TETHERBEAT (R44): A TetherBeat packet renews every tether of its source endpoint. -/
  | tetherbeat (port : Fin 64) (p : Packet)
  /-- RESETNOTICE (R247): A ResetNotice declares its source endpoint reset, marking registered objects it belongs to. -/
  | resetnotice (port : Fin 64) (p : Packet)
  /-- DECLARE_ENDPOINT_RESET (R247): The fabric manager declares an ROF endpoint reset, marking registered objects it belongs to. -/
  | declareEndpointReset (id : Fin 65536)
  /-- UNMATCHED_RESPONSE (R512): A terminated response matching no outstanding request is acknowledged and discarded. -/
  | unmatchedResponse (port : Fin 64) (p : Packet)
  /-- RESPONSE_RECEIVED (R512): A response matching an outstanding device request, such as a ring read, completes it. -/
  | responseReceived (port : Fin 64) (p : Packet)
  /-- RECALL_RECEIVED (R512): A RecallInv or RecallShare terminated by the device is answered with RecallMiss. -/
  | recallReceived (port : Fin 64) (p : Packet)
  /-- ACK (R310): An Ack acknowledges SEQs of a flow, freeing replay space and moving OPENING to OPEN. -/
  | ack (port : Fin 64) (p : Packet)
  /-- ACK_TIMER (R310): Within 1 µs of accepting a packet or dropping a duplicate the receiver sends one Ack. -/
  | ackTimer (f : Flow) (now : Nat)
  /-- RESENDREQ (R311): A ResendReq makes the source re-send the named packets at once unless sent in the last 5 µs. -/
  | resendreq (port : Fin 64) (p : Packet)
  /-- RESEND_TIMER (R311): RESEND_US after its last transmission an unacknowledged packet is re-sent on a fresh route. -/
  | resendTimer (f : Flow) (seq : BitVec 24) (now : Nat)
  /-- RESEND_LIMIT_EXPIRY (R311): A packet unacknowledged RESEND_LIMIT_US after first transmission fails with the flow's other packets. -/
  | resendLimitExpiry (f : Flow) (seq : BitVec 24) (now : Nat)
  /-- FLOW_SILENCE_EXPIRY (R305): 2 ms with no Ack on an OPEN flow fail its unacknowledged packets and return it to OPENING. -/
  | flowSilenceExpiry (f : Flow) (now : Nat)
  /-- SEND_CONTEXT_RETIRE (R305): 6 ms after the last transmission with nothing unacknowledged a send context retires. -/
  | sendContextRetire (f : Flow) (now : Nat)
  /-- RECEIVE_CONTEXT_RETIRE (R306): Exactly 4 ms after the last arrival a receive context retires, freeing its reassembly records. -/
  | receiveContextRetire (f : Flow) (now : Nat)
  /-- REASM_TIMEOUT (R316): A message incomplete REASM_US after its record was taken triggers a ResendReq for missing SEQs. -/
  | reasmTimeout (f : Flow) (first : BitVec 24) (now : Nat)
  /-- ATOMIC_RETENTION_EXPIRY (R320): A retained atomic result is freed 2 ms after execution. -/
  | atomicRetentionExpiry (q : Fin 4) (src : BitVec 16) (tag : BitVec 64) (now : Nat)
  /-- QUIET_PERIOD_END (R321): 6 ms after release from reset the device begins sending and accepting sequenced packets. -/
  | quietPeriodEnd (now : Nat)
  /-- TIME_EXCHANGE_TIMER (R326): Every 10 µs each UP port sends a Time packet. -/
  | timeExchangeTimer (n : Fin 64) (now : Nat)
  /-- TIME_PACKET (R326): A Time packet updates the offset to the parent, stepping or slewing pool time and LOCKED. -/
  | timePacket (n : Fin 64) (p : Packet) (now : Nat)
  /-- SET_TIME_TREE (R325): The fabric manager sets ROOT, PARENT and ALT ports for pool time. -/
  | setTimeTree (parent : Fin 64) (parentValid root : Bool) (alt : Fin 64) (altValid : Bool)
  /-- SET_E2E_CTRL (R327): The fabric manager sets RESEND_US, RESEND_LIMIT_US and REASM_US. -/
  | setE2eCtrl (q : Fin 4) (resendUs resendLimitUs : BitVec 10) (reasmUs : BitVec 8)
  /-- CXL_LINK_TRAINED (R330): A CXL port trains at a version, width and rate, or is held down below x4 or 32 GT/s. -/
  | cxlLinkTrained (p : Fin 4) (version : Fin 4) (width rate : Nat) (mldSwitch : Bool) (lds : Fin 17) (now : Nat)
  /-- LINK_DOWN (R343): A CXL link goes down, resetting its logical devices, scanning directories and stopping host-ring queues. -/
  | linkDown (p : Fin 4) (now : Nat)
  /-- LINK_DOWN_SCAN_COMPLETE (R343): By L + 1.05 ms the scans end, the event is recorded and training begins again. -/
  | linkDownScanComplete (p : Fin 4) (now : Nat)
  /-- CONVENTIONAL_RESET (R332): A conventional reset on PERST_Nq resets every logical device of the port. -/
  | conventionalReset (p : Fin 4) (now : Nat)
  /-- RESET_LD (R332): The fabric manager resets a logical device, closing windows and resolving HDM-DB entries. -/
  | resetLd (d : Fin 64)
  /-- BIND_LD (R34): The fabric manager binds a logical device to a tenant when it holds no windows or tethers. -/
  | bindLd (d : Fin 64) (t : Fin 1024)
  /-- PORT_ENABLE (R344): The fabric manager sets ENABLE and MLD_ALLOW of a CXL port, disabling as a link-down. -/
  | portEnable (p : Fin 4) (enable : Bool) (ctl : CxlPortSet) (now : Nat)
  /-- GRANT_EXTENT (R333): The fabric manager grants an extent to a logical device at a DPA range, creating a tether. -/
  | grantExtent (d : Fin 64) (e : Fin 16384) (mode : Fin 3)
  /-- REVOKE_GRANT (R339): The fabric manager revokes a grant, ordinarily or by cut if a window is open. -/
  | revokeGrant (d : Fin 64) (g : Fin 32)
  /-- HDM_DECODER_COMMIT (R334): A host commits an HDM decoder matching a grant, opening a window or setting Error Not Committed. -/
  | hdmDecoderCommit (d : Fin 64) (k : Fin 32) (dpa size hpa ways : Nat)
  /-- HDM_DECODER_DECOMMIT (R334): A host decommits a decoder, closing the window and resolving its HDM-DB directory entries. -/
  | hdmDecoderDecommit (d : Fin 64) (k : Fin 32)
  /-- INITIATE_DYNAMIC_CAPACITY_ADD (R337): A grant or balloon growth fills blocks and sends Add Capacity events to holders. -/
  | initiateDynamicCapacityAdd (e : Fin 16384) (n : Nat)
  /-- ADD_DYNAMIC_CAPACITY_RESPONSE (R337): A host accepts or declines added capacity, and once all accept the blocks join. -/
  | addDynamicCapacityResponse (d : Fin 64) (e : Fin 16384) (accept : Bool)
  /-- DC_RESPONSE_TIMEOUT (R337): A holder does not answer within DC_RESPONSE_MS, so added blocks are scrubbed or a release is reported. -/
  | dcResponseTimeout (e : Fin 16384) (add : Bool) (now : Nat)
  /-- INITIATE_DYNAMIC_CAPACITY_RELEASE (R338): A shrink or ordinary release sends Release Capacity events, or cuts with forced removal. -/
  | initiateDynamicCapacityRelease (e : Fin 16384) (n : Nat) (forced : Bool)
  /-- RELEASE_DYNAMIC_CAPACITY (R338): A host releases blocks, and once all holders have, they are withdrawn. -/
  | releaseDynamicCapacity (d : Fin 64) (e : Fin 16384)
  /-- CUT (R339): A cut puts every window onto the extent in CUT and starts directory scans. -/
  | cut (e : Fin 16384) (p : Fin 4)
  /-- CUT_COMPLETE (R339): Scans end and found lines resolve, so the cut withdraws mappings or drops the tether and is reported. -/
  | cutComplete (d : Fin 64) (g : Fin 32)
  /-- DMA_READ_COMPLETE (R340): A queue-block CXL.io DMA read returns host data, or poison that stops the queue. -/
  | dmaReadComplete (id : Nat) (data : List Byte) (poison : Bool)
  /-- IDENTIFY_MEMORY_DEVICE (R342): The mailbox command reports capacity as the end of the highest granted DPA range. -/
  | identifyMemoryDevice (d : Fin 64)
  /-- GET_EVENT_RECORDS (R342): The mailbox command returns event log records. -/
  | getEventRecords (d : Fin 64) (log : Fin 4)
  /-- CLEAR_EVENT_RECORDS (R342): The mailbox command clears event log records. -/
  | clearEventRecords (d : Fin 64) (log : Fin 4) (all : Bool) (handles : List Nat)
  /-- GET_EVENT_INTERRUPT_POLICY (R342): The mailbox command returns the event interrupt policy. -/
  | getEventInterruptPolicy (d : Fin 64)
  /-- SET_EVENT_INTERRUPT_POLICY (R342): The mailbox command selects MSI-X event interrupts. -/
  | setEventInterruptPolicy (d : Fin 64) (policy : BitVec 32)
  /-- GET_HEALTH_INFO (R342): The mailbox command returns health, temperature and retired-stack count. -/
  | getHealthInfo (d : Fin 64)
  /-- GET_POISON_LIST (R342): The mailbox command returns up to 1,024 poisoned lines within the grants. -/
  | getPoisonList (d : Fin 64)
  /-- GET_DYNAMIC_CAPACITY_CONFIGURATION (R342): The CXL 3.1 mailbox command returns dynamic capacity configuration. -/
  | getDynamicCapacityConfiguration (d : Fin 64)
  /-- GET_DYNAMIC_CAPACITY_EXTENT_LIST (R342): The CXL 3.1 mailbox command returns the dynamic capacity extent list. -/
  | getDynamicCapacityExtentList (d : Fin 64)
  /-- UNSUPPORTED_MAILBOX_COMMAND (R342): An unsupported mailbox command returns Unsupported. -/
  | unsupportedMailboxCommand (d : Fin 64)
  /-- GET_LD_INFO (R344): The FM API command returns LD_COUNT and capacity per logical device. -/
  | getLdInfo (p : Fin 4)
  /-- GET_LD_ALLOCATIONS (R344): The FM API command returns the grants of each logical device. -/
  | getLdAllocations (p : Fin 4)
  /-- SET_LD_ALLOCATIONS (R344): The FM API command is unsupported. -/
  | setLdAllocations
  /-- GET_QOS_CONTROL (R344): The FM API command returns DevLoad thresholds. -/
  | getQosControl
  /-- SET_QOS_CONTROL (R344): The FM API command sets DevLoad thresholds. -/
  | setQosControl (high low : Nat)
  /-- GET_QOS_STATUS (R344): The FM API command returns QoS status from line-queue occupancy. -/
  | getQosStatus
  /-- GET_QOS_ALLOCATED_BW (R344): The FM API command returns each logical device's bandwidth share. -/
  | getQosAllocatedBw (p : Fin 4)
  /-- SET_QOS_ALLOCATED_BW (R344): The FM API command sets each logical device's bandwidth share. -/
  | setQosAllocatedBw (p : Fin 4) (start : Nat) (vals : List Nat)
  /-- GET_QOS_BW_LIMIT (R344): The FM API command returns each logical device's bandwidth limit. -/
  | getQosBwLimit (p : Fin 4)
  /-- SET_QOS_BW_LIMIT (R344): The FM API command sets each logical device's bandwidth limit. -/
  | setQosBwLimit (p : Fin 4) (start : Nat) (vals : List Nat)
  /-- GET_DCD_INFO (R344): The FM API command returns dynamic capacity device information. -/
  | getDcdInfo
  /-- GET_HOST_DC_REGION_CONFIGURATION (R344): The FM API command returns a host's dynamic capacity regions. -/
  | getHostDcRegionConfiguration (d : Fin 64)
  /-- GET_DC_REGION_EXTENT_LISTS (R344): The FM API command returns dynamic capacity region extent lists. -/
  | getDcRegionExtentLists (d : Fin 64)
  /-- SET_DC_REGION_CONFIGURATION (R344): The FM API command is unsupported. -/
  | setDcRegionConfiguration
  /-- STACK_REFRESH (R353): A per-bank refresh command is issued at its slot in the 32 ms or 16 ms window. -/
  | stackRefresh (pc : Fin 2048) (bank : Fin 16) (now : Nat)
  /-- STACK_TEMP_READ (R353): Every 1 ms the stack temperature is read and the refresh window chosen. -/
  | stackTempRead (n : Fin 32) (tempC : BitVec 8)
  /-- PARITY_ALERT (R355): A parity alert halts the channel, then after clearing precharges and replays from the failing command. -/
  | parityAlert (c : Fin 1024) (i : Fin 64) (now : Nat)
  /-- PATROL_SCRUB_READ (R365): An idle command slot reads a line for patrol scrub, writing it back corrected or poisoned. -/
  | patrolScrubRead (r : ScrubRead)
  /-- PATROL_PERIOD_END (R365): A patrol period completes and SCRUB_PASSES increments. -/
  | patrolPeriodEnd (now : Nat)
  /-- RETIRE_STACK (R368): The fabric manager or full remap tables move a stack to RETIRING or DEGRADED. -/
  | retireStack (n : Fin 32) (byFm : Bool)
  /-- STACK_FAILURE (R368): A failed retrain or unanswering channels move a stack to FAILED. -/
  | stackFailure (n : Fin 32) (pcs : List (Fin 64))
  /-- RETIREMENT_START (R369): A free slot and frames let a DEGRADED or FAILED stack begin migration. -/
  | retirementStart (n : Fin 32)
  /-- MIGRATION_GRANULE (R370): A 16 KiB granule enters transit, is copied to its substitute and its moved bit set. -/
  | migrationGranule (k : Fin 4) (b : Nat) (i : Fin 64) (g : Nat)
  /-- REINTERLEAVE (R372): The fabric manager requests a new placement or grain for an extent. -/
  | reinterleave (e : Fin 16384) (pl : Placement) (g : Nat)
  /-- REINTERLEAVE_GRANULE (R373): A granule is copied to the target, with later writes applied to both. -/
  | reinterleaveGranule
  /-- REINTERLEAVE_SWITCH (R373): Every granule moved, the anchor builds the shadow table and orders the switch. -/
  | reinterleaveSwitch (root : BitVec 26) (now : Nat)
  /-- DIRECTORY_HANDOVER (R373): An old home hands a line's directory entry to the target home once not busy. -/
  | directoryHandover (l : Nat)
  /-- REINTERLEAVE_COMPLETE (R373): The switch drains and hand-over ends, so the old blocks are scrubbed and freed. -/
  | reinterleaveComplete
  /-- SET_MEM_CTRL (R374): The fabric manager sets PATROL_HOURS, ACT_THRESHOLD, CE_REMAP and MIGRATE_PCT. -/
  | setMemCtrl (patrolHours : BitVec 8) (actThreshold : BitVec 16) (ceRemap migratePct : BitVec 8)
  /-- ERR_TAIL_WRITE (R374): Software advances ERR_TAIL to consume memory error records. -/
  | errTailWrite (data : BitVec 64)
  /-- GET_EVIDENCE (R379): A management role obtains signed attestation evidence, with a release key for SEALED_EMPTY. -/
  | getEvidence (nonce : List Byte) (e : Option (Fin 16384)) (now : Nat)
  /-- RELEASE_KEY_EXPIRY (R380): A live release key is destroyed 60 s after signing. -/
  | releaseKeyExpiry (e : Fin 16384) (now : Nat)
  /-- RELEASE_KEY (R382): A release blob is tested and on success the content key enters the tenant's active slot. -/
  | releaseKey (r : Role) (blob : List Byte) (now : Nat)
  /-- LOAD_SEALED (R383): The load engines decrypt and verify package pages into the sealed region and write tags. -/
  | loadSealed (r : Role) (e : Fin 16384) (pva n : Nat)
  /-- LOAD_COMPLETE (R383): The load ends, the region becomes SEALED or RELEASING and the content key is zeroised. -/
  | loadComplete (e : Fin 16384)
  /-- CREATE_TENANT (R392): A FREE tenant gets new keys and epoch, SCRUB_MODE set, and becomes ACTIVE. -/
  | createTenant (t : Fin 1024) (memoryOnly : Bool) (now : Nat)
  /-- REKEY_TENANT (R394): A rekey advances the epoch, generates keys in the other slot and starts the sweep. -/
  | rekeyTenant (t : Fin 1024) (now : Nat)
  /-- REKEY_SWEEP_GRANULE (R394): A granule of a tenant's extents is re-encrypted under the new slot. -/
  | rekeySweepGranule (e : Fin 16384)
  /-- REKEY_SWEEP_COMPLETE (R392): The sweep ends, the old slot becomes REVOKING and the tenant ACTIVE. -/
  | rekeySweepComplete (t : Fin 1024) (now : Nat)
  /-- REMOVE_TENANT (R395): A tenant enters REVOKING, its work ends with TENANT_REVOKED and its traffic is refused. -/
  | removeTenant (t : Fin 1024) (now : Nat)
  /-- OUTSTANDING_COUNTERS_ZERO (R395): Every outstanding counter reads zero, so slots are zeroised and the tenant enters SCRUBBING. -/
  | outstandingCountersZero (t : Fin 1024) (now : Nat)
  /-- REVOKED_SLOT_EMPTY (R392): A REVOKING slot of an old rekey epoch becomes EMPTY once its counters read zero. -/
  | revokedSlotEmpty (t : Fin 1024)
  /-- DRAIN_ALERT_EXPIRY (R396): At V + 10 ms each block with a non-zero counter is alerted, recorded and fenced. -/
  | drainAlertExpiry (t : Fin 1024) (now : Nat)
  /-- TENANT_SCRUB_COMPLETE (R397): The full or memory-only scrub finishes and the tenant becomes FREE. -/
  | tenantScrubComplete (t : Fin 1024) (now : Nat)
  /-- TLS_CONNECT (R400): A management TLS 1.3 connection is accepted with a role or refused. -/
  | tlsConnect (p : Fin 2) (k : Nat) (profileOk : Bool) (roles : List Role) (digest : BitVec 384) (whole : Bool) (now : Nat)
  /-- TLS_HANDSHAKE_TIMEOUT (R400): A session not handshaken within 10 s is closed. -/
  | tlsHandshakeTimeout (k now : Nat)
  /-- TLS_IDLE_TIMEOUT (R400): A session idle for 600 s is closed. -/
  | tlsIdleTimeout (k last now : Nat)
  /-- FIRMWARE_TRANSFER (R404): A release package is verified and written to the inactive slot of both flash devices. -/
  | firmwareTransfer (r : Role) (level : BitVec 32) (digest signer : BitVec 384) (target : Bool) (sig : List Byte) (now : Nat)
  /-- FIRMWARE_ACTIVATE (R404): An activation pauses admission, loads and self-checks the new image and switches the boot selector. -/
  | firmwareActivate (selfOk : Bool) (now : Nat)
  /-- INSTALL_BCR (R403): A Custodian installs a new signed BCR whose MIN_RELEASE does not decrease. -/
  | installBcr (r : Role) (bytes : List Byte) (signer : BitVec 384)
  /-- AUTHORISE_ROLLBACK (R403): A Custodian authorises an exact release level below MIN_RELEASE for 600 s. -/
  | authoriseRollback (r : Role) (level : BitVec 32) (now : Nat)
  /-- FENCE_CORE (R408): A core is fenced by command, uncorrectable store word, failed self-test or drain alert. -/
  | fenceCore (n : Fin 160) (cause : Fin 6) (now : Nat)
  /-- ENGINE_HOLD_EXPIRY (R408): An engine holds one operation for 1 ms and its core is fenced. -/
  | engineHoldExpiry (n : Fin 160) (e : Fin 5) (now : Nat)
  /-- FENCE_QUADRANT (R410): A quadrant is fenced within 10 µs on rail, clock, self-check failure or command. -/
  | fenceQuadrant (q : Fin 4) (cause : Fin 5) (now : Nat)
  /-- FENCE_OPTICAL_ENGINE (R409): An optical engine is fenced and its four ports go DISABLED and dark. -/
  | fenceOpticalEngine (e : Fin 16) (cause : Fin 5) (now : Nat)
  /-- FENCE_CXL_PORT (R409): A CXL port is fenced and held down. -/
  | fenceCxlPort (p : Fin 4) (cause : Fin 5) (now : Nat)
  /-- UNFENCE (R407): The fabric manager allows a fault-fenced unit back into service at the next cold reset. -/
  | unfence (k : Fin 4) (n : Nat)
  /-- ISLAND_REJOIN (R416): The anchor orders a reconnected island to poison lost lines, recall entries and resume. -/
  | islandRejoin (q : Fin 4) (now : Nat)
  /-- PAIR_ENABLE (R425): A SOLO device with valid pair configuration moves to WAITING. -/
  | pairEnable (g0 g1 g2 g3 : Fin 4096) (release : BitVec 384) (bcrAlike : Bool) (serial names : List Byte) (side : Bool)
  /-- PAIR_DISABLE (R425): A paired device returns to SOLO. -/
  | pairDisable
  /-- PAIR_LEAD (R425): The fabric manager makes a device ACTIVE while its partner is ABSENT. -/
  | pairLead (now : Nat)
  /-- PAIR_RESILVER (R425): A non-standby device returns to STANDBY_SYNC with the mark at 0. -/
  | pairResilver (now : Nat)
  /-- INTERLOCK_CLASSIFY (R423): A partner's interlock pattern is classified, gating outputs if it reads ACTIVE. -/
  | interlockClassify (pat : Machine.Pattern) (own : Bool) (now : Nat)
  /-- INTERLOCK_ABSENT (R423): An interlock line with no edge for 10 ms becomes ABSENT. -/
  | interlockAbsent (now : Nat)
  /-- OWN_READBACK_ABSENT (R424): A device's own readback is ABSENT while driving, gating outputs and leaving ACTIVE. -/
  | ownReadbackAbsent (now : Nat)
  /-- WAITING_HOLDOFF_EXPIRY (R425): Partner not ACTIVE for 10 or 20 ms, a WAITING device with current memory becomes ACTIVE. -/
  | waitingHoldoffExpiry (now : Nat)
  /-- OUTPUT_GATE_HOLD_EXPIRY (R424): 1 ms after starting to drive ACTIVE a device opens its output gate. -/
  | outputGateHoldExpiry (now : Nat)
  /-- ORDER_RECORD_SILENCE (R425): No order record for 10 ms makes a standby PASSIVE or triggers take-over. -/
  | orderRecordSilence (now : Nat)
  /-- EMPTY_ORDER_RECORD_TIMER (R426): With nothing to send for 10 µs the active sends an empty order record. -/
  | emptyOrderRecordTimer (now : Nat)
  /-- ORDER (R426): An Order packet's records are applied in order by the standby. -/
  | order (port : Fin 64) (p : Packet) (first : Nat) (recs : List (Nat × OrderRec))
  /-- ORDERACK (R427): An OrderAck releases outputs depending on the acknowledged records. -/
  | orderack (port : Fin 64) (p : Packet)
  /-- DIGEST (R429): A standby digest is compared with the active's unit digest and the unit verified or mismatched. -/
  | digest (port : Fin 64) (p : Packet) (lines : List Nat) (peerBad : Bool)
  /-- DIGEST_LATE (R425): A digest more than 100 µs late moves the standby to SUSPECT. -/
  | digestLate (now : Nat)
  /-- INPUTFETCH (R427): A standby requests an input it lacks and the active answers with InputData. -/
  | inputfetch (port : Fin 64) (p : Packet)
  /-- INPUTDATA (R427): A requested input arrives and the stalled standby resumes. -/
  | inputdata (port : Fin 64) (p : Packet) (inp : Packet) (via : Fin 64)
  /-- LINEREPAIR (R430): A line sent by the partner replaces an uncorrectable line. -/
  | linerepair (port : Fin 64) (p : Packet)
  /-- RESILVERDATA (R432): A re-silver granule is encrypted, tagged, written and acknowledged by the standby. -/
  | resilverdata (port : Fin 64) (p : Packet)
  /-- RESILVER_GRANULE_SEND (R432): The active reads and sends the next granule, or a dirty one, advancing its mark. -/
  | resilverGranuleSend (now : Nat)
  /-- RESILVER_COPY_END (R434): The mark passes the last block, so the active pre-empts jobs and sends ResilverState. -/
  | resilverCopyEnd (now : Nat)
  /-- RESILVERSTATE (R434): The standby applies the non-memory snapshot and enters STANDBY. -/
  | resilverstate (port : Fin 64) (p : Packet) (x : Machine.Snapshot)
  /-- PLL_LOCK (R437): A root PLL locks and its dividers start at ÷32. -/
  | pllLock (q : Fin 4) (now : Nat)
  /-- PLL_LOCK_LOSS (R437): A root PLL loses lock and its quadrant is fenced. -/
  | pllLockLoss (q : Fin 4) (now : Nat)
  /-- REFCLK_LOSS (R437): The reference is absent for 1 µs, so every quadrant is fenced. -/
  | refclkLoss (now : Nat)
  /-- DIVIDER_STEP (R438): After lock each divider moves one step per µs to its target. -/
  | dividerStep (q : Fin 4) (now : Nat)
  /-- GATE_CLOSE_REQUEST (R439): A request to close a clock gate is taken or refused and counted in GATE_REFUSED. -/
  | gateCloseRequest (q : Fin 4) (g : Fin 64) (idle : Bool)
  /-- GATE_OPEN (R439): A request to a gated block opens the gates above it from the root down. -/
  | gateOpen (q : Fin 4) (g : Fin 64)
  /-- AON_OSCILLATOR_STABLE (R440): After 1,024 cycles above threshold the always-on domain leaves reset. -/
  | aonOscillatorStable
  /-- AON_OSCILLATOR_TIMEOUT (R440): Not stable 2 s after supply, the device stays in cold reset. -/
  | aonOscillatorTimeout
  /-- AON_CLK_LOST (R440): The oscillator amplitude falls, stopping hour counting and the interlock pattern. -/
  | aonClkLost (now : Nat)
  /-- OPERATING_HOUR_TICK (R441): Each operating hour the always-on counts are written to boot flash. -/
  | operatingHourTick
  /-- OVER_TEMPERATURE_TRIP (R442): A junction reaches TJ_TRIP, clocks stop within 10 µs and THERM_TRIP_N asserts. -/
  | overTemperatureTrip (now : Nat)
  /-- SUPPLY_LOSS (R442): A watched rail leaves its window without dormant entry, setting SUPPLY_LOST. -/
  | supplyLoss (rail : Fin 5) (now : Nat)
  /-- WAKE_N (R454): WAKE_N asserted for 30 µs, or core rails rising while dormant, starts a wake. -/
  | wakeN (low : Bool) (ticks : Nat)
  /-- COLD_RESET (R443): A cold cause resets the device, clearing the key store and losing memory. -/
  | coldReset (cause : Fin 4) (now : Nat)
  /-- RESET_COLD (R443): The Custodian command takes a cold reset. -/
  | resetCold (r : Role) (now : Nat)
  /-- WARM_RESET (R445): A warm cause stops admission, gates outputs, drains homes and puts stacks in self-refresh. -/
  | warmReset (selfFenced : Bool) (now : Nat)
  /-- RESET_WARM (R443): The Operator command takes a warm reset. -/
  | resetWarm (r : Role) (now : Nat)
  /-- DEVICE_WATCHDOG_REFRESH (R444): Anchor firmware refreshes the device watchdog. -/
  | deviceWatchdogRefresh (now : Nat)
  /-- DEVICE_WATCHDOG_EXPIRY (R444): The watchdog is not refreshed for 10 s and the device takes a warm reset. -/
  | deviceWatchdogExpiry (now : Nat)
  /-- RESET_RELEASE (R446): A reset cause is released and the start sequence runs, restoring kept state. -/
  | resetRelease (ticks : Nat)
  /-- STACK_TRAINING_DONE (R347): Stacks are trained, the rate chosen, remaps applied and the fill started. -/
  | stackTrainingDone (codes : List (Fin 4))
  /-- POWER_ON_FILL_DONE (R366): The power-on fill ends and FILL_DONE is set. -/
  | powerOnFillDone
  /-- BOOT_FLASH_READ (R451): The boot ROM reads flash, repairing failed partitions and skipping invalid slots. -/
  | bootFlashRead (okA okB okBcr : BitVec 2) (a b : Option (Nat × BitVec 384)) (bcr : List Byte) (identityOk : Bool) (now : Nat)
  /-- DEVICE_RELEASE (R450): After start-up work ends admission opens and ports begin to train or probe. -/
  | deviceRelease (fails : List (Nat × Nat)) (now : Nat)
  /-- ENTER_DORMANT (R453): The Operator command quiesces the device and asserts DORMANT_N if idle. -/
  | enterDormant (r : Role) (now : Nat)
  /-- RESET_COUNTERS (R459): The Operator command returns and resets one instance of a counter array. -/
  | resetCounters (r : Role) (f : Fin 16) (n : Fin 64) (who : Nat)
  /-- METRIC_SAMPLE (R464): Each second the recorder samples the 24 metrics into buckets. -/
  | metricSample (use : List Nat) (now : Nat)
  /-- PERIOD_END (R465): Each PERIOD_MIN minutes the recorder writes a PERIOD record. -/
  | periodEnd (now : Nat)
  /-- CLEAR_RECORDER (R470): A Custodian clears the log, erasing both partitions and writing a CLEAR record. -/
  | clearRecorder (r : Role) (digest : BitVec 384) (now : Nat)
  /-- CLEAR_ERASE_DONE (R470): The erase ends, the CLEAR record commits and staged records are written. -/
  | clearEraseDone (now : Nat)
  /-- READ_RECORDER (R471): A management role reads committed log bytes with CLEARS and WRITE_PTR. -/
  | readRecorder (off len : Nat)
  /-- REC_WINDOW (R471): The Operator command sets a logical device's cursor-window permission. -/
  | recWindow (r : Role) (d : Fin 64) (on : Bool) (who : Nat)
  /-- REC_PERIOD (R465): The Operator command sets PERIOD_MIN. -/
  | recPeriod (r : Role) (minutes : BitVec 11)
  /-- OBS_SELECT (R474): The Operator selects an observation land's signal, zeroising keys for data paths if confirmed. -/
  | obsSelect (r : Role) (k : Fin 16) (g q : Fin 4) (idx : Fin 4096) (confirm : Bool)
  /-- FREEZE_N (R472): FREEZE_N low for 1 µs stops admission, zeroes buffers and stops clocks. -/
  | freezeN (low : Bool) (now : Nat)
  /-- BYPASS (R473): The TAP instruction selects the one-bit bypass register. -/
  | bypass
  /-- IDCODE (R473): The TAP instruction returns 0xB403_2C53. -/
  | idcode
  /-- SAMPLE_PRELOAD (R473): The TAP instruction accesses the boundary cells. -/
  | samplePreload
  /-- EXTEST (R473): The TAP instruction drives electrical lands in cold reset or after freeze. -/
  | extest
  /-- SCAN_SELECT (R473): After freeze the TAP instruction selects a quadrant for dump. -/
  | scanSelect (q : Fin 4)
  /-- SCAN_DUMP (R473): After freeze the TAP instruction shifts out every flip-flop of the selected quadrant. -/
  | scanDump
  /-- CURSOR_WRITE (R471): A logical device sets CURSOR to view log bytes through its window. -/
  | cursorWrite (d : Fin 64) (data : BitVec 64)
  /-- SET_PRIV (R483): The fabric manager sets or clears a logical device's privilege bit. -/
  | setPriv (d : Fin 64) (on : Bool)
  /-- REGISTER_WRITE (R478): A write to a register without its own row is applied, ignored or flagged per scope and access. -/
  | registerWrite (a : RegAccess)
  /-- FA_PRESENCE_CHANGE (R498): FA_PRES_N changes, and LSRC_EN is driven high after 1 ms mated or low within 10 µs. -/
  | faPresenceChange (e : Fin 16) (mated : Bool)
  /-- AVS_TIMEOUT (R501): A core regulator fails to answer in 5 µs or reports a fault and its quadrant is fenced. -/
  | avsTimeout (q : Fin 4) (now : Nat)
  /-- SUPPLY_RETURN (R503): A removed rail returns to its presence window, letting a pending wake from dormant or a cold start proceed. -/
  | supplyReturn (rail : Fin 5) (ticks : Nat)
  /-- LANE_LOCK_LOSS (R284): A single lane loses signal or lock for 1 µs while the port's other lanes keep theirs, and the receiver declares it faulty. -/
  | laneLockLoss (n : Fin 64) (lane : Fin 16) (now : Nat)
  /-- SEQUENCE_QUARANTINE_EXPIRY (R308): 1.1 ms after its last transmission an acknowledged packet stops being live, so a flow held by rule 3 may send its next SEQ. -/
  | sequenceQuarantineExpiry (f : Flow) (now : Nat)
  /-- PARITY_ALERT_CLEAR (R355): A stack channel's parity alert clears, and the controller precharges every bank and replays from the failing command. -/
  | parityAlertClear (c : Fin 1024) (now : Nat)
  /-- DIRECTORY_SCAN (R339): A home's directory scan reaches an entry naming a cut, decommitted, reset or link-down logical device and sends BISnpInv or resolves the line. -/
  | directoryScan (l : Nat)
  deriving DecidableEq, Repr

end Sys2Proof
end

