-- ==== Sys2Proof/Machine/State.lean ====
section
/-! DEFINITION. The state of the DP4032 as plain data, the faults and refusals of a step, and the state after a cold
reset. -/

namespace Sys2Proof.Machine

/-- THE STATE of the block: everything the spec gives the machine, the queue of waiting commands, and the model's own
bookkeeping (`out`, the outputs sent, newest first; `free`, the counter that open values are drawn with). -/
structure State where
  /-- Commands waiting, first in first out. -/
  pending : List Instr := []
  out : List Out := []
  /-- Pool time (R9). -/
  time : Nat := 0
  free : Nat := 0
  /-- Capacity grade of the part: 36, 48 or 64 (R1). -/
  grade : Nat := 64
  /-- Every counter of Table 18.9: key (row × 64 + unit) × 65536 + index. -/
  cnt : Tbl Nat := []
  obs : RecState := {}
  pool : PoolState := {}
  xlt : XltState := {}
  dir : DirState := {}
  mem : MemState := {}
  rof : RofState := {}
  e2e : E2eState := {}
  que : QueState := {}
  nm : NmState := {}
  core : CoreState := {}
  sch : SchState := {}
  cxl : CxlState := {}
  sec : SecState := {}
  fen : FenState := {}
  pair : PairState := {}
  clk : ClkState := {}
  map : MapState := {}
  deriving DecidableEq, Repr

/-- A step stops with a fault only where the spec says that an address does not exist. -/
inductive Fault where
  /-- Raised by PATROL_SCRUB_READ when its pool-physical address lies at or beyond the grade's stack capacity (R29): safe, the
  machine stops where the hardware has no such line. -/
  | noSuchAddress (ppa : Nat)
  deriving DecidableEq, Repr

/-- A refusal: a command that has no meaning yet. -/
inductive Refusal where
  /-- Raised by an arm of `exec` that is not modelled: safe, the machine stops. -/
  | notModelled (mnemonic : String)
  deriving DecidableEq, Repr

/-- The hidden tag area (R2, R349): how many blocks of the grade's top it takes, and the first of them. -/
def tagBlocks (grade : Nat) : Nat := if grade = 36 then 18 else if grade = 48 then 24 else 32

/-- Blocks of stack capacity of a grade (Table 0.1): 1,152, 1,536 or 2,048 GiB in blocks of 256 MiB. -/
def gradeBlocks (grade : Nat) : Nat := if grade = 36 then 4608 else if grade = 48 then 6144 else 8192

/-- The block of system space that holds the page tables: the highest below the hidden tag area (DESIGN CHOICE). -/
def tableBlock (grade : Nat) : Nat := gradeBlocks grade - tagBlocks grade - 1

/-- The block map at reset: the hidden tag area at the top, placed device-wide with a grain of 4 KiB under the strong
code (R349), and below it six blocks of system space: one of page tables, four of reduction-window bitmaps (1 GiB, R180)
and one of other metadata (DESIGN CHOICE). -/
def resetBlocks (grade : Nat) : Tbl BlockEnt :=
  let top := gradeBlocks grade
  let n := tagBlocks grade
  let k := tableBlock grade
  ((List.range 5).map (fun i => (k - 5 + i, { valid := true, system := true, grainLog2 := 12, frame := k - 5 + i })) ++
   (k, { valid := true, system := true, tables := true, grainLog2 := 12, frame := k }) ::
    (List.range n).map (fun i =>
      (top - n + i, { valid := true, tag := true, grainLog2 := 12, frame := top - n + i })))

/-- The machine right after a cold reset: every field at the value the spec states for reset; where it states none,
the value the assumption log names. -/
def State.reset : State := { mem := { blocks := resetBlocks 64 } }

end Sys2Proof.Machine
end

