-- ==== Sys2Proof/Machine/Flags.lean ====
section
/-! DEFINITION. Status computations: the values the spec derives from the state (fence codes, islands, reachable homes,
output gating, acting control values, status codes). -/

namespace Sys2Proof.Machine

/-- Numeric values of Table 5.10 (R144). -/
def Status.code : Status → Nat
  | .ok => 0 | .poison => 1 | .mappingWithdrawn => 2 | .tileFault => 3 | .tenantRevoked => 4 | .conflict => 5
  | .partial_ => 6 | .timeout => 7 | .waitTimeout => 8 | .abandoned => 9 | .orphaned => 10 | .coreFenced => 11
  | .deferredExpired => 12 | .policed => 13 | .unverified => 14

/-- Index of the strait that joins two quadrants, in the order T01, T02, T03, T12, T13, T23 (Table 16.7). -/
def straitIdx (a b : Nat) : Nat :=
  match min a b, max a b with
  | 0, 1 => 0 | 0, 2 => 1 | 0, 3 => 2 | 1, 2 => 3 | 1, 3 => 4 | _, _ => 5

def quad (s : State) (q : Nat) : Quad := tget {} s.fen.quads q

/-- The quadrant is fenced, for a fault of its own or by position (R407, R410, R414). -/
def qFenced (s : State) (q : Nat) : Bool := (quad s q).faultFenced || (quad s q).positionFenced

/-- The strait between two quadrants is in service (R14). -/
def straitUp (s : State) (a b : Nat) : Bool := !(tget false s.fen.straitLost (straitIdx a b))

/-- Two different quadrants in service joined by an in-service strait (R16). -/
def joined (s : State) (a b : Nat) : Bool := a != b && straitUp s a b && !(qFenced s a) && !(qFenced s b)

/-- Two different quadrants without a fault fence joined by an in-service strait: a fenced island keeps its straits. -/
def linked (s : State) (a b : Nat) : Bool :=
  a != b && straitUp s a b && !(quad s a).faultFenced && !(quad s b).faultFenced

/-- The quadrants of a set and those that a relation joins to one of them. -/
def reachStep (r : Nat → Nat → Bool) (l : List Nat) : List Nat :=
  (List.range 4).filter (fun q => l.contains q || l.any (fun p => r p q))

/-- What a quadrant reaches in at most three crossings (R15). -/
def reachFrom (r : Nat → Nat → Bool) (q : Nat) : List Nat := reachStep r (reachStep r (reachStep r [q]))

/-- The island of a quadrant in service (R16): the quadrants in service that it reaches over in-service straits, directly
or by relay (R15). A quadrant that is not in service is in no island. -/
def islandOf (s : State) (q : Nat) : List Nat := if qFenced s q then [] else reachFrom (joined s) q

/-- The quadrants without a fault fence that a quadrant reaches over in-service straits: what an island that wants to
rejoin can reach (R416). -/
def straitReach (s : State) (q : Nat) : List Nat := if (quad s q).faultFenced then [] else reachFrom (linked s) q

/-- The quadrant whose island is the anchor's (R415): the anchor, or once it is fenced and until the spare has taken the
role (R419), the spare. -/
def anchorSeat (s : State) : Option Nat := s.fen.anchor.map (fun a => if (quad s a).faultFenced then 2 else a)

/-- The quadrants in the anchor's island (R415). -/
def anchorIsland (s : State) : List Nat :=
  match anchorSeat s with
  | some a => islandOf s a
  | none => []

/-- Somebody holds the anchor role and is in service: the duties of R17 are done. After Q0 has been fenced nobody does them
until Q2 has taken the role (R19), and without an anchor nobody does (R418). -/
def anchorServes (s : State) : Bool :=
  match s.fen.anchor with
  | some a => !(quad s a).faultFenced
  | none => false

/-- A block is fenced under R396: kinds 0 move engine, 1 queue block, 2 home agent, 3 translation unit, 4 stack controller,
5 transport block. -/
def blockFenced (s : State) (k i : Nat) : Bool := s.fen.fencedBlocks.contains (k, i)

/-- A quadrant in service: not fenced, and in the anchor's island (R411, R415). -/
def quadServes (s : State) (q : Nat) : Bool := !(qFenced s q) && (anchorIsland s).contains q

/-- A home is reachable when its quadrant is in service (R411) and its home agent is not fenced under R396. -/
def homeReachable (s : State) (q : Nat) : Bool := quadServes s q && !(blockFenced s 2 q)

/-- A quadrant can send the requests that enter it on to their homes: it is in service (R415), and its translation unit is
not fenced under R396. -/
def entryServes (s : State) (q : Nat) : Bool := quadServes s q && !(blockFenced s 3 q)

/-- The relay quadrants of traffic between two quadrants (R15): none when their strait is up; the lowest-numbered
quadrant with both straits in service; otherwise both others in turn; `none` when no path exists. -/
def relayRoute (s : State) (a b : Nat) : Option (List Nat) :=
  if joined s a b then some []
  else
    match (List.range 4).find? (fun m => m != a && m != b && joined s a m && joined s m b) with
    | some m => some [m]
    | none =>
      match (List.range 4).find? (fun m => (List.range 4).any
          (fun n => m != a && m != b && n != a && n != b && m != n && joined s a m && joined s m n && joined s n b)) with
      | some m =>
        match (List.range 4).find? (fun n => n != a && n != b && n != m && joined s m n && joined s n b) with
        | some n => some [m, n]
        | none => none
      | none => none

/-- Q2 shows SPARE: Q0 holds the anchor role, Q2 is in its island, not fenced, and its state copy is current (R417). -/
def spareReady (s : State) : Bool :=
  decide (s.fen.anchor = some 0) && quadServes s 2 && !s.fen.spareLost

/-- The code a quadrant drives on its fence status line (R413). -/
def fenceCode (s : State) (q : Nat) : FenceCode :=
  if qFenced s q then .fenced
  else if s.fen.anchor = some q then .anchor
  else if q = 2 && spareReady s then .spare
  else .inService

/-- The device takes no command while stopped, in reset, dormant, frozen or tripped, nor once its key store has been
zeroised for an observation (R399). -/
def halted (s : State) : Bool :=
  s.sec.keysZeroised ||
  match s.clk.phase with
  | .starting => false
  | .released => false
  | _ => true

/-- A standby, in step or not yet: it leaves every decision to the active's order stream (R426). -/
def follows (s : State) : Bool := decide (s.pair.st = .standby) || decide (s.pair.st = .standbySync)

/-- Admission of jobs is open (R450), and not paused by an anchor move (R419), an activation (R404) or the end of a
re-silvering (R434); a standby admits only what the order stream names (R426). -/
def admissionOpen (s : State) : Bool :=
  decide (s.clk.phase = .released) && (match s.fen.anchorMoveUntil with | some t => decide (t ≤ s.time) | none => true) &&
  !s.sch.actPause && !s.pair.snapshotDue && s.pair.snapshotAt.isNone &&
  !(follows s)

/-- The device is part of a pair (R425). -/
def paired (s : State) : Bool := decide (s.pair.st ≠ .solo)

/-- Outputs are gated (R424, R445 step 1, R472 step 1). -/
def gated (s : State) : Bool :=
  halted s || (paired s && !(decide (s.pair.st = .active) && s.pair.gateOpen))

/-- The endpoint ID of a quadrant (R21). -/
def endpointOf (s : State) (q : Nat) : Nat := (s.sec.endpointBase + q) % 65536

/-- The quadrant an endpoint ID of the device's own block names (R21). -/
def ownQuadrant (s : State) (id : Nat) : Option Nat :=
  if s.sec.endpointBase ≤ id ∧ id < s.sec.endpointBase + 4 then some (id - s.sec.endpointBase) else none

def tenant (s : State) (t : Nat) : Tenant := tget {} s.sec.tenants t

/-- The tenant is ACTIVE or REKEYING. -/
def tenantLive (s : State) (t : Nat) : Bool :=
  match (tenant s t).st with
  | .active => true
  | .rekeying => true
  | _ => false

/-- The tenant is being removed: REVOKING, or SCRUBBING (R395, R397). -/
def tenantGone (s : State) (t : Nat) : Bool :=
  match (tenant s t).st with
  | .revoking => true
  | .scrubbing => true
  | _ => false

def sealedOf (s : State) (e : Nat) : Sealed := tget {} s.sec.sealeds e

def xunit (s : State) (q : Nat) : XltUnit := tget {} s.xlt.units q
def roots (s : State) (t : Nat) : Roots := tget {} s.xlt.roots t
def extent (s : State) (e : Nat) : Extent := tget {} s.pool.extents e
def kite (s : State) (k : Nat) : Option Kite := tget none s.pool.kites k
def line (s : State) (l : Nat) : Line := tget {} s.dir.lines l
def block (s : State) (b : Nat) : BlockEnt := tget {} s.mem.blocks b
def stack (s : State) (n : Nat) : Stack := tget {} s.mem.stk n
def port (s : State) (p : Nat) : Port := tget {} s.rof.ports p
def vcOf (s : State) (p v : Nat) : VcState := tget {} s.rof.vcs (p * 8 + v)
def queue (s : State) (n : Nat) : Queue := tget {} s.que.queues n
def group (s : State) (g : Nat) : Group := tget {} s.que.groups g
def job (s : State) (j : Nat) : Option Job := tget none s.que.jobs j
def window (s : State) (w : Nat) : Window := tget {} s.nm.windows w
def coreOf (s : State) (n : Nat) : Core := tget {} s.core.cores n
def pwrq (s : State) (q : Nat) : PwrQ := tget {} s.sch.q q
def cxlPort (s : State) (p : Nat) : CxlPort := tget {} s.cxl.ports p
def logDev (s : State) (d : Nat) : LogDev := tget {} s.cxl.lds d
/-- A logical device is bound to the tenant. -/
def hasHost (s : State) (t : Nat) : Bool := (List.range 64).any (fun d => (logDev s d).bound && (logDev s d).tenant == t)
def wdw (s : State) (d g : Nat) : Wdw := tget {} s.cxl.wins (d * 32 + g)

/-- DRAIN_BOUND_US as it acts (Table 3.9). -/
def drainBoundUs (s : State) (q : Nat) : Nat := clampN 4 64 (xunit s q).drainBoundUs.toNat
/-- RECALL_TIMEOUT_US as it acts (Table 4.10). -/
def recallTimeoutUs (s : State) (q : Nat) : Nat := clampN 20 5000 (tget 0xC8 s.dir.recallTimeoutUs q)
/-- The transport controls as they act (Table 12.9). -/
def resendUs (s : State) (q : Nat) : Nat := clampN 5 1000 (tget 0x32 s.e2e.resendUs q)
def resendLimitUs (s : State) (q : Nat) : Nat := clampN 100 900 (tget 0x1F4 s.e2e.resendLimitUs q)
def reasmUs (s : State) (q : Nat) : Nat := clampN 5 200 (tget 0x14 s.e2e.reasmUs q)

/-- Core cause: a fenced core (R407). -/
def coreFenced (s : State) (n : Nat) : Bool :=
  tget 0 s.fen.coreCause n != 0 || qFenced s (n / 40)

/-- CORES_IN_SERVICE (Table 7.9, R409). -/
def coresInService (s : State) : Nat := ((List.range 160).filter (fun n => !(coreFenced s n))).length

/-- Bits of a status word, from bit 0 up. -/
def maskOf (l : List Bool) : Nat := l.foldr (fun b a => b2n b + 2 * a) 0

end Sys2Proof.Machine
end

