-- ==== Sys2Proof/Machine/Ops.lean ====
section
/-! DEFINITION. Shared operations: time, outputs, counters, the event recorder, free values, table updates of the
state's blocks. -/

namespace Sys2Proof.Machine

/-- Every meaning of this model answers a next state; the commands that carry a pool-physical address may fault. -/
abbrev Ans := Host.Outcome State Fault Refusal

/-- A command takes effect only while the device is not stopped. -/
def live (s : State) (t : State) : State := if halted s then s else t

/-- A duty of the anchor role is done while somebody who holds the role serves (R17 to R19). Until then the command gets no
answer, and only its pool time passes (DESIGN CHOICE: no sender waits for it). -/
def managed (s : State) (t : State) : State := if anchorServes s then t else { s with time := t.time }

/-- A command that the management network brings to the anchor. -/
def served (s : State) (t : State) : State := live s (managed s t)

/-- Pool time moves on to `now` (R9); it never runs backwards here. -/
def advance (now : Nat) (s : State) : State := { s with time := max s.time now }

/-- Which outputs the pair's gate holds back (R424): everything but management, link control, pair and transit
traffic. -/
def gatedKind (s : State) : Out → Bool
  | .frame p pk _ => !(port s p).pair && (ownQuadrant s pk.src.toNat).isSome
  | .cxl .. => true
  | .snoop .. => true
  | .biConflictAck .. => true
  | .dmaWrite .. => true
  | .dmaRead .. => true
  | .atsRequest .. => true
  | .atsInvalComplete .. => true
  | .msix .. => true
  | .hostEvent .. => true
  | _ => false

/-- An active whose stream a standby follows holds an output back until every record so far is acknowledged (R427). -/
def awaitsAck (s : State) : Bool :=
  decide (s.pair.st = .active) && decide (s.pair.follower ≠ 0) && decide (s.pair.acked < s.pair.sent)

/-- Sends an output, unless the gate of R424 is closed to it; it may wait for an OrderAck first (R427). -/
def emit (o : Out) (s : State) : State :=
  if gatedKind s o then
    if gated s then s
    else if awaitsAck s then { s with pair := { s.pair with held := s.pair.held ++ [(s.pair.sent, o)] } }
    else { s with out := o :: s.out }
  else { s with out := o :: s.out }

/-- A fabric-manager or management command completes with a status and values. -/
def fmDone (st : Status) (vals : List Nat) (s : State) : State := emit (.fm st vals) s

/-- A fabric-manager alert. -/
def alert (k : Alert) (vals : List Nat) (s : State) : State := emit (.alert k vals) s

/-! Counters (R456 to R459): row `f` of Table 18.9, unit `n`, counter `i`. -/

def cntKey (f n i : Nat) : Nat := (f * 64 + n) * 65536 + i

def cntGet (s : State) (f n i : Nat) : Nat := tget 0 s.cnt (cntKey f n i)

/-- Adds `k` to a monotonic counter, which saturates at 2^64 − 1 (R457). -/
def cntAdd (f n i k : Nat) (s : State) : State :=
  { s with cnt := tmod 0 s.cnt (cntKey f n i) (fun a => satAdd (2 ^ 64 - 1) a k) }

def bump (f n i : Nat) (s : State) : State := cntAdd f n i 1 s

/-- Rows of Table 18.9. -/
abbrev cDir := 0
abbrev cQue := 1
abbrev cNmo := 2
abbrev cSyn := 3
abbrev cPwr := 4
abbrev cSch := 5
abbrev cRof := 6
abbrev cE2e := 7
abbrev cCxl := 8
abbrev cMem := 9
abbrev cSec := 10
abbrev cFen := 11
abbrev cPair := 12
abbrev cUtil := 13
abbrev cOps := 14
abbrev cOne := 15

/-- DPC_OBS_SAT row `f` (Table 18.8): the instances that hold a saturated counter. -/
def obsSat (s : State) (f : Nat) : Nat :=
  maskOf ((List.range 64).map (fun n => s.cnt.any
    (fun c => decide (c.1 / 65536 = f * 64 + n) && decide (c.2 = 2 ^ 64 - 1))))

/-! Free values. -/

/-- Draws a fresh open 64-bit value. -/
def drawWord (s : State) : BitVec 64 × State := (Config.freeWord s.free, { s with free := s.free + 1 })

/-- Draws `n` fresh open bytes. -/
def drawBytes (n : Nat) (s : State) : List Byte × State :=
  ((List.range n).map (Config.freeByte s.free), { s with free := s.free + 1 })

def drawBool (s : State) : Bool × State := (Config.freeBool s.free, { s with free := s.free + 1 })

/-! The event recorder (R463 to R471). -/

/-- Whole record length: header 32 and the body in whole 32-byte units. -/
def recBytes (body : List Nat) : Nat := 32 + 32 * ceilDiv (8 * body.length) 32

/-- Bytes of the log committed so far (WRITE_PTR). -/
def writePtr (s : State) : Nat := (s.obs.log.map (fun r => recBytes r.body)).foldl (· + ·) 0

/-- Commits a record at the end of the log, or counts it in LOST when it does not fit (R469). -/
def logPush (r : LogRec) (s : State) : State :=
  if s.obs.full || decide (1048576 < writePtr s + recBytes r.body) then
    { s with obs := { s.obs with full := true, lost := satAdd (2 ^ 64 - 1) s.obs.lost 1 } }
  else { s with obs := { s.obs with log := s.obs.log ++ [{ r with seq := s.obs.seq }], seq := s.obs.seq + 1 } }

/-- FLAGS of a record stamped now (R462). -/
def recFlags (s : State) : Nat := b2n s.e2e.locked + 2 * b2n s.e2e.holdover

/-- Bytes held in the staging buffer. -/
def stagedBytes (s : State) : Nat := (s.obs.staging.map (fun r => recBytes r.body)).foldl (· + ·) 0

/-- Writes a record, with SHORT (R466) if `short`: into the log, or into the 64 KiB staging buffer while an erase runs
(R470). -/
def recordAs (short : Bool) (kind subject : Nat) (body : List Nat) (s : State) : State :=
  let r : LogRec := { kind := kind, flags := recFlags s + 4 * b2n short, seq := 0, time := s.time, hours := s.clk.operatingHours,
                      cycles := s.clk.powerCycles, subject := subject, body := body }
  if s.obs.clearing then
    if 65536 < stagedBytes s + recBytes body then
      { s with obs := { s.obs with lost := satAdd (2 ^ 64 - 1) s.obs.lost 1 } }
    else { s with obs := { s.obs with staging := s.obs.staging ++ [r] } }
  else logPush r s

def record (kind subject : Nat) (body : List Nat) (s : State) : State := recordAs false kind subject body s

/-- An EVENT record of Table 18.6 (R468). -/
def event (code : Nat) (body : List Nat) (s : State) : State := record 3 code body s

/-- An EVENT of a debug or management action: command number (DESIGN CHOICE: the order in which the model lists the
commands), three operands, bytes 0 to 15 of the requester's certificate digest. -/
def actionEvent (cmd : Nat) (args : List Nat) (who : Nat) (s : State) : State :=
  event 0x14 [cmd, args.getD 0 0, args.getD 1 0, args.getD 2 0, who % 2 ^ 64, who / 2 ^ 64 % 2 ^ 64] s

/-! Block updates: one setter per table of the state. -/

def setXunit (q : Nat) (u : XltUnit) (s : State) : State :=
  { s with xlt := { s.xlt with units := tput {} s.xlt.units q u } }
def setRoots (t : Nat) (r : Roots) (s : State) : State :=
  { s with xlt := { s.xlt with roots := tput {} s.xlt.roots t r } }
def setExtent (e : Nat) (x : Extent) (s : State) : State :=
  { s with pool := { s.pool with extents := tput {} s.pool.extents e x } }
def setKite (k : Nat) (x : Option Kite) (s : State) : State :=
  { s with pool := { s.pool with kites := tput none s.pool.kites k x } }
def setLine (l : Nat) (x : Line) (s : State) : State :=
  { s with dir := { s.dir with lines := tput {} s.dir.lines l x } }
def setBlock (b : Nat) (x : BlockEnt) (s : State) : State :=
  { s with mem := { s.mem with blocks := tput {} s.mem.blocks b x } }
def setStack (n : Nat) (x : Stack) (s : State) : State :=
  { s with mem := { s.mem with stk := tput {} s.mem.stk n x } }
def setPort (p : Nat) (x : Port) (s : State) : State :=
  { s with rof := { s.rof with ports := tput {} s.rof.ports p x } }
def setVc (p v : Nat) (x : VcState) (s : State) : State :=
  { s with rof := { s.rof with vcs := tput {} s.rof.vcs (p * 8 + v) x } }
def setQueue (n : Nat) (x : Queue) (s : State) : State :=
  { s with que := { s.que with queues := tput {} s.que.queues n x } }
def setGroup (g : Nat) (x : Group) (s : State) : State :=
  { s with que := { s.que with groups := tput {} s.que.groups g x } }
def setJob (j : Nat) (x : Option Job) (s : State) : State :=
  { s with que := { s.que with jobs := tput none s.que.jobs j x } }
def setWindow (w : Nat) (x : Window) (s : State) : State :=
  { s with nm := { s.nm with windows := tput {} s.nm.windows w x } }
def setCore (n : Nat) (x : Core) (s : State) : State :=
  { s with core := { s.core with cores := tput {} s.core.cores n x } }
def setPwrq (q : Nat) (x : PwrQ) (s : State) : State :=
  { s with sch := { s.sch with q := tput {} s.sch.q q x } }
def setCxlPort (p : Nat) (x : CxlPort) (s : State) : State :=
  { s with cxl := { s.cxl with ports := tput {} s.cxl.ports p x } }
def setLogDev (d : Nat) (x : LogDev) (s : State) : State :=
  { s with cxl := { s.cxl with lds := tput {} s.cxl.lds d x } }
def setWdw (d g : Nat) (x : Wdw) (s : State) : State :=
  { s with cxl := { s.cxl with wins := tput {} s.cxl.wins (d * 32 + g) x } }
def setTenant (t : Nat) (x : Tenant) (s : State) : State :=
  { s with sec := { s.sec with tenants := tput {} s.sec.tenants t x } }
def setSealed (e : Nat) (x : Sealed) (s : State) : State :=
  { s with sec := { s.sec with sealeds := tput {} s.sec.sealeds e x } }
def setQuad (q : Nat) (x : Quad) (s : State) : State :=
  { s with fen := { s.fen with quads := tput {} s.fen.quads q x } }

/-! Host event logs (R342): logs 0 informational, 1 warning, 2 failure, 3 fatal, of 256 records each. -/

/-- Records in an event log of a logical device. -/
def eventLog (s : State) (d k : Nat) : List (Nat × Nat × List Nat) := tget [] s.cxl.events (d * 4 + k)

/-- Adds a record (handle, type, values) to a host's event log, and raises its MSI-X interrupt when the policy of the
log selects it: bits [1:0] of the log's byte 1, the message number in [7:4] (PRESUMED: CXL). -/
def hostLog (d k typ : Nat) (vals : List Nat) (s : State) : State :=
  let l := eventLog s d k
  if 256 ≤ l.length then s
  else
    let h := tget 0 s.cxl.nextHandle d % 65535 + 1
    let s := { s with cxl := { s.cxl with events := tput [] s.cxl.events (d * 4 + k) (l ++ [(h, typ, vals)])
                                          nextHandle := tput 0 s.cxl.nextHandle d h } }
    let b := field (tget {} s.cxl.lds d).eventPolicy (8 * k) 8
    if b % 4 = 1 then emit (.msix d (b / 16)) s else s

/-! Register access (R477, R482, R484). -/

/-- BAD_WRITE or BAD_READ of a logical device is set, with the offset of the access (Table 19.6). -/
def badAccess (d : Nat) (write : Bool) (off : Nat) (s : State) : State :=
  { s with map := { s.map with
    badWrite := tput false s.map.badWrite d (write || tget false s.map.badWrite d)
    badRead := tput false s.map.badRead d (!write || tget false s.map.badRead d)
    lastOffset := tput 0 s.map.lastOffset d (off % 2 ^ 24) } }

/-- BAR0 and BAR4 writes of a logical device bound to a tenant that is neither ACTIVE nor REKEYING are ignored (R484). -/
def writesIgnored (s : State) (d : Nat) : Bool := (logDev s d).bound && !(tenantLive s (logDev s d).tenant)

/-- The host that owns a queue's group has its register writes ignored (R484). -/
def ownerIgnored (s : State) (n : Nat) : Bool :=
  match (group s (n / 8)).owner with
  | .host d => writesIgnored s d
  | _ => false

/-- Applies an operation for each element in turn. -/
def forEach {α : Type} (l : List α) (f : α → State → State) (s : State) : State := l.foldl (fun t a => f a t) s

/-- Applies an operation when a condition holds. -/
def when (c : Bool) (f : State → State) (s : State) : State := if c then f s else s

end Sys2Proof.Machine
end

