-- ==== Sys2Proof/Machine/NetOps.lean ====
section
/-! DEFINITION. Sourcing packets (chapters 11 and 12): send contexts (R303 to R305, R308, R312), routing (R295), the
port queues. -/

namespace Sys2Proof.Machine

/-- Finds a value in an association list. -/
def afind {κ α : Type} [DecidableEq κ] : List (κ × α) → κ → Option α
  | [], _ => none
  | (a, v) :: r, k => if a = k then some v else afind r k

/-- Writes a value in an association list. -/
def aset {κ α : Type} [DecidableEq κ] (k : κ) (v : α) : List (κ × α) → List (κ × α)
  | [] => [(k, v)]
  | (a, w) :: r => if a = k then (k, v) :: r else (a, w) :: aset k v r

/-- Removes a key. -/
def adel {κ α : Type} [DecidableEq κ] (k : κ) (l : List (κ × α)) : List (κ × α) := l.filter (fun c => !(decide (c.1 = k)))

def sendCtx (s : State) (k : FlowKey) : Option SendCtx := afind s.e2e.send k
def setSend (k : FlowKey) (c : SendCtx) (s : State) : State := { s with e2e := { s.e2e with send := aset k c s.e2e.send } }
def recvCtx (s : State) (k : FlowKey) : Option RecvCtx := afind s.e2e.recv k
def setRecv (k : FlowKey) (c : RecvCtx) (s : State) : State := { s with e2e := { s.e2e with recv := aset k c s.e2e.recv } }

/-- Pool time [25:10], the unit of BIRTH and age (R294). -/
def birthNow (s : State) : Nat := s.time / 1024 % 65536

/-- Age of a packet in units of 1,024 ns (R294). -/
def ageOf (s : State) (p : Packet) : Nat := (birthNow s + 65536 - p.birth.toNat) % 65536

/-- The packet as transmitted now: BIRTH and CRC renewed (R308 rule 1). -/
def stamp (s : State) (p : Packet) : Packet :=
  let p := { p with birth := BitVec.ofNat 16 (birthNow s), crc := 0 }
  { p with crc := packetCrc p }

/-- Words queued on a port for a channel (QDEPTH). -/
def qdepth (s : State) (p v : Nat) : Nat :=
  (((port s p).txq.filter (fun k => k.pkt.vc.toNat == v)).map (fun k => frameWords k.pkt)).foldl (· + ·) 0

/-- Candidate output ports of a packet (R295): ROUTE[DST] less the entry port and every port not UP. -/
def candidates (s : State) (dst : Nat) (entry : Option Nat) : List Nat :=
  (List.range 64).filter (fun p => (tget 0 s.rof.route dst).getLsbD p && !(decide (entry = some p)) &&
    decide ((port s p).st = .up))

/-- Cost of a port for the adaptive choice (R295). -/
def routeCost (s : State) (q v p : Nat) : Nat := qdepth s p v + (if p / 16 = q then 0 else s.rof.adaptBiasW)

/-- The route choice of R295 for a packet that is in quadrant `q`. -/
def choosePort (s : State) (q : Nat) (p : Packet) (entry : Option Nat) : Option Nat :=
  let c := candidates s p.dst.toNat entry
  if c.isEmpty then none
  else if p.pin || p.vc = 7#3 then
    let h := (crc32c (leBytes 2 p.dst.toNat ++ leBytes 2 p.src.toNat ++ [BitVec.ofNat 8 p.vc.toNat])).toNat
    (c.drop (h % c.length)).head?
  else
    let best := (c.map (routeCost s q p.vc.toNat)).foldl min (routeCost s q p.vc.toNat (c.headD 0))
    let low := c.filter (fun x => routeCost s q p.vc.toNat x == best)
    let last := tget 63 s.rof.lastPort q
    match low.find? (fun x => decide (last < x)) with
    | some x => some x
    | none => low.head?

/-- Queues a packet on a port for transmission. -/
def enqueue (p : Nat) (pk : Packet) (entry : Option Nat) (s : State) : State :=
  let x := port s p
  setPort p { x with txq := x.txq ++ [{ pkt := pk, entry := entry }] } s

/-- Straits that traffic between two quadrants crosses, in order: the direct one, or those of its relays (R15). -/
def crossings (s : State) (a b : Nat) : List (Nat × Nat) :=
  if a = b then []
  else
    match relayRoute s a b with
    | some m => (a :: m).zip (m ++ [b])
    | none => []

/-- Which of a quadrant's three straits leads to another: 0 the lowest, 1 the middle, 2 the highest other quadrant. -/
def straitRank (a b : Nat) : Nat := ((List.range 4).filter (fun x => x != a && decide (x < b))).length

/-- A transfer of `n` data bytes from quadrant `a` to `b` loads every strait it crosses (R15, Table 18.2). -/
def cross (a b n : Nat) (s : State) : State :=
  forEach (crossings s a b) (fun e s => cntAdd cUtil e.1 (6 + straitRank e.1 e.2) (Config.straitWords n) s) s

/-- A packet that is in quadrant `q` reaches the port it leaves by, over the straits between them, and is queued there. -/
def sendBy (q p : Nat) (pk : Packet) (entry : Option Nat) (s : State) : State :=
  enqueue p pk entry (cross q (p / 16) (32 + pk.payload.length) s)

/-- Routes a packet from quadrant `q` and queues it; with no port left it is dropped and counted in DROP_NO_ROUTE of
its entry port (R295). -/
def routeOut (q : Nat) (pk : Packet) (entry : Option Nat) (s : State) : State :=
  match choosePort s q pk entry with
  | some p =>
    let s := sendBy q p pk entry s
    if pk.pin || pk.vc = 7#3 then s
    else { s with rof := { s.rof with lastPort := tput 63 s.rof.lastPort q p } }
  | none =>
    match entry with
    | some e => bump cRof e 7 s
    | none => s

/-- The lowest pair port of a quadrant that is UP (R422). -/
def pairPort (s : State) (q : Nat) : Option Nat :=
  ((List.range 16).map (16 * q + ·)).find? (fun p => (port s p).pair && decide ((port s p).st = .up))

/-- The partner's endpoint numbers on pair flows lie above every endpoint ID: 65536 + SIDE. -/
abbrev pairBase : Nat := 65536

/-- Sends a packet of a flow of quadrant `q`: routed (R295), or on a pair port for a pair flow. -/
def sendOut (k : FlowKey) (pk : Packet) (s : State) : State :=
  if pairBase ≤ k.other then
    match pairPort s (k.q % 4) with
    | some p => enqueue p pk none s
    | none => s
  else routeOut (k.q % 4) pk none s

/-- SRC of a packet the device sends on a flow: its SIDE on a pair flow, else the quadrant's endpoint ID (R513). -/
def srcOn (s : State) (k : FlowKey) : Nat := if pairBase ≤ k.other then b2n s.sec.side else endpointOf s (k.q % 4)

/-- The oldest packet of a flow still unacknowledged, and the oldest still live (R308). -/
def oldestUnacked (c : SendCtx) : Option SentPkt := c.pkts.find? (fun x => !x.acked)
def oldestLive (now : Nat) (c : SendCtx) : Option SentPkt :=
  c.pkts.find? (fun x => !x.acked || decide (now < x.lastTx + 1100000))

/-- Frame bytes a quadrant's replay buffer holds (R312). -/
def replayBytes (s : State) (q : Nat) : Nat :=
  ((s.e2e.send.filter (fun c => c.1.q == q)).map (fun c =>
    ((c.2.pkts.filter (fun x => !x.acked)).map (fun x => 32 * frameWords x.pkt)).foldl (· + ·) 0)).foldl (· + ·) 0

/-- Send contexts in use for flows whose SRC is a quadrant's own endpoint ID (R304). -/
def sendCount (s : State) (q : Nat) : Nat :=
  (s.e2e.send.filter (fun c => c.2.made && c.1.q % 4 == q && decide (c.1.other < pairBase))).length

/-- Why a flow cannot start a new packet now, if it cannot: quiet period (R321), no free send context (R304), an OPENING flow
with another message out (Table 12.1), the 1,024 window (R308 rule 2), the quarantine (rule 3), a full replay buffer
(R312). -/
inductive Stall where
  | none_ | quiet | table | opening | window | quarantine | replay
  deriving DecidableEq, Repr

def flowStall (s : State) (k : FlowKey) (c : SendCtx) (p : Packet) : Stall :=
  if s.e2e.quietUntil.isSome then .quiet
  else if !c.made && decide (k.other < pairBase) && decide (32768 ≤ sendCount s (k.q % 4)) then .table
  else if !c.isOpen && (oldestUnacked c).isSome && !(decide (1 < p.pktCount.toNat) && decide (p.arg1 ≠ 0)) then .opening
  else if (match oldestUnacked c with
      | some o => decide (1024 ≤ (c.nextSeq + 2 ^ 24 - o.pkt.seq.toNat) % 2 ^ 24) | none => false) then .window
  else if (match oldestLive s.time c with
      | some o => decide (2 ^ 23 < (c.nextSeq + 2 ^ 24 - o.pkt.seq.toNat) % 2 ^ 24) | none => false) then .quarantine
  else if decide (67108864 < replayBytes s k.q + 32 * frameWords p) then .replay
  else .none_

/-- The first packet of a flow's list waits: each wait for the quarantine or for replay space is counted once. -/
def noteStall (k : FlowKey) (c : SendCtx) (w : Stall) (s : State) : State :=
  let n := match w with | .quarantine => 1 | .replay => 2 | .table => 3 | _ => 0
  let s := when (n == 1 && c.stall != 1) (bump cE2e (k.q % 4) 12) s
  let s := when (n == 2 && c.stall != 2) (bump cE2e (k.q % 4) 11) s
  setSend k { c with stall := n } s

/-- Starts the packets that wait on a flow, as far as its rules let them; a flow without a context gets one first. -/
def flushN (make : SendCtx → State → SendCtx × State) (start : Packet → SendCtx → State → State) :
    Nat → FlowKey → State → State
  | 0, _, s => s
  | n + 1, k, s =>
    match sendCtx s k with
    | none => s
    | some c =>
      match c.waiting with
      | [] => s
      | p :: r =>
        if flowStall s k c p = .none_ then
          let (c, s) := if c.made then (c, s) else make c s
          flushN make start n k (start p { c with made := true, waiting := r, stall := 0 } s)
        else noteStall k c (flowStall s k c p) s

/-- A packet joins its flow's list. -/
def joinFlow (k : FlowKey) (p : Packet) (s : State) : State :=
  let c := (sendCtx s k).getD { made := false }
  setSend k { c with waiting := c.waiting ++ [p] } s

/-- Packets on a flow's list. -/
def waitCount (s : State) (k : FlowKey) : Nat := match sendCtx s k with | some c => c.waiting.length | none => 0

/-- A ring read or a completion write learns the SEQ its packet took (R512, R317). -/
def noteSeq (k : FlowKey) (p : Packet) (s : State) : State :=
  if p.typ.toNat = tRdOnce then
    let mine (r : RingRead) : Bool := r.q == k.q && r.other == k.other && r.addr == argPva p && r.seq.isNone
    match s.e2e.requests.find? mine with
    | some r => { s with e2e := { s.e2e with requests := s.e2e.requests.map (fun x =>
        if x = r then { r with seq := some p.seq.toNat } else x) } }
    | none => s
  else if p.typ.toNat = tWrPart then
    let mine (r : RingWrite) : Bool := r.q == k.q && r.other == k.other && r.addr == argPva p && r.seq.isNone
    match s.e2e.ringWrites.find? mine with
    | some r => { s with e2e := { s.e2e with ringWrites := s.e2e.ringWrites.map (fun x =>
        if x = r then { r with seq := some p.seq.toNat } else x) } }
    | none => s
  else s

/-- Starts one sequenced packet on its flow: it takes the next SEQ, is kept until acknowledged, and is routed. -/
def launch (k : FlowKey) (p : Packet) (c : SendCtx) (s : State) : State :=
  let p := stamp s { p with seq := BitVec.ofNat 24 c.nextSeq }
  let c := { c with nextSeq := (c.nextSeq + 1) % 2 ^ 24, lastTx := s.time
                    pkts := (c.pkts.filter (fun x => !x.acked || decide (s.time < x.lastTx + 1100000))) ++
                      [{ pkt := p, first := s.time, lastTx := s.time }] }
  sendOut k p (noteSeq k p (setSend k c s))

/-- A packet of the device: type and channel, destination, tenant under its current key epoch, ARG0 and payload. -/
def mkPacket (s : State) (typ vc dst ten : Nat) (arg0 : BitVec 64) (pay : List Byte) : Packet :=
  { dst := BitVec.ofNat 16 dst, src := 0, typ := BitVec.ofNat 8 typ, vc := BitVec.ofNat 3 vc, last := true,
    length := BitVec.ofNat 13 pay.length, seq := 0, keyEpoch := BitVec.ofNat 8 (tenant s ten).epoch,
    tenant := BitVec.ofNat 10 ten, birth := 0, arg0 := arg0, crc := 0, payload := pay }

/-- A new send context starts in OPENING with any initial SEQ: a free value (R305). -/
def newCtx (c : SendCtx) (s : State) : SendCtx × State :=
  let (w, s) := drawWord s
  ({ c with nextSeq := w.toNat % 2 ^ 24 }, s)

/-! The pair link: packets to the partner (R422), the order stream (R426), digests (R428). -/

/-- The quadrant whose pair port carries this device's pair packets, when a pair link is UP. -/
def pairLink (s : State) : Option Nat := [0, 2].find? (fun q => (pairPort s q).isSome)

/-- Sends a packet on a pair flow: type, channel, ARG0, ARG1, PKT_COUNT, payload. -/
def sendPair (typ vc arg0 arg1 count : Nat) (pay : List Byte) (s : State) : State :=
  match pairLink s with
  | none => s
  | some q =>
    let k : FlowKey := { q := q, other := pairBase + b2n (!s.sec.side), vc := vc }
    let p := mkPacket s typ vc (b2n (!s.sec.side)) 0 (BitVec.ofNat 64 arg0) pay
    let p := { p with src := BitVec.ofNat 16 (srcOn s k), arg1 := BitVec.ofNat 16 arg1, pktCount := BitVec.ofNat 16 count }
    let s := joinFlow k p s
    flushN newCtx (launch k) (waitCount s k) k s

/-- The active tells its follower a decision (R426): the record takes the next number. -/
def orderRec (r : OrderRec) (s : State) : State :=
  if s.pair.st = .active ∧ s.pair.follower ≠ 0 then
    let n := s.pair.sent + 1
    let s := bump cPair 0 0 { s with pair := { s.pair with sent := n, lastSent := s.time } }
    sendPair 0x50 4 n 0 1 (Config.orderBytes n s.time r) s
  else s

/-- One bit and one byte step of the CRC-64 of R428: most significant bit first, no reflection. -/
def crc64Bit (c : BitVec 64) : BitVec 64 :=
  if c.getLsbD 63 then (c <<< 1) ^^^ 0x42F0E1EBA9EA3693#64 else c <<< 1
def crc64Byte (c : BitVec 64) (b : Byte) : BitVec 64 :=
  crc64Bit (crc64Bit (crc64Bit (crc64Bit (crc64Bit (crc64Bit (crc64Bit (crc64Bit (c ^^^ (b.setWidth 64 <<< 56)))))))))

/-- Bytes join the open unit: bytes in it, its CRC, and the CRCs of the units they close, newest first. -/
def feedBytes : List Byte → Nat → BitVec 64 → List Nat → Nat × BitVec 64 × List Nat
  | [], n, c, l => (n, c, l)
  | b :: r, n, c, l =>
    let c := crc64Byte c b
    if n + 1 = 4096 then feedBytes r 0 0 (c.toNat :: l) else feedBytes r (n + 1) c l

/-- A unit closes: a standby sends its digest, an active keeps it until the partner's arrives; without a standby in step
its effects stay unverified (R428, R429). -/
def closeUnit (q u crc : Nat) (s : State) : State :=
  if s.pair.st = .standby then sendPair 0x52 6 u 0 1 (leBytes 8 q ++ leBytes 8 u ++ leBytes 8 crc) s
  else if s.pair.follower = 2 then
    { s with pair := { s.pair with units := s.pair.units ++ [{ q := q, unit := u, crc := crc, time := s.time }] } }
  else s

/-- Output bytes of a quadrant in their order (R428), with the descriptor whose effect they are. -/
def feed (q : Nat) (owner : Option (Nat × Nat)) (b : List Byte) (s : State) : State :=
  if !(decide (s.pair.st = .active) || decide (s.pair.st = .standby)) || b.isEmpty then s
  else
    let (n, c) := tget (0, 0) s.pair.streams q
    let u := tget 0 s.pair.nextUnit q
    let (n', c', l) := feedBytes b n (BitVec.ofNat 64 c) []
    let us := (List.range (l.length + 1)).map (u + ·)
    let mine := match s.pair.st, owner with
      | .active, some (a, d) => us.map (fun v => (a, d, q, v))
      | _, _ => []
    let bad := if s.pair.follower = 2 then [] else us.map (fun v => (q, v))
    let s := { s with pair := { s.pair with
      streams := tput (0, 0) s.pair.streams q (n', c'.toNat), nextUnit := tput 0 s.pair.nextUnit q (u + l.length)
      effects := s.pair.effects ++ mine
      failed := if mine.isEmpty then s.pair.failed else s.pair.failed ++ bad } }
    forEach (List.range l.length) (fun i s => closeUnit q (u + i) (l.reverse.getD i 0) s) s

/-- The bytes of a packet that a digest covers: its header less BIRTH and CRC, and the payload (R428). -/
def digestBytes (p : Packet) : List Byte :=
  (headerBytes p).take 14 ++ (headerBytes p).drop 16 ++ p.payload

/-- Starts one sequenced packet; what the device sources on other than pair flows is output (R428). -/
def startPkt (k : FlowKey) (p : Packet) (c : SendCtx) (s : State) : State :=
  let s := launch k p c s
  if pairBase ≤ k.other then s else feed (k.q % 4) none (digestBytes { p with seq := BitVec.ofNat 24 c.nextSeq }) s

/-- The new context of a flow; a standby takes its SEQ from the entropy that the order stream brings, and an active tells its
follower the one it drew (R426). -/
def openCtx (c : SendCtx) (s : State) : SendCtx × State :=
  match s.pair.entropy with
  | w :: r => ({ c with nextSeq := w.toNat % 2 ^ 24 }, { s with pair := { s.pair with entropy := r } })
  | [] =>
    let (c, s) := newCtx c s
    (c, orderRec (.entropy (BitVec.ofNat 64 c.nextSeq)) s)

/-- Sends the packets that wait on a flow, as far as its rules let them start. -/
def flushFlow (k : FlowKey) (s : State) : State :=
  if pairBase ≤ k.other then flushN newCtx (startPkt k) (waitCount s k) k s
  else flushN openCtx (startPkt k) (waitCount s k) k s

/-- Flows of a quadrant that wait for what another flow has freed: replay space (2) or a context (3). -/
def flushStalled (q n : Nat) (s : State) : State :=
  forEach ((s.e2e.send.filter (fun c => c.1.q % 4 == q && c.2.stall == n)).map (·.1)) flushFlow s

/-- Sends a sequenced packet from quadrant `q`: at once, or after the flow's stall ends (counted where R308 and R312
say so). -/
def sendOn (k : FlowKey) (p : Packet) (s : State) : State :=
  if blockFenced s 5 (k.q % 4) then s
  else flushFlow k (joinFlow k { p with src := BitVec.ofNat 16 (srcOn s k) } s)

def sendPacket (q : Nat) (p : Packet) (s : State) : State :=
  sendOn { q := q, other := p.dst.toNat, vc := p.vc.toNat } p s

/-- Sends an unsequenced packet on a flow (Ack, ResendReq: R303): SEQ 0, PKT_COUNT 1. -/
def sendPlain (k : FlowKey) (p : Packet) (s : State) : State :=
  sendOut k (stamp s { p with src := BitVec.ofNat 16 (srcOn s k), seq := 0, pktCount := 1 }) s

end Sys2Proof.Machine
end

