-- ==== Sys2Proof/Machine/MemOps.lean ====
section
/-! DEFINITION. Pool memory: where a line lives (R348 to R351), reading and writing lines under the line codes
(R356 to R362), the merge buffer (R363), row remapping (R364), activations (R354), the error log (Table 14.11). -/

namespace Sys2Proof.Machine

/-- Bytes of one block: 256 MiB (R36). -/
abbrev blockBytes : Nat := 268435456

/-- Pseudo-channel of a pool-physical address (R350). -/
def pcOf (s : State) (ppa : Nat) : Nat :=
  let b := block s (ppa / blockBytes)
  let u := ppa % blockBytes / 2 ^ b.grainLog2
  match b.place with
  | .deviceWide => 512 * (u % 4) + 64 * (u / 4 % 8) + u / 32 % 64
  | .localTo q => 512 * q.val + 64 * (u % 8) + u / 8 % 64

/-- Address within the pseudo-channel (R350). -/
def pcAddr (s : State) (ppa : Nat) : Nat :=
  let b := block s (ppa / blockBytes)
  let g := 2 ^ b.grainLog2
  let u := ppa % blockBytes / g
  match b.place with
  | .deviceWide => 131072 * b.frame + u / 2048 * g + ppa % g
  | .localTo _ => 131072 * b.frame + u / 512 * g + ppa % g

/-- Home quadrant of an address (R350). -/
def homeOf (s : State) (ppa : Nat) : Nat := pcOf s ppa / 512

/-- Bank of an address in its pseudo-channel: bank group in bits 3:2, bank in 1:0 (R351, Table 14.11). -/
def bankOf (a : Nat) : Nat := a / 4096 % 4 + 4 * (a / 1024 % 4)
/-- Row of an address (R351). -/
def rowOf (a : Nat) : Nat := a / 16384

/-- Where an address is stored now: the substitute stack and frame once its granule has moved (R369, R370). -/
def storedAt (s : State) (ppa : Nat) : Nat × Nat :=
  let p := pcOf s ppa
  let a := pcAddr s ppa
  match (List.range 4).find? (fun k =>
      let m := tget {} s.mem.migs k
      decide (m.st ≠ 0) && decide (m.stack = p / 64) && (tget none m.map (ppa / blockBytes)).isSome &&
      m.movedSet.contains (p % 64 * 65536 + a / 16384)) with
  | some k =>
    let m := tget {} s.mem.migs k
    match tget none m.map (ppa / blockBytes) with
    | some (sub, f) =>
      (512 * (p / 512) + 64 * sub + p % 64, a - 131072 * (block s (ppa / blockBytes)).frame + 131072 * f)
    | none => (p, a)
  | none => (p, a)

/-- The line's code is the light code (R357). -/
def isLight (s : State) (ppa : Nat) : Bool := (block s (ppa / blockBytes)).light

/-- Stack capacity in bytes. -/
def capacity (s : State) : Nat := gradeBlocks s.grade * blockBytes

/-- Who makes an access: SOURCE, SOURCE_ID and TENANT as the error log names them (Table 14.11). -/
structure Src where
  source : Nat
  sourceId : Nat
  tenant : Nat
  deriving DecidableEq, Repr

/-- Internal sources (scrub 3, migration 4, merge write-back 5): tenant 0x3FF. -/
def internalSrc (k : Nat) : Src := { source := k, sourceId := 0, tenant := 0x3FF }

/-- SOURCE and SOURCE_ID of a participant's request (Table 3.7); queue groups pass their queue in `srcOfQueue`. -/
def srcOf (who : Part) (tenant : Nat) : Src :=
  match who with
  | .ld n => { source := 0, sourceId := n, tenant := tenant }
  | .ep n => { source := 1, sourceId := n, tenant := tenant }
  | .grp n => { source := 2, sourceId := 8 * n, tenant := tenant }

/-! The memory error log (Tables 14.7, 14.11). -/

/-- Writes an error record, or counts it in ERR_LOST when the ring is full. -/
def memErr (kind line symbols : Nat) (w : Src) (s : State) : State :=
  if s.mem.errHead + 1 = s.mem.errTail then
    bump cOne 4 0 { s with mem := { s.mem with errOverflow := true } }
  else
    let a := pcAddr s (64 * line)
    let r : MemErr := { time := s.time, ppa := 64 * line, kind := kind, pc := pcOf s (64 * line), row := rowOf a,
                        bank := bankOf a, symbols := symbols, tenant := w.tenant, source := w.source,
                        sourceId := w.sourceId }
    { s with mem := { s.mem with errLog := tput none s.mem.errLog s.mem.errHead.toNat (some r)
                                 errHead := s.mem.errHead + 1 } }

/-! Rows: activations (R352, R354) and remapping (R364). -/

/-- One activation of a row in a bank's table of 32 entries. -/
def actTable (row thr : Nat) (t : List (Nat × Nat)) : List (Nat × Nat) × Bool :=
  let t' : List (Nat × Nat) :=
    match t.find? (fun e => e.1 = row) with
    | some e => t.map (fun x => if x.1 = row then (row, e.2 + 1) else x)
    | none =>
      if t.length < 32 then t ++ [(row, 1)]
      else
        let c := (t.map (·.2)).foldl min (t.headD (0, 0)).2
        match t.find? (fun e => e.2 = c) with
        | some v => t.map (fun x => if x.1 = v.1 then (row, c + 1) else x)
        | none => t
  match t'.find? (fun e => e.1 = row) with
  | some e => if thr ≤ e.2 then (t'.filter (fun x => x.1 != row), true) else (t', false)
  | none => (t', false)

/-- Opens a row: an activation when another row (or none) was open, with the neighbour refresh of R354. -/
def openRow (pc a : Nat) (s : State) : State :=
  let b := pc * 16 + bankOf a
  if tget none s.mem.openRows b = some (rowOf a) then s
  else
    let (t, fire) := actTable (rowOf a) (clampN 256 16384 s.mem.actThreshold) (tget [] s.mem.acts b)
    let rows := gradeBlocks s.grade * 8
    let nb := ((if 2 ≤ rowOf a then 1 else 0) + (if 1 ≤ rowOf a then 1 else 0) +
      (if rowOf a + 1 < rows then 1 else 0) + (if rowOf a + 2 < rows then 1 else 0) : Nat)
    let s := { s with mem := { s.mem with acts := tput [] s.mem.acts b t
                                          openRows := tput none s.mem.openRows b (some (rowOf a)) } }
    if fire then cntAdd cMem 0 4 nb s else s

/-- Key of a row for correction counts and remap entries: bank row within the pseudo-channel. -/
def rowKey (a : Nat) : Nat := bankOf a * 65536 + rowOf a

/-- Remaps a failing row to a spare, or logs REMAP_FULL when the 16 entries are used (R364). Stored byte errors of the
row's lines are cleared where correctable; uncorrectable lines are copied with the poison pattern. -/
def remapRow (line : Nat) (w : Src) (s : State) : State :=
  let (pc, a) := storedAt s (64 * line)
  let k := rowKey a
  let used := tget [] s.mem.remap pc
  if used.contains k then s
  else if 16 ≤ used.length then memErr 5 line 15 w s
  else
    let inRow (l : Nat) : Bool := storedAt s (64 * l) |> fun (p, b) => p == pc && rowKey b == k
    let bad := (s.mem.lineErr.filter (fun e => inRow e.1 &&
      decide ((if isLight s (64 * e.1) then 1 else 3) < e.2))).map (·.1)
    let s := { s with mem := { s.mem with remap := tput [] s.mem.remap pc (used ++ [k])
                                          lineErr := s.mem.lineErr.filter (fun e => !(inRow e.1))
                                          poison := bad.foldl (fun t l => tput false t l true) s.mem.poison } }
    bump cMem 0 7 (memErr 4 line 0 w s)

/-- Counts a correction of a line (R360) against its row, and remaps at CE_REMAP corrections (R364). -/
def noteCorrected (line : Nat) (w : Src) (s : State) : State :=
  let (pc, a) := storedAt s (64 * line)
  let k := pc * 1048576 + rowKey a
  let n := tget 0 s.mem.rowCe k + 1
  let s := bump cUtil (pc / 512) 10 (bump cOne 7 (2 * (pc / 64)) s)
  let s := { s with mem := { s.mem with rowCe := tput 0 s.mem.rowCe k n
                                        lineErr := tput 0 s.mem.lineErr line 0 } }
  if max 1 s.mem.ceRemap ≤ n then remapRow line w s else s

/-- A General Media event of every CXL 2.0 or 3.1 logical device with a grant on the line (R342); it goes to the failure
log as type 0 (DESIGN CHOICE). -/
def mediaEvent (l : Nat) (s : State) : State :=
  let b := block s (64 * l / blockBytes)
  if !b.valid || b.system || b.tag then s
  else
    forEach ((s.cxl.wins.filter (fun c => decide (c.2.st ≠ .empty) && c.2.extent == b.extent)).map (fun c => c.1 / 32))
      (fun d s => if 2 ≤ (cxlPort s (d / 16)).version then hostLog d 2 0 [64 * l] s else s) s

/-- Counts and logs an uncorrectable line that does not show the poison pattern (R361), and remaps its row. -/
def noteUncorrectable (line : Nat) (w : Src) (s : State) : State :=
  let (pc, _) := storedAt s (64 * line)
  mediaEvent line (remapRow line w (memErr 1 line 15 w (bump cUtil (pc / 512) 11 (bump cOne 7 (2 * (pc / 64) + 1) s))))

/-! Bytes and lines. -/

/-- Writes bytes from an address on. -/
def putBytes : List Byte → Nat → List Host.Cell → List Host.Cell
  | [], _, m => m
  | b :: r, a, m => putBytes r (a + 1) (tput 0 m a b)

/-- The stored bytes of a line, before any pending merge entry. -/
def storedLine (s : State) (l : Nat) : List Byte := (List.range 64).map (fun i => tget 0 s.mem.bytes (64 * l + i))

/-- A byte of a line as a read returns it: the pending merge entry's byte where its mask covers it (R363). -/
def overlay (m : Option MergeEnt) (old : List Byte) : List Byte :=
  match m with
  | none => old
  | some e => (List.range 64).map (fun i => if bitOf e.mask i then byteAt e.data i else byteAt old i)

/-- Every byte of the line is covered by the mask. -/
def fullMask : Nat := 2 ^ 64 - 1

/-- THE MODEL'S READ OF ONE BYTE of pool memory: the pending merge entry's byte, else the stored byte. -/
def readByte (s : State) (ppa : Nat) : Byte :=
  byteAt (overlay (tget none s.mem.merge (ppa / 64)) (storedLine s (ppa / 64))) (ppa % 64)

/-- What a read of a line finds (R356 to R362). -/
inductive LineRead where
  | data (bytes : List Byte)
  | bad
  deriving DecidableEq, Repr

/-- The owner tag of a light-coded line accepts the requester (R358). -/
def tagOk (s : State) (l t : Nat) : Bool :=
  match tget none s.mem.tags l with
  | none => true
  | some g => (g.t1 == t && !g.s1) || (g.t2 == t && !g.s2)

/-- A channel's retry buffer notes a command (R355). -/
def noteCmd (pc cmd : Nat) (s : State) : State :=
  let c := tget {} s.mem.chans (pc / 2)
  let c' : Chan := { c with retry := (c.nextCmd, cmd) :: c.retry.take 63, nextCmd := c.nextCmd + 1 }
  { s with mem := { s.mem with chans := tput {} s.mem.chans (pc / 2) c' } }

/-- During a re-silvering copy, the value of a line written below the mark goes to the follower; while it cannot take it,
or the granule itself is in transit, the line's granule is dirty and is copied again (R432, R448). -/
def followWrite (l : Nat) (d : List Byte) (s : State) : State :=
  if s.pair.copying && decide (l / 256 < s.pair.mark) then
    if s.pair.follower ≠ 0 && !(s.pair.inTransit.contains (l / 256)) then
      let s := orderRec (.line l (slice d 0 64)) s
      { s with pair := { s.pair with pendingLines := s.pair.pendingLines ++ [(s.pair.sent, l / 256)] } }
    else if s.pair.dirty.contains (l / 256) then s
    else { s with pair := { s.pair with dirty := s.pair.dirty ++ [l / 256] } }
  else s

/-- Stores a whole line where it lies: data, fresh check bytes and, under the light code, the writer's owner tag; the
poison pattern, byte errors and a pending merge entry are gone (R359, R363). Writes to a failed pseudo-channel are
dropped. -/
def storeRaw (l : Nat) (d : List Byte) (s : State) : State :=
  let (pc, a) := storedAt s (64 * l)
  let s := followWrite l d s
  let s := noteCmd pc (2 * l + 1) (openRow pc a (bump cUtil (pc / 512) 5 s))
  let s := { s with mem := { s.mem with merge := tput none s.mem.merge l none } }
  if (stack s (pc / 64)).failedPcs.contains (pc % 64) then s
  else
    { s with mem := { s.mem with bytes := putBytes (slice d 0 64) (64 * l) s.mem.bytes
                                 poison := tput false s.mem.poison l false
                                 lineErr := tput 0 s.mem.lineErr l 0
                                 tags := tput none s.mem.tags l none } }

/-- Stores the poison pattern in a line (R359): its data stay, every read is uncorrectable until a whole-line write. -/
def poisonRaw (l : Nat) (s : State) : State :=
  { s with mem := { s.mem with poison := tput false s.mem.poison l true
                               merge := tput none s.mem.merge l none } }

/-- The running re-interleave (slot 4 of Table 14.9). -/
def reint (s : State) : Mig := tget {} s.mem.migs 4

/-- Blocks that a re-interleave copies from. -/
def reintFrom (s : State) : List Nat :=
  let m := reint s
  if m.st = 0 then [] else if m.switched then m.old else (extent s m.extent).blocks

/-- The line of the new layout that stands for an old line (R373). -/
def targetLine (s : State) (l : Nat) : Option Nat :=
  let bs := reintFrom s
  let b := 64 * l / blockBytes
  if bs.contains b then some ((reint s).targets.getD (bs.idxOf b) 0 * 4194304 + l % 4194304) else none

/-- The line of the old layout that a target line stands for. -/
def sourceLine (s : State) (t : Nat) : Option Nat :=
  let ts := (reint s).targets
  let b := 64 * t / blockBytes
  if (reint s).st ≠ 0 ∧ ts.contains b then some ((reintFrom s).getD (ts.idxOf b) 0 * 4194304 + t % 4194304) else none

/-- The target line that writes to an old line are applied to as well: its granule has moved (R373 step 2). -/
def mirrorOf (s : State) (l : Nat) : Option Nat :=
  let bs := reintFrom s
  let b := 64 * l / blockBytes
  if bs.contains b && decide (bs.idxOf b * 16384 + 64 * l % blockBytes / 16384 < (reint s).moved) then targetLine s l
  else none

/-- Stores a whole line, in its target line too while a re-interleave has moved its granule. -/
def storeLine (l : Nat) (d : List Byte) (s : State) : State :=
  match mirrorOf s l with
  | none => storeRaw l d s
  | some t => storeRaw t d (storeRaw l d s)

def poisonLine (l : Nat) (s : State) : State :=
  match mirrorOf s l with
  | none => poisonRaw l s
  | some t => poisonRaw t (poisonRaw l s)

/-! Key slots (R385, R390, R393, R394). -/

/-- State of a tenant's slot of an epoch: slot 2t for an even one, 2t + 1 for an odd one (R390). -/
def slotOf (x : Tenant) (e : Nat) : SlotSt := if e % 2 = 0 then x.slotEven else x.slotOdd

/-- The active slot of a tenant: 2t + (E mod 2) (R390). -/
def activeSlot (s : State) (t : Nat) : Nat := 2 * t + (tenant s t).epoch % 2

/-- A rekey's sweep has yet to pass the line: it lies above the pointer of its extent (R394). -/
def unswept (s : State) (ppa : Nat) : Bool :=
  let x := extent s (block s (ppa / blockBytes)).extent
  x.sweep.contains (ppa / blockBytes) &&
  decide (x.swept ≤ x.sweep.idxOf (ppa / blockBytes) * 16384 + ppa % blockBytes / 16384)

/-- A rekey's sweep has passed the line. -/
def resealed (s : State) (ppa : Nat) : Bool :=
  (extent s (block s (ppa / blockBytes)).extent).sweep.contains (ppa / blockBytes) && !(unswept s ppa)

/-- THE KEY SLOT THAT A LINE IS ENCRYPTED UNDER, none for the system key: the slot of its block's fill, and once a rekey's
sweep has passed the line the other slot of the tenant (R385, R393, R394). -/
def lineSlot (s : State) (ppa : Nat) : Option Nat :=
  let k := (block s (ppa / blockBytes)).slot
  if resealed s ppa then k.map (fun n => n / 2 * 2 + (1 - n % 2)) else k

/-- The line's key slot has been zeroised: nothing can decrypt the line (R390, R399). -/
def keyLost (s : State) (ppa : Nat) : Bool :=
  match lineSlot s ppa with
  | some n => decide (slotOf (tenant s (n / 2)) n = .empty)
  | none => false

/-- Records the slot that blocks are filled or swept under (R393). -/
def markSlot (bs : List Nat) (k : Option Nat) (s : State) : State :=
  forEach bs (fun b s => setBlock b { block s b with slot := k } s) s

/-- Reads the stored line under its code (R356 to R361): corrected data written back, poison and uncorrectable
findings counted and logged, owner tags tested for tenant `ten`. -/
def readCode (l ten : Nat) (w : Src) (s : State) : LineRead × State :=
  let (pc, a) := storedAt s (64 * l)
  let s := noteCmd pc (2 * l) (openRow pc a (bump cUtil (pc / 512) 4 s))
  let e := tget 0 s.mem.lineErr l
  let lim := if isLight s (64 * l) then 1 else 3
  let det := if isLight s (64 * l) then 3 else 5
  if (stack s (pc / 64)).failedPcs.contains (pc % 64) then (.bad, mediaEvent l (memErr 1 l 15 w s))
  else if tget false s.mem.poison l then (.bad, bump cMem 0 0 s)
  else if e = 0 then
    if isLight s (64 * l) && !(tagOk s l ten) then (.bad, memErr 2 l 0 w (bump cMem 0 1 s))
    else if isLight s (64 * l) && (tget none s.mem.tags l).isSome then
      (.data (storedLine s l), noteCorrected l w { s with mem := { s.mem with tags := tput none s.mem.tags l none } })
    else (.data (storedLine s l), s)
  else if e ≤ lim then (.data (storedLine s l), noteCorrected l w s)
  else if e ≤ det then (.bad, noteUncorrectable l w s)
  else
    let (bad, s) := drawBool s
    if bad then (.bad, noteUncorrectable l w s)
    else
      let (d, s) := drawBytes 64 s
      let s := { s with mem := { s.mem with bytes := putBytes d (64 * l) s.mem.bytes } }
      (.data d, noteCorrected l w s)

/-- Reads a line: what the code gives, decrypted; under a lost key any bytes come out (R385). -/
def readAs (l ten : Nat) (w : Src) (s : State) : LineRead × State :=
  match readCode l ten w s with
  | (.data d, s) =>
    if keyLost s (64 * l) then
      let (g, s) := drawBytes 64 s
      (.data g, s)
    else (.data d, s)
  | x => x

/-- A read whose log record and owner tag name the same tenant. -/
def readStored (l : Nat) (w : Src) (s : State) : LineRead × State := readAs l w.tenant w s

/-- Writes a pending merge entry back (R178 step 5, R363): whole when its mask is full, otherwise by read-modify-write;
over an uncorrectable line the bytes are discarded and counted in MERGE_LOST. -/
def mergeWriteback (l : Nat) (s : State) : State :=
  match tget none s.mem.merge l with
  | none => s
  | some e =>
    let s := when e.contrib (bump cNmo 0 7) s
    if e.mask = fullMask then storeLine l e.data s
    else
      match readAs l e.tenant (internalSrc 5) (bump cMem 0 2 s) with
      | (.data old, s) => storeLine l (overlay (some e) old) s
      | (.bad, s) =>
        let s := { s with mem := { s.mem with merge := tput none s.mem.merge l none } }
        memErr 3 l 15 (srcOf e.writer e.tenant) (bump cMem 0 3 s)

/-- Makes room for a merge entry on the line's pseudo-channel: the entry unused for longest is written back when all
128 are in use (R363). -/
def mergeRoom (l : Nat) (s : State) : State :=
  let pc := pcOf s (64 * l)
  let mine := s.mem.merge.filter (fun c => pcOf s (64 * c.1) == pc)
  if mine.length < 128 then s
  else
    let t := (mine.map (fun c => match c.2 with | some e => e.time | none => 0)).foldl min s.time
    match mine.find? (fun c => match c.2 with | some e => e.time == t | none => false) with
    | some c => mergeWriteback c.1 s
    | none => s

/-- Places bytes under a mask in the line's merge entry, in home order (R363). -/
def mergeBytes (l mask : Nat) (d : List Byte) (who : Part) (ten : Nat) (s : State) : State :=
  let s := if (tget none s.mem.merge l).isSome then s else mergeRoom l s
  let old : MergeEnt := (tget none s.mem.merge l).getD { mask := 0, data := [], time := s.time, writer := who, tenant := ten }
  let e : MergeEnt :=
    { mask := old.mask ||| mask
      data := (List.range 64).map (fun i => if bitOf mask i then byteAt d i else byteAt old.data i)
      time := s.time, writer := who, tenant := ten, contrib := old.contrib }
  { s with mem := { s.mem with merge := tput none s.mem.merge l (some e) } }

/-- An ordered read of a line: its pending merge entry is written back first (R179). -/
def readLine (l : Nat) (w : Src) (s : State) : LineRead × State := readStored l w (mergeWriteback l s)

/-- A write of bytes of one line: whole lines go to the stack, narrower writes to the merge buffer (R363). -/
def writeMasked (l mask : Nat) (d : List Byte) (who : Part) (ten : Nat) (s : State) : State :=
  if mask % 2 ^ 64 = fullMask then storeLine l d s
  else if mask % 2 ^ 64 = 0 then s
  else mergeBytes l (mask % 2 ^ 64) d who ten s

/-- Fills a byte range with zero under valid check bits (R41, R366): its lines read as zero. -/
def zeroRange (lo hi : Nat) (s : State) : State :=
  { s with mem := { s.mem with bytes := tclear s.mem.bytes lo hi
                               poison := tclear s.mem.poison (lo / 64) (hi / 64)
                               lineErr := tclear s.mem.lineErr (lo / 64) (hi / 64)
                               tags := tclear s.mem.tags (lo / 64) (hi / 64)
                               merge := tclear s.mem.merge (lo / 64) (hi / 64) } }

/-- Fills whole blocks with zero (R41). -/
def zeroBlocks (bs : List Nat) (s : State) : State :=
  forEach bs (fun b => zeroRange (b * blockBytes) ((b + 1) * blockBytes)) s

/-- Fills whole blocks with zero under a key slot, none for the system key (R41, R393). -/
def fillBlocks (bs : List Nat) (k : Option Nat) (s : State) : State := markSlot bs k (zeroBlocks bs s)

/-- The canonical form of the pool memory. -/
def Memory.wf (m : List Host.Cell) : Bool := twf 0 m

end Sys2Proof.Machine
end

