-- ==== Sys2Proof/Machine/XltOps.lean ====
section
/-! DEFINITION. Pool translation (chapter 3): the leaves the anchor's tables hold, TLB lookups and walks (R68, R69),
the checks of Table 3.3, fault records (R84), withdrawals and their drain (R72 to R75). -/

namespace Sys2Proof.Machine

/-- The extent's blocks are mapped in its tenant's table (Tables 2.4, 2.8, 2.10). -/
def mappedSt : ExtState → Bool
  | .active | .held | .sealed | .sealedHeld | .current | .superseded | .retired => true
  | _ => false

/-- The extent covers the pool-virtual address. -/
def covers (x : Extent) (pva : Nat) : Bool :=
  decide (x.pvaBase ≤ pva) && decide (pva < x.pvaBase + x.blocks.length * blockBytes)

/-- The extent of a tenant, mapped, that covers an address. -/
def extentAt (s : State) (t pva : Nat) : Option Nat :=
  (s.pool.extents.find? (fun c => decide (c.2.tenant = t) && mappedSt c.2.st && covers c.2 pva)).map (·.1)

/-- Rights less write, reduce-on-write and atomic (R54 step 2). -/
def readOnlyRights (r : Rights) : Rights := { read := r.read }

/-- The pool-virtual range of an extent. -/
def extentLo (x : Extent) : Nat := x.pvaBase
def extentHi (x : Extent) : Nat := x.pvaBase + x.blocks.length * blockBytes

/-- The leaf for an address, as the anchor writes it: one run of four medium pages for each 256 MiB block (R67: the page size
never changes a result). A sealed region gives no right to any host or accelerator (R48); an HDM-H exclusive window leaves
rights to its logical device alone (R115). -/
def leafAt (s : State) (t pva : Nat) : Option (Nat × Leaf) :=
  match extentAt s t pva with
  | none => none
  | some e =>
    let x := extent s e
    let i := (pva - x.pvaBase) / blockBytes
    let cut (r : Rights) : Rights := if x.readOnly then readOnlyRights r else r
    let sealed := decide (x.kind = .sealed)
    let (r, ov) : Rights × List (Part × Rights) :=
      match x.exclusive with
      | some d =>
        let mine := match x.overrides.find? (fun o => o.1 = Part.ld d) with | some o => o.2 | none => x.rights
        ({}, [(Part.ld d, cut mine)])
      | none => (cut x.rights, x.overrides.map (fun o => (o.1, cut o.2)))
    some (x.pvaBase + i * blockBytes,
      { rights := r, sealed := sealed, light := x.light, run := 2, level := 1,
        ppa := x.blocks.getD i 0 * blockBytes, extent := e, overrides := ov })

/-! Page tables (R63 to R67). Only the anchor writes them, from the extents, so their words are a function of the state: what
stands at each index of a tenant's table. A walk reads the words and tests them in order. -/

/-- log2 of the page size at a level (Table 3.1). -/
def pageLog2 (level : Nat) : Nat := if level = 0 then 36 else if level = 1 then 26 else 16

/-- Index of an address in the table of a level: bits [47:36], [35:26], [25:16] (Table 3.1). -/
def tableIndex (level pva : Nat) : Nat :=
  if level = 0 then pva / 2 ^ 36 % 4096 else pva / 2 ^ pageLog2 level % 1024

/-- The entry for an index stands at the table's base plus 8 times the index (R64). -/
def entryAt (base level pva : Nat) : Nat := base + 8 * tableIndex level pva

/-- Fields of a page-table entry (Table 3.2). -/
structure Pte where
  present : Bool := false
  leaf : Bool := false
  rights : Rights := {}
  sealed : Bool := false
  light : Bool := false
  run : Nat := 0
  /-- PPA of the next table page or of the page. -/
  ppa : Nat := 0
  extent : Nat := 0
  /-- Some reserved bit is 1: [12:11], [63:55], and [10:2] of a non-leaf entry. -/
  reserved : Bool := false
  deriving DecidableEq, Repr

def pteOf (w : BitVec 64) : Pte :=
  let x := w.toNat
  { present := bitOf x 0, leaf := bitOf x 1
    rights := { read := bitOf x 2, write := bitOf x 3, reduce := bitOf x 4, atomic := bitOf x 5 }
    sealed := bitOf x 6, light := bitOf x 7, run := field x 8 3, ppa := field x 13 28 * 8192, extent := field x 41 14
    reserved := field x 11 2 != 0 || field x 55 9 != 0 || (!(bitOf x 1) && field x 2 9 != 0) }

/-- PPA of a tenant's root table: the active slot's (R76). -/
def rootAt (s : State) (t : Nat) : Nat := (if (roots s t).activeSel then (roots s t).rootB else (roots s t).rootA) * 32768

/-- The root table that the anchor gives a tenant: its slot A or B among the page tables (DESIGN CHOICE). -/
def rootPlace (s : State) (t : Nat) (slotB : Bool) : Nat := tableBlock s.grade * 8192 + 2 * t + b2n slotB

/-- A tenant that has no root table yet gets one (R76). -/
def giveRoot (t : Nat) (s : State) : State :=
  let r := roots s t
  if r.rootA = 0 then setRoots t { r with rootA := rootPlace s t false } s else s

/-- Blocks that a tenant maps in the 64 GiB of an address. -/
def regionBlocks (s : State) (t pva : Nat) : List Nat :=
  s.pool.extents.flatMap (fun c =>
    if decide (c.2.tenant = t) && mappedSt c.2.st then
      (c.2.blocks.zipIdx.filter (fun b => decide ((c.2.pvaBase + b.2 * blockBytes) / 2 ^ 36 = pva / 2 ^ 36))).map (·.1)
    else [])

/-- The level 1 table page for the 64 GiB of an address: a page of the slot that goes with the lowest block mapped there
(DESIGN CHOICE: the place is the anchor's). -/
def levelOnePlace (s : State) (t pva : Nat) : Nat :=
  let bs := regionBlocks s t pva
  tableBlock s.grade * blockBytes + (8192 + 8192 * b2n (roots s t).activeSel + bs.foldl min (bs.headD 0) % 8192) * 8192

/-- The root entry of an address: present while the tenant maps anything in its 64 GiB. -/
def rootEntry (s : State) (t pva : Nat) : Pte :=
  if (regionBlocks s t pva).isEmpty then {} else { present := true, ppa := levelOnePlace s t pva }

/-- The level 1 entry of an address. -/
def levelOneEntry (s : State) (t pva : Nat) : Pte :=
  match leafAt s t pva with
  | none => {}
  | some (base, lf) =>
    { present := true, leaf := true, rights := lf.rights, sealed := lf.sealed, light := lf.light, run := lf.run
      ppa := (lf.ppa + (pva - base)) / 2 ^ 26 * 2 ^ 26, extent := lf.extent }

/-- Some block of a byte range meets `p`. -/
def blocksMeet (s : State) (ppa n : Nat) (p : BlockEnt → Bool) : Bool :=
  s.mem.blocks.any (fun c => decide (ppa / blockBytes ≤ c.1) && decide (c.1 ≤ (ppa + n - 1) / blockBytes) && p c.2)

/-- A present entry at a level is malformed (R66). -/
def malformed (s : State) (level : Nat) (e : Pte) : Bool :=
  e.reserved || (!e.leaf && level == 2) ||
  (if e.leaf then
    e.ppa % 2 ^ pageLog2 level != 0 || decide ((if level = 2 then 6 else 4) < e.run) ||
    blocksMeet s e.ppa (2 ^ pageLog2 level) (fun b => b.tag || b.system)
   else e.ppa % 8192 != 0 || !(blocksMeet s e.ppa 8192 (fun b => b.valid && b.system && b.tables)))

/-- Effective rights of a participant (R70). -/
def effRights (lf : Leaf) (who : Part) : Rights :=
  match lf.overrides.find? (fun o => o.1 = who) with
  | some o => o.2
  | none => lf.rights

/-- ACCESS of a fault record (Table 3.7); a request that needs both rights is recorded as a write (R70). -/
def accCode : Access → Nat
  | .read => 0 | .write => 1 | .reduce => 2 | .atomic => 3 | .own => 1

/-- Fault reasons of Table 3.8. -/
inductive Reason where
  | notPresent | badEntry | noRight | sealedRefused | notAdmitted | withdrawn | drainBound | pageSpan
  | hostNoTranslation | hostInvalBound | tablePoison
  deriving DecidableEq, Repr

def Reason.code : Reason → Nat
  | .notPresent => 1 | .badEntry => 2 | .noRight => 3 | .sealedRefused => 4 | .notAdmitted => 5 | .withdrawn => 6
  | .drainBound => 7 | .pageSpan => 8 | .hostNoTranslation => 9 | .hostInvalBound => 0xA | .tablePoison => 0xB

/-- How a request entered the device. -/
inductive Via where
  | port            -- a CXL or optical port
  | inPool (admitted : Bool)   -- in-pool work; `admitted`: the job image's digest is on the region's list (R49)
  deriving DecidableEq, Repr

/-- A refused translation: reason, access kind, level, extent of the leaf if one was reached. -/
structure Refuse where
  reason : Reason
  access : Nat
  level : Nat
  extent : Option Nat
  deriving DecidableEq, Repr

/-- What a walk comes to: a fault, a leaf to cache, or nothing while the next table line is still to be read. -/
inductive Walk where
  | more
  | fault (r : Reason) (level : Nat)
  | leaf (level : Nat) (e : Pte)
  deriving DecidableEq, Repr

/-- A walk over entries, each with the mark of an uncorrectable table line: rows 1 to 3 of Table 3.3. -/
def walkPtes (s : State) : Nat → List (Pte × Bool) → Walk
  | _, [] => .more
  | level, (e, bad) :: r =>
    if bad then .fault .tablePoison level
    else if !e.present then .fault .notPresent level
    else if malformed s level e then .fault .badEntry level
    else if e.leaf then .leaf level e
    else walkPtes s (level + 1) r

/-- The same over the words of table lines, root entry first. -/
def walkEntries (s : State) (level : Nat) (l : List (BitVec 64 × Bool)) : Walk :=
  walkPtes s level (l.map (fun c => (pteOf c.1, c.2)))

/-- A table line is uncorrectable, or its home cannot be reached. -/
def tableLineBad (s : State) (a : Nat) : Bool :=
  tget false s.mem.poison (a / 64) || !(homeReachable s (homeOf s a))

/-- A walk-cache entry that names the level 1 page of an address (R68). -/
def walkHit (s : State) (q t pva : Nat) : Bool :=
  (xunit s q).walkCache.any (fun e => e.tenant == t && e.sel == (roots s t).activeSel && !e.draining &&
    e.pva == pva / 2 ^ 36)

/-- The walk of an address by a unit: the root entry, unless the walk cache holds it, and the level 1 entry (R68). -/
def walkTable (s : State) (q t pva : Nat) : Walk :=
  let one : List (Pte × Bool) :=
    [(levelOneEntry s t pva, tableLineBad s (entryAt (levelOnePlace s t pva) 1 pva))]
  if walkHit s q t pva then walkPtes s 1 one
  else walkPtes s 0 ((rootEntry s t pva, tableLineBad s (entryAt (rootAt s t) 0 pva)) :: one)

/-- The walk of an address by a unit meets no fault of rows 1 to 3. -/
def walkOk (s : State) (q t pva : Nat) : Bool :=
  match walkTable s q t pva with
  | .fault .. => false
  | _ => true

/-- Rows 4 to 7 of Table 3.3 on a leaf. -/
def leafCheck (lf : Leaf) (who : Part) (via : Via) (acc : Access) : Option Refuse :=
  let no (r : Reason) (a : Nat) : Option Refuse :=
    some { reason := r, access := a, level := lf.level, extent := some lf.extent }
  let isRead := decide (acc = .read)
  let r := effRights lf who
  if lf.sealed && decide (via = .port) then no .sealedRefused (accCode acc)
  else if lf.sealed && isRead && !(decide (via = .inPool true)) then no .notAdmitted (accCode acc)
  else if lf.sealed && !isRead then no .noRight (accCode acc)
  else
    match acc with
    | .read => if r.read then none else no .noRight 0
    | .write => if r.write then none else no .noRight 1
    | .reduce => if r.reduce then none else no .noRight 2
    | .atomic => if r.atomic then none else no .noRight 3
    | .own => if !r.write then no .noRight 1 else if !r.read then no .noRight 0 else none

/-- The TLB entry that a lookup hits: the tenant's, under the active selector, not DRAINING (R68, R72). -/
def tlbHit (s : State) (q t pva : Nat) : Option TlbEntry :=
  (xunit s q).tlb.find? (fun e => decide (e.tenant = t) && decide (e.sel = (roots s t).activeSel) && !e.draining &&
    decide (e.pva ≤ pva) && decide (pva < e.pva + e.size))

/-- Fills the TLB; the oldest entry that is not draining gives way when all 8,192 are in use. -/
def tlbFill (q : Nat) (e : TlbEntry) (s : State) : State :=
  let u := xunit s q
  let l := if u.tlb.length < 8192 then u.tlb else u.tlb.dropLast
  setXunit q { u with tlb := e :: l } s

/-- Fills the walk cache of 512 non-leaf entries with the level 1 page of an address (R68). -/
def walkFill (q t pva : Nat) (s : State) : State :=
  if walkHit s q t pva then s
  else
    let u := xunit s q
    setXunit q { u with walkCache :=
      { tenant := t, pva := pva / 2 ^ 36, sel := (roots s t).activeSel } :: u.walkCache.take 511 } s

/-- A translation under Table 3.3: the leaf from the TLB or a walk, which takes no time here. -/
def translate (q t pva : Nat) (who : Part) (via : Via) (acc : Access) (s : State) : Except Refuse (Nat × Leaf) × State :=
  match tlbHit s q t pva with
  | some e =>
    match leafCheck e.leaf who via acc with
    | some r => (.error r, s)
    | none => (.ok (e.leaf.ppa + (pva - e.pva), e.leaf), s)
  | none =>
    match walkTable s q t pva, leafAt s t pva with
    | .fault r level, _ =>
      (.error { reason := r, access := accCode acc, level := level, extent := none },
        if level = 0 then s else walkFill q t pva s)
    | _, none => (.error { reason := .notPresent, access := accCode acc, level := 1, extent := none }, s)
    | _, some (base, lf) =>
      let s := tlbFill q { tenant := t, pva := base, size := blockBytes, sel := (roots s t).activeSel, leaf := lf,
                           draining := false } (walkFill q t pva s)
      match leafCheck lf who via acc with
      | some r => (.error r, s)
      | none => (.ok (lf.ppa + (pva - base), lf), s)

/-- Builds a fault record (Table 3.7) in a unit. -/
def faultRec (s : State) (q t pva : Nat) (r : Refuse) (source sourceId : Nat) : FaultRec :=
  { time := s.time, pva := pva % 2 ^ 48, reason := r.reason.code, access := r.access, level := r.level, tenant := t,
    extent := r.extent, source := source, sourceId := sourceId, tableEpoch := (roots s t).tableEpoch,
    seq := (xunit s q).faultSeq.toNat }

/-- Writes a fault record at FAULT_HEAD, or counts it as lost when the ring is full (R84); a record that is lost takes no
number (DESIGN CHOICE: SEQ numbers the records written). -/
def logFault (q : Nat) (f : FaultRec) (s : State) : State :=
  let u := xunit s q
  if u.faultHead + 1 = u.faultTail then
    bump cOne q 0 (setXunit q { u with overflow := true } s)
  else
    setXunit q { u with faultLog := tput none u.faultLog u.faultHead.toNat (some f)
                        faultHead := u.faultHead + 1, faultSeq := u.faultSeq + 1 } s

/-- Records a refusal: every refusal writes a fault record (R71); a malformed entry also alerts the anchor (R66). -/
def refuse (q t pva : Nat) (r : Refuse) (source sourceId : Nat) (s : State) : State :=
  let s := logFault q (faultRec s q t pva r source sourceId) s
  if r.reason = .badEntry then alert .badEntry [t, pva] s else s

/-- The 32 bytes of a fault record (Table 3.7). -/
def faultBytes (f : FaultRec) : List Byte :=
  leBytes 8 f.time ++
  leBytes 8 (f.pva % 2 ^ 48 + f.reason % 256 * 2 ^ 48 + f.access % 8 * 2 ^ 56 + f.level % 4 * 2 ^ 59) ++
  leBytes 4 (f.tenant % 1024 + b2n f.extent.isNone * 2 ^ 10 + f.extent.getD 0 % 16384 * 2 ^ 16 + f.source % 4 * 2 ^ 30) ++
  leBytes 4 f.sourceId ++ leBytes 4 (f.tableEpoch % 65536) ++ leBytes 4 f.seq

/-- Response status of a refused ROF request (Table 3.4). -/
def refuseStatus (r : Reason) : Status :=
  match r with
  | .sealedRefused => .poison
  | .tablePoison => .poison
  | .drainBound => .poison
  | _ => .mappingWithdrawn

/-! Registered objects (R245, R246). -/

def syncObj (s : State) (o : Nat) : SyncObj := tget {} s.core.objs o
def setObj (o : Nat) (x : SyncObj) (s : State) : State :=
  { s with core := { s.core with objs := tput {} s.core.objs o x } }

/-- Objects go to FREE when their word's mapping is withdrawn or their tenant is removed (Table 9.4). -/
def freeObjs (p : SyncObj → Bool) (s : State) : State :=
  forEach (s.core.objs.filter (fun c => c.2.st != 0 && p c.2)) (fun c s =>
    setObj c.1 { c.2 with st := 0, list := [], stateTime := s.time } s) s

/-- The mappings of a range are withdrawn. -/
def freeObjsIn (t lo hi : Nat) (s : State) : State :=
  freeObjs (fun x => x.tenant == t && decide (lo ≤ x.wordPva) && decide (x.wordPva < hi)) s

/-- The anchor orders an invalidation of a tenant's range (R72, R75); one that withdraws mappings frees the objects whose words
lie there (Table 9.4). -/
def orderInval (t lo hi : Nat) (withdraws : Bool) (s : State) : State :=
  if lo < hi then
    let s := { s with xlt := { s.xlt with invals := s.xlt.invals ++ [{ tenant := t, lo := lo, hi := hi, withdraws := withdraws }] } }
    if withdraws then freeObjsIn t lo hi s else s
  else s

/-- An invalidation is complete when every quadrant in service has reported (R72 step 5). -/
def invalDone (s : State) (v : Inval) : Bool :=
  (List.range 4).all (fun q => v.done.contains q || (quad s q).faultFenced)

/-- Whether a range of a tenant's space still has a withdrawal to drain. -/
def drainPending (s : State) (t lo hi : Nat) : Bool :=
  s.xlt.invals.any (fun v => v.withdraws && decide (v.tenant = t) && decide (v.lo < hi) && decide (lo < v.hi) &&
    !(invalDone s v))

/-- Windows whose commit waited for the other participants' rights open once the withdrawal has drained (R115, R334): not while
another logical device has the extent's exclusive window. -/
def settleOpenings (s : State) : State :=
  forEach s.cxl.wins (fun c s =>
    match c.2.opening with
    | none => s
    | some (dec, hpa) =>
      let x := extent s c.2.extent
      if x.exclusive != some (c.1 / 32) || drainPending s x.tenant x.pvaBase (x.pvaBase + x.blocks.length * blockBytes) then s
      else setWdw (c.1 / 32) (c.1 % 32)
        { c.2 with st := .open_, decoder := dec, hpaBase := hpa, opening := none, refusedSeen := false } s) s

/-- Withdraws every mapping of an extent. -/
def withdrawExtent (e : Nat) (s : State) : State :=
  let x := extent s e
  orderInval x.tenant (extentLo x) (extentHi x) true s

/-- The tenant and PVA that map a pool-physical line: what a recall names (R98). -/
def pvaOfLine (s : State) (l : Nat) : Option (Nat × Nat) :=
  let b := 64 * l / blockBytes
  match s.pool.extents.find? (fun c => c.2.blocks.contains b) with
  | some (_, x) => some (x.tenant, x.pvaBase + x.blocks.idxOf b * blockBytes + 64 * l % blockBytes)
  | none => none

/-- The TLB, run and walk-cache entries of an invalidation enter DRAINING: no lookup hits them from now on (R72 step 1). -/
def drainEntries (q : Nat) (p : TlbEntry → Bool) (w : WalkEntry → Bool) (s : State) : State :=
  let u := xunit s q
  setXunit q { u with tlb := u.tlb.map (fun e => if p e then { e with draining := true } else e)
                      walkCache := u.walkCache.map (fun e => if w e then { e with draining := true } else e) } s

/-- The walk-cache entry overlaps a range. -/
def overlapsWalk (t lo hi : Nat) (e : WalkEntry) : Bool :=
  decide (e.tenant = t) && decide (e.pva * 2 ^ 36 < hi) && decide (lo < (e.pva + 1) * 2 ^ 36)

/-- The operations that a unit has accepted, messages and near-memory stripes, learn the range of an invalidation (R72
step 3). -/
def cutMessages (q t lo hi : Nat) (s : State) : State :=
  let told (d : Desc) : Desc := { d with cut := ((d.running.filter (fun r => r.2 / 40 == q)).map (fun r => (r.1, lo, hi))) ++ d.cut }
  let own (n : Nat) : Bool := (tget {} s.que.groups (n / 8)).tenant == t
  { s with
    e2e := { s.e2e with reasm := s.e2e.reasm.map (fun c =>
      if c.2.tenant == t then (c.1, { c.2 with cut := (q, lo, hi) :: c.2.cut }) else c) }
    que := { s.que with queues := s.que.queues.map (fun c =>
      if own c.1 then (c.1, { c.2 with flight := c.2.flight.map (fun d => if d.running.isEmpty then d else told d) }) else c) } }

/-- An invalidation noted for the unit, or the stripe, `i` covers the address. -/
def wasCut (i pva : Nat) (l : List (Nat × Nat × Nat)) : Bool :=
  l.any (fun c => c.1 == i && decide (c.2.1 ≤ pva) && decide (pva < c.2.2))

/-- A beat that fails after an invalidation of its range fails with reason WITHDRAWN where its operation had been accepted
before (R72 step 3). -/
def lateRefuse (late : Bool) (r : Refuse) : Refuse := if late then { r with reason := .withdrawn } else r

def setInvals (l : List Inval) (s : State) : State := { s with xlt := { s.xlt with invals := l } }

/-- The invalidation reaches a unit now. -/
def reach (s : State) (q : Nat) (v : Inval) : Inval :=
  { v with reached := tput none v.reached q (some s.time), beats := tput 0 v.beats q s.dir.nextBeat
           turn := tput 0 v.turn q (xunit s q).turns }

/-- The unit has received one more invalidation. -/
def nextTurn (q : Nat) (s : State) : State := setXunit q { xunit s q with turns := (xunit s q).turns + 1 } s

/-- A table switch: the shadow root is written, every unit changes its selector and entries of the old selector drain
(R77 steps 1 to 3). -/
def orderSwitch (t : Nat) (root : BitVec 26) (s : State) : State :=
  let r := roots s t
  let r' := { r with
    rootA := if r.activeSel then root.toNat else r.rootA
    rootB := if r.activeSel then r.rootB else root.toNat
    activeSel := !r.activeSel, switchPending := true }
  let s := setRoots t r' s
  let v : Inval := { tenant := t, lo := 0, hi := 2 ^ 48, withdraws := true, isSwitch := true }
  let s := setInvals (s.xlt.invals ++ [(List.range 4).foldl (fun v q => reach s q v) v]) s
  forEach (List.range 4) (fun q s => nextTurn q (cutMessages q t 0 (2 ^ 48)
    (drainEntries q (fun e => decide (e.tenant = t) && (e.sel == r.activeSel))
      (fun e => decide (e.tenant = t) && (e.sel == r.activeSel)) s))) s

end Sys2Proof.Machine
end

