-- ==== Sys2Proof/Machine/HomeOps.lean ====
section
/-! DEFINITION. Home agents (chapter 4): acceptance at the ordering point (R86 to R88), the directory transitions of
Table 4.4, recalls and their answers (R92, R93, R98), atomics (R111, R112), contributions at one line (R178). -/

namespace Sys2Proof.Machine

/-! Answers. -/

/-- Meta0-State code of a granted copy, as returned to a CXL host (R96): 0 I, 1 S, 2 A/E. -/
def grantCode : ReqKind → Nat
  | .rdShared => 1 | .rdOwn => 2 | .upgrade => 2 | _ => 0

/-- The response packet type of a request (Table 4.3): Data, DataS, DataO, Cmp or AtomicResult. -/
def respType (k : ReqKind) (hasData : Bool) : Nat :=
  match k with
  | .rdOnce => tData
  | .rdShared => tDataS
  | .rdOwn => tDataO
  | .upgrade => if hasData then tDataO else tCmp
  | .atomic => tAtomicResult
  | _ => tCmp

/-- Response data: an AtomicResult carries tag 8 and old value 16 (Table 11.5); a failed read carries no data. -/
def respData (k : ReqKind) (tag : Nat) (st : Status) (d : List Byte) : List Byte :=
  match k with
  | .atomic => leBytes 8 tag ++ slice (if st = .ok then d else []) 0 16
  | _ => if st = .ok then d else []

/-- The request is answered with data. -/
def readsLine : ReqKind → Bool
  | .rdOnce => true | .rdShared => true | .rdOwn => true | _ => false

/-- Sends the answer of a request to its requester; a packet for a tenant that is being removed is never sent (R395). -/
def sendReply (id : Nat) (r : Reply) (k : ReqKind) (st : Status) (d : List Byte) (s : State) : State :=
  match r with
  | .silent => s
  | .kept => { s with dir := { s.dir with answers := tput none s.dir.answers id (some (st, d)) } }
  | .cxl ld tag =>
    let bad := decide (st ≠ .ok) && readsLine k
    emit (.cxl ld tag bad (if st = .ok then grantCode k else 0) (if st = .ok then d else []))
      (when bad (bump cCxl (ld / 16) 2) s)
  | .rof srcId dst vc seq ten tag =>
    if tenantGone s ten then s else
    let pay := respData k tag st d
    let q := (ownQuadrant s srcId).getD 0
    sendPacket q (mkPacket s (respType k (decide (st = .ok) && !d.isEmpty)) 1 dst ten (respArg st.code seq vc) pay) s

/-- Places bytes in an answer's data at a position, extending it with zeros. -/
def placeBytes (d : List Byte) (pos : Nat) (b : List Byte) : List Byte :=
  if b.isEmpty then d
  else slice d 0 pos ++ b ++ d.drop (pos + b.length)

/-- Opens an answer that waits for `n` lines; `isOpen`: more packets of its message are to come. -/
def openPend (r : Reply) (k : ReqKind) (n : Nat) (isOpen : Bool) (s : State) : Nat × State :=
  (s.dir.nextPend, { s with dir := { s.dir with
    pends := tput none s.dir.pends s.dir.nextPend (some { reply := r, kind := k, left := n, isOpen := isOpen })
    nextPend := s.dir.nextPend + 1 } })

/-- Contribution counters by format (Table 18.3): FP32, BF16, FP8, INT, B64. -/
def rowCounter (red : Nat) : Nat :=
  match red % 16 with
  | 1 => 15 | 2 => 16 | 3 => 17 | 4 => 17 | 5 => 18 | 6 => 18 | _ => 19

/-- A contribution has been applied (Tables 6.15, 18.3). -/
def countApplied (red home : Nat) (s : State) : State := bump cOps home (rowCounter red) (bump cNmo 0 2 s)

/-- One line of a contribution has ended; with its last, an unwindowed one counts as applied or as answered POISON
(Tables 6.15, 18.3). -/
def contribLine (r : LineReq) (st : Status) (s : State) : State :=
  match r.kind with
  | .reduceW => when (decide (st = .poison)) (bump cNmo 0 5) s
  | .reduce =>
    match tget none s.dir.pends r.pend with
    | none => s
    | some p =>
      let x := tget {} p.parts r.part
      let y := { x with left := x.left - 1, status := if x.status = .ok then st else x.status }
      let s := { s with dir := { s.dir with pends := tput none s.dir.pends r.pend (some { p with parts := tput {} p.parts r.part y }) } }
      if y.left ≠ 0 then s
      else
        match y.status with
        | .ok => countApplied y.red y.home s
        | .poison => bump cNmo 0 5 s
        | _ => s
  | _ => s

/-- Sends a complete answer and forgets it. -/
def closePend (id : Nat) (s : State) : State :=
  match tget none s.dir.pends id with
  | none => s
  | some p =>
    if p.left = 0 && !p.isOpen then
      sendReply id p.reply p.kind p.status p.data
        { s with dir := { s.dir with pends := tput none s.dir.pends id none } }
    else s

/-- Notes what the counters of one contribution of an answer need: its lines, RED byte and home. -/
def markContribution (id part lines red home : Nat) (s : State) : State :=
  match tget none s.dir.pends id with
  | some p => { s with dir := { s.dir with pends := tput none s.dir.pends id (some
      { p with parts := tput {} p.parts part { left := lines, red := red, home := home } }) } }
  | none => s

/-- One line of an answer has been served: its status joins the answer's (the first failure stands), its bytes are
placed, and the answer is sent when nothing is left. -/
def pendDone (id : Nat) (st : Status) (pos : Nat) (b : List Byte) (s : State) : State :=
  match tget none s.dir.pends id with
  | none => s
  | some p =>
    closePend id { s with dir := { s.dir with pends := tput none s.dir.pends id (some
      { p with left := p.left - 1, status := if p.status = .ok then st else p.status
               data := placeBytes p.data pos b }) } }

/-! Recalls. -/

/-- Holder identity bits of a coarse entry: endpoint groups and logical devices (R92). -/
def addCoarse (d : DirEntry) (h : Part) : DirEntry :=
  match h with
  | .ep n => { d with groups := d.groups ||| (1#1024 <<< (n / 64)) }
  | .ld n => { d with lds := d.lds ||| (1#64 <<< n) }
  | .grp _ => d

/-- Adds a holder in S: a fifth distinct holder makes the entry coarse (R92). -/
def addHolder (d : DirEntry) (h : Part) : DirEntry :=
  if d.coarse then addCoarse d h
  else if d.ptrs.contains h then d
  else if d.ptrs.length < 4 then { d with ptrs := d.ptrs ++ [h] }
  else addCoarse (d.ptrs.foldl addCoarse { d with coarse := true, ptrs := [] }) h

/-- Everyone a recall of this entry goes to (R93): its pointers, or the marked logical devices and the members of the
line's tenant in the marked endpoint groups. -/
def holders (s : State) (d : DirEntry) (ten : Nat) : List Part :=
  if d.coarse then
    ((List.range 64).filter (fun n => d.lds.getLsbD n)).map Part.ld ++
    ((s.pool.members.filter (fun m => m.2 == ten && d.groups.getLsbD (m.1 / 64))).map (fun m => Part.ep m.1))
  else d.ptrs

/-! Host addresses (R30). -/

/-- The window of a logical device that a host physical address hits, with its grant number. -/
def hostWindow (s : State) (d hpa : Nat) : Option (Nat × Wdw) :=
  match (List.range 32).find? (fun g =>
      let w := wdw s d g
      (decide (w.st = .open_) || decide (w.st = .cut)) && decide (w.hpaBase ≤ hpa) &&
      decide (hpa < w.hpaBase + w.size * blockBytes)) with
  | some g => some (g, wdw s d g)
  | none => none

/-- pva = h − hpa_base(w) + pva_base(w) (R30). -/
def hostPva (s : State) (d hpa : Nat) : Option Nat :=
  (hostWindow s d hpa).map (fun w => hpa - w.2.hpaBase + (extent s w.2.extent).pvaBase)

/-- The address a host knows a line by, through its window onto the line's extent. -/
def hpaOf (s : State) (d pva : Nat) : Nat :=
  match (List.range 32).find? (fun g =>
      let w := wdw s d g
      (decide (w.st = .open_) || decide (w.st = .cut)) && covers (extent s w.extent) pva) with
  | some g => pva - (extent s (wdw s d g).extent).pvaBase + (wdw s d g).hpaBase
  | none => pva

/-- Sends one recall message, over the straits between the home and the holder's port. -/
def sendRecall (l : Nat) (r : Recall) (s : State) : State :=
  let s := bump cDir (homeOf s (64 * l)) 0 s
  match r.holder with
  | .ld n => emit (.snoop n r.share r.hpa) (bump cCxl (n / 16) 4 (cross (homeOf s (64 * l)) (n / 16) 0 s))
  | .ep n =>
    sendPacket (homeOf s (64 * l)) (mkPacket s (if r.share then tRecallShare else tRecallInv) 2 n r.tenant
      (BitVec.ofNat 64 r.pva) []) s
  | .grp _ => s

/-- Starts recalls of a line: the entry's target state and the request that waits for the answers. -/
def startRecall (l : Nat) (hs : List Part) (share : Bool) (target : DirEntry) (req : LineReq) (s : State) : State :=
  let (t, pva) := (pvaOfLine s l).getD (req.tenant, req.pva / 64 * 64)
  let hpa (h : Part) : Nat := match h with | .ld n => hpaOf s n pva | _ => 0
  let rs := hs.map (fun h => ({ holder := h, share := share, tenant := t, pva := pva, hpa := hpa h } : Recall))
  let x := line s l
  let s := setLine l { x with cur := some req, recalls := rs, recallTime := s.time, target := target } s
  forEach rs (sendRecall l) s

/-! Performing a request on memory. -/

/-- The ROF tag of a request's answer. -/
def pendTag (s : State) (id : Nat) : Nat :=
  match tget none s.dir.pends id with
  | some p => match p.reply with | .rof _ _ _ _ _ t => t | _ => 0
  | none => 0

/-- A beat's answer goes back from the line's home to the quadrant that waits for it: the one it entered, or the one whose
endpoint ID its packet named. -/
def replyQuadrant (s : State) (r : LineReq) : Nat :=
  match tget none s.dir.pends r.pend with
  | some p => match p.reply with
    | .rof id _ _ _ _ _ => (ownQuadrant s id).getD r.entryQ
    | _ => r.entryQ
  | none => r.entryQ

/-- The answers of copies of an atomic that arrived while it was being served (R113, R320). -/
def answerCopies (w : List Nat) (st : Status) (old : List Byte) (s : State) : State :=
  forEach w (fun id s => pendDone id st 0 old s) s

/-- An atomic ends without having been executed: nothing is retained, and copies that wait are answered alike. -/
def unretain (r : LineReq) (st : Status) (s : State) : State :=
  match r.kind, r.who with
  | .atomic, .ep n =>
    match s.e2e.retained.find? (fun x => x.1.2 == (n, pendTag s r.pend) && x.2.result.isNone) with
    | some x => answerCopies x.2.waiters st [] { s with e2e := { s.e2e with retained := adel x.1 s.e2e.retained } }
    | none => s
  | _, _ => s

/-- The descriptor is one of the near-memory kind (opcodes 0x02 to 0x07 of Table 5.4). -/
def nearMem (d : Desc) : Bool := decide (2 ≤ leAt d.bytes 0 1) && decide (leAt d.bytes 0 1 ≤ 7)

/-- A failure at a position of a descriptor's byte order: the lowest one decides (R162). -/
def failAt (pos : Nat) (st : Status) (ext : List Byte) (d : Desc) : Desc :=
  match d.failure with
  | some (p, _, _) => if pos < p then { d with failure := some (pos, st, ext) } else d
  | none => { d with failure := some (pos, st, ext) }

/-- A beat of a near-memory descriptor fails at its home after it was issued (R162). -/
def beatFailed (r : LineReq) (st : Status) (s : State) : State :=
  match r.owner with
  | none => s
  | some (n, i) =>
    if st = .ok ∨ r.kind = .engRead then s
    else
      let x := queue s n
      setQueue n { x with flight := x.flight.map (fun d =>
        if d.slot = i && !d.ended && nearMem d then failAt r.nmPos st [] d else d) } s

/-- One line of a request has ended. -/
def lineDone (r : LineReq) (st : Status) (pos : Nat) (b : List Byte) (s : State) : State :=
  pendDone r.pend st pos b (contribLine r st (beatFailed r st (unretain r st s)))

/-- The answer of one line of a request, sent from the line's home. -/
def respond (l : Nat) (r : LineReq) (st : Status) (pos : Nat) (b : List Byte) (s : State) : State :=
  lineDone r st pos b (cross (homeOf s (64 * l)) (replyQuadrant s r) b.length s)

/-- Reads the line for a request: from the line buffer if a writeback was just absorbed (R102), else from memory. -/
def fetchLine (l : Nat) (w : Src) (s : State) : LineRead × State :=
  match (line s l).buf with
  | some d => (.data d, setLine l { line s l with buf := none } s)
  | none => readLine l w s

/-- Answers a read with the line's bytes, or POISON. -/
def serveRead (l : Nat) (r : LineReq) (s : State) : State :=
  match fetchLine l (srcOf r.who r.tenant) s with
  | (.data d, s) => respond l r .ok r.pos (slice d r.off r.len) s
  | (.bad, s) => respond l r .poison r.pos [] (bump cUtil (homeOf s (64 * l)) 12 s)

/-- Retained result of an executed atomic (R320); copies that waited for it get it, and count as hits. -/
def retain (q : Nat) (r : LineReq) (st : Status) (old : List Byte) (s : State) : State :=
  match r.who with
  | .ep n =>
    let key := (q, n, pendTag s r.pend)
    let w := match afind s.e2e.retained key with | some x => x.waiters | none => []
    let x : Retained := { tenant := r.tenant, pva := r.pva, op := r.op, a := r.opA, c := r.opC, result := some (st, old), time := s.time }
    answerCopies w st old { s with e2e := { s.e2e with retained := aset key x s.e2e.retained } }
  | _ => s

/-- One atomic of a run on the line's held data (R110). -/
def atomicOn (l : Nat) (r : LineReq) (atHome : Bool) (d : List Byte) (s : State) : List Byte × State :=
  let q := homeOf s (64 * l)
  let n := atomBytes r.op
  let old := slice d r.off n
  let new := atomNew r.op (leNat old) (leAt r.opA 0 n) (leAt r.opC 0 n)
  let s := bump cDir q (if atHome then 7 else 8) s
  (slice d 0 r.off ++ leBytes n new ++ d.drop (r.off + n), respond l r .ok 0 (slice old 0 16) (retain q r .ok (slice old 0 16) s))

/-- Runs the atomics of a run on its line (R112): in the home's ALU after a recall, otherwise in the memory-side ALU; the
line is read once and written back after the last. An uncorrectable line fails them and changes nothing (Table 14.3). -/
def doAtomics (l : Nat) (rs : List LineReq) (atHome : Bool) (s : State) : State :=
  let q := homeOf s (64 * l)
  match rs with
  | [] => s
  | r :: _ =>
    match fetchLine l (srcOf r.who r.tenant) s with
    | (.bad, s) => forEach rs (fun r s => respond l r .poison 0 [] (retain q r .poison [] (bump cUtil q 12 s))) s
    | (.data d, s) =>
      let (d, s) := rs.foldl (fun c r => atomicOn l r atHome c.1 c.2) (d, s)
      storeLine l d s

/-- The atomics that stand next in a line's queue and so belong to the run of one that is served now (R112). -/
def runOf (s : State) (l : Nat) : List LineReq :=
  (line s l).queue.takeWhile (fun r => decide (r.kind = .atomic) && !(tenantGone s r.tenant))

/-- A merge entry that holds contributions is written back before another kind of write (R178 step 5). -/
def settleContrib (l : Nat) (s : State) : State :=
  match tget none s.mem.merge l with
  | some e => if e.contrib then mergeWriteback l s else s
  | none => s

/-- The contents of a line's merge entry for a contribution (R178 step 3): an entry is allocated where there is none, which
reads the line; none where the line is uncorrectable. -/
def mergeFetch (l : Nat) (w : Src) (s : State) : Option (List Byte) × State :=
  match tget none s.mem.merge l with
  | some e =>
    if e.mask = fullMask then (some e.data, s)
    else
      match readStored l w s with
      | (.data d, s) => (some (overlay (some e) d), s)
      | (.bad, s) => (none, s)
  | none =>
    match readStored l w (bump cNmo 0 6 s) with
    | (.data d, s) => (some d, s)
    | (.bad, s) => (none, s)

/-- A line's merge entry takes its new contents, in an entry of the buffer (R178 step 4, R363). -/
def mergePut (l : Nat) (r : LineReq) (d : List Byte) (s : State) : State :=
  let s := if (tget none s.mem.merge l).isSome then s else mergeRoom l s
  { s with mem := { s.mem with merge := tput none s.mem.merge l (some
    { mask := fullMask, data := slice d 0 64, time := s.time, writer := r.who, tenant := r.tenant, contrib := true }) } }

/-- The operator applied to bytes `off` to `off + len − 1` of a line (Table 6.8). -/
def redInto (red off len : Nat) (data d : List Byte) : List Byte :=
  slice d 0 off ++ redBytes red (len / redDstBytes red) (slice d off len) data ++ d.drop (off + len)

/-- Combines an unwindowed contribution into the line's merge entry (R178 steps 3 and 4). -/
def mergeCombine (l : Nat) (r : LineReq) (s : State) : Bool × State :=
  match mergeFetch l (srcOf r.who r.tenant) s with
  | (none, s) => (false, s)
  | (some d, s) => (true, mergePut l r (redInto r.op r.off r.len r.data d) s)

/-- A windowed contribution meets an uncorrectable line: its bit stays clear, and its chunk counts as failed once
(Table 6.12). -/
def winFailed (w chunk : Nat) (s : State) : State :=
  let x := window s w
  setWindow w (if x.failed.contains chunk then x
    else { x with failed := chunk :: x.failed, chunksFailed := min (2 ^ 32 - 1) (x.chunksFailed + 1) }) s

/-- Performs a request as in state I (R99). -/
def perform (l : Nat) (r : LineReq) (atHome : Bool) (s : State) : State :=
  match r.kind with
  | .wrLine => respond l r .ok 0 [] (when r.poison (poisonLine l) (storeLine l r.data (settleContrib l s)))
  | .wrPart =>
    let s := settleContrib l s
    respond l r .ok 0 [] (if r.poison then poisonLine l s else writeMasked l r.mask r.data r.who r.tenant s)
  | .atomic =>
    let run := runOf s l
    doAtomics l (r :: run) atHome (setLine l { line s l with queue := (line s l).queue.drop run.length } s)
  | .reduce =>
    match mergeCombine l r s with
    | (true, s) => respond l r .ok 0 [] s
    | (false, s) => respond l r .poison 0 [] (bump cUtil (homeOf s (64 * l)) 12 s)
  | .victim => bump cDir (homeOf s (64 * l)) 2 s
  | _ => s

/-- The line's bytes as reads return them. -/
def viewLine (s : State) (l : Nat) : List Byte := (List.range 64).map (fun i => readByte s (64 * l + i))

/-- Words of a line that differ. -/
def changedWords (a b : List Byte) : Nat :=
  maskOf ((List.range 8).map (fun i => slice a (8 * i) 8 != slice b (8 * i) 8))

/-- The groups whose pool doorbell line this address of a tenant is (R127). -/
def doorbellsOf (s : State) (ten pva : Nat) : List Nat :=
  (s.que.groups.filter (fun c => decide (c.2.owner = .pool) && decide (c.2.st ≠ .unbound) && c.2.tenant == ten &&
    c.2.dbPva / 64 == pva / 64)).map (·.1)

/-- An operation on a line that a write of a tenant's address orders: changes of a doorbell line are notified. -/
def marked (ten pva l : Nat) (f : State → State) (s : State) : State :=
  let gs := doorbellsOf s ten pva
  if gs.isEmpty then f s
  else
    let t := f s
    let m := changedWords (viewLine s l) (viewLine t l)
    forEach gs (fun g t =>
      let x := group t g
      setGroup g { x with dbMask := x.dbMask ||| m
                          dbTime := ((List.range 8).filter (bitOf m)).foldl (fun d i => tput 0 d i t.time) x.dbTime } t) t

/-- Marks the entry as used, and writes it. -/
def setDir (l : Nat) (d : DirEntry) (s : State) : State := setLine l { line s l with dir := d, used := s.time } s

/-- A write or RMW clears the line buffer: memory has moved on. -/
def dropBuf (l : Nat) (s : State) : State := setLine l { line s l with buf := none } s

/-! Directory capacity (R90, R94). -/

/-- The set of a line: one of 1,048,576, of 16 ways each (R90). -/
def dirSet (l : Nat) : Nat := Config.dirHash l % 1048576

/-- Entries not in I of the line's set at its home. -/
def setMates (s : State) (l : Nat) : List (Nat × Line) :=
  if s.dir.lines.length < 16 then []
  else s.dir.lines.filter (fun c => decide (c.2.dir.st ≠ .i) && c.1 != l && homeOf s (64 * c.1) == homeOf s (64 * l) &&
    decide (dirSet c.1 = dirSet l))

/-- A transaction is being served on the line. -/
def busy (x : Line) : Bool := x.cur.isSome || !x.recalls.isEmpty

/-- The line has nothing in service and nothing queued: no transaction is in progress, and it is not busy (R88). -/
def quietLine (x : Line) : Bool := !(busy x) && x.queue.isEmpty

/-- Busy lines and queued requests of a home, and whether one more line may become busy (R88). -/
def busyLines (s : State) (q : Nat) : Nat := tcount (fun l x => homeOf s (64 * l) == q && !(quietLine x)) s.dir.lines
def queuedReqs (s : State) (q : Nat) : Nat :=
  ((s.dir.lines.filter (fun c => homeOf s (64 * c.1) == q)).map (fun c => c.2.queue.length)).foldl (· + ·) 0
def mayBusy (s : State) (l : Nat) : Bool := !(quietLine (line s l)) || decide (busyLines s (homeOf s (64 * l)) < 4096)

/-- A victim of line `l` is being recalled. -/
def evictsFor (l : Nat) (x : Line) : Bool :=
  match x.cur with | some r => decide (r.kind = .victim) && r.pos == l | none => false

/-- Makes room for an entry: the least recently used entry of a full set whose line is not busy is recalled (R94), one for
each request that waits for room. Answers whether there is room now. A victim's request names in `pos` the line it makes
room for. -/
def allocate (l : Nat) (s : State) : Bool × State :=
  let m := setMates s l
  if m.length < 16 then (true, s)
  else if m.any (fun c => evictsFor l c.2) then (false, s)
  else
    let free := m.filter (fun c => quietLine c.2 && mayBusy s c.1)
    match free with
    | [] => (false, s)
    | f :: _ =>
      let t := (free.map (fun c => c.2.used)).foldl min f.2.used
      match free.find? (fun c => c.2.used == t) with
      | none => (false, s)
      | some (v, x) =>
        let (ten, pva) := (pvaOfLine s v).getD (0, 0)
        let rq : LineReq := { kind := .victim, who := .grp 0, tenant := ten, pva := pva, entryQ := homeOf s (64 * v), pos := l }
        let hs := holders s x.dir ten
        if hs.isEmpty then (true, bump cDir (homeOf s (64 * v)) 2 (setLine v { x with dir := {} } s))
        else (false, startRecall v hs false {} rq s)

/-! Windowed contributions (R178 to R183). -/

/-- Bytes of a window's chunk, and its number of chunks. -/
def chunkBytes (x : Window) : Nat := 2 ^ x.chunkLog2
def chunkCount (x : Window) : Nat := x.length / chunkBytes x

/-- The line that a contribution is ordered on: the first line of its chunk's bitmap, in system space on the chunk's own
pseudo-channel (R180). Which line of that channel's 512 KiB it is, the arm fixes by window and chunk (DESIGN CHOICE). -/
def bitmapLine (s : State) (c : Contrib) (ppa : Nat) : Nat :=
  let slot := (8 * c.window + c.chunk / 512) % 8192
  let p := pcOf s ppa
  let u := p / 512 + 4 * (p / 64 % 8) + 32 * (p % 64)
  let a := 64 * (slot % 2048)
  ((tableBlock s.grade - 4 + slot / 2048) * blockBytes + (a / 4096 * 2048 + u) * 4096 + a % 4096) / 64

/-- The first row of Table 6.12. -/
def winRefuses (x : Window) (t : Nat) (c : Contrib) (payLen : Nat) : Bool :=
  decide (x.st ≠ .armed) || x.tenant != t || c.gen != x.generation.toNat % 65536 || decide (x.contributors ≤ c.contributor) ||
  decide (chunkCount x ≤ c.chunk) || payLen * redDstBytes x.red != chunkBytes x * redSrcBytes x.red

/-- A disarm reaches the homes one by one, each at a time of its own: a contribution that its home orders before is applied, one
that it orders after is refused (R181). -/
def orderDisarm (h : Nat) (r : LineReq) (s : State) : LineReq × State :=
  match r.win with
  | none => (r, s)
  | some c =>
    let x := window s c.window
    if !x.disarming then (r, s)
    else if x.takenBy.contains h then ({ r with win := some { c with refused := true } }, s)
    else
      let (b, s) := drawBool s
      if b then ({ r with win := some { c with refused := true } }, setWindow c.window { x with takenBy := h :: x.takenBy } s)
      else (r, s)

/-- The destination lines of a contribution, in ascending order. -/
def chunkLines (x : Window) (c : Contrib) : List Nat := (List.range (chunkBytes x / 64)).map (fun i => c.base + i)

/-- A contribution's place at a line, by the number of its beat. -/
def isHold (beat : Nat) (r : LineReq) : Bool := decide (r.kind = .hold) && r.beat == beat

/-- The line has come to the contribution's turn and no copy of it is left. -/
def holds (s : State) (beat l : Nat) : Bool :=
  (match (line s l).cur with | some r => isHold beat r | none => false) && (line s l).recalls.isEmpty

/-- A line that no request and no copy keeps a contribution from. -/
def lineFree (s : State) (l : Nat) : Bool := quietLine (line s l) && decide ((line s l).dir.st = .i)

/-- The home has busy lines and queue slots for a contribution and all its places (R88). -/
def roomFor (s : State) (l : Nat) (ls : List Nat) : Bool :=
  let q := homeOf s (64 * l)
  let new := (ls.filter (fun x => quietLine (line s x))).length
  decide (busyLines s q + new + 1 ≤ 4096) && decide (queuedReqs s q + (ls.length - new) + 1 ≤ 16384)

/-- The contribution gives its places up. -/
def releaseHolds (beat : Nat) (ls : List Nat) (s : State) : State :=
  forEach ls (fun l s =>
    let x := line s l
    if holds s beat l then setLine l { x with cur := none } s
    else setLine l { x with queue := x.queue.filter (fun r => !(isHold beat r)) } s) s

/-- A contributor's bit is set; the last one of a chunk counts it, and the last chunk completes the window (Table 6.11). -/
def setContribution (c : Contrib) (s : State) : State :=
  let x := window s c.window
  let m := tget 0 x.bitmap c.chunk ||| 2 ^ c.contributor
  let full := decide (m = 2 ^ x.contributors - 1)
  let x := { x with bitmap := tput 0 x.bitmap c.chunk m, chunksDone := if full then x.chunksDone + 1 else x.chunksDone }
  setWindow c.window (if full && x.chunksDone == chunkCount x
    then { x with st := .complete, due := true, disarming := false, takenBy := [] } else x) s

/-- The merge contents of several lines, or none when one of them is uncorrectable. -/
def mergeFetchAll (w : Src) : List Nat → State → Option (List (Nat × List Byte)) × State
  | [], s => (some [], s)
  | l :: r, s =>
    match mergeFetch l w s with
    | (none, s) => (none, bump cUtil (homeOf s (64 * l)) 12 s)
    | (some d, s) =>
      match mergeFetchAll w r s with
      | (none, s) => (none, s)
      | (some ds, s) => (some ((l, d) :: ds), s)

/-! Serving requests (Table 4.4). -/

def entryO (r : Part) : DirEntry := { st := .o, ptrs := [r] }
def entryS (l : List Part) : DirEntry := { st := .s, ptrs := l }

/-- The transaction of a line ends: its current request and recalls are cleared. -/
def endTrans (l : Nat) (s : State) : State := setLine l { line s l with cur := none, recalls := [] } s

/-- Puts a request back at the head of the line's queue to be served again. -/
def requeue (l : Nat) (r : LineReq) (s : State) : State := setLine l { line s l with queue := r :: (line s l).queue } s

/-- A contribution is applied, all its lines and its bit in one step, or meets an uncorrectable line and leaves all as they
were (R178 step 4, Table 6.12). -/
def applyContribution (l : Nat) (r : LineReq) (c : Contrib) (s : State) : State :=
  let x := window s c.window
  let w := srcOf r.who r.tenant
  match mergeFetchAll w (l :: chunkLines x c) s with
  | (none, s) => respond l r .poison 0 [] (winFailed c.window c.chunk s)
  | (some ds, s) =>
    let k := 64 / redDstBytes x.red * redSrcBytes x.red
    let s := forEach ds (fun d s =>
      if d.1 = l then mergePut l r d.2 s
      else
        let i := d.1 - c.base
        dropBuf d.1 (marked r.tenant (r.pva + 64 * i) d.1 (mergePut d.1 r (redInto x.red 0 64 (slice r.data (i * k) k) d.2)) s)) s
    respond l r .ok 0 [] (setContribution c (countApplied x.red (homeOf s (64 * l)) s))

/-- A windowed contribution comes to its turn at its bitmap line: Table 6.12 decides it, or it takes its places at its
destination lines and waits until it has them all (R178, R183). -/
def contribute (l : Nat) (r : LineReq) (hold : Nat → LineReq → State → State) (s : State) : State :=
  match r.win with
  | none => s
  | some c =>
    let x := window s c.window
    let ls := chunkLines x c
    if tenantGone s r.tenant then respond l r .tenantRevoked 0 [] (releaseHolds r.beat ls s)
    else if c.placed then
      if ls.all (holds s r.beat) then applyContribution l r c (releaseHolds r.beat ls s) else requeue l r s
    else if c.refused || winRefuses x r.tenant c r.data.length then respond l r .policed 0 [] (bump cNmo 0 4 s)
    else if bitOf (tget 0 x.bitmap c.chunk) c.contributor then
      respond l r .ok 0 [] (bump cNmo 0 3 (setWindow c.window { x with duplicates := min (2 ^ 64 - 1) (x.duplicates + 1) } s))
    else if ls.all (lineFree s) then applyContribution l r c s
    else if roomFor s l ls then
      forEach ls (fun d s => hold d { kind := .hold, who := r.who, tenant := r.tenant, pva := r.pva + 64 * (d - c.base)
                                      entryQ := r.entryQ, beat := r.beat, pos := l, owner := r.owner, tile := r.tile } s)
        (requeue l { r with win := some { c with placed := true } } s)
    else requeue l r s

/-- A request of a tenant that is being removed reaches a stack controller: a read returns poison, anything else is dropped
(R395 step 3). -/
def serveGone (l : Nat) (r : LineReq) (s : State) : State :=
  match r.kind with
  | .engRead => s
  | .engWrite => s
  | .resolve => s
  | .victim => s
  | .rdOnce => respond l r .poison r.pos [] s
  | .rdShared => respond l r .poison r.pos [] s
  | .rdOwn => respond l r .poison r.pos [] s
  | .upgrade => respond l r .poison r.pos [] s
  | _ => respond l r .tenantRevoked r.pos [] s

/-- Serves a request whose line needs no recall, or whose recalls are all answered: performs it, grants the copy, and
ends the transaction. `target` is the entry after it. -/
def finish (l : Nat) (r : LineReq) (target : DirEntry) (atHome : Bool) (s : State) : State :=
  if tenantGone s r.tenant && decide (r.kind ≠ .victim) && decide (r.kind ≠ .resolve) && decide (r.kind ≠ .hold) then
    serveGone l r (setDir l (line s l).dir (endTrans l s)) else
  let s := setDir l target (endTrans l s)
  match r.kind with
  | .rdOnce => serveRead l r s
  | .rdShared => serveRead l r s
  | .rdOwn => serveRead l r s
  | .upgrade => if r.len = 0 then respond l r .ok 0 [] s else serveRead l r s
  | .engRead => s
  | .engWrite => s
  | .resolve => s
  | .hold => if (line s r.pos).queue.any (fun y => decide (y.kind = .reduceW) && y.beat == r.beat)
             then setLine l { line s l with cur := some r } s else s
  | .cleanEvict => respond l r .ok 0 [] s
  | _ => dropBuf l (marked r.tenant (r.pva + r.pos) l (perform l r atHome) s)

/-- Whether an entry turned coarse by this addition, for the COARSE counter. -/
def countCoarse (l : Nat) (old new : DirEntry) (s : State) : State :=
  when (!old.coarse && new.coarse) (bump cDir (homeOf s (64 * l)) 3) s

/-- The entry after a clean copy of a holder was dropped: a precise holder goes, and with the last one the entry; a coarse
entry stays (Table 4.4). -/
def dropHolder (d : DirEntry) (h : Part) : DirEntry :=
  if d.coarse then d
  else
    let p := d.ptrs.filter (fun y => y != h)
    if p.isEmpty then {} else { d with ptrs := p }

/-- Serves a request at its line by Table 4.4: at once, or by starting the recalls its row names. -/
def serveLine (l : Nat) (r : LineReq) (s : State) : State :=
  let d := (line s l).dir
  let hs := holders s d ((pvaOfLine s l).getD (r.tenant, 0)).1
  let recallOr (dest : List Part) (share : Bool) (t : DirEntry) (r : LineReq) (s : State) : State :=
    if dest.isEmpty then finish l r t true s else startRecall l dest share t r s
  match d.st with
  | .u => requeue l r s
  | .i =>
    match r.kind with
    | .rdShared =>
      match allocate l s with
      | (true, s) => finish l r (entryS [r.who]) false s
      | (false, s) => requeue l r s
    | .rdOwn =>
      match allocate l s with
      | (true, s) => finish l r (entryO r.who) false s
      | (false, s) => requeue l r s
    | .upgrade =>
      match allocate l s with
      | (true, s) => finish l { r with len := 64 } (entryO r.who) false s
      | (false, s) => requeue l r s
    | _ => finish l r {} false s
  | .s =>
    match r.kind with
    | .rdOnce => finish l r d false s
    | .engRead => finish l r d false s
    | .cleanEvict => finish l r (dropHolder d r.who) false s
    | .rdShared =>
      let d' := addHolder d r.who
      finish l r d' false (countCoarse l d d' s)
    | .rdOwn => recallOr (hs.filter (fun h => h != r.who)) false (entryO r.who) r s
    | .upgrade =>
      let len := if !d.coarse && d.ptrs.contains r.who then 0 else 64
      recallOr (hs.filter (fun h => h != r.who)) false (entryO r.who) { r with len := len } s
    | _ => recallOr hs false {} r s
  | .o =>
    let o := d.ptrs.headD (.grp 0)
    match r.kind with
    | .rdOnce => if r.who = o then finish l r d false s else startRecall l [o] true (entryS [o]) r s
    | .engRead => startRecall l [o] true (entryS [o]) r s
    | .cleanEvict => finish l r (if r.who = o then {} else d) false s
    | .rdShared => if r.who = o then finish l r (entryS [o]) false s
                   else startRecall l [o] true (entryS [o, r.who]) r s
    | .rdOwn => if r.who = o then finish l r (entryO o) false s else startRecall l [o] false (entryO r.who) r s
    | .upgrade => if r.who = o then finish l { r with len := 64 } (entryO o) false s
                  else startRecall l [o] false (entryO r.who) { r with len := 64 } s
    | _ => startRecall l [o] false {} r s

/-- A contribution takes its place at a destination line: behind what waits there, or at once. -/
def holdLine (l : Nat) (r : LineReq) (s : State) : State :=
  if quietLine (line s l) && decide ((line s l).dir.st ≠ .u) then serveLine l r s
  else setLine l { line s l with queue := (line s l).queue ++ [r] } s

/-- Serves a request: a windowed contribution at its bitmap line, any other by Table 4.4. -/
def serve (l : Nat) (r : LineReq) (s : State) : State :=
  match r.kind with
  | .reduceW => contribute l r holdLine s
  | _ => serveLine l r s

/-! Recall answers (R98, R100, R101, R105). -/

/-- The last answer of a recall set has arrived: the waiting request is performed and the entry takes its target. An
entry in U returns to I and its queue is served from I. -/
def recallsDone (l : Nat) (s : State) : State :=
  let x := line s l
  match x.cur with
  | some r =>
    if x.dir.st = .u then
      setLine l { x with dir := {}, cur := none, recalls := [], queue := r :: x.queue } s
    else finish l r x.target true s
  | none => if x.dir.st = .u then setDir l {} (endTrans l s) else setDir l x.target (endTrans l s)

/-- Modified data replace the line in memory and are held in its buffer (R98, R102). -/
def absorbData (l : Nat) (d : List Byte) (poisoned : Bool) (s : State) : State :=
  let (ten, pva) := (pvaOfLine s l).getD (0, 0)
  let s := marked ten pva l (storeLine l d) s
  if poisoned then poisonLine l s else setLine l { line s l with buf := some (slice d 0 64), bufTime := s.time } s

/-- The holder is the recorded owner of the line: of an entry in O, or of one that entered U from O (R106). -/
def ownsLine (x : Line) (h : Part) : Bool :=
  decide (x.dir.ptrs = [h]) && (decide (x.dir.st = .o) || (decide (x.dir.st = .u) && x.dir.dirtyPossible))

/-- One holder's answer: the recorded owner's modified data replace memory, those of any other holder are discarded (R98); a
holder asked for S that gave its copy up altogether may stay recorded (R100). -/
def recallAnswer (l : Nat) (h : Part) (data : Option (List Byte)) (poisoned : Bool) (s : State) : State :=
  let s := match data with
    | some d => if ownsLine (line s l) h then absorbData l d poisoned s else bump cDir (homeOf s (64 * l)) 6 s
    | none => s
  let x := line s l
  let rs := x.recalls.filter (fun r => r.holder != h)
  let s := setLine l { x with recalls := rs } s
  if rs.isEmpty then
    let s := recallsDone l s
    if (line s l).queue.isEmpty then dropBuf l s else s
  else s

/-- Where an answer says its line is: at an address of a tenant, or at a host address of a logical device. -/
structure AnsAddr where
  tenant : Nat
  pva : Nat
  hpa : Option Nat := none
  deriving DecidableEq, Repr

/-- The recall names this address: the tenant's, or the host's own. -/
def recallNames (a : AnsAddr) (r : Recall) : Bool :=
  match a.hpa with
  | some x => decide (r.hpa = x / 64 * 64)
  | none => decide (r.tenant = a.tenant) && decide (r.pva = a.pva)

/-- The line whose outstanding recall to this holder names this address (R98). -/
def recallLine (s : State) (h : Part) (a : AnsAddr) : Option Nat :=
  (s.dir.lines.find? (fun c => c.2.recalls.any (fun r => decide (r.holder = h) && recallNames a r))).map (·.1)

/-- A writeback maps through its tenant's table with every right ignored (R98). -/
def wbLine (s : State) (ten pva : Nat) : Option Nat :=
  match leafAt s ten pva with
  | some (base, lf) => some ((lf.ppa + (pva - base)) / 64)
  | none => none

/-- Enters a line in the lost-line list of a quadrant (R412, Table 16.2). -/
def loseLine (q l : Nat) (s : State) : State :=
  let cur := tget [] s.fen.lostLines q
  let s := bump cFen 0 6 s
  if cur.length < 65536 then { s with fen := { s.fen with lostLines := tput [] s.fen.lostLines q (cur ++ [64 * l]) } }
  else { s with fen := { s.fen with lostOverflow := tput false s.fen.lostOverflow q true } }

/-! Directory scans (R334, R339, R343). -/

/-- The directory entry names a logical device. -/
def namesLd (d : DirEntry) (n : Nat) : Bool :=
  decide (d.st ≠ .i) && (d.ptrs.contains (.ld n) || (d.coarse && d.lds.getLsbD n))

/-- A scan covers the line: its home, its extent, and an entry or an outstanding snoop that names the logical device. -/
def scanHits (s : State) (sc : Scan) (l : Nat) : Bool :=
  homeOf s (64 * l) == sc.q &&
  (match sc.extent with | some e => (block s (64 * l / blockBytes)).extent == e | none => true) &&
  (namesLd (line s l).dir sc.ld || (line s l).recalls.any (fun r => decide (r.holder = .ld sc.ld)))

/-- The entry without a logical device. -/
def dropLd (d : DirEntry) (n : Nat) : DirEntry :=
  if d.coarse then
    let y := { d with lds := d.lds &&& ~~~(1#64 <<< n) }
    if y.lds = 0 ∧ y.groups = 0 then {} else y
  else
    let p := d.ptrs.filter (fun h => h != .ld n)
    if p.isEmpty then {} else { d with ptrs := p }

/-- A possibly modified copy is lost: the line is poisoned, and the unresponsive holder reported (R107). -/
def loseCopy (l : Nat) (sc : Scan) (s : State) : State :=
  let ten := ((pvaOfLine s l).getD (0, 0)).1
  let s := when sc.link (fun s =>
    let p := cxlPort s (sc.ld / 16)
    setCxlPort (sc.ld / 16) { p with downPoisoned := p.downPoisoned + 1 } s) s
  alert .unresponsive [64 * l, ten] (event 0x11 [64 * l, ten, 1, 65536 + sc.ld]
    (bump cDir (homeOf s (64 * l)) 5 (poisonLine l s)))

/-- A scan reaches a line: entries of a reset or departed logical device are resolved, those of a cut are snooped unless
their line is busy. -/
def scanOne (l : Nat) (sc : Scan) (s : State) : State :=
  if !(scanHits s sc l) then s
  else
    let x := line s l
    let h := Part.ld sc.ld
    if sc.dead then
      if x.recalls.any (fun r => decide (r.holder = h)) then
        let dirty := decide (x.dir.st = .o) || (decide (x.dir.st = .u) && x.dir.dirtyPossible)
        recallAnswer l h none false (when dirty (loseCopy l sc) s)
      else if x.dir.st = .o then setLine l { line s l with dir := {} } (loseCopy l sc s)
      else setLine l { x with dir := dropLd x.dir sc.ld } s
    else if busy x || !(mayBusy s l) then s
    else
      let (t, pva) := (pvaOfLine s l).getD (0, 0)
      let rq : LineReq := { kind := .resolve, who := .grp 0, tenant := t, pva := pva, entryQ := sc.q }
      startRecall l [h] false (if x.dir.st = .s then dropLd x.dir sc.ld else {}) rq s

/-- Forgets scans that resolve entries once no line is left for them. -/
def pruneScans (s : State) : State :=
  let keep (sc : Scan) : Bool := !sc.dead || sc.link || s.dir.lines.any (fun c => scanHits s sc c.1)
  let scans := s.dir.scans.filter keep
  { s with dir := { s.dir with scans := scans } }

/-- Every scan in progress is applied to a line. -/
def scanLine (l : Nat) (s : State) : State :=
  if s.dir.scans.isEmpty then s else pruneScans (forEach s.dir.scans (scanOne l) s)

/-- Starts scans of a logical device at every home. -/
def startScans (d : Nat) (e : Option Nat) (dead link : Bool) (s : State) : State :=
  let one (q : Nat) : Scan := { q := q, ld := d, extent := e, dead := dead, link := link }
  let scans := s.dir.scans ++ (List.range 4).map one
  pruneScans { s with dir := { s.dir with scans := scans } }

/-! Acceptance (R86 to R88). -/

/-- Ordering-point input port at home `h` of a request that entered quadrant `e` by local port `p` (Table 4.1). -/
def inputPort (s : State) (h e p : Nat) : Nat :=
  if h = e then p
  else
    let last := match relayRoute s e h with | some (m :: r) => (m :: r).getLastD e | _ => e
    4 + ((List.range 4).filter (fun x => x != h && decide (x < last))).length

/-- PRIO_PTR of a quadrant once the cycle's ties are settled (R87): the port after the tied request that stands highest
in the cycle's priority order. -/
def prioAfter (ptr : Nat) (es : List (Nat × Nat)) : Nat :=
  let tied := es.filter (fun e => es.any (fun f => f.1 == e.1 && f.2 != e.2))
  match tied with
  | [] => ptr
  | t :: r =>
    let rank (p : Nat) : Nat := (p + 7 - ptr) % 7
    let best := r.foldl (fun b e => if rank e.2 < rank b then e.2 else b) t.2
    (best + 1) % 7

/-- Settles the pointers of a cycle that has passed. -/
def settleCycle (s : State) : State :=
  if s.dir.cycleTime = s.time then s
  else
    let up (q : Nat) (t : Tbl Nat) : Tbl Nat :=
      tput 0 t q (prioAfter (tget 0 t q) ((s.dir.cycle.filter (fun c => c.1 == q)).map (·.2)))
    { s with dir := { s.dir with prioPtr := up 3 (up 2 (up 1 (up 0 s.dir.prioPtr))), cycle := [], cycleTime := s.time } }

/-- PRIO_PTR as read now. -/
def prioPtr (s : State) (q : Nat) : Nat := tget 0 (settleCycle s).dir.prioPtr q

/-- Hands an old line's directory entry to its target line once it is not busy (R373 step 4). -/
def handOver (l : Nat) (s : State) : State :=
  match targetLine s l with
  | none => s
  | some t =>
    if !(reint s).switched || (reint s).handed.contains l || !(quietLine (line s l)) then s
    else
      let s := mergeWriteback l s
      let x := line s l
      let s := setLine l {} (setLine t { x with queue := (line s t).queue } s)
      let m := reint s
      { s with mem := { s.mem with migs := tput {} s.mem.migs 4 { m with handed := l :: m.handed } } }

/-- Where a request for a line is ordered: an old line that was handed over is its target line (R373 step 4). -/
def redirect (s : State) (l : Nat) : Nat :=
  if (reint s).handed.contains l then (targetLine s l).getD l else l

/-- A target line whose entry has not arrived from its old home. -/
def awaitsHandOver (s : State) (t : Nat) : Bool :=
  match sourceLine s t with
  | some l => (reint s).switched && !((reint s).handed.contains l)
  | none => false

/-- A request for a target line causes its old line to be handed over at once. -/
def fetchHandOver (t : Nat) (s : State) : State :=
  match sourceLine s t with
  | some l => handOver l s
  | none => s

/-- A writeback's data stay in the line's buffer for the requests of its cycle and for those already queued (R102): they
are gone once the line is quiet and the cycle has passed. -/
def settleBuf (l : Nat) (s : State) : State :=
  let x := line s l
  if x.buf.isSome && quietLine x && x.bufTime != s.time then dropBuf l s else s

/-- A request for the line has to wait in the line's queue. -/
def mustQueue (s : State) (l : Nat) : Bool :=
  !(quietLine (line s l)) || decide ((line s l).dir.st = .u) || awaitsHandOver s l

/-- The home can accept a request for the line: it has a queue slot left for a line that is busy, a busy line for one that
is not (R88). -/
def hasRoom (s : State) (l : Nat) : Bool :=
  let q := homeOf s (64 * l)
  (quietLine (line s l) || decide (queuedReqs s q < 16384)) && mayBusy s l && (!(mustQueue s l) || decide (queuedReqs s q < 16384))

/-- An older request waits at the port of the home that the line and the port name (R86). -/
def portWaits (s : State) (q p : Nat) (ws : List (Nat × Nat × LineReq)) : Bool :=
  ws.any (fun w => w.2.1 == p && homeOf s (64 * redirect s w.1) == q)

/-- The slot that stands for a queue block's own ring writes and notifications: no descriptor's (R74). -/
abbrev ringSlot : Nat := 2 ^ 32

/-- A request is accepted: served at once when its line is not busy, otherwise queued in acceptance order. -/
def takeIn (l p : Nat) (r : LineReq) (s : State) : State :=
  let q := homeOf s (64 * l)
  let s := { s with dir := { s.dir with cycle := (q, l, p) :: s.dir.cycle } }
  let s := match r.who with | .grp g => orderRec (.beat g l) s | _ => s
  let s := feed q (r.owner.filter (fun o => o.2 != ringSlot)) (r.data ++ r.opA ++ r.opC) s
  let (r, s) := orderDisarm q r s
  if mustQueue s l then setLine l { line s l with queue := (line s l).queue ++ [r] } s else serve l r s

/-- Recalls a line from every holder; the entry is resolved by their answers or the timeouts (R106, R107, R416). A line that
the limit of busy lines holds back is noted, and recalled once there is room (R88). -/
def recallAll (l : Nat) (s : State) : State :=
  let x := line s l
  let s := { s with dir := { s.dir with due := s.dir.due.filter (fun k => k != l) } }
  if !x.recalls.isEmpty then forEach x.recalls (sendRecall l) (setLine l { x with recallTime := s.time } s)
  else if x.dir.st = .i || busy x then s
  else if !(mayBusy s l) then { s with dir := { s.dir with due := s.dir.due ++ [l] } }
  else
    let (t, pva) := (pvaOfLine s l).getD (0, 0)
    let rq : LineReq := { kind := .resolve, who := .grp 0, tenant := t, pva := pva, entryQ := homeOf s (64 * l) }
    startRecall l (holders s x.dir t) false {} rq s

def recallDue (l : Nat) (s : State) : State := if s.dir.due.contains l then recallAll l s else s

/-- The home looks at a line before it accepts a request for it. -/
def lookAt (l : Nat) (s : State) : State := settleBuf l (recallDue l (scanLine l (fetchHandOver l (settleCycle s))))

/-- A request reaches an input port of its line's home. It is accepted when nothing older waits at the port and the home
has room; otherwise it waits there (R86 to R88). -/
def accept (l p : Nat) (r : LineReq) (s : State) : State :=
  let l := redirect s l
  let s := lookAt l s
  if !(portWaits s (homeOf s (64 * l)) p s.dir.waitIn) && hasRoom s l then takeIn l p r s
  else { s with dir := { s.dir with waitIn := s.dir.waitIn ++ [(l, p, r)] } }

/-- The requests at the heads of the input ports that their homes can accept now. -/
def openHeads (s : State) : List (Nat × Nat × LineReq) → List (Nat × Nat × LineReq) → List (Nat × Nat × LineReq)
  | _, [] => []
  | seen, w :: rest =>
    let l := redirect s w.1
    if !(portWaits s (homeOf s (64 * l)) w.2.1 seen) && hasRoom s l then w :: openHeads s (w :: seen) rest
    else openHeads s (w :: seen) rest

/-- Among the heads of one home's ports, the one of the highest priority (R87). -/
def firstHead (s : State) (h : Nat × Nat × LineReq) (hs : List (Nat × Nat × LineReq)) : Nat × Nat × LineReq :=
  let q := homeOf s (64 * redirect s h.1)
  let rank (w : Nat × Nat × LineReq) : Nat := (w.2.1 + 7 - prioPtr s q) % 7
  hs.foldl (fun b w => if homeOf s (64 * redirect s w.1) = q && decide (rank w < rank b) then w else b) h

/-- A home that has room again accepts a request that waits at a port (R87, R88). -/
def acceptWaiting (s : State) : State :=
  match openHeads s [] s.dir.waitIn with
  | [] => s
  | h :: t =>
    let w := firstHead s h t
    let l := redirect s w.1
    takeIn l w.2.1 w.2.2 (lookAt l { s with dir := { s.dir with waitIn := s.dir.waitIn.erase w } })

/-- Answer for a request whose home is unreachable (Table 16.2). -/
def answerUnreachable (r : LineReq) (isCxlWrite : Bool) (s : State) : State :=
  let s := when isCxlWrite (bump cCxl r.entryQ 3) s
  lineDone r .poison r.pos [] s

/-- An in-pool beat of a standby: it is accepted only when an order record names it (R426). -/
def holdsBeat (r : LineReq) (s : State) : Bool :=
  follows s && (match r.who with | .grp _ => true | _ => false)

/-- Delivers a request to its home, or answers it under Table 16.2 when the home is unreachable. -/
def deliver (l localPort : Nat) (r : LineReq) (isCxlWrite : Bool) (s : State) : State :=
  let h := homeOf s (64 * l)
  let r := { r with beat := s.dir.nextBeat }
  let s := { s with dir := { s.dir with nextBeat := s.dir.nextBeat + 1 } }
  if homeReachable s h && entryServes s r.entryQ then
    let p := inputPort s h r.entryQ localPort
    let s := cross r.entryQ h (r.data.length + r.opA.length + r.opC.length) s
    if holdsBeat r s then { s with pair := { s.pair with beats := s.pair.beats ++ [(l, p, r)] } } else accept l p r s
  else answerUnreachable r isCxlWrite s

end Sys2Proof.Machine
end

