-- ==== Sys2Proof/Machine/Wire.lean ====
section
/-! DEFINITION. The form of a port's traffic on its lanes (R274 to R278): blocks, control words, frames; the device's
identity (R377, R378) and the link key agreement (R388, R389). -/

namespace Sys2Proof.Machine

/-! Blocks (R274, R275). -/

/-- KIND of a block: 0 IDLE, 1 START, 2 CONT, 3 CONTROL. -/
abbrev kStart : Nat := 1
abbrev kCont : Nat := 2
abbrev kControl : Nat := 3

/-- The 272 line bits of a word: trailer [15:14] KIND, [13:12] the lock pattern 0b10, [11:0] the check, above the 256 data
bits, byte 0 lowest. -/
def lineBits (kind : Nat) (w : List Byte) : BitVec 272 :=
  let d := BitVec.ofNat 256 (leNat (slice w 0 32))
  BitVec.ofNat 2 kind ++ 0b10#2 ++ Config.blockCheck d kind ++ d

def lanesOf (m : BitVec 16) : List Nat := (List.range 16).filter (fun i => m.getLsbD i)
def maskFrom (l : List Nat) : BitVec 16 := l.foldl (fun m i => m ||| (1#16 <<< i)) 0

/-- The lane of word `k` of the transmit stream: the (k mod w)-th of the mask, in ascending order. A port in training has
no transmit mask yet, and the manual names no lane for its control words. -/
def laneOf (m : BitVec 16) (k : Nat) : Option Nat := let l := lanesOf m; (l.drop (k % l.length)).head?

/-- Consecutive words of a port, as lanes and line bits. -/
def onLanes (s : State) (n : Nat) (ws : List (Nat × List Byte)) : List (Option Nat × BitVec 272) :=
  let k := Config.linkWord n s.out.length
  (List.range ws.length).map (fun i =>
    let w := ws.getD i (0, [])
    (laneOf (port s n).txMask (k + i), lineBits w.1 w.2))

/-- What the check makes of a block in which the line turned so many bits: one is corrected, two are detected, more than two
are beyond what R274 states and free. Answers whether a block was corrected and whether its word is lost. -/
def readBlock (errs : Nat) (s : State) : (Bool × Bool) × State :=
  if errs = 0 then ((false, false), s)
  else if errs = 1 then ((true, false), s)
  else if errs = 2 then ((false, true), s)
  else
    let (w, s) := drawWord s
    ((w.getLsbD 0, w.getLsbD 1 && !(w.getLsbD 0)), s)

/-- Reads the blocks of a port: BLOCKS_CORRECTED, WORDS_LOST, and whether a word was lost. -/
def readBlocks (n : Nat) : List Nat → State → Bool × State
  | [], s => (false, s)
  | e :: r, s =>
    let ((c, l), s) := readBlock e s
    let s := when l (bump cRof n 12) (when c (bump cRof n 11) s)
    let (l', s) := readBlocks n r s
    (l || l', s)

/-! CRC-32 and control words (R276, R278). -/

/-- One bit step of the reflected CRC-32 of IEEE 802.3. -/
def crc32Bit (c : BitVec 32) : BitVec 32 := if c.getLsbD 0 then (c >>> 1) ^^^ 0xEDB88320#32 else c >>> 1
def crc32Byte (c : BitVec 32) (b : Byte) : BitVec 32 :=
  crc32Bit (crc32Bit (crc32Bit (crc32Bit (crc32Bit (crc32Bit (crc32Bit (crc32Bit (c ^^^ b.setWidth 32))))))))
def crc32 (l : List Byte) : BitVec 32 := (l.foldl crc32Byte 0xFFFFFFFF#32) ^^^ 0xFFFFFFFF#32

/-- Bytes 1 and up of a control word, from its values (Tables 11.1, 15.4); bytes that the tables do not name are 0. -/
def ctrlContent (ctype : Nat) (v : List Nat) : List Byte :=
  match ctype with
  | 0x01 => 0 :: v.flatMap (leBytes 2)
  | 0x05 => 0 :: v.flatMap (leBytes 2)
  | 0x06 => 0 :: v.flatMap (leBytes 2)
  | 0x02 => 0 :: leBytes 2 (v.getD 0 0)
  | 0x03 => 0 :: leBytes 2 (v.getD 0 0)
  | 0x04 => 0 :: leBytes 2 (v.getD 0 0)
  | 0x09 => 0 :: (leBytes 2 (v.getD 0 0) ++ [BitVec.ofNat 8 (v.getD 1 0)] ++ leBytes 2 (v.getD 2 0))
  | 0x0A => BitVec.ofNat 8 (v.getD 0 0) :: (leBytes 2 (v.getD 1 0) ++ leBytes 2 (v.getD 2 0) ++
      (v.drop 3).map (BitVec.ofNat 8))
  | _ => [0, BitVec.ofNat 8 (v.getD 0 0)]

/-- The 32 bytes of a control word: CTYPE, content, CRC-32 over bytes 0 to 27. -/
def ctrlWord (ctype : Nat) (v : List Nat) : List Byte :=
  let b := slice (BitVec.ofNat 8 ctype :: ctrlContent ctype v) 0 28
  b ++ leBytes 4 (crc32 b).toNat

/-- A control word that its receiver discards: its CRC fails or its CTYPE is reserved. -/
def ctrlBad (w : List Byte) : Bool :=
  decide (leAt w 28 4 ≠ (crc32 (slice w 0 28)).toNat) || leAt w 0 1 == 0 || decide (0x0B ≤ leAt w 0 1)

/-- A control word as the port sends it. -/
def ctrlOut (s : State) (n ctype : Nat) (v : List Nat) : Out :=
  .control n ctype v (onLanes s n [(kControl, ctrlWord ctype v)])

def sendCtrl (n ctype : Nat) (v : List Nat) (s : State) : State := emit (ctrlOut s n ctype v) s

/-! Frames (R276, R389). -/

/-- The IV of a frame: the transmitter's salt, then the frame counter. -/
def frameIv (link : List Byte) (fctr : Nat) : List Byte := slice link 32 4 ++ leBytes 8 fctr

/-- A frame's bytes: header and payload under the link key, FCTR, TAG, LCRC over all that precedes it, zero padding. -/
def frameBytes (link : List Byte) (fctr : Nat) (p : Packet) : List Byte :=
  let plain := headerBytes p ++ leBytes 4 p.crc.toNat ++ p.payload
  let c := Config.gcmSeal (slice link 0 32) (frameIv link fctr) plain
  let pre := slice c.1 0 plain.length ++ leBytes 4 (fctr % 2 ^ 32) ++ slice c.2 0 16
  slice (pre ++ leBytes 4 (crc32 pre).toNat) 0 (32 * frameWords p)

/-- The words of a frame: the first of KIND START, the later ones CONT. -/
def frameBody (link : List Byte) (fctr : Nat) (p : Packet) : List (Nat × List Byte) :=
  let b := frameBytes link fctr p
  (List.range (frameWords p)).map (fun i => (if i = 0 then kStart else kCont, slice b (32 * i) 32))

/-- A frame as the port sends it, numbered by its frame counter. -/
def frameOut (s : State) (n : Nat) (p : Packet) : Out :=
  .frame n p (onLanes s n (frameBody (port s n).linkTx (port s n).fctrTx p))

/-! Identity (R377, R378) and the link key agreement (R388, R389). -/

/-- The attestation key of a release: derived at each start and at each activation, and certified by the DIK. A device with
an identity fault has none. -/
def deriveAk (s : State) : State :=
  if s.sec.identityFault then { s with sec := { s.sec with ak := none, akCert := [] } }
  else { s with sec := { s.sec with ak := some s.sec.fwDigest
                                    akCert := Config.akCertificate (Config.akPublic s.sec.fwDigest) } }

/-- The 96 bytes of an ECDSA signature by the attestation key. -/
def akSigned (s : State) (d : BitVec 384) : List Byte :=
  match s.sec.ak with
  | some r => slice (Config.akSign r d) 0 96
  | none => List.replicate 96 0

/-- The anchor fields of a board configuration record: up to `n` digests from offset `o`, zero ones unused (Table 17.8). -/
def bcrAnchors (b : List Byte) (o n : Nat) : List (List Byte) :=
  ((List.range n).map (fun i => slice b (o + 48 * i) 48)).filter (fun d => !(allZero d))

/-- The 97 bytes of this side's PART 0. -/
def ownPart0 (d : Nat) : List Byte := slice (Config.linkPublic d) 0 97

/-- This side's certificate chain in DER, from the certificate of its attestation key upwards. -/
def ownChain (s : State) : List Byte := s.sec.akCert ++ Config.dikCertificate ++ Config.intermediates

/-- What PART 2 signs: its own PART 0, the partner's, the two endpoint IDs of the TRAIN words. -/
def keyDigest (own other : List Byte) (ownId otherId : Nat) : BitVec 384 :=
  sha384 (own ++ other ++ leBytes 2 ownId ++ leBytes 2 otherId)

/-- Sends one part of the key agreement: fragments of 22 bytes, the last padded with 0 (Table 15.4). -/
def sendPart (n part : Nat) (b : List Byte) (s : State) : State :=
  let total := (b.length + 21) / 22
  forEach (List.range total) (fun i s =>
    sendCtrl n 0x0A ([part, i, total] ++ (slice b (22 * i) 22).map (·.toNat)) s) s

/-- Whether this side is the first of R389. -/
def firstSide (s : State) (n : Nat) : Bool :=
  if (port s n).pair then !s.sec.side else decide (endpointOf s (n / 16) < (port s n).partnerId)

/-- The 72 bytes that both sides derive from their shared secret. -/
def linkOkm (s : State) (n eph : Nat) (other : List Byte) : List Byte :=
  let own := ownPart0 eph
  let salt := if firstSide s n then own ++ other else other ++ own
  slice (Config.hkdf (Config.ecdh eph other) salt
    ((List.map (fun c => BitVec.ofNat 8 c.toNat) "DIDAN-ROF-LINK".toList)) 72) 0 72

/-- The first side's key and salt, and the second side's. -/
def sideKeys (okm : List Byte) (first : Bool) : List Byte :=
  if first then slice okm 0 32 ++ slice okm 64 4 else slice okm 32 32 ++ slice okm 68 4

/-- The partner's chain ends at an ROF anchor of the record in force and its leaf signed PART 2. -/
def partnerProven (s : State) (n eph : Nat) (k0 k1 k2 : List Byte) : Bool :=
  match Config.chainEnd k1 with
  | some (anchor, leaf) =>
    (bcrAnchors s.sec.bcr 80 4).contains anchor &&
      Config.ecdsaOk leaf (keyDigest k0 (ownPart0 eph) (port s n).partnerId (endpointOf s (n / 16))) k2
  | none => false

end Sys2Proof.Machine
end

