-- ==== Sys2Proof/Machine/TransOps.lean ====
section
/-! DEFINITION. What the device does with a packet it terminates (R313): the end-to-end checks, sequence classification
(R307), the key epoch (R391), membership (R35), the policer (R263), reassembly (R316), acknowledgement (R310). -/

namespace Sys2Proof.Machine

/-! Frames held in a receive buffer (R287 to R289). -/

/-- Words the receive side has accepted, by channel. -/
def recvdWords (s : State) (n : Nat) : List Nat := (List.range 8).map (fun v => (vcOf s n v).recvd)

/-- The partition of channel `v` as the fabric manager set it (Table 11.3). -/
def rxReset (v : Nat) : Nat := [2048, 4096, 512, 1024, 4096, 4096, 384, 128].getD v 0
def rxWords (s : State) (n v : Nat) : Nat := (vcOf s n v).rxWords.getD (rxReset v)

/-- The receive side has drained for a credit retrain: RETRAIN_ACK, then CREDIT words that return the whole partition,
which takes effect now; both ends count the words of later audits from here (R286, R288, R289 step 3). -/
def retrainAnswer (n : Nat) (s : State) : State :=
  let s := forEach (List.range 8) (fun v s =>
    setVc n v { vcOf s n v with rxInForce := rxWords s n v, owed := 0, recvd := 0 } s) s
  let x := port s n
  sendCtrl n 0x01 ((List.range 8).map (fun v => (vcOf s n v).rxInForce))
    (sendCtrl n 0x08 [0] (setPort n { x with rxRetrain := none } s))

/-- Audits whose earlier frames have all been freed are answered; a credit retrain whose frames are gone is answered. -/
def settleRx (n : Nat) (s : State) : State :=
  let x := port s n
  let held (t : Nat) : Bool := x.rxq.any (fun f => decide (f.id < t))
  let done := x.audits.takeWhile (fun a => !(held a.1))
  let s := setPort n { x with audits := x.audits.drop done.length } s
  let s := forEach done (fun a s => sendCtrl n 0x06 a.2 s) s
  match x.rxRetrain with
  | some (_, t) => if held t then s else retrainAnswer n s
  | none => s

/-- Frees the words of a frame that has left its buffer. -/
def freeWords (n : Nat) (f : RxFrame) (s : State) : State :=
  let x := port s n
  let v := f.pkt.vc.toNat
  let c := vcOf s n v
  let w := frameWords f.pkt
  settleRx n (setVc n v { c with held := c.held - w, owed := c.owed + w }
    (setPort n { x with rxq := x.rxq.filter (fun g => g.id != f.id) } s))

/-- Updates a held frame, and frees it once forwarded, terminated where it must be, and its last copy has started. -/
def updFrame (n : Nat) (f : RxFrame) (s : State) : State :=
  let x := port s n
  if f.fwd && f.loc && f.copies == 0 then freeWords n f s
  else setPort n { x with rxq := x.rxq.map (fun g => if g.id = f.id then f else g) } s

/-- The local part of a received frame is done: the packet leaves for the device. A packet that no FRAME_RECEIVE brought
holds no words. -/
def takeFrame (n : Nat) (k : Packet) (s : State) : State :=
  match (port s n).rxq.find? (fun f => decide (f.pkt = k) && !f.loc) with
  | none => s
  | some f => updFrame n { f with loc := true } s

/-- The forwarding part of a received frame is done, with so many copies queued. -/
def forwardFrame (n : Nat) (k : Packet) (copies : Nat) (s : State) : State :=
  match (port s n).rxq.find? (fun f => decide (f.pkt = k) && !f.fwd) with
  | none => s
  | some f => updFrame n { f with fwd := true, copies := copies } s

/-- A copy of a frame that entered by port `n` has started, or was dropped from its queue. -/
def copyStarted (n : Nat) (k : Packet) (s : State) : State :=
  match (port s n).rxq.find? (fun f => decide (f.pkt = k) && decide (0 < f.copies)) with
  | none => s
  | some f => updFrame n { f with copies := f.copies - 1 } s

/-! Policing (R263). -/

/-- Tokens of a contract now, in thousandths of a byte. -/
def tokensNow (s : State) (c : Contract) : Nat :=
  min (1000 * c.burstB) (c.milli + c.rateMbps * (s.time - c.tokenTime))

/-- The contract of one of the four kinds, if one is valid: naming tenant and port, tenant and any port, any tenant and
the port, any tenant and any port. -/
def contractFor (s : State) (anyT anyP : Bool) (t p : Nat) : Option Nat :=
  (s.sch.contracts.find? (fun c => c.2.valid && decide (c.2.anyTenant = anyT) && decide (c.2.anyPort = anyP) &&
    (anyT || c.2.tenant == t) && (anyP || c.2.port == p))).map (·.1)

/-- The contracts a packet is policed under, in the order of R263. -/
def contractsOf (s : State) (t p : Nat) : List Nat :=
  [contractFor s false false t p, contractFor s false true t p, contractFor s true false t p,
   contractFor s true true t p].filterMap id

/-- Polices a packet of `n` bytes: the first contract that lacks tokens drops it; otherwise all are charged. -/
def police (t p n : Nat) (s : State) : Bool × State :=
  let cs := contractsOf s t p
  match cs.find? (fun c => decide (tokensNow s (tget {} s.sch.contracts c) < 1000 * n)) with
  | some c => (false, cntAdd cOne 6 c 1 s)
  | none =>
    (true, forEach cs (fun c s =>
      let x := tget {} s.sch.contracts c
      let y : Contract := { x with milli := tokensNow s x - 1000 * n, tokenTime := s.time }
      { s with sch := { s.sch with contracts := tput {} s.sch.contracts c y } }) s)

/-! Receive contexts (R306, R307). -/

/-- Key of the receive context of a packet terminated in quadrant `q`: multicast flows are kept apart from unicast ones
(`q` modulo 4 is the quadrant), and pair flows from all others by their sender (65536 + SIDE). -/
def recvKey (q : Nat) (p : Packet) : FlowKey :=
  { q := if p.mcast then q + 4 * (1 + p.dst.toNat) else q
    other := if isPairType p.typ.toNat then 65536 + p.src.toNat else p.src.toNat, vc := p.vc.toNat }

/-- Classes of Table 12.2. -/
inductive SeqClass where
  | new | duplicate | beyond | full
  deriving DecidableEq, Repr

def recvCount (s : State) (q : Nat) : Nat := (s.e2e.recv.filter (fun c => c.1.q % 4 == q)).length

def classify (s : State) (q : Nat) (p : Packet) : SeqClass :=
  match recvCtx s (recvKey q p) with
  | none => if recvCount s q < 32768 then .new else .full
  | some c =>
    let d := (p.seq.toNat + 2 ^ 24 - c.base) % 2 ^ 24
    if d < 1024 then (if c.bits.contains p.seq.toNat then .duplicate else .new)
    else if d < 2 ^ 23 then .beyond
    else .duplicate

/-- BASE advances past every SEQ accepted in order (R307). -/
def advBase : Nat → Nat → List Nat → Nat × List Nat
  | 0, b, l => (b, l)
  | n + 1, b, l => if l.contains b then advBase n ((b + 1) % 2 ^ 24) (l.erase b) else (b, l)

/-- An arrival is noted: the context's last arrival, and an acknowledgement owed within 1 µs (R306, R310). -/
def noteArrival (q : Nat) (p : Packet) (accepted : Bool) (s : State) : State :=
  let k := recvKey q p
  let c := (recvCtx s k).getD { base := firstSeq p, lastArrival := s.time }
  let (b, l) := if accepted then advBase 1025 c.base (p.seq.toNat :: c.bits) else (c.base, c.bits)
  setRecv k { base := b, bits := l, lastArrival := s.time
              ackDue := match c.ackDue with | some t => some t | none => some s.time } s

/-- Forgets the answer of a message that will never be complete. -/
def dropPend (id : Nat) (s : State) : State := { s with dir := { s.dir with pends := tput none s.dir.pends id none } }

/-- A receive context retires 4 ms after its last arrival, and its reassembly records with it (R306, R316). -/
def retireDue (k : FlowKey) (s : State) : State :=
  match recvCtx s k with
  | none => s
  | some c =>
    if c.lastArrival + 4000000 ≤ s.time then
      let gone := s.e2e.reasm.filter (fun r => decide (r.1.1 = k))
      let s := { s with e2e := { s.e2e with recv := adel k s.e2e.recv
                                            reasm := s.e2e.reasm.filter (fun r => !(decide (r.1.1 = k))) } }
      forEach gone (fun r s => dropPend r.2.pend s) s
    else s

/-- Reassembly key: flow and first SEQ. -/
def reasmKey (q : Nat) (p : Packet) : FlowKey × Nat := (recvKey q p, firstSeq p)

/-- The packet disagrees with the first accepted packet of its message (R315). -/
def mismatch (s : State) (q : Nat) (p : Packet) : Bool :=
  match afind s.e2e.reasm (reasmKey q p) with
  | some r => !(r.typ == p.typ.toNat && r.tenant == p.tenant.toNat && r.keyEpoch == p.keyEpoch.toNat &&
      r.pktCount == p.pktCount.toNat)
  | none => false

/-- An invalidation has named the packet's address at the unit since the message's first packet (R72 step 3). -/
def messageCut (s : State) (q unit : Nat) (p : Packet) : Bool :=
  match afind s.e2e.reasm (reasmKey q p) with
  | some r => wasCut unit (argPva p) r.cut
  | none => false

/-- Records an accepted packet of a multi-packet message (R315, R316). -/
def noteReasm (q : Nat) (p : Packet) (s : State) : State :=
  if p.pktCount.toNat ≤ 1 then s
  else
    match afind s.e2e.reasm (reasmKey q p) with
    | some r =>
      { s with e2e := { s.e2e with reasm := aset (reasmKey q p) { r with got := p.arg1.toNat :: r.got } s.e2e.reasm } }
    | none =>
      let r : Reasm := { typ := p.typ.toNat, tenant := p.tenant.toNat, keyEpoch := p.keyEpoch.toNat,
                         pktCount := p.pktCount.toNat, got := [p.arg1.toNat], taken := s.time, lastReq := s.time, pend := 0 }
      { s with e2e := { s.e2e with reasm := aset (reasmKey q p) r s.e2e.reasm } }

/-- Key epoch check (R391). -/
def epochOk (s : State) (p : Packet) : Bool :=
  let t := tenant s p.tenant.toNat
  match t.st with
  | .active => decide (p.keyEpoch.toNat = t.epoch % 256)
  | .rekeying => decide (p.keyEpoch.toNat = t.epoch % 256) || decide (p.keyEpoch.toNat = (t.epoch + 255) % 256)
  | _ => false

/-- Request, bulk write or reduce channel and not a pair packet (R35, R313 step 7). -/
def isRequestPkt (p : Packet) : Bool :=
  (p.vc == 0#3 || p.vc == 4#3 || p.vc == 5#3) && !(isPairType p.typ.toNat)

/-- Sequenced packets (R303). -/
def sequenced (p : Packet) : Bool :=
  !(p.typ.toNat == tAck || p.typ.toNat == tResendReq || p.typ.toNat == tTime)

/-- The quadrant that terminates a packet which entered by port `n`: the one its DST names, for a LOCAL multicast copy
and for packets terminated at their first hop the entry quadrant; none when the packet is not for this device (R293,
R300, R326, R422). -/
def termQuadrant (s : State) (n : Nat) (p : Packet) : Option Nat :=
  if p.typ.toNat = tTime then some (n / 16)
  else if isPairType p.typ.toNat && (port s n).pair then some (n / 16)
  else if (p.typ.toNat == tAck || p.typ.toNat == tResendReq) && (port s n).pair && p.dst.toNat == b2n s.sec.side then
    some (n / 16)
  else if p.mcast then
    match tget (0#64, false, false) s.rof.mcast (p.dst.toNat % 4096) with
    | (_, true, true) => if p.dst.toNat < 4096 then some (n / 16) else none
    | _ => none
  else ownQuadrant s p.dst.toNat

/-- A device of a pair refuses sequenced unicast packets to its own block (R421); pair packets are no such traffic. -/
def unicastDrop (s : State) (p : Packet) : Bool :=
  paired s && !p.mcast && sequenced p && !(isPairType p.typ.toNat)

/-- Steps 5 to 9 of R313 for a sequenced packet that passed the checks before: answers whether it is accepted. A context
whose 4 ms have passed is gone, whether or not its retirement has been commanded (R306). -/
def sequenceIn (q n : Nat) (p : Packet) (s : State) : Bool × State :=
  if s.e2e.quietUntil.isSome || blockFenced s 5 q then (false, s)
  else
    let s := retireDue (recvKey q p) s
    match classify s q p with
    | .full => (false, bump cE2e q 3 s)
    | .duplicate => (false, bump cE2e q 1 (noteArrival q p false s))
    | .beyond => (false, bump cE2e q 2 s)
    | .new =>
      if !(isPairType p.typ.toNat) && !(epochOk s p) then (false, bump cSec 0 0 s)
      else if isRequestPkt p && !(s.pool.members.contains (p.src.toNat, p.tenant.toNat)) then (false, bump cOne 5 0 s)
      else
        let (ok, s) := if isRequestPkt p then police p.tenant.toNat n (32 + p.payload.length) s else (true, s)
        if !ok then (false, s)
        else if decide (1 < p.pktCount.toNat) && (afind s.e2e.reasm (reasmKey q p)).isNone &&
            decide (16384 ≤ (s.e2e.reasm.filter (fun r => r.1.1.q % 4 == q)).length) then (false, bump cE2e q 4 s)
        else if p.typ.toNat == tAtomic &&
            !(s.e2e.retained.any (fun r => r.1.2 == (p.src.toNat, leAt p.payload 0 8))) &&
            decide (4194304 ≤ (s.e2e.retained.filter (fun r => r.1.1 == q)).length) then (false, bump cE2e q 5 s)
        else if mismatch s q p then (false, bump cE2e q 6 s)
        else (true, noteReasm q p (noteArrival q p true s))

/-- The active names an accepted input to its follower, and keeps it until the record is acknowledged (R426, R427). -/
def nameInput (p : Packet) (s : State) : State :=
  let s := orderRec (.input p.src.toNat p.vc.toNat p.seq.toNat) s
  if s.pair.st = .active ∧ s.pair.follower ≠ 0 then
    { s with pair := { s.pair with kept := s.pair.kept ++ [(s.pair.sent, p)] } }
  else s

/-- An input is held, and counted as accepted only when a record names it (R426). -/
def holdInput (n : Nat) (p : Packet) (s : State) : State :=
  if s.pair.inputs.any (fun x => x.2.src == p.src && x.2.vc == p.vc && x.2.seq == p.seq) then s
  else { s with pair := { s.pair with inputs := s.pair.inputs ++ [(n, p)] } }

/-- A packet arrives on port `n` and is terminated: frees its buffer words, passes the checks of R297 and R313 in
order, and is acted on when accepted. A standby holds an accepted input until an order record names it (R426). A packet
that is not for this device is left to FORWARD and MULTICAST. A multicast packet that fails the check of R297 is one drop, which
MULTICAST counts. -/
def terminate (n : Nat) (p : Packet) (act : Nat → State → State) (s : State) : State :=
  match termQuadrant s n p with
  | none => s
  | some q =>
    let s := takeFrame n p s
    let x := port s n
    if x.srcCheck && !(decide (p.src &&& x.srcMask = x.srcBase)) then when (!p.mcast) (bump cRof n 8) s
    else if !(crcOk p) then bump cE2e q 0 s
    else if 976 < ageOf s p then bump cRof n 6 s
    else if !(headerOk p x.pair) then bump cRof n 9 s
    else if unicastDrop s p then bump cPair 0 9 s
    else if !(sequenced p) then act q s
    else if follows s && !(isPairType p.typ.toNat) then holdInput n p s
    else
      match sequenceIn q n p s with
      | (false, s) => s
      | (true, s) =>
        act q (if isPairType p.typ.toNat then s else nameInput p s)

/-- The SRC of a response: the endpoint ID the request's DST named, or the terminating quadrant's for a multicast
request (R513). -/
def replyId (s : State) (q : Nat) (p : Packet) : Nat := if p.mcast then endpointOf s q else p.dst.toNat

/-- The answer address of a request packet: a message is answered on its first SEQ (R315). -/
def replyOf (s : State) (q : Nat) (p : Packet) (tag : Nat) : Reply :=
  .rof (replyId s q p) p.src.toNat p.vc.toNat (firstSeq p) p.tenant.toNat tag

/-- Opens the answer of an accepted request of `n` lines, or joins the answer its message already has; once every
packet of the message has been accepted the answer closes when its lines are served (R315). -/
def msgPend (q : Nat) (p : Packet) (k : ReqKind) (n tag : Nat) (s : State) : Nat × State :=
  if p.pktCount.toNat ≤ 1 then openPend (replyOf s q p tag) k n false s
  else
    match afind s.e2e.reasm (reasmKey q p) with
    | none => openPend (replyOf s q p tag) k n false s
    | some r =>
      let whole := decide (r.pktCount ≤ r.got.length)
      let (id, s) := if r.pend = 0 then openPend (replyOf s q p tag) k 0 true s else (r.pend, s)
      let s := match tget none s.dir.pends id with
        | some x =>
          let y : Pend := { x with left := x.left + n, isOpen := !whole }
          { s with dir := { s.dir with pends := tput none s.dir.pends id (some y) } }
        | none => s
      if whole then (id, { s with e2e := { s.e2e with reasm := adel (reasmKey q p) s.e2e.reasm } })
      else (id, { s with e2e := { s.e2e with reasm := aset (reasmKey q p) { r with pend := id } s.e2e.reasm } })

/-- Answers a request at once with a status and no effect (R292's format rules, R71 refusals). -/
def answerNow (q : Nat) (p : Packet) (k : ReqKind) (st : Status) (tag : Nat) (s : State) : State :=
  let (id, s) := msgPend q p k 1 tag s
  pendDone id st 0 [] s

end Sys2Proof.Machine
end

