-- ==== Sys2Proof/Machine/QueueOps.lean ====
section
/-! DEFINITION. Queues and completions (chapter 5): ring slots, delivery of completions and their extension records
(R139 to R143), notification (R146), queue faults (Table 5.19), lease renewal (R43 to R46, R130). -/

namespace Sys2Proof.Machine

/-! Rings (R122, R123). -/

def sqSize (x : Queue) : Nat := 2 ^ x.sqLog
def cqSize (x : Queue) : Nat := 2 ^ x.cqLog
/-- Entries a ring holds: (tail − head) modulo 2^32. -/
def sqHeld (x : Queue) : Nat := (x.sqTail - x.sqHead).toNat
def cqHeld (x : Queue) : Nat := (x.cqTail - x.cqHead).toNat
/-- IN_FLIGHT: descriptors and armed window completions (R125, R322). -/
def inFlight (x : Queue) : Nat := x.flight.length + x.windowsInFlight

/-- The participant that a queue's group acts as, and its tenant. -/
def grpPart (n : Nat) : Part := .grp (n / 8)

/-- Error-log source of a queue (Table 3.7). -/
def srcOfQueue (s : State) (n : Nat) : Src := { source := 2, sourceId := n, tenant := (group s (n / 8)).tenant }

/-! Queue faults and states (Tables 5.14, 5.19). -/

/-- A fault stops a RUNNING queue; a queue already STOPPED keeps its fault. -/
def queueFault (n code : Nat) (s : State) : State :=
  let x := queue s n
  match x.st with
  | .running => setQueue n { x with st := .stopped, fault := code } s
  | _ => s

/-- An undeliverable completion stops any queue that is not STOPPED (R153). -/
def undeliverable (n : Nat) (s : State) : State :=
  let x := queue s n
  match x.st with
  | .stopped => s
  | _ => setQueue n { x with st := .stopped, fault := 7 } s

/-- The last descriptor in flight of a DISABLING queue completes. -/
def settleDisable (n : Nat) (s : State) : State :=
  let x := queue s n
  if x.st = .disabling ∧ inFlight x = 0 then setQueue n { x with st := .disabled } s else s

/-- A group changes state (STATE_TIME). -/
def setGroupSt (g : Nat) (st : GroupSt) (s : State) : State :=
  setGroup g { group s g with st := st, stateTime := s.time } s

/-! Queue-block writes into pool memory. -/

/-- An ordered write of bytes within one line by a queue block or window, as the group or tenant it acts for; refused
translations answer the refusal and write nothing. -/
def poolWrite (q t pva : Nat) (who : Part) (d : List Byte) (s : State) (owner : Option (Nat × Nat) := none) :
    Option Refuse × State :=
  match translate q t pva who (.inPool false) .write s with
  | (.error r, s) => (some r, s)
  | (.ok (ppa, _), s) =>
    let off := ppa % 64
    let mask := (2 ^ d.length - 1) * 2 ^ off
    let r : LineReq := { kind := if d.length = 64 then .wrLine else .wrPart, who := who, tenant := t, pva := pva,
                         entryQ := q, data := List.replicate off 0 ++ d, mask := mask, off := off, len := d.length
                         owner := owner }
    (none, deliver (ppa / 64) 3 r false s)

/-- A write over line boundaries, line by line. -/
def poolWriteAll (q t pva : Nat) (who : Part) (d : List Byte) (s : State) : Option Refuse × State :=
  let n := (pva % 64 + d.length + 63) / 64
  (List.range n).foldl (fun (acc : Option Refuse × State) i =>
    match acc.1 with
    | some _ => acc
    | none =>
      let a := if i = 0 then pva else (pva / 64 + i) * 64
      let pos := a - pva
      poolWrite q t a who (slice d pos (min (64 - a % 64) (d.length - pos))) acc.2) (none, s)

/-! Completions. -/

/-- The host link of a group's owner is up. -/
def hostLinkUp (s : State) (ld : Nat) : Bool := (cxlPort s (ld / 16)).linkState == 2

/-- The 32 bytes of a completion at completion index `i` (Table 5.8, R140). -/
def complBytes (s : State) (c : Compl) (i size : Nat) (verified : Bool) : List Byte :=
  leBytes 8 (min c.result0 (2 ^ 64 - 1)) ++ leBytes 8 (min c.result1 (2 ^ 64 - 1)) ++ leBytes 8 s.time ++
  leBytes 4 c.tag ++ leBytes 2 (if c.window then 0xFFFF else c.slot % sqSize (queue s c.queue)) ++ [BitVec.ofNat 8 c.status.code,
    BitVec.ofNat 8 ((1 - i / size % 2) + 2 * b2n verified + 4 * b2n (!c.ext.isEmpty) + 8 * b2n c.paused + 16 * (c.detail % 16))]

/-- The translated address of a host ring address, while the translation cache of the port's quadrant holds it (R81). -/
def hostXlat (s : State) (ld pasid addr : Nat) : Option Nat :=
  ((xunit s (ld / 16)).atc.find? (fun e => e.ld == ld && e.pasid == pasid && !e.draining && decide (e.page ≤ addr) &&
    decide (addr < e.page + e.size))).map (fun e => e.hpa + (addr - e.page))

/-- The outcome of a write to a ring: done, undeliverable (R153), or waiting for a host translation. -/
inductive RingOut where
  | ok | failed | wait
  deriving DecidableEq, Repr

/-- Before a write to ring addresses of a queue: the outputs must not be gated, a host's link must be up and every page
translated; a standby, whose links are down, withholds the write (R424). -/
def ringReady (n : Nat) (addrs : List Nat) (s : State) : RingOut × State :=
  let x := queue s n
  match x.placement, (group s (n / 8)).owner with
  | 0, .host ld =>
    if follows s then (.ok, s)
    else if gated s then (.wait, s)
    else if !(hostLinkUp s ld) then (.failed, s)
    else
      match addrs.find? (fun a => (hostXlat s ld x.pasid a).isNone) with
      | some a => (.wait, emit (.atsRequest ld x.pasid (a / 4096 * 4096)) s)
      | none => (.ok, s)
  | 1, _ => (if gated s && !(follows s) then .wait else .ok, s)
  | 2, _ => (.ok, s)
  | _, _ => (.failed, s)

/-- Writes bytes of completion index `i` of the completion to a ring of the queue; false when they cannot be delivered
(R153). A write to an accelerator's ring is kept until it is acknowledged. -/
def ringWrite (n addr i : Nat) (c : Compl) (d : List Byte) (s : State) : Bool × State :=
  let x := queue s n
  let g := group s (n / 8)
  match x.placement, g.owner with
  | 0, .host ld =>
    if follows s then (true, feed (ld / 16) none d s)
    else
      match hostXlat s ld x.pasid addr with
      | some h => (true, emit (.dmaWrite ld x.pasid h d) (feed (ld / 16) none d s))
      | none => (false, s)
  | 1, _ =>
    let mask := leBytes 8 ((2 ^ d.length - 1) * 2 ^ (addr % 64))
    let lineData := slice (List.replicate (addr % 64) 0 ++ d) 0 64
    let s := { s with e2e := { s.e2e with ringWrites := s.e2e.ringWrites ++
      [{ q := g.quadrant, other := x.ringEndpoint, addr := addr / 64 * 64, idx := i, compl := c }] } }
    (true, sendPacket g.quadrant (mkPacket s tWrPart 4 x.ringEndpoint g.tenant (BitVec.ofNat 64 (addr / 64 * 64))
      (mask ++ lineData)) s)
  | 2, _ =>
    match poolWrite g.quadrant g.tenant addr (grpPart n) d s (some (n, ringSlot)) with
    | (none, s) => (true, s)
    | (some r, s) => (false, refuse g.quadrant g.tenant addr r 2 n s)
  | _, _ => (false, s)

/-- A write to a ring address, made for completion index `i`, is not visible to the ring's owner yet: an accelerator has not
acknowledged it, or it still waits at its line's home (R141, R146). What a host is sent by DMA keeps its order. -/
def ringWaits (s : State) (n addr i : Nat) : Bool :=
  let x := queue s n
  let mine (r : LineReq) : Bool := decide (r.who = grpPart n) && decide (r.kind = .wrPart) && r.tenant == (group s (n / 8)).tenant &&
    r.pva == addr
  match x.placement with
  | 1 => s.e2e.ringWrites.any (fun w => w.compl.queue == n && w.idx == i && !w.acked)
  | 2 => s.dir.waitIn.any (fun w => mine w.2.2) ||
      s.dir.lines.any (fun c => (match c.2.cur with | some r => mine r | none => false) || c.2.queue.any mine)
  | _ => false

/-- CQ_TAIL up to which the completions of a queue are visible: what a notification carries. -/
def seenTail (x : Queue) : Nat := match x.posts with | p :: _ => p.idx | [] => x.cqTail.toNat

/-- Sends one notification of a queue (R146) and restarts its coalescing. -/
def notify (n : Nat) (s : State) : State :=
  let x := queue s n
  let g := group s (n / 8)
  let s := setQueue n { x with coalesced := 0 } s
  match x.notifyKind with
  | 1 => match g.owner with | .host ld => emit (.msix ld x.msixVector) s | _ => s
  | 2 =>
    sendPacket g.quadrant (mkPacket s tNotify 6 x.notifyEndpoint g.tenant
      (BitVec.ofNat 64 (n + seenTail x * 2 ^ 32)) []) s
  | 3 =>
    match poolWrite g.quadrant g.tenant x.notifyPva (grpPart n) (leBytes 8 (seenTail x)) s (some (n, ringSlot)) with
    | (none, s) => s
    | (some r, s) => refuse g.quadrant g.tenant x.notifyPva r 2 n s
  | _ => s

/-- Counts a completion with NOTIFY towards notification. -/
def noteNotify (n : Nat) (s : State) : State :=
  let x := queue s n
  let y := { x with coalesced := x.coalesced + 1, coalesceSince := if x.coalesced = 0 then s.time else x.coalesceSince }
  let s := setQueue n y s
  if max 1 x.coalesceCount ≤ y.coalesced then notify n s else s

/-- The completions of a queue that have become visible count towards notification, in their order. -/
def settlePosts (n : Nat) (s : State) : State :=
  let x := queue s n
  let vis := x.posts.takeWhile (fun p => !(ringWaits s n p.addr p.idx))
  if vis.isEmpty then s
  else forEach (vis.filter (·.notify)) (fun _ => noteNotify n) (setQueue n { x with posts := x.posts.drop vis.length } s)

/-- Units that hold effects of a descriptor, by quadrant and number (R429). -/
def unitsOf (s : State) (c : Compl) : List (Nat × Nat) :=
  (s.pair.effects.filter (fun e => e.1 == c.queue && e.2.1 == c.slot)).map (fun e => e.2.2)

/-- A unit is verified: closed, its digests compared and alike. -/
def unitVerified (s : State) (u : Nat × Nat) : Bool :=
  decide (u.2 < tget 0 s.pair.nextUnit u.1) && !(s.pair.failed.contains u) &&
  !(s.pair.units.any (fun d => d.q == u.1 && d.unit == u.2))

/-- VERIFIED of a completion: outside pair mode always 1 (R139, R429). -/
def pairVerified (s : State) (c : Compl) : Bool := !(paired s) || decide (s.pair.st = .standby) || (unitsOf s c).all (unitVerified s)

/-- A unit that holds an effect has failed verification, or the standby left before verifying it. -/
def pairFailed (s : State) (c : Compl) : Bool := paired s && (unitsOf s c).any (fun u => s.pair.failed.contains u)

/-- The extension record of a completion is written, and visible, before its main slot (R141): done, refused, or awaited. -/
def writeExt (c : Compl) (extA i : Nat) (s : State) : RingOut × State :=
  let n := c.queue
  if c.ext.isEmpty then (.ok, s)
  else
    let (ok, s) := if (queue s n).extOut = some i then (true, s) else ringWrite n extA i c (slice c.ext 0 32) s
    if !ok then (.failed, s)
    else if ringWaits s n extA i then (.wait, setQueue n { queue s n with extOut := some i } s)
    else (.ok, s)

/-- Writes a completion into its ring: the extension slot first, then the main slot (R141). -/
def writeCompl (c : Compl) (s : State) : RingOut × State :=
  let n := c.queue
  let x := queue s n
  let i := x.cqTail.toNat
  let size := cqSize x
  let v := pairVerified s c
  let c := if pairFailed s c && decide (c.status = .ok) then { c with status := .unverified } else c
  let main := x.cqBase + 32 * (i % size)
  let extA := x.cqBase + 32 * ((x.cqTail + 1).toNat % size)
  match ringReady n (if c.ext.isEmpty then [main] else [extA, main]) s with
  | (.ok, s) =>
    match writeExt c extA i s with
    | (.ok, s) =>
      (match ringWrite n main i c (complBytes s c i size v) s with
      | (false, s) => (.failed, setQueue n { queue s n with extOut := none } s)
      | (true, s) =>
        let y := queue s n
        let s := setQueue n { y with
          cqTail := y.cqTail + (if c.ext.isEmpty then 1 else 2), extOut := none
          posts := y.posts ++ [{ idx := i, addr := main, notify := c.notify }] } s
        let s := when (decide (c.status = .unverified)) (bump cPair 0 4) s
        (.ok, settlePosts n (bump cQue 0 1 s)))
    | r => r
  | r => r

/-- A completion has been written: its descriptor, or its window's arm, is no longer in flight (R125, R322). -/
def retireDesc (c : Compl) (s : State) : State :=
  let x := queue s c.queue
  let s := if c.window then s else
    let left := s.pair.effects.filter (fun e => !(e.1 == c.queue && e.2.1 == c.slot))
    { s with pair := { s.pair with effects := left, failed := s.pair.failed.filter (fun u => left.any (fun e => e.2.2 == u)) } }
  settleDisable c.queue (setQueue c.queue (
    if c.window then { x with windowsInFlight := x.windowsInFlight - 1 }
    else { x with flight := x.flight.filter (fun d => d.slot != c.slot) }) s)

/-- Holds a completion that cannot be delivered: the queue stops, and a QUIESCING group becomes ORPHANED (R153, R155). -/
def holdCompl (c : Compl) (s : State) : State :=
  let g := c.queue / 8
  let s := setGroup g { group s g with held := (group s g).held ++ [c] } s
  let s := undeliverable c.queue s
  if (group s g).st = .quiescing then bump cQue 0 6 (setGroupSt g .orphaned s) else s

/-- Delivers a completion; one of a tenant that is being removed is not written to a pool-resident ring (R395). It waits
behind one of its queue that is held or awaits a translation. In a group that is being released or unbound it is dropped
(Table 5.15). -/
def deliverCompl (c : Compl) (s : State) : State :=
  let g := group s (c.queue / 8)
  let x := queue s c.queue
  match g.st with
  | .unbound => s
  | .releasing => s
  | .orphaned => setGroup (c.queue / 8) { g with held := g.held ++ [c] } s
  | _ =>
    if g.revoking && x.placement == 2 then retireDesc c s
    else if g.held.any (fun h => h.queue == c.queue) then setGroup (c.queue / 8) { g with held := g.held ++ [c] } s
    else if !x.awaiting.isEmpty then setQueue c.queue { x with awaiting := x.awaiting ++ [c] } s
    else
      match writeCompl c s with
      | (.ok, s) => retireDesc c s
      | (.failed, s) => holdCompl c s
      | (.wait, s) => setQueue c.queue { queue s c.queue with awaiting := [c] } s

/-- Delivers again the completions that awaited a translation or their extension record. -/
def flushAwaiting (n : Nat) (s : State) : State :=
  let x := queue s n
  forEach x.awaiting deliverCompl (setQueue n { x with awaiting := [] } s)

/-- A queue whose extension record has become visible goes on with its main slot, and what has become visible is notified
(R141, R146). -/
def settleRing (n : Nat) (s : State) : State :=
  let x := queue s n
  let s := match x.extOut with
    | some i => if ringWaits s n (x.cqBase + 32 * ((i + 1) % cqSize x)) i then s else flushAwaiting n s
    | none => s
  settlePosts n s

/-- Every queue with a ring write that was not visible. -/
def settleRings (s : State) : State :=
  forEach (s.que.queues.filter (fun c => c.2.extOut.isSome || !c.2.posts.isEmpty)) (fun c => settleRing c.1) s

/-- A host denies the translation a completion needs: it is held, with every later one of its queue (R83, R153). -/
def denyAwaiting (n : Nat) (s : State) : State :=
  let x := queue s n
  forEach x.awaiting holdCompl (setQueue n { x with awaiting := [] } s)

/-- Delivers the held completions of a queue again, in their order. -/
def redeliver (n : Nat) (s : State) : State :=
  let g := group s (n / 8)
  let mine := g.held.filter (fun c => c.queue == n)
  forEach mine deliverCompl (setGroup (n / 8) { g with held := g.held.filter (fun c => c.queue != n) } s)

/-- A write, contribution or atomic of the completion's descriptor waits at a home's port and is not ordered yet (R61, R142). -/
def unordered (s : State) (c : Compl) : Bool :=
  !c.window && s.dir.waitIn.any (fun w => w.2.2.owner == some (c.queue, c.slot))

/-- A completion may be written: the effects of its descriptor are ordered, and its verification, where it awaits one, is
decided (R134, R142, R429). -/
def mayComplete (s : State) (c : Compl) : Bool :=
  !(unordered s c) && (!c.waitVerified || pairVerified s c || pairFailed s c)

/-- A descriptor's outcome is decided (R139 to R143): its completion is written, or kept until it may be. -/
def complete (c : Compl) (s : State) : State :=
  let x := queue s c.queue
  let s := setQueue c.queue { x with flight := x.flight.map (fun d =>
    if d.slot = c.slot && !c.window then { d with ended := true } else d) } s
  if mayComplete s c then deliverCompl c s
  else { s with que := { s.que with unverified := s.que.unverified ++ [c] } }

/-- Completions that were kept are delivered once they may be. -/
def deliverVerified (s : State) : State :=
  let l := s.que.unverified
  forEach (l.filter (mayComplete s)) deliverCompl { s with que := { s.que with unverified := l.filter (fun c => !(mayComplete s c)) } }

/-- The participant a window's own writes act as: none with overrides of its own. -/
def winPart (w : Nat) : Part := .grp (1024 + w)

/-- An ordered write of a window for its tenant, translated by Q0; one that is refused is skipped and recorded (R181). -/
def winWrite (w pva : Nat) (d : List Byte) (s : State) : State :=
  let t := (window s w).tenant
  match poolWriteAll 0 t pva (winPart w) d s with
  | (none, s) => s
  | (some r, s) => refuse 0 t pva r 2 (0x10000 + w) s

/-- A window's queue completion, one per arm (R323). -/
def winCompl (w : Nat) (st : Status) (ext : List Byte) (s : State) : State :=
  let x := window s w
  if !(tget false s.e2e.collValid w) || x.completed then s
  else
    let s := setWindow w { x with completed := true } s
    complete { queue := tget 0 s.e2e.collQ w, slot := 0, window := true, tag := w, status := st, detail := 0xF
               result0 := x.chunksDone, result1 := x.generation.toNat, ext := ext, notify := true } s

/-- A window that has become COMPLETE writes its GENERATION to NOTIFY_PVA, and then its queue completion (Table 6.11, R323). -/
def windowDone (w : Nat) (s : State) : State :=
  let x := window s w
  let s := setWindow w { x with due := false } s
  winCompl w .ok [] (if x.notifyPva = 0 then s else winWrite w x.notifyPva (leBytes 8 x.generation.toNat) s)

/-- Every window that has just become COMPLETE. -/
def settleWindows (s : State) : State := forEach (s.nm.windows.filter (fun c => c.2.due)) (fun c => windowDone c.1) s

/-- After requests have left the homes' ports or lines: windows that are complete say so, what was written is visible, what was
kept may be written. -/
def settleOrder (s : State) : State := settleRings (deliverVerified (settleWindows s))

/-- The descriptor in a submission slot of a queue. -/
def descAt (s : State) (n slot : Nat) : Option Desc := (queue s n).flight.find? (fun d => d.slot == slot && !d.ended)

def setDesc (n : Nat) (d : Desc) (s : State) : State :=
  let x := queue s n
  setQueue n { x with flight := x.flight.map (fun y => if y.slot = d.slot then d else y) } s

/-- Header fields of a descriptor (Table 5.3). -/
def dOpcode (d : Desc) : Nat := leAt d.bytes 0 1
def dFence (d : Desc) : Bool := bitOf (leAt d.bytes 1 1) 0
def dNotify (d : Desc) : Bool := bitOf (leAt d.bytes 1 1) 1
def dWait (d : Desc) : Bool := bitOf (leAt d.bytes 1 1) 2
def dTag (d : Desc) : Nat := leAt d.bytes 4 4
def dLimitUs (s : State) (n : Nat) (d : Desc) : Nat :=
  let u := leAt d.bytes 8 4
  if u = 0 then 1000 * (queue s n).defaultLimitMs else u

/-- A completion of this descriptor. -/
def complOf (n : Nat) (d : Desc) (st : Status) : Compl :=
  { queue := n, slot := d.slot, tag := dTag d, status := st, notify := dNotify d, waitVerified := dWait d }

/-- Reserved bytes of a descriptor header and of its opcode's layout are all zero (R133). -/
def zeroAt (l : List Byte) (o n : Nat) : Bool := leAt l o n == 0
def headerClean (d : Desc) : Bool := decide (leAt d.bytes 1 1 < 8) && zeroAt d.bytes 2 2 && zeroAt d.bytes 12 4

/-- Bytes of a stripe. -/
abbrev stripeBytes : Nat := 1048576

/-! Fields of the near-memory layouts (Tables 6.2 to 6.5, 6.9). -/

def nA (d : Desc) : Nat := leAt d.bytes 16 8 % 2 ^ 48
def nB (d : Desc) : Nat := leAt d.bytes 24 8
def nC (d : Desc) : Nat := leAt d.bytes 32 8
def nByte (d : Desc) (o : Nat) : Nat := leAt d.bytes o 1
def nStride (d : Desc) : Nat := leAt d.bytes 48 8
def nCount (d : Desc) : Nat := leAt d.bytes 40 4
/-- Element size of GATHER and SCATTER. -/
def nElem (d : Desc) : Nat := 2 ^ nByte d 44
/-- Index size. -/
def nIdx (d : Desc) : Nat := if nByte d 45 = 0 then 4 else 8

/-- Bytes of the descriptor in its byte order (Table 6.1). -/
def nmTotal (d : Desc) : Nat :=
  match dOpcode d with
  | 0x02 => nB d
  | 0x05 => nCount d * nElem d
  | 0x06 => nCount d * nElem d
  | _ => nC d

/-- The copy runs in descending order (R165). -/
def copyDown (d : Desc) : Bool := decide (nA d < nB d) && decide (nB d < nA d + nC d)

/-- End of the leading run of carried-out stripes. -/
def donePrefix (d : Desc) : Nat :=
  match lowest d.stripes (fun i => !(d.stripesDone.contains i)) with
  | some i => i * stripeBytes
  | none => if d.stripes = 0 then 0 else nmTotal d

/-- A COMPARE's mismatch is its outcome: no failure lies below it, and everything below it has been compared (R162, R167). -/
def diffWins (d : Desc) : Bool :=
  match d.diff with
  | none => false
  | some (m, _, _) => decide (m / stripeBytes * stripeBytes ≤ donePrefix d) &&
      (match d.failure with | some (p, _, _) => decide (m < p) | none => true)

/-- The bytes-done prefix as its stripes stand (R73, R162): those carried out, cut at the lowest failure or mismatch. -/
def nmPrefix (d : Desc) : Nat :=
  let k := donePrefix d
  match d.diff, d.failure with
  | some (m, _, _), _ =>
    if diffWins d then m
    else match d.failure with | some (p, _, _) => if p / stripeBytes * stripeBytes ≤ k then p else k | none => k
  | none, some (p, _, _) => if p / stripeBytes * stripeBytes ≤ k then p else k
  | none, none => k

/-- RESULT1 of a prefix (Table 6.7). -/
def nmResult1 (d : Desc) (k : Nat) : Nat :=
  match dOpcode d with
  | 0x04 => match d.diff with
    | some (_, x, y) => if diffWins d then 1 + x.toNat * 2 ^ 8 + y.toNat * 2 ^ 16 else 0
    | none => 0
  | 0x07 => ((d.nans.filter (fun c => decide (64 * c.1 < k))).map (·.2)).foldl (· + ·) 0
  | _ => 0

/-- A beat of a descriptor's engines that writes. -/
def nmBeat (n slot : Nat) (r : LineReq) : Bool :=
  r.owner == some (n, slot) && (decide (r.kind = .wrLine) || decide (r.kind = .wrPart))

/-- The writes of a descriptor that have not been performed at their lines. -/
def nmOpen (s : State) (n slot : Nat) : List LineReq :=
  (s.dir.lines.flatMap (fun c => c.2.cur.toList ++ c.2.queue) ++ s.dir.waitIn.map (fun w => w.2.2) ++
    s.pair.beats.map (fun w => w.2.2)).filter (nmBeat n slot)

/-- The prefix whose every beat has completed (R73). -/
def nmDone (s : State) (n : Nat) (d : Desc) : Nat := ((nmOpen s n d.slot).map (fun r => r.nmPos)).foldl min (nmPrefix d)

/-- A byte of a tenant's space as memory holds it now; 0 where nothing is mapped. -/
def peekByte (s : State) (t pva : Nat) : Byte :=
  match leafAt s t pva with
  | some c => readByte s (c.2.ppa + (pva - c.1))
  | none => 0

/-- Address of an indexed element, with unbounded precision (R168, R169). -/
def elemAddr (d : Desc) (idx : Nat) : Nat := nA d + idx * nStride d

/-- Index of element `i` as its list holds it now. -/
def peekIndex (s : State) (t : Nat) (d : Desc) (i : Nat) : Nat :=
  leNat ((List.range (nIdx d)).map (fun j => peekByte s t (nB d % 2 ^ 48 + i * nIdx d + j)))

/-- The destination ranges of a descriptor beyond the first `k` bytes of its byte order. -/
def destBeyond (s : State) (t : Nat) (d : Desc) (k : Nat) : List (Nat × Nat) :=
  match dOpcode d with
  | 0x02 => [(nA d + k, nmTotal d - k)]
  | 0x03 => if copyDown d then [(nB d % 2 ^ 48, nmTotal d - k)] else [(nB d % 2 ^ 48 + k, nmTotal d - k)]
  | 0x05 => [(nC d % 2 ^ 48 + k, nmTotal d - k)]
  | 0x06 => ((List.range (nCount d)).drop (k / nElem d)).map (fun i => (elemAddr d (peekIndex s t d i), nElem d))
  | 0x07 => [(nA d + k, nmTotal d - k)]
  | _ => []

/-- Bytes of a line, in memory and in its merge entry, take other values. -/
def scrambleLine (l off : Nat) (b : List Byte) (s : State) : State :=
  let put (o : List Byte) : List Byte := slice o 0 off ++ b ++ o.drop (off + b.length)
  { s with mem := { s.mem with
    bytes := putBytes b (64 * l + off) s.mem.bytes
    merge := match tget none s.mem.merge l with
      | some e => tput none s.mem.merge l (some { e with data := put e.data })
      | none => s.mem.merge } }

/-- The bytes of a range that a participant of a tenant may write become undefined: free values. -/
def scrambleRange (t : Nat) (who : Part) (r : Nat × Nat) (s : State) : State :=
  forEach (pieces r.1 r.2) (fun x s =>
    match leafAt s t (r.1 + x.2.2.2) with
    | none => s
    | some (base, lf) =>
      if (leafCheck lf who (.inPool false) .write).isSome then s
      else
        let l := redirect s ((lf.ppa + (r.1 + x.2.2.2 - base)) / 64)
        let (b, s) := drawBytes x.2.2.1 s
        let s := scrambleLine l x.2.1 b s
        match mirrorOf s l with
        | some m => scrambleLine m x.2.1 b s
        | none => s) s

/-- Beats that still wait carry undefined bytes. -/
def scrambleBeats (p : LineReq → Bool) (s : State) : State :=
  let f (r : LineReq) : LineReq :=
    if p r then { r with data := (List.range 64).map (Config.freeByte (s.free + r.beat)) } else r
  { s with
    free := s.free + s.dir.nextBeat
    dir := { s.dir with
      lines := s.dir.lines.map (fun c => (c.1, { c.2 with cur := c.2.cur.map f, queue := c.2.queue.map f }))
      waitIn := s.dir.waitIn.map (fun w => (w.1, w.2.1, f w.2.2)) }
    pair := { s.pair with beats := s.pair.beats.map (fun w => (w.1, w.2.1, f w.2.2)) } }

/-- A descriptor that ends without OK leaves every destination byte beyond its prefix undefined (R73, R162, R175); one that was
refused issued no beat. -/
def leaveUndefined (n : Nat) (d : Desc) (k : Nat) (s : State) : State :=
  let g := group s (n / 8)
  forEach (destBeyond s g.tenant d k) (scrambleRange g.tenant (grpPart n))
    (if (nmOpen s n d.slot).isEmpty then s else scrambleBeats (nmBeat n d.slot) s)

/-- A near-memory descriptor completes with its bytes-done prefix (R162, Table 6.15). -/
def nmFinish (n : Nat) (d : Desc) (st : Status) (detail : Nat) (ext : List Byte) (s : State) : State :=
  let k := nmDone s n d
  let s := if st = .ok ∨ st = .policed then s else leaveUndefined n d k s
  let s := cntAdd cNmo 0 1 k (bump cNmo 0 0 s)
  complete { complOf n d st with detail := detail, result0 := k, result1 := nmResult1 d k, ext := ext } s

/-- Descriptors start in submission order, one with FENCE only when every earlier one has completed (R134), and only
while their group is ACTIVE (R154, R155). -/
def mayStart (s : State) (n slot : Nat) : Bool :=
  let f := (queue s n).flight
  let before := f.takeWhile (fun d => d.slot != slot)
  match f.find? (fun d => d.slot == slot) with
  | none => false
  | some d => !d.started && before.all (fun e => e.started) && (!(dFence d) || before.isEmpty) &&
      decide ((group s (n / 8)).st = .active) && !(qFenced s (group s (n / 8)).quadrant)

/-- Starts a descriptor: its time limit runs from now (R135). -/
def startDesc (n slot : Nat) (s : State) : State :=
  match descAt s n slot with
  | some d => setDesc n { d with started := true, startTime := s.time } s
  | none => s

/-! Descriptor fetch (R121 to R125). -/

/-- A queue's outstanding DMA read. -/
def dmaOf (s : State) (n : Nat) : Option DmaRead := s.cxl.dmaReads.find? (fun r => r.queue == n && !r.discard)

/-- Issues the DMA read of a fetch once its page is translated; until then asks for the translation. -/
def issueFetch (n : Nat) (s : State) : State :=
  let x := queue s n
  match (group s (n / 8)).owner with
  | .host ld =>
    if x.placement ≠ 0 || !x.fetching || (dmaOf s n).isSome then s
    else
      let a := x.sqBase + 64 * (x.sqHead.toNat % sqSize x)
      match hostXlat s ld x.pasid a with
      | none => emit (.atsRequest ld x.pasid (a / 4096 * 4096)) s
      | some h =>
        let r : DmaRead := { id := s.cxl.nextDma, ld := ld, queue := n, pasid := x.pasid, addr := a }
        emit (.dmaRead ld x.pasid h 64)
          { s with cxl := { s.cxl with dmaReads := s.cxl.dmaReads ++ [r], nextDma := s.cxl.nextDma + 1 } }
  | _ => s

/-- A fetched descriptor arrives: SQ_HEAD passes it and it is in flight (R124, R125). A queue that has stopped, or a
group no longer ACTIVE, leaves it unconsumed. -/
def descArrive (n : Nat) (d : List Byte) (s : State) : State :=
  let x := queue s n
  if !x.fetching then s
  else if x.st ≠ .running ∨ (group s (n / 8)).st ≠ .active ∨ (group s (n / 8)).revoking then setQueue n { x with fetching := false } s
  else
    let fresh : Desc := { slot := x.sqHead.toNat, bytes := slice d 0 64, stamp := x.stamps.headD s.time }
    let y := { x with fetching := false, sqHead := x.sqHead + 1, stamps := x.stamps.drop 1
                      flight := x.flight ++ [fresh] }
    orderRec (.desc n (slice d 0 64)) (bump cQue 0 0 (setQueue n y s))

/-- A descriptor read fails: RING_READ_FAILED (Table 5.19). -/
def fetchFailed (n : Nat) (s : State) : State :=
  queueFault n 3 (setQueue n { queue s n with fetching := false } s)

/-! Descriptor checks (R133). -/


/-- Bytes `o` to `o + n − 1` of the descriptor are zero. -/
def dz (d : Desc) (o n : Nat) : Bool := allZero ((d.bytes.drop o).take n)

/-- The reserved bits and values of the near-memory layouts (R161, R171, Tables 6.2 to 6.5, 6.9). -/
def nmClean (d : Desc) : Bool :=
  let hi48 (o : Nat) : Bool := decide (leAt d.bytes o 8 < 2 ^ 48)
  let hi41 (o : Nat) : Bool := decide (leAt d.bytes o 8 < 2 ^ 41)
  let b (o : Nat) : Nat := leAt d.bytes o 1
  match dOpcode d with
  | 0x02 => hi48 16 && hi41 24 && decide (b 32 ≤ 2) && dz d 33 7 && (b 32 != 1 || hi48 40) &&
      (b 32 == 2 || dz d 48 8) && dz d 56 8
  | 0x03 => hi48 16 && hi48 24 && hi41 32 && dz d 40 24
  | 0x04 => hi48 16 && (b 40 == 1 || hi48 24) && hi41 32 && decide (b 40 ≤ 1) && dz d 41 23
  | 0x05 => hi48 16 && hi48 24 && hi48 32 && decide (2 ≤ b 44) && decide (b 44 ≤ 16) && decide (b 45 ≤ 1) &&
      b 46 == 0 && dz d 47 1 && dz d 56 8
  | 0x06 => hi48 16 && hi48 24 && hi48 32 && decide (2 ≤ b 44) && decide (b 44 ≤ 16) && decide (b 45 ≤ 1) &&
      decide (b 46 ≤ 1) && dz d 47 1 && dz d 56 8
  | _ => hi48 16 && hi48 24 && hi41 32 && redValid (b 40) && decide (1 ≤ b 41) && decide (b 41 ≤ 64) &&
      decide (b 42 ≤ 1) && dz d 43 21

/-- The reserved bytes of each opcode's layout are zero (Tables 5.5 to 5.7, 6.2 to 6.4, 6.9); a range of bits inside a
field is tested with it. -/
def layoutClean (d : Desc) : Bool :=
  match dOpcode d with
  | 0x01 => dz d 16 48
  | 0x10 => dz d 22 2 && dz d 30 2 && dz d 34 30
  | 0x11 => dz d 20 44
  | 0x12 => dz d 20 44
  | 0x20 => dz d 18 6 && dz d 34 30
  | 0x21 => decide (leAt d.bytes 18 1 < 2) && (!(bitOf (leAt d.bytes 18 1) 0) || dz d 24 8) && dz d 19 5 && dz d 32 32
  | 0x22 => dz d 18 6 && dz d 32 32
  | 0x23 => dz d 18 6 && dz d 32 32
  | _ => nmClean d

/-- Opcodes of Table 5.4. -/
def knownOpcode (op : Nat) : Bool :=
  (decide (1 ≤ op) && decide (op ≤ 7)) || (decide (0x10 ≤ op) && decide (op ≤ 0x12)) ||
  (decide (0x20 ≤ op) && decide (op ≤ 0x23))

/-- DETAIL of a descriptor that R133 refuses: 1 BAD_OPCODE, 2 RESERVED_NONZERO. -/
def descError (d : Desc) : Option Nat :=
  if !(knownOpcode (dOpcode d)) then some 1
  else if !(headerClean d) || !(layoutClean d) then some 2
  else none

/-! Leases (R42 to R47). -/

def lease (s : State) (h : Part) : Lease := (afind s.pool.leases h).getD {}
def setLease (h : Part) (l : Lease) (s : State) : State :=
  { s with pool := { s.pool with leases := aset h l s.pool.leases } }
def tethersOf (s : State) (h : Part) : Nat := (s.pool.tethers.filter (fun t => t.holder == h)).length
/-- Tethers on an extent, attachments included (R54: an attachment is a tether on the version's extent). -/
def onExtent (e : Nat) : TetherObj → Bool
  | .extent x => x == e
  | .attach x => x == e
  | .group _ => false
def extentTethers (s : State) (e : Nat) : List Tether := s.pool.tethers.filter (fun t => onExtent e t.obj)
/-- Readers of a version: its attachment tethers (R55). -/
def readers (s : State) (e : Nat) : Nat := (s.pool.tethers.filter (fun t => t.obj == .attach e)).length

/-- The deadline of a holder: the time of its last renewal plus its period (R43). -/
def leaseEnd (l : Lease) : Nat := l.renewedAt + 1000000 * l.periodMs

/-- The extent moves to HELD, and the fabric manager is alerted (Tables 2.4, 2.8). -/
def holdExtent (e : Nat) (s : State) : State :=
  let x := extent s e
  match x.st with
  | .active => alert .heldExtent [e] (setExtent e { x with st := .held } s)
  | .sealed => alert .heldExtent [e] (setExtent e { x with st := .sealedHeld } s)
  | _ => s

/-- A held extent has a live tether again: it leaves HELD, and the alert is cleared (Tables 2.4, 2.8). -/
def unholdExtent (e : Nat) (s : State) : State :=
  let x := extent s e
  match x.st with
  | .held => emit (.alertCleared .heldExtent [e]) (setExtent e { x with st := .active } s)
  | .sealedHeld => emit (.alertCleared .heldExtent [e]) (setExtent e { x with st := .sealed } s)
  | _ => s

/-- Every tether on the extent has lapsed. -/
def allLapsed (s : State) (e : Nat) : Bool := (extentTethers s e).all (fun t => (lease s t.holder).lapsed)

/-- The extent a tether binds its holder to, if any. -/
def tetherExtent : TetherObj → Option Nat
  | .extent e => some e
  | .attach e => some e
  | .group _ => none

/-- The extents that a holder has tethers on. -/
def extentsHeld (s : State) (h : Part) : List Nat :=
  (s.pool.tethers.filter (fun t => t.holder == h)).filterMap (fun t => tetherExtent t.obj)

/-- Creates a tether: refused beyond the tenant's quota or a holder's 65,535th (R42); the first tether of a holder sets
its deadline, a later one joins it, and a tether of a lapsed holder is lapsed from creation (R43). A live one takes its
extent out of HELD, and a lapsed one that is the only one puts it there (Table 2.4). -/
def addTether (t : Tether) (s : State) : Bool × State :=
  let used := (s.pool.tethers.filter (fun x => x.tenant == t.tenant)).length
  if tget 0 s.pool.quotas t.tenant ≤ used ∨ 65535 ≤ tethersOf s t.holder ∨ 65536 ≤ s.pool.tethers.length then (false, s)
  else
    let l := lease s t.holder
    let l := if tethersOf s t.holder = 0 then { l with renewedAt := s.time, lapsed := false, late := none } else l
    let s := setLease t.holder l { s with pool := { s.pool with tethers := s.pool.tethers ++ [t] } }
    (true, match tetherExtent t.obj with
      | some e =>
        if !l.lapsed then unholdExtent e s else if (extentTethers s e).length = 1 then holdExtent e s else s
      | none => s)

/-- Drops one tether. -/
def dropTether (h : Part) (o : TetherObj) (s : State) : State :=
  match s.pool.tethers.find? (fun t => t.holder == h && t.obj == o) with
  | none => s
  | some t =>
    let s := { s with pool := { s.pool with tethers := s.pool.tethers.erase t } }
    if tethersOf s h = 0 then setLease h { lease s h with lapsed := false, renewedAt := 0, late := none } s else s

end Sys2Proof.Machine
end

