-- ==== Sys2Proof/Machine/EngOps.lean ====
section
/-! DEFINITION. Reads and writes of queue blocks and engines (R23, R61, R69 to R73): byte ranges located through the
translation unit of the engine's quadrant, lines that another participant holds recalled first. -/

namespace Sys2Proof.Machine

/-- Who makes an engine's access: translating quadrant, tenant, participant, admission standing, the error log's source,
the queue and descriptor that own the beats (R74), and the tile they belong to (R200). -/
structure Actor where
  q : Nat
  tenant : Nat
  who : Part
  via : Via
  src : Src
  owner : Option (Nat × Nat)
  tile : Nat := 0
  /-- Local input port of its home (Table 4.1): 2 the move engines, 3 the queue block. -/
  lp : Nat := 3
  deriving DecidableEq, Repr

/-- The queue block of a group acting for one of its queues. -/
def queueActor (s : State) (n : Nat) (owner : Option Nat) : Actor :=
  let g := group s (n / 8)
  { q := g.quadrant, tenant := g.tenant, who := grpPart n, via := .inPool false, src := srcOfQueue s n,
    owner := owner.map (fun i => (n, i)) }

/-- Why an access fails: a refused translation at an address, or poison (an uncorrectable line or, under Table 16.2, an
unreachable home). -/
inductive EngFail where
  | refused (r : Refuse) (pva : Nat)
  | poison
  deriving DecidableEq, Repr

/-- A located piece: line, first byte in it, bytes. -/
structure Loc where
  line : Nat
  off : Nat
  len : Nat
  pva : Nat
  deriving DecidableEq, Repr

/-- Translates the pieces of a byte range in order, up to the first that fails. -/
def locatePieces (a : Actor) (acc : Access) (pva : Nat) :
    List (Nat × Nat × Nat × Nat) → State → List Loc × Option EngFail × State
  | [], s => ([], none, s)
  | (_, lo, n, pos) :: r, s =>
    match translate a.q a.tenant (pva + pos) a.who a.via acc s with
    | (.error e, s) => ([], some (.refused e (pva + pos)), s)
    | (.ok (ppa, _), s) =>
      if !(homeReachable s (homeOf s ppa) && entryServes s a.q) then ([], some .poison, s)
      else
        let (l, f, s) := locatePieces a acc pva r s
        ({ line := redirect s (ppa / 64), off := lo, len := n, pva := pva + pos } :: l, f, s)

def locate (a : Actor) (acc : Access) (pva n : Nat) (s : State) : List Loc × Option EngFail × State :=
  locatePieces a acc pva (pieces pva n) s

/-- A line an engine can use now: nothing in service or queued, and no holder that must be recalled. -/
def clearLine (s : State) (l : Nat) : Bool :=
  quietLine (line s l) && !(awaitsHandOver s l) &&
  (decide ((line s l).dir.st = .i) || decide ((line s l).dir.st = .s))

/-- A probe of the same engine already stands at the line. -/
def probing (s : State) (a : Actor) (l : Nat) : Bool :=
  let mine (r : LineReq) : Bool := decide (r.kind = .engRead) && decide (r.who = a.who) && decide (r.owner = a.owner)
  let x := line s l
  (match x.cur with | some r => mine r | none => false) || x.queue.any mine ||
  s.dir.waitIn.any (fun w => w.1 == l && mine w.2.2)

/-- Asks the home of a line that is not clear: the request waits its turn there and its recalls are sent (R98). -/
def probeLoc (a : Actor) (x : Loc) (s : State) : State :=
  if clearLine s x.line || probing s a x.line then s
  else
    let r : LineReq := { kind := .engRead, who := a.who, tenant := a.tenant, pva := x.pva, entryQ := a.q, owner := a.owner
                         tile := a.tile }
    deliver x.line a.lp r false s

/-- Every line of the ranges can be read now; those that cannot are asked for. -/
def engReady (a : Actor) (ranges : List (Nat × Nat)) (s : State) : Bool × State :=
  ranges.foldl (fun (c : Bool × State) r =>
    let (ls, _, t) := locate a .read r.1 r.2 c.2
    if ls.all (fun x => clearLine t x.line) then (c.1, t) else (false, forEach ls (probeLoc a) t)) (true, s)

/-- Reads located pieces in order, up to the first uncorrectable line. -/
def readLocs (a : Actor) : List Loc → State → List Byte × Option EngFail × State
  | [], s => ([], none, s)
  | x :: r, s =>
    match fetchLine x.line a.src (cross (homeOf s (64 * x.line)) a.q x.len (cross a.q (homeOf s (64 * x.line)) 0 (settleBuf x.line s))) with
    | (.data d, s) =>
      let (b, f, s) := readLocs a r s
      (slice d x.off x.len ++ b, f, s)
    | (.bad, s) => ([], some .poison, bump cUtil (homeOf s (64 * x.line)) 12 s)

/-- What a read answers: it waits for recalls, or gives the bytes before the first failure, and that failure. -/
inductive EngRes where
  | wait
  | got (data : List Byte) (fail : Option EngFail)
  deriving DecidableEq, Repr

/-- An engine's read of a byte range. -/
def engRead (a : Actor) (pva n : Nat) (s : State) : EngRes × State :=
  match engReady a [(pva, n)] s with
  | (false, s) => (.wait, s)
  | (true, s) =>
    let (ls, f, s) := locate a .read pva n s
    match readLocs a ls s with
    | (b, some e, s) => (.got b (some e), s)
    | (b, none, s) => (.got b f, s)

/-- An engine's write of bytes: each piece is ordered at its line's home (R61). Answers the bytes written and the first
failure. `posOf` gives the position of the beat at an address, of a length, in its descriptor's byte order. -/
def engWrite (a : Actor) (pva : Nat) (d : List Byte) (s : State) (posOf : Nat → Nat → Nat := fun _ _ => 0) :
    Nat × Option EngFail × State :=
  let (ls, f, s) := locate a .write pva d.length s
  let s := forEach ls (fun x s =>
    let b := slice d (x.pva - pva) x.len
    let r : LineReq := {
      kind := if x.len = 64 then .wrLine else .wrPart, who := a.who, tenant := a.tenant, pva := x.pva, entryQ := a.q
      data := List.replicate x.off 0 ++ b, mask := (2 ^ x.len - 1) * 2 ^ x.off, off := x.off, len := x.len
      owner := a.owner, tile := a.tile, nmPos := posOf x.pva x.len }
    deliver x.line a.lp r false s) s
  ((ls.map (·.len)).foldl (· + ·) 0, f, s)

/-- Logs a failure of an engine's access, and gives its status and extension record (Table 3.4, R141). -/
def noteFail (a : Actor) (f : EngFail) (s : State) : Status × List Byte × State :=
  match f with
  | .poison => (.poison, [], s)
  | .refused r pva =>
    let ext := faultBytes (faultRec s a.q a.tenant pva r a.src.source a.src.sourceId)
    (.mappingWithdrawn, ext, refuse a.q a.tenant pva r a.src.source a.src.sourceId s)

/-! Orders the device chooses (R172, R228). -/

/-- The list in an order the device chooses. -/
def anyOrder {α : Type} (f : Nat → Nat) : Nat → List α → List α
  | 0, l => l
  | _, [] => []
  | _, [x] => [x]
  | n + 1, l =>
    let i := f n % l.length
    (l.drop i).take 1 ++ anyOrder f n (l.eraseIdx i)

/-- Draws an order. -/
def drawOrder (s : State) : (Nat → Nat) × State := (Config.pick s.free, { s with free := s.free + 1 })

/-- Draws an order that the devices of a pair choose alike: there it is fixed by the place in their common work (R225). -/
def drawOrderAt (place : List Nat) (s : State) : (Nat → Nat) × State :=
  if paired s then (Config.pairPick place, s) else drawOrder s

/-- Combines a list of values two at a time, in an order and association the device chooses. -/
def anySum {α : Type} (op : α → α → α) (z : α) (f : Nat → Nat) : Nat → List α → α
  | _, [] => z
  | _, [x] => x
  | 0, x :: r => r.foldl op x
  | n + 1, l =>
    let i := f (2 * n) % l.length
    let x := l.getD i z
    let l' := l.eraseIdx i
    let j := f (2 * n + 1) % l'.length
    anySum op z f n (op x (l'.getD j z) :: l'.eraseIdx j)

end Sys2Proof.Machine
end

