-- ==== Sys2Proof/Machine/SyncOps.lean ====
section
/-! DEFINITION. Registered objects (R245 to R250): registration, marks and releases as atomics at the word's home, member
resets. -/

namespace Sys2Proof.Machine

/-- Member entries as the list at MEMBER_LIST_PVA spells them. -/
def memberList (b : List Byte) (n : Nat) : List Nat := (List.range n).map (fun i => leAt b (4 * i) 4)

/-- A member entry that R245 accepts: a reserved KIND or bit, or an ID beyond its kind's range, is malformed. -/
def memberOk (e : Nat) : Bool :=
  match e / 65536 with
  | 0 => decide (e % 65536 < 64)
  | 1 => true
  | 2 => decide (e % 65536 < 1024)
  | _ => false

/-- The word lies in an ACTIVE ordinary extent of the tenant. -/
def wordOk (s : State) (x : SyncObj) : Bool :=
  match extentAt s x.tenant x.wordPva with
  | some e => decide ((extent s e).st = .active) && decide ((extent s e).kind = .ordinary)
  | none => false

/-- Members of registered objects, device-wide. -/
def membersUsed (s : State) : Nat :=
  ((s.core.objs.filter (fun c => c.2.st != 0)).map (fun c => c.2.members)).foldl (· + ·) 0

def regFail (o k : Nat) (s : State) : State := setObj o { syncObj s o with regFault := k, reading := false } s

/-- Who reads a member list: the device in the quadrant of the word's home, for the tenant. -/
def objActor (s : State) (x : SyncObj) : Actor :=
  { q := (match wbLine s x.tenant x.memListPva with | some l => homeOf s (64 * l) | none => 0), tenant := x.tenant
    who := .grp 0, via := .inPool false, src := { source := 2, sourceId := 0, tenant := x.tenant }, owner := none }

/-- REGISTER written 1 in FREE: the checks of R245, in the order configuration, extent, space, list. A list that lies on a line
that is being recalled is read once the recall is answered. -/
def registerObj (o : Nat) (s : State) : State :=
  let x := syncObj s o
  if x.st ≠ 0 then s
  else if x.wordPva % 8 ≠ 0 ∨ x.memListPva % 4 ≠ 0 ∨ x.members = 0 then regFail o 1 s
  else if !(wordOk s x) then regFail o 2 s
  else if 256 < x.members ∨ 16384 < membersUsed s + x.members then regFail o 3 s
  else
    match engRead (objActor s x) x.memListPva (4 * x.members) s with
    | (.wait, s) => setObj o { syncObj s o with reading := true } s
    | (.got _ (some f), s) =>
      let (_, _, s) := noteFail (objActor s x) f s
      regFail o 1 s
    | (.got b none, s) =>
      let l := memberList b x.members
      if l.all memberOk then setObj o { x with st := 1, regFault := 0, reading := false, list := l, stateTime := s.time } s
      else regFail o 1 s

/-- Registrations that waited for a recall are tried again. -/
def settleObjs (s : State) : State :=
  forEach ((s.core.objs.filter (fun c => c.2.reading)).map (·.1)) registerObj s

/-- An atomic that the device runs on an object's word at its home, with no right of any participant (R248). -/
def wordAtomic (x : SyncObj) (op operand : Nat) (s : State) : State :=
  match wbLine s x.tenant x.wordPva with
  | none => s
  | some l =>
    let (id, s) := openPend .silent .atomic 1 false s
    let r : LineReq := { kind := .atomic, who := .grp 0, tenant := x.tenant, pva := x.wordPva, entryQ := homeOf s (64 * l)
                         off := x.wordPva % 64, len := 8, op := op, opA := leBytes 8 operand, opC := leBytes 8 0, pend := id }
    deliver l 3 r false s

/-- The mark: FETCH_OR U64 of STATUS 0x09. -/
def markWord (x : SyncObj) (s : State) : State := wordAtomic x 0x53 0x0900000000000000 s

/-- Marks an object for the reset of a member (kind 0 logical device, 1 endpoint, 2 group): it is ABANDONED, and the mark
is recorded. -/
def abandon (o kind id : Nat) (s : State) : State :=
  let x := syncObj s o
  let s := event 0x13 [o, x.tenant, kind, id] (bump cSyn 0 4 (markWord x s))
  setObj o { x with st := 2, stateTime := s.time } s

/-- Member-list entries: [15:0] ID, [17:16] KIND. -/
def memberEntry (kind id : Nat) : Nat := id % 65536 + kind * 65536

/-- A member is reset: every registered object that lists it is marked (R246, R247). -/
def memberReset (kind id : Nat) (s : State) : State :=
  forEach (s.core.objs.filter (fun c => c.2.st == 1 && c.2.list.contains (memberEntry kind id))) (fun c s =>
    abandon c.1 kind id s) s

/-- At release from a warm reset every registered object with a queue-group member is marked (R247). -/
def markGroupMembers (s : State) : State :=
  forEach (s.core.objs.filter (fun c => c.2.st == 1)) (fun c s =>
    match c.2.list.find? (fun e => e / 65536 == 2) with
    | some e => abandon c.1 2 (e % 65536) s
    | none => s) s

end Sys2Proof.Machine
end

