-- ==== Sys2Proof/Machine/Coherence.lean ====
section
/-! DEFINITION. Coherence requests, recall answers and the home's own events (chapter 4; opcode-table rows RDONCE to
BICONFLICT and MERGE_HOLD_EXPIRY). -/

namespace Sys2Proof.Machine

/-- Sends a request's pieces to their homes. -/
def deliverPieces (ppa : Nat) (ps : List (Nat × Nat × Nat × Nat)) (mk : Nat × Nat × Nat × Nat → LineReq) (lp : Nat)
    (s : State) : State :=
  forEach ps (fun x s => deliver (ppa / 64 + x.1) lp (mk x) false s) s

/-- A ROF request acts: translated in the quadrant it entered, refused under Table 3.4, or delivered line by line. -/
def rofRequest (n q : Nat) (p : Packet) (k : ReqKind) (acc : Access) (len : Nat) (tag : Nat)
    (mk : LineReq → Nat × Nat × Nat × Nat → LineReq) (s : State)
    (pre : Nat → Nat → State → State := fun _ _ t => t) : State :=
  let who := Part.ep p.src.toNat
  let t := p.tenant.toNat
  let e := n / 16
  match translate e t (argPva p) who .port acc s with
  | (.error r, s) =>
    let r := lateRefuse (messageCut s q e p) r
    let s := refuse e t (argPva p) r 1 p.src.toNat s
    answerNow q p k (refuseStatus r.reason) tag s
  | (.ok (ppa, _), s) =>
    let ps := pieces (argPva p) len
    let (id, s) := msgPend q p k ps.length tag s
    let s := pre id ppa s
    deliverPieces ppa ps (fun x =>
      mk { kind := k, who := who, tenant := t, pva := argPva p, entryQ := e, off := x.2.1, len := x.2.2.1, pend := id,
           pos := x.2.2.2 } x) 0 s

/-- Runs the action only when the packet is of the command's own type. -/
def ofType (p : Packet) (t : Nat) (f : State → State) (s : State) : State := if p.typ.toNat = t then f s else s

def actRdOnce (n q : Nat) (p : Packet) (s : State) : State :=
  ofType p tRdOnce (fun s =>
    let len := field p.arg0.toNat 48 12 + 1
    if argPva p % 4096 + len > 4096 then answerNow q p .rdOnce .policed 0 s
    else rofRequest n q p .rdOnce .read len 0 (fun r _ => r) s) s

/-- RdShared, RdOwn and Upgrade name one aligned line (Table 11.5). -/
def actCaching (n q : Nat) (p : Packet) (k : ReqKind) (acc : Access) (s : State) : State :=
  if argPva p % 64 ≠ 0 then answerNow q p k .policed 0 s
  else rofRequest n q p k acc 64 0 (fun r _ => r) s

def actWrLine (n q : Nat) (p : Packet) (s : State) : State :=
  ofType p tWrLine (fun s =>
    let len := p.payload.length
    if argPva p % 64 ≠ 0 ∨ argPva p % 4096 + len > 4096 then answerNow q p .wrLine .policed 0 s
    else rofRequest n q p .wrLine .write len 0 (fun r x => { r with data := slice p.payload x.2.2.2 64 }) s) s

def actWrPart (n q : Nat) (p : Packet) (s : State) : State :=
  ofType p tWrPart (fun s =>
    if argPva p % 64 ≠ 0 then answerNow q p .wrPart .policed 0 s
    else rofRequest n q p .wrPart .write 64 0
      (fun r _ => { r with mask := leAt p.payload 0 8, data := slice p.payload 8 64 }) s) s

/-- An atomic enters the retention table of its home before it runs, so that a copy of it finds it (R113, R320). -/
def noteAtomic (n tag t pva op : Nat) (a c : List Byte) (ppa : Nat) (s : State) : State :=
  let x : Retained := { tenant := t, pva := pva, op := op, a := a, c := c, result := none, time := s.time }
  { s with e2e := { s.e2e with retained := aset (homeOf s ppa, n, tag) x s.e2e.retained } }

/-- Atomic (R110 to R113, R320): a retained tag is answered from the retention table, or when its result is there; a
malformed operation is answered with POISON and counted in BAD_ATOMIC of the quadrant whose endpoint ID the packet names
(DESIGN CHOICE). -/
def actAtomic (n q : Nat) (p : Packet) (s : State) : State :=
  ofType p tAtomic (fun s =>
    let op := field p.arg0.toNat 48 8
    let tag := leAt p.payload 0 8
    let n' := atomBytes op
    let a := slice (slice p.payload 8 16) 0 n'
    let c := slice (slice p.payload 24 16) 0 n'
    match s.e2e.retained.find? (fun r => r.1.2 == (p.src.toNat, tag)) with
    | some (k, r) =>
      if r.pva = argPva p ∧ r.op = op ∧ r.a = a ∧ r.c = c then
        match r.result with
        | some (st, old) =>
          let s := bump cE2e k.1 13 s
          let (id, s) := msgPend q p .atomic 1 tag s
          pendDone id st 0 old s
        | none =>
          let (id, s) := msgPend q p .atomic 1 tag (bump cE2e k.1 13 s)
          { s with e2e := { s.e2e with retained := aset k { r with waiters := r.waiters ++ [id] } s.e2e.retained } }
      else answerNow q p .atomic .conflict tag s
    | none =>
      if !(atomValid op) || argPva p % max 1 n' != 0 then
        answerNow q p .atomic .poison tag (bump cDir q 9 s)
      else
        rofRequest n q p .atomic .atomic n' tag
          (fun r _ => { r with op := op, opA := a, opC := c }) s
          (fun _ ppa s => noteAtomic p.src.toNat tag p.tenant.toNat (argPva p) op a c ppa s)) s

/-- Recall answers and writebacks that enter quadrant `e` reach the home in quadrant `q`: both are in one island, or in one
fenced island, which goes on absorbing for its own lines (R415); the home agent is not fenced (R396). -/
def reachesHome (s : State) (e q : Nat) : Bool :=
  !(blockFenced s 2 q) &&
  (if qFenced s e && qFenced s q then (straitReach s e).contains q else (islandOf s e).contains q)

/-- An answer or writeback of a holder that entered quadrant `e` reaches a line: Table 4.4's rows for answers, WrBack
and stale data. Data whose home cannot take them are discarded and the line is listed as lost (Table 16.2); a fenced
island goes on absorbing them for its own lines (R415). -/
def absorbAt (e l : Nat) (h : Part) (data : Option (List Byte)) (poison isWb : Bool) (s : State) : State :=
  let l := redirect s l
  let s := fetchHandOver l s
  let x := line s l
  let q := homeOf s (64 * l)
  if !(reachesHome s e q) then
    match data with
    | some _ => loseLine e l s
    | none => s
  else
  let s := cross e q (data.getD []).length s
  if x.recalls.any (fun r => r.holder == h) then recallAnswer l h data poison s
  else if isWb && decide (x.dir.st = .o) && decide (x.dir.ptrs = [h]) then
    setDir l {} (absorbData l (data.getD []) poison s)
  else
    match data with
    | some _ => bump cDir q 6 s
    | none => s

/-- Where a recall answer goes: the line recorded with the recall, else the line its address maps to (R98). -/
def answerLine (s : State) (h : Part) (a : AnsAddr) : Option Nat :=
  match recallLine s h a with
  | some l => some l
  | none => wbLine s a.tenant a.pva

/-- A recall answer without data: RecallMiss or RecallAck. A RecallMiss whose address maps no line is counted nowhere
(DESIGN CHOICE: RECALL_MISSES is a counter of a home, and it reaches none). -/
def actAnswer (e : Nat) (h : Part) (a : AnsAddr) (miss : Bool) (s : State) : State :=
  match answerLine s h a with
  | some l =>
    let s := when miss (bump cDir (homeOf s (64 * l)) 1) s
    absorbAt e l h none false false s
  | none => s

/-- The address a packet names, and the one a host names. -/
def pktAddr (p : Packet) : AnsAddr := { tenant := p.tenant.toNat, pva := argPva p }
def hostAddr (s : State) (d hpa : Nat) : AnsAddr :=
  { tenant := (logDev s d).tenant, pva := (hostPva s d hpa).getD hpa, hpa := some hpa }

/-- Modified data: RecallData or WrBack. An address that maps no line of the tenant is discarded and counted in
STALE_WB of the quadrant it entered. -/
def actData (e : Nat) (h : Part) (a : AnsAddr) (d : List Byte) (poison isWb : Bool) (s : State) : State :=
  match answerLine s h a with
  | some l => absorbAt e l h (some d) poison isWb s
  | none => bump cDir e 6 s

/-- The Cmp of a WrBack from a ROF endpoint (Table 4.4: write memory; Cmp). -/
def wbCmp (q : Nat) (p : Packet) (s : State) : State := answerNow q p .wrLine .ok 0 s

/-- The recorded owner, whose WrBack is answered with Cmp. -/
def isOwner (s : State) (h : Part) (a : AnsAddr) : Bool :=
  match answerLine s h a with
  | some l => decide ((line s l).dir.st = .o) && decide ((line s l).dir.ptrs = [h]) && (line s l).recalls.isEmpty
  | none => false

def actWrBack (n q : Nat) (p : Packet) (s : State) : State :=
  ofType p tWrBack (fun s =>
    let h := Part.ep p.src.toNat
    let own := isOwner s h (pktAddr p)
    let s := actData (n / 16) h (pktAddr p) p.payload false true s
    if own then wbCmp q p s else s) s

/-! Meanings. -/

/-- RDONCE: read without keeping a copy (R99). -/
def execRdonce (n : Fin 64) (p : Packet) (s : State) : Ans :=
  .next (live s (terminate n.val p (fun q => actRdOnce n.val q p) s))

/-- RDSHARED: read keeping a copy without write permission. -/
def execRdshared (n : Fin 64) (p : Packet) (s : State) : Ans :=
  .next (live s (terminate n.val p (fun q => ofType p tRdShared (actCaching n.val q p .rdShared .read)) s))

/-- RDOWN: read for ownership. -/
def execRdown (n : Fin 64) (p : Packet) (s : State) : Ans :=
  .next (live s (terminate n.val p (fun q => ofType p tRdOwn (actCaching n.val q p .rdOwn .own)) s))

/-- UPGRADE: ownership of a line held in S (R103: data come with it when the copy was lost). -/
def execUpgrade (n : Fin 64) (p : Packet) (s : State) : Ans :=
  .next (live s (terminate n.val p (fun q => ofType p tUpgrade (actCaching n.val q p .upgrade .own)) s))

/-- WRLINE: uncached write of whole lines. -/
def execWrline (n : Fin 64) (p : Packet) (s : State) : Ans :=
  .next (live s (terminate n.val p (fun q => actWrLine n.val q p) s))

/-- WRPART: uncached write of masked bytes through the merge buffer (R363). -/
def execWrpart (n : Fin 64) (p : Packet) (s : State) : Ans :=
  .next (live s (terminate n.val p (fun q => actWrPart n.val q p) s))

/-- WRBACK: modified data with the copy given up; only the recorded owner's is written (R98). -/
def execWrback (n : Fin 64) (p : Packet) (s : State) : Ans :=
  .next (live s (terminate n.val p (fun q => actWrBack n.val q p) s))

/-- CLEAN_EVICT (MemClnEvct of a host): a clean copy was dropped; the notice is ordered at its line as any request is
(Table 4.4). One that names no line is completed (DESIGN CHOICE). -/
def execCleanEvict (d : Fin 64) (tag hpa : Nat) (s : State) : Ans :=
  let t := (logDev s d.val).tenant
  .next (live s (match (hostPva s d.val hpa).bind (fun pva => (wbLine s t pva).map (fun l => (pva, l))) with
    | some (pva, l) =>
      let (id, s) := openPend (.cxl d.val tag) .cleanEvict 1 false s
      deliver l 1 { kind := .cleanEvict, who := .ld d.val, tenant := t, pva := pva / 64 * 64, entryQ := d.val / 16, pend := id }
        false s
    | none => emit (.cxl d.val tag false 0 []) s))

/-- ATOMIC: checked, ordered, run, and answered with the old value (R109 to R113). -/
def execAtomic (n : Fin 64) (p : Packet) (s : State) : Ans :=
  .next (live s (terminate n.val p (fun q => actAtomic n.val q p) s))

/-- RECALL_MISS: the holder keeps no copy (R100). -/
def execRecallMiss (a : Answerer) (s : State) : Ans :=
  .next (live s (match a with
    | .rof n p => terminate n.val p (fun _ => ofType p tRecallMiss
        (actAnswer (n.val / 16) (.ep p.src.toNat) (pktAddr p) true)) s
    | .host d hpa _ _ => actAnswer (d.val / 16) (.ld d.val) (hostAddr s d.val hpa) true s))

/-- RECALL_ACK: the copy was given up or downgraded unmodified (R98). -/
def execRecallAck (a : Answerer) (s : State) : Ans :=
  .next (live s (match a with
    | .rof n p => terminate n.val p (fun _ => ofType p tRecallAck
        (actAnswer (n.val / 16) (.ep p.src.toNat) (pktAddr p) false)) s
    | .host d hpa _ _ => actAnswer (d.val / 16) (.ld d.val) (hostAddr s d.val hpa) false s))

/-- RECALL_DATA: modified data in answer to a recall replace memory and go to the waiting requester (R98). -/
def execRecallData (a : Answerer) (s : State) : Ans :=
  .next (live s (match a with
    | .rof n p => terminate n.val p (fun _ => ofType p tRecallData
        (actData (n.val / 16) (.ep p.src.toNat) (pktAddr p) p.payload false false)) s
    | .host d hpa b poison => actData (d.val / 16) (.ld d.val) (hostAddr s d.val hpa) b poison false s))

/-- LINE_QUEUE_SERVE: the next request of a line that is no longer busy is served (R88); a request that waited at its
port for a busy line or a queue slot is then accepted. -/
def execLineQueueServe (l : Nat) (s : State) : Ans :=
  let s := live s (recallDue l (scanLine l (fetchHandOver l s)))
  let x := line s l
  let s1 :=
    if busy x || decide (x.dir.st = .u) || awaitsHandOver s l then s
    else
      match x.queue with
      | r :: rest => serve l r (setLine l { x with queue := rest } s)
      | [] => s
  let s1 := if (line s1 l).queue.isEmpty && !(busy (line s1 l)) then dropBuf l s1 else s1
  .next (live s (settleObjs (settleOrder (acceptWaiting s1))))

/-- RECALL_TIMEOUT_FIRST: the first expiry moves the entry to U and sends the recalls again (R106). -/
def execRecallTimeoutFirst (l now : Nat) (s : State) : Ans :=
  let s1 := advance now s
  let x := line s1 l
  let q := homeOf s1 (64 * l)
  .next (live s (
    if x.recalls.isEmpty || decide (x.dir.st = .u) || decide (s1.time < x.recallTime + 1000 * recallTimeoutUs s1 q) then s1
    else
      let y := { x with dir := { x.dir with st := .u, dirtyPossible := decide (x.dir.st = .o) }, recallTime := s1.time }
      forEach x.recalls (sendRecall l) (bump cDir q 4 (setLine l y s1))))

/-- Holder identity as recorded (Table 4.2): bit 16 set for a logical device. -/
def holderCode : Part → Nat
  | .ld n => 65536 + n
  | .ep n => n
  | .grp n => n

/-- RECALL_TIMEOUT_SECOND: remaining holders are unresponsive; a possibly dirty line is poisoned; the entry returns to I
and its queue is served (R107). -/
def execRecallTimeoutSecond (l now : Nat) (s : State) : Ans :=
  let s1 := advance now s
  let x := line s1 l
  let q := homeOf s1 (64 * l)
  .next (live s (
    if x.recalls.isEmpty || !(decide (x.dir.st = .u)) || decide (s1.time < x.recallTime + 1000 * recallTimeoutUs s1 q) then s1
    else
      let ten := ((pvaOfLine s1 l).getD (0, 0)).1
      let s1 := if x.dir.dirtyPossible then bump cDir q 5 (poisonLine l s1) else s1
      let s1 := event 0x11 ([64 * l, ten, b2n x.dir.dirtyPossible] ++
        (x.recalls.take 4).map (fun r => holderCode r.holder)) s1
      let s1 := alert .unresponsive [64 * l, ten] s1
      let y := line s1 l
      let qs := match y.cur with | some r => r :: y.queue | none => y.queue
      let s1 := setLine l { y with dir := {}, cur := none, recalls := [], buf := none, queue := qs } s1
      match qs with
      | r :: rest => serve l r (setLine l { line s1 l with queue := rest } s1)
      | [] => s1))

/-- BICONFLICT: answered with BIConflictAck (R96). -/
def execBiconflict (d : Fin 64) (tag : Nat) (s : State) : Ans :=
  .next (live s (bump cCxl (d.val / 16) 5 (emit (.biConflictAck d.val tag) s)))

/-- MERGE_HOLD_EXPIRY: 1 µs after its last combine an entry is written back (R178 step 5). -/
def execMergeHoldExpiry (l now : Nat) (s : State) : Ans :=
  let s1 := advance now s
  .next (live s (match tget none s1.mem.merge l with
    | some e =>
      if e.time + 1000 ≤ s1.time then
        mergeWriteback l s1
      else s1
    | none => s1))

end Sys2Proof.Machine
end

