-- ==== Sys2Proof/Machine/NmOps.lean ====
section
/-! DEFINITION. Near-memory descriptors (R158 to R175): stripes, their effect in byte order, prefix and outcome. -/

namespace Sys2Proof.Machine

/-- The descriptor runs on one move engine (R165, R170). -/
def oneEngine (d : Desc) : Bool :=
  (dOpcode d == 0x03 && copyDown d) || (dOpcode d == 0x06 && nByte d 46 == 0)

/-- An operand breaks an alignment rule (R163, R166, R168, R174). -/
def nmMisaligned (d : Desc) : Bool :=
  match dOpcode d with
  | 0x02 =>
    let m := if nByte d 32 = 1 then 64 else 8
    nA d % m != 0 || nB d % m != 0 || (nByte d 32 == 1 && leAt d.bytes 40 8 % 64 != 0)
  | 0x03 => false
  | 0x04 => nByte d 40 == 1 && (nA d % 8 != 0 || nC d % 8 != 0)
  | 0x07 => nA d % 64 != 0 || nB d % 8 != 0 || nC d % 64 != 0
  | _ =>
    let m := min (nElem d) 64
    nA d % m != 0 || nStride d % m != 0 || nC d % m != 0 || nB d % nIdx d != 0

/-- The opcode's descriptor starts: alignment (R160), zero length, or its stripes are counted out (R158). -/
def nmStart (n : Nat) (d : Desc) (s : State) : State :=
  if nmMisaligned d then nmFinish n d .policed 8 [] s
  else if nmTotal d = 0 then nmFinish n d .ok 0 [] s
  else setDesc n { d with stripes := ceilDiv (nmTotal d) stripeBytes } s

/-! The effect of one stripe: positions `p0` to `p1` of the byte order. -/

/-- What a stripe answers: it waits for recalls, or the bytes of its prefix done, the first failure, and how many of its
result elements are NaN, by destination line. -/
inductive StripeRes where
  | wait
  | ran (done : Nat) (fail : Option EngFail) (nans : Tbl Nat)
  deriving DecidableEq, Repr

/-- FILL's byte at destination offset `j` (R163). -/
def fillByte (d : Desc) (j : Nat) : Byte :=
  let pat := leAt d.bytes 40 8
  match nByte d 32 with
  | 0 => byteAt (leBytes 8 pat) (j % 8)
  | 1 => byteAt (d.aux.getD []) (j % 64)
  | _ => byteAt (leBytes 8 ((pat + j / 8 * nStride d) % 2 ^ 64)) (j % 8)

/-- Writes and reports the prefix written. -/
def stripeWrite (a : Actor) (p0 pva : Nat) (b : List Byte) (after : Option EngFail) (s : State) : StripeRes × State :=
  let (w, f, s) := engWrite a pva b s (fun x _ => p0 + (x - pva))
  (.ran w (match f with | some e => some e | none => after) [], s)

def runFill (a : Actor) (d : Desc) (p0 p1 : Nat) (s : State) : StripeRes × State :=
  stripeWrite a p0 (nA d + p0) ((List.range (p1 - p0)).map (fun i => fillByte d (p0 + i))) none s

def runCopyUp (a : Actor) (d : Desc) (p0 p1 : Nat) (s : State) : StripeRes × State :=
  match engRead a (nA d + p0) (p1 - p0) s with
  | (.wait, s) => (.wait, s)
  | (.got b f, s) => stripeWrite a p0 (nB d + p0) b f s

/-- Reads the pieces of a range from the top down: the bytes of the highest pieces that were read, in ascending order,
and the failure that stopped it. -/
def readDown (a : Actor) (pva : Nat) : List (Nat × Nat × Nat × Nat) → State → List Byte × Option EngFail × State
  | [], s => ([], none, s)
  | x :: r, s =>
    let (ls, f, s) := locatePieces a .read pva [x] s
    match f with
    | some e => ([], some e, s)
    | none =>
      match readLocs a ls s with
      | (_, some e, s) => ([], some e, s)
      | (b, none, s) =>
        let (c, f, s) := readDown a pva r s
        (c ++ b, f, s)

/-- Writes pieces from the top down; `b` holds the bytes from `lo` on, and `top` is where the byte order begins. -/
def writeDown (a : Actor) (pva lo top : Nat) (b : List Byte) : List (Nat × Nat × Nat × Nat) → State → Nat × Option EngFail × State
  | [], s => (0, none, s)
  | (_, _, n, pos) :: r, s =>
    match engWrite a (pva + pos) (slice b (pos - lo) n) s (fun x k => top - (x + k)) with
    | (_, some e, s) => (0, some e, s)
    | (w, none, s) =>
      let (k, f, s) := writeDown a pva lo top b r s
      (w + k, f, s)

/-- A stripe of a descending copy: offsets `len − p1` to `len − p0` (R165). -/
def runCopyDown (a : Actor) (d : Desc) (p0 p1 : Nat) (s : State) : StripeRes × State :=
  let lo := nC d - p1
  let n := p1 - p0
  match engReady a [(nA d + lo, n)] s with
  | (false, s) => (.wait, s)
  | (true, s) =>
    let (b, f, s) := readDown a (nA d + lo) (pieces (nA d + lo) n).reverse s
    let cut := n - b.length
    let ps := (pieces (nB d + lo + cut) b.length).reverse
    let (w, g, s) := writeDown a (nB d + lo + cut) 0 (nB d + nC d) b ps s
    (.ran w (match g with | some e => some e | none => f) [], s)

/-- The first position at which two lists differ. -/
def firstDiff : Nat → List Byte → List Byte → Option (Nat × Byte × Byte)
  | i, a :: r, b :: t => if a = b then firstDiff (i + 1) r t else some (i, a, b)
  | _, _, _ => none

/-- COMPARE: answers the mismatch apart (R167). -/
def runCompare (a : Actor) (d : Desc) (p0 p1 : Nat) (s : State) :
    StripeRes × Option (Nat × Byte × Byte) × State :=
  let n := p1 - p0
  let two := nByte d 40 == 0
  match engReady a ((nA d + p0, n) :: (if two then [(nB d % 2 ^ 48 + p0, n)] else [])) s with
  | (false, s) => (.wait, none, s)
  | (true, s) =>
    match engRead a (nA d + p0) n s with
    | (.wait, s) => (.wait, none, s)
    | (.got x f, s) =>
      let (y, g, s) : List Byte × Option EngFail × State :=
        if two then
          match engRead a (nB d % 2 ^ 48 + p0) n s with
          | (.wait, s) => ([], none, s)
          | (.got y g, s) => (y, g, s)
        else ((List.range n).map (fun i => byteAt (leBytes 8 (nB d)) ((p0 + i) % 8)), none, s)
      let m := firstDiff p0 x y
      let k := min x.length y.length
      match m with
      | some (i, u, v) => (.ran (i - p0) none [], some (i, u, v), s)
      | none => (.ran k (if x.length ≤ y.length then (match f with | some e => some e | none => g)
          else (match g with | some e => some e | none => f)) [], none, s)

/-- Indices of elements `i0` on from their bytes. -/
def indices (sz : Nat) (b : List Byte) : List Nat := (List.range (b.length / sz)).map (fun i => leAt b (i * sz) sz)

/-- The refusal of an element beyond the address space (R169). -/
def elemRefused (d : Desc) (acc : Nat) : EngFail :=
  .refused { reason := .notPresent, access := acc, level := 3, extent := none } (nA d)

/-- Reads a range whose lines are known to be clear. -/
def readNow (a : Actor) (pva n : Nat) (s : State) : List Byte × Option EngFail × State :=
  let (ls, f, s) := locate a .read pva n s
  match readLocs a ls s with
  | (b, some e, s) => (b, some e, s)
  | (b, none, s) => (b, f, s)

/-- Gathers elements up to the first that fails. -/
def gatherElems (a : Actor) (d : Desc) : List Nat → State → List Byte × Option EngFail × State
  | [], s => ([], none, s)
  | i :: r, s =>
    if 2 ^ 48 - 1 < elemAddr d i then ([], some (elemRefused d 0), s)
    else
      match readNow a (elemAddr d i) (nElem d) s with
      | (_, some e, s) => ([], some e, s)
      | (b, none, s) =>
        let (c, f, s) := gatherElems a d r s
        (b ++ c, f, s)

/-- The index bytes of a stripe. -/
def readIndices (a : Actor) (d : Desc) (p0 p1 : Nat) (s : State) : EngRes × State :=
  engRead a (nB d % 2 ^ 48 + p0 / nElem d * nIdx d) ((p1 - p0) / nElem d * nIdx d) s

def runGather (a : Actor) (d : Desc) (p0 p1 : Nat) (s : State) : StripeRes × State :=
  match readIndices a d p0 p1 s with
  | (.wait, s) => (.wait, s)
  | (.got ib f, s) =>
    let idx := indices (nIdx d) ib
    match engReady a ((idx.filter (fun i => decide (elemAddr d i < 2 ^ 48))).map (fun i => (elemAddr d i, nElem d))) s with
    | (false, s) => (.wait, s)
    | (true, s) =>
      let (b, g, s) := gatherElems a d idx s
      let (w, h, s) := engWrite a (nC d % 2 ^ 48 + p0) b s (fun x _ => (x - nC d % 2 ^ 48) / nElem d * nElem d)
      let whole := w / nElem d * nElem d
      (.ran whole (match h with | some e => some e | none => match g with | some e => some e | none => f) [], s)

/-- A part of an element, all in one line: the element's number in the list, its address and its place in the element. -/
structure Part1 where
  elem : Nat
  idx : Nat
  off : Nat
  len : Nat
  deriving DecidableEq, Repr

/-- The line-sized parts of an element. -/
def elemParts (d : Desc) (e : Nat × Nat) : List Part1 :=
  if 2 ^ 48 - 1 < elemAddr d e.2 then [{ elem := e.1, idx := e.2, off := 0, len := nElem d }]
  else (pieces (elemAddr d e.2) (nElem d)).map (fun x => { elem := e.1, idx := e.2, off := x.2.2.2, len := x.2.2.1 })

/-- An element of a stripe carried out before lies over this one. -/
def scattered (s : State) (t : Nat) (d : Desc) (idx : Nat) : Bool :=
  d.stripesDone.any (fun i => (List.range (stripeBytes / nElem d)).any (fun k =>
    decide (i * (stripeBytes / nElem d) + k < nCount d) &&
    elemAddr d (peekIndex s t d (i * (stripeBytes / nElem d) + k)) == elemAddr d idx))

/-- Writes parts of elements in the order given; answers the lowest element that failed, with its failure. Where software
declared no overlap and there is one, a line that holds another element's bytes keeps them or takes the new ones (R170). -/
def scatterParts (a : Actor) (d : Desc) (k0 : Nat) (b : List Byte) (uniq : Bool) :
    List Part1 → Option (Nat × EngFail) → State → Option (Nat × EngFail) × State
  | [], f, s => (f, s)
  | x :: r, f, s =>
    let (keep, s) : Bool × State := if uniq && scattered s a.tenant d x.idx then drawBool s else (false, s)
    let (g, s) : Option EngFail × State :=
      if 2 ^ 48 - 1 < elemAddr d x.idx then (some (elemRefused d 1), s)
      else if keep then (none, s)
      else
        let (_, e, s) := engWrite a (elemAddr d x.idx + x.off) (slice b (x.elem * nElem d + x.off) x.len) s
          (fun _ _ => (k0 + x.elem) * nElem d)
        (e, s)
    let f := match f, g with
      | none, some e => some (x.elem, e)
      | some (j, e), some e' => if x.elem < j then some (x.elem, e') else some (j, e)
      | f, none => f
    if !uniq && f.isSome then (f, s) else scatterParts a d k0 b uniq r f s

/-- SCATTER in list order, or, when UNIQUE, with the parts of its elements in an order the device chooses: where destinations
overlap against the declaration, which element's bytes a line keeps is open for each line (R170). -/
def runScatter (a : Actor) (d : Desc) (p0 p1 : Nat) (s : State) : StripeRes × State :=
  match readIndices a d p0 p1 s with
  | (.wait, s) => (.wait, s)
  | (.got ib f, s) =>
    match engRead a (nC d % 2 ^ 48 + p0) (ib.length / nIdx d * nElem d) s with
    | (.wait, s) => (.wait, s)
    | (.got b g, s) =>
      let whole := b.length / nElem d
      let ps := ((List.range whole).zip (indices (nIdx d) ib)).flatMap (elemParts d)
      let uniq := nByte d 46 == 1
      let (ord, s) := if uniq then drawOrder s else ((fun _ => 0), s)
      let ps := if uniq then anyOrder ord ps.length ps else ps
      match scatterParts a d (p0 / nElem d) b uniq ps none s with
      | (some (k, e), s) => (.ran (k * nElem d) (some e) [], s)
      | (none, s) => (.ran (whole * nElem d) (match g with | some e => some e | none => f) [], s)

/-! REDUCE (R174). -/

/-- A source element in the destination format (R172). -/
def redWiden (red c : Nat) : Nat :=
  match red with
  | 0x12 => toF32 (fpDecode fBf16 (c % 2 ^ 16))
  | 0x13 => toF32 (fpDecode fE4M3 (c % 2 ^ 8))
  | 0x14 => toF32 (fpDecode fE5M2 (c % 2 ^ 8))
  | _ => c

/-- The operator on two elements of the destination format. -/
def redDst (red : Nat) : Nat := if red / 16 % 16 = 1 then 0x11 else red

/-- A destination element is NaN. -/
def redNan (red x : Nat) : Bool :=
  match red / 16 % 16, red % 16 with
  | 1, _ => decide (f32 x = .nan)
  | 2, 1 => decide (f32 x = .nan)
  | 3, 1 => decide (f32 x = .nan)
  | 2, 2 => decide (fpDecode fBf16 (x % 2 ^ 16) = .nan)
  | 3, 2 => decide (fpDecode fBf16 (x % 2 ^ 16) = .nan)
  | _, _ => false

/-- Element `i` of every operand of one destination line, in the destination format: the old destination first when it
accumulates. -/
def redOperands (red : Nat) (old : Option (List Byte)) (srcs : List (List Byte)) (i : Nat) : List Nat :=
  (match old with | some o => [leAt o (i * redDstBytes red) (redDstBytes red)] | none => []) ++
  srcs.map (fun b => redWiden red (leAt b (i * redSrcBytes red) (redSrcBytes red)))

/-- One result element: the operands combined, from the identity unless the old destination is one of them, in an order
the device chooses. -/
def redElem (red : Nat) (acc : Bool) (ord : Nat → Nat) (l : List Nat) : Nat :=
  match anyOrder ord l.length l with
  | [] => redIdentity red
  | x :: r => if acc then r.foldl (redCombine (redDst red)) x else (x :: r).foldl (redCombine (redDst red)) (redIdentity red)

/-- Reads one line's worth of every source, up to the first failure. -/
def readSources (a : Actor) (off n : Nat) : List Nat → State → List (List Byte) × Option EngFail × State
  | [], s => ([], none, s)
  | p :: r, s =>
    match readNow a (p + off) n s with
    | (_, some e, s) => ([], some e, s)
    | (b, none, s) =>
      let (l, f, s) := readSources a off n r s
      (b :: l, f, s)

/-- The destination lines of a stripe, in order, up to the first failure. -/
def reduceLines (a : Actor) (d : Desc) (srcs : List Nat) : List Nat → State → Nat × Option EngFail × Tbl Nat × State
  | [], s => (0, none, [], s)
  | o :: r, s =>
    let red := nByte d 40
    let acc := nByte d 42 == 1
    let k := 64 / redDstBytes red
    match readSources a (o / redDstBytes red * redSrcBytes red) (k * redSrcBytes red) srcs s with
    | (_, some e, s) => (0, some e, [], s)
    | (bs, none, s) =>
      let (old, f, s) : Option (List Byte) × Option EngFail × State :=
        if acc then
          match readNow a (nA d + o) 64 s with
          | (b, f, s) => (some b, f, s)
        else (none, none, s)
      match f with
      | some e => (0, some e, [], s)
      | none =>
        let (ord, s) := drawOrderAt [(a.owner.getD (0, 0)).1, (a.owner.getD (0, 0)).2, o] s
        let es := (List.range k).map (fun i => redElem red acc (fun j => ord (64 * i + j)) (redOperands red old bs i))
        match engWrite a (nA d + o) (es.flatMap (leBytes (redDstBytes red))) s (fun _ _ => o) with
        | (_, some e, s) => (0, some e, [], s)
        | (_, none, s) =>
          let (w, f, m, s) := reduceLines a d srcs r s
          (64 + w, f, tput 0 m (o / 64) (es.filter (redNan red)).length, s)

/-- The source list, once read. -/
def sourceList (d : Desc) : List Nat :=
  let b := d.aux.getD []
  (List.range (nByte d 41)).map (fun i => leAt b (8 * i) 8 % 2 ^ 48)

def runReduce (a : Actor) (d : Desc) (p0 p1 : Nat) (s : State) : StripeRes × State :=
  let red := nByte d 40
  let srcs := sourceList d
  let n := (p1 - p0) / redDstBytes red * redSrcBytes red
  let ranges := srcs.map (fun p => (p + p0 / redDstBytes red * redSrcBytes red, n)) ++
    (if nByte d 42 == 1 then [(nA d + p0, p1 - p0)] else [])
  match engReady a ranges s with
  | (false, s) => (.wait, s)
  | (true, s) =>
    let (w, f, m, s) := reduceLines a d srcs ((List.range ((p1 - p0) / 64)).map (fun i => p0 + 64 * i)) s
    (.ran w f m, s)

/-! Stripes of a descriptor. -/

/-- What every stripe needs first: the pattern line (R163) or the source list (R174). -/
def nmAux (d : Desc) : Option (Nat × Nat) :=
  match dOpcode d with
  | 0x02 => if nByte d 32 = 1 then some (leAt d.bytes 40 8 % 2 ^ 48, 64) else none
  | 0x07 => some (nB d % 2 ^ 48, 8 * nByte d 41)
  | _ => none

/-- A failure of stripe `i` at a position of the byte order: the lowest one decides (R162); a refused translation is known at
once. -/
def nmFail (a : Actor) (n slot i pos : Nat) (f : EngFail) (s : State) : State :=
  let f := match f, descAt s n slot with
    | .refused r pva, some d => .refused (lateRefuse (wasCut i pva d.cut) r) pva
    | f, _ => f
  let (st, ext, s) := noteFail a f s
  match descAt s n slot with
  | none => s
  | some d =>
    let stop := match f with | .refused _ _ => true | .poison => d.stopped
    setDesc n { failAt pos st ext d with stopped := stop } s

/-- Runs stripe `i`. -/
def runStripe (a : Actor) (n : Nat) (d : Desc) (i : Nat) (s : State) : State :=
  let p0 := i * stripeBytes
  let p1 := min (nmTotal d) (p0 + stripeBytes)
  let (res, diff, s) : StripeRes × Option (Nat × Byte × Byte) × State :=
    match dOpcode d with
    | 0x02 => let (r, s) := runFill a d p0 p1 s; (r, none, s)
    | 0x03 => let (r, s) := if copyDown d then runCopyDown a d p0 p1 s else runCopyUp a d p0 p1 s; (r, none, s)
    | 0x04 => runCompare a d p0 p1 s
    | 0x05 => let (r, s) := runGather a d p0 p1 s; (r, none, s)
    | 0x06 => let (r, s) := runScatter a d p0 p1 s; (r, none, s)
    | _ => let (r, s) := runReduce a d p0 p1 s; (r, none, s)
  match res, descAt s n d.slot with
  | .ran k f m, some d =>
    let s := setDesc n { d with
      running := d.running.filter (fun r => r.1 != i)
      cut := if f.isSome then d.cut else d.cut.filter (fun c => c.1 != i)
      stripesDone := if f.isNone then i :: d.stripesDone else d.stripesDone
      nans := m.foldl (fun t c => tput 0 t c.1 c.2) d.nans
      diff := match diff, d.diff with
        | some x, some y => if x.1 < y.1 then some x else some y
        | some x, none => some x
        | none, y => y } s
    match f with
    | some e => nmFail a n d.slot i (p0 + k) e s
    | none => s
  | _, _ => s

end Sys2Proof.Machine
end

