-- ==== Sys2Proof/Machine/PairOps.lean ====
section
/-! DEFINITION. The redundant pair, shared operations (chapter 16): states (R425), the active's follower (R427 to R430),
the pair link. -/

namespace Sys2Proof.Machine

/-- STATE of Table 16.11. -/
def pairCode : PairSt → Nat
  | .solo => 0 | .waiting => 1 | .active => 2 | .standbySync => 3 | .standby => 4 | .suspect => 5 | .passive => 6

/-- Pattern that a state drives (Table 16.4). -/
def drives : PairSt → Pattern
  | .solo => .absent | .active => .hz4096 | .waiting => .hz256 | .passive => .hz256 | _ => .hz1024

/-- Sends the outputs whose order records are all acknowledged, or every one when nobody follows (R427, R448). -/
def releaseHeld (s : State) : State :=
  let due (h : Nat × Out) : Bool := decide (s.pair.follower = 0) || decide (h.1 ≤ s.pair.acked)
  let l := s.pair.held
  let s := { s with pair := { s.pair with held := l.filter (fun h => !(due h)) } }
  forEach (l.filter due) (fun h s => if gated s then s else { s with out := h.2 :: s.out }) s

/-- The follower's standing changes: without one, values and granules that it has not acknowledged are dirty (R448); a
standby that leaves STANDBY verifies nothing more: every unit not yet verified that holds an effect has failed (R429). -/
def setFollower (f : Nat) (s : State) : State :=
  let open_ := (s.pair.effects.map (fun e => e.2.2)).filter (fun u => !(unitVerified s u) && !(s.pair.failed.contains u))
  let lost := if f = 0 ∧ s.pair.copying then (s.pair.pendingLines.map (·.2) ++ s.pair.inTransit).eraseDups else []
  let s := { s with pair := { s.pair with
    follower := f, pendingLines := if f = 0 then [] else s.pair.pendingLines
    inTransit := if f = 0 then [] else s.pair.inTransit
    dirty := s.pair.dirty ++ lost.filter (fun g => !(s.pair.dirty.contains g)) } }
  let s := if f = 2 then s
    else deliverVerified { s with pair := { s.pair with units := [], early := [], failed := s.pair.failed ++ open_ } }
  releaseHeld s

/-- A device of a pair changes state: event-recorder entry, STATE_TIME; leaving ACTIVE gates its outputs, entering it keeps
them gated for 1 ms (R424, R425). -/
def setPairSt (st : PairSt) (stale : Bool) (s : State) : State :=
  let old := s.pair.st
  if old = st then s
  else
    let s := event 0x21 [pairCode old, pairCode st, b2n stale] s
    let act := decide (st = .active)
    let s := { s with pair := { s.pair with
      st := st, stateTime := s.time, gateOpen := false, lead := false, lastRecv := s.time
      driveActive := if act then s.time else s.pair.driveActive
      lastSent := if act then s.time else s.pair.lastSent
      sent := if act then 0 else s.pair.sent, acked := if act then 0 else s.pair.acked
      stalledOn := none } }
    if old = .active then
      setFollower 0 { s with pair := { s.pair with snapshotDue := false, snapshotAt := none } }
    else s

/-- At least one pair port is UP (LINK_UP). -/
def pairUp (s : State) : Bool := (List.range 64).any (fun p => (port s p).pair && decide ((port s p).st = .up))

/-- An OrderAck: the highest record in step; its payload (DESIGN CHOICE) tells the standby's mark, whether it has applied
the snapshot, and the granule it has just written, if any. The first one goes out once a pair link is UP (R427, R447). -/
def ackMark (g : Option Nat) (s : State) : State :=
  sendPair 0x51 6 s.pair.applied 0 1 (leBytes 8 s.pair.mark ++ leBytes 8 (b2n (decide (s.pair.st = .standby))) ++
    leBytes 8 (match g with | some g => g + 1 | none => 0)) s

def sendMark (s : State) : State := ackMark none s

/-- Begins to follow: STANDBY_SYNC (Table 16.5), with no record applied. -/
def beginSync (s : State) : State :=
  let s := setPairSt .standbySync false s
  sendMark { s with pair := { s.pair with
    copying := false, applied := 0, recs := [], entropy := [], stalledOn := none, beats := [], commitsDue := [], snapIn := none, chunks := [] } }

/-- The pair link has come UP or gone down (Table 16.5, R448). -/
def pairLinkChanged (s : State) : State :=
  if pairUp s then
    match s.pair.st with
    | .waiting => if s.pair.partner = .hz4096 then beginSync s else s
    | .standbySync => sendMark s
    | _ => s
  else
    match s.pair.st with
    | .standby => if s.pair.partner = .hz4096 then setPairSt .passive false s else s
    | .active => if s.pair.follower ≠ 0 then setFollower 0 s else s
    | _ => s

end Sys2Proof.Machine
end

