-- ==== Sys2Proof/Machine/Tile.lean ====
section
/-! DEFINITION. Tile operations: layout (Table 7.3), the operations of Table 7.4 and their fields (Tables 7.5, 7.6), the
decode checks of R195. -/

namespace Sys2Proof.Machine

/-- The operations of Table 7.4. -/
inductive TKind where
  | salu | branch | sync | barrier | commit | ended | tload | tstore | treduce | treducew | tatomic | tcopy
  | mma | accrd | accwr | vbin | vfma | vfunc | vrowred | vbcast | vcvt | racc
  deriving DecidableEq, Repr

/-- The operation of an OPC code; every code not listed is reserved (R194). -/
def tKindOf (opc : Nat) : Option TKind :=
  match opc with
  | 0x01 => some .salu | 0x02 => some .branch | 0x03 => some .sync | 0x04 => some .barrier | 0x05 => some .commit
  | 0x06 => some .ended | 0x10 => some .tload | 0x11 => some .tstore | 0x12 => some .treduce | 0x13 => some .treducew
  | 0x14 => some .tatomic | 0x15 => some .tcopy | 0x20 => some .mma | 0x21 => some .accrd | 0x22 => some .accwr
  | 0x30 => some .vbin | 0x31 => some .vfma | 0x32 => some .vfunc | 0x33 => some .vrowred | 0x34 => some .vbcast
  | 0x35 => some .vcvt | 0x40 => some .racc | _ => none

/-! Fields of an operation word (Table 7.3). -/

abbrev TWord := BitVec 128
def tF (w : TWord) (lo n : Nat) : Nat := field w.toNat lo n
def tOpc (w : TWord) : Nat := tF w 0 8
def tFa (w : TWord) : Nat := tF w 8 4
def tFb (w : TWord) : Nat := tF w 12 4
def tFd (w : TWord) : Nat := tF w 16 4
def tMode (w : TWord) : Nat := tF w 20 4
def tAcc (w : TWord) : Nat := tF w 24 2
def tEng (w : TWord) : Nat := tF w 26 1
def tWe (w : TWord) : Bool := tF w 27 1 == 1
def tWsem (w : TWord) : Nat := tF w 28 6
def tSe (w : TWord) : Bool := tF w 34 1 == 1
def tSsem (w : TWord) : Nat := tF w 35 6
def tA (w : TWord) : Nat := tF w 48 16
def tB (w : TWord) : Nat := tF w 64 16
def tD (w : TWord) : Nat := tF w 80 16
def tX (w : TWord) : Nat := tF w 96 32
/-- Rows of MMA, ACCRD, ACCWR, vector and reduce operations, and of moves. -/
def tRows (w : TWord) : Nat := tF w 96 7 + 1
def tMoveRows (w : TWord) : Nat := tF w 116 7 + 1
def tSlot (w : TWord) : Nat := tF w 96 8
/-- Registers of a move: X[13:8], X[19:14], X[25:20]. -/
def tR1 (w : TWord) : Nat := tF w 104 6
def tR2 (w : TWord) : Nat := tF w 110 6
def tR3 (w : TWord) : Nat := tF w 116 6
def tRed (w : TWord) : Nat := tF w 64 8
def tWindow (w : TWord) : Nat := tF w 64 10
def tSignal (w : TWord) : Option Nat := if tSe w then some (tSsem w) else none

/-- Operand formats (Table 7.2): element bits of a code, 0 for a reserved one. -/
def elemBits (code : Nat) : Nat := [0, 4, 6, 6, 8, 8, 8, 16, 32, 32].getD code 0
def isMx (code : Nat) : Bool := decide (1 ≤ code) && decide (code ≤ 3)
/-- Row bytes of a code: 128 elements, and the four scale bytes of an MX row. -/
def rowBytesOf (code : Nat) : Nat := 16 * elemBits code + (if isMx code then 4 else 0)
def fmtOk (code : Nat) : Bool := decide (1 ≤ code) && decide (code ≤ 9)

/-- The engine that executes an operation: 0, 1 matrix; 2 vector; 3 move; 4 reduce; 5 the sequencer itself (Table 7.1). -/
def tEngine (k : TKind) (w : TWord) : Nat :=
  match k with
  | .mma => tEng w
  | .accrd => tEng w
  | .accwr => tEng w
  | .vbin => 2
  | .vfma => 2
  | .vfunc => 2
  | .vrowred => 2
  | .vbcast => 2
  | .vcvt => 2
  | .racc => 4
  | .tload => 3
  | .tstore => 3
  | .treduce => 3
  | .treducew => 3
  | .tatomic => 3
  | .tcopy => 3
  | _ => 5

/-- Bits an operation may use, as (low bit, width) pairs besides OPC, MODE, WE, WSEM, SE and SSEM; every other bit is
reserved (R193, R194, Table 7.6). -/
def tUsed (k : TKind) (mode : Nat) : List (Nat × Nat) :=
  match k with
  | .salu =>
    if mode = 0 ∨ mode = 12 ∨ mode = 13 then [(80, 6), (96, 32)]
    else if mode = 11 then [(48, 6), (80, 6), (96, 32)]
    else [(48, 6), (64, 6), (80, 6)]
  | .branch => if mode = 0 then [(96, 32)] else [(48, 6), (64, 6), (96, 32)]
  | .sync => []
  | .barrier => [(96, 4)]
  | .commit => [(96, 32)]
  | .ended => []
  | .tload => [(16, 4), (80, 16), (96, 27)]
  | .tstore => [(8, 4), (48, 16), (96, 27)]
  | .treduce => [(48, 16), (64, 8), (96, 27)]
  | .treducew => [(48, 16), (64, 10), (104, 18)]
  | .tatomic => [(64, 8), (80, 6), (96, 26)]
  | .tcopy => [(48, 16), (80, 16), (96, 16)]
  | .mma => [(8, 8), (24, 3), (48, 32), (96, 7)]
  | .accrd => [(16, 4), (24, 3), (80, 16), (96, 7)]
  | .accwr => [(24, 3), (48, 16), (96, 7)]
  | .vbin => [(8, 12), (48, 48), (96, 7)]
  | .vfma => [(8, 12), (48, 48), (96, 7)]
  | .vfunc => [(8, 12), (48, 16), (80, 16), (96, 7)]
  | .vrowred => [(8, 12), (48, 16), (80, 16), (96, 7)]
  | .vbcast => [(8, 12), (48, 48), (96, 7)]
  | .vcvt => [(8, 4), (16, 4), (48, 16), (80, 16), (96, 7)]
  | .racc => [(48, 16), (64, 8), (80, 16), (96, 7)]

/-- Mask of the bits an operation may use. -/
def tMask (k : TKind) (mode : Nat) : Nat :=
  ([(0, 8), (20, 4), (27, 14)] ++ tUsed k mode).foldl (fun (m : Nat) (p : Nat × Nat) => m ||| ((2 ^ p.2 - 1) * 2 ^ p.1)) 0

/-- Valid MODE values (Table 7.5). -/
def tModeOk (k : TKind) (mode : Nat) : Bool :=
  match k with
  | .salu => decide (mode < 14)
  | .branch => decide (mode < 7)
  | .mma => decide (mode < 2)
  | .accrd => decide (mode % 4 < 3) && decide (mode < 8)
  | .vcvt => decide (mode < 3)
  | .vbin => decide (mode < 5)
  | .vfunc => decide (mode < 8)
  | .vrowred => decide (mode < 3)
  | .vbcast => decide (mode < 3)
  | .tload => decide (mode < 2)
  | _ => mode == 0

/-- Formats allowed for an operation (R194). -/
def tFmtOk (k : TKind) (w : TWord) : Bool :=
  let a := tFa w
  let b := tFb w
  let d := tFd w
  match k with
  | .mma => (decide (1 ≤ a) && decide (a ≤ 5) && decide (1 ≤ b) && decide (b ≤ 5)) || (a == 6 && b == 6) || (a == 7 && b == 7)
  | .accrd => d == 4 || d == 5 || d == 7 || d == 8
  | .vbin => a == b && b == d && (a == 7 || a == 8 || (a == 9 && tMode w != 2))
  | .vfma => a == b && b == d && (a == 7 || a == 8)
  | .vfunc => a == b && b == d && (a == 7 || a == 8)
  | .vrowred => a == b && b == d && (a == 7 || a == 8)
  | .vbcast => a == b && b == d && (a == 7 || a == 8)
  | .vcvt => fmtOk a && fmtOk d && (decide (7 ≤ a) || d == 7 || d == 8)
  | .tload => fmtOk d
  | .tstore => fmtOk a
  | .treduce => redValid (tRed w)
  | .racc => redValid (tRed w)
  | .tatomic => atomValid (tRed w)
  | _ => true

/-- Core-store ranges an operation reads and writes, as (byte address, bytes); a TREDUCEW is sized at run time. -/
def tReads (k : TKind) (w : TWord) : List (Nat × Nat) :=
  let a := 128 * tA w
  let b := 128 * tB w
  let d := 128 * tD w
  let r := tRows w
  match k with
  | .mma => [(a, r * rowBytesOf (tFa w)), (b, 128 * rowBytesOf (tFb w))]
  | .accwr => [(a, r * 512)]
  | .vbin => [(a, r * rowBytesOf (tFa w)), (b, r * rowBytesOf (tFb w))]
  | .vfma => [(a, r * rowBytesOf (tFa w)), (b, r * rowBytesOf (tFb w)), (d, r * rowBytesOf (tFd w))]
  | .vfunc => [(a, r * rowBytesOf (tFa w))]
  | .vrowred => [(a, r * rowBytesOf (tFa w))]
  | .vbcast => [(a, r * rowBytesOf (tFa w)), (b, r * (elemBits (tFb w) / 8))]
  | .vcvt => [(a, r * rowBytesOf (tFa w))]
  | .racc => [(a, r * (128 * redSrcBytes (tRed w))), (d, r * (128 * redDstBytes (tRed w)))]
  | .tstore => [(a, tMoveRows w * rowBytesOf (tFa w))]
  | .treduce => [(a, tMoveRows w * (128 * redSrcBytes (tRed w)))]
  | .tcopy => [(a, 128 * tF w 96 16)]
  | _ => []

def tWrites (k : TKind) (w : TWord) : List (Nat × Nat) :=
  let d := 128 * tD w
  let r := tRows w
  match k with
  | .accrd => [(d, r * rowBytesOf (tFd w))]
  | .vbin => [(d, r * rowBytesOf (tFd w))]
  | .vfma => [(d, r * rowBytesOf (tFd w))]
  | .vfunc => [(d, r * rowBytesOf (tFd w))]
  | .vrowred => [(d, r * (elemBits (tFd w) / 8))]
  | .vbcast => [(d, r * rowBytesOf (tFd w))]
  | .vcvt => [(d, r * rowBytesOf (tFd w))]
  | .racc => [(d, r * (128 * redDstBytes (tRed w)))]
  | .tload => [(d, tMoveRows w * rowBytesOf (tFd w))]
  | .tcopy => [(d, 128 * tF w 96 16)]
  | _ => []

/-- What the program check needs of the image (R195). -/
structure ImgInfo where
  n : Nat
  storeBytes : Nat
  bindCount : Nat
  contexts : Nat
  nonIdem : Bool
  kinds : List Nat
  deriving DecidableEq, Repr

/-- The slot's KIND fits the operation (R195). -/
def tKindFits (k : TKind) (kind : Nat) : Bool :=
  match k with
  | .tload => kind == 0 || kind == 2 || kind == 5
  | .tstore => kind == 1 || kind == 2
  | .treduce => kind == 3
  | .tatomic => kind == 4
  | _ => true

/-- The operation names a binding slot. -/
def tHasSlot (k : TKind) (w : TWord) : Bool :=
  match k with
  | .tload => tMode w != 1
  | .tstore => true
  | .treduce => true
  | .tatomic => true
  | _ => false

/-- One operation passes the decode of R195. -/
def tOpOk (m : ImgInfo) (w : TWord) : Bool :=
  match tKindOf (tOpc w) with
  | none => false
  | some k =>
    decide (w.toNat &&& tMask k (tMode w) = w.toNat) && tModeOk k (tMode w) && tFmtOk k w &&
    (!(decide (k = .salu) && tMode w == 13) || decide (tX w ≤ 4)) &&
    (tReads k w ++ tWrites k w).all (fun p => decide (p.1 + p.2 ≤ m.storeBytes)) &&
    (!(decide (k = .treducew)) || decide (128 * tA w < m.storeBytes)) &&
    (!(decide (k = .branch) || decide (k = .commit)) || decide (tX w < m.n)) &&
    (!(decide (k = .treduce) || decide (k = .treducew) || decide (k = .tatomic)) || m.nonIdem) &&
    (!(decide (k = .tload)) || tMode w != 1 || tSlot w == 0) &&
    (!(tHasSlot k w) || (decide (tSlot w < m.bindCount) && tKindFits k (m.kinds.getD (tSlot w) 255)))

/-- The last operation is an END or an unconditional BRANCH. -/
def tLastOk (w : TWord) : Bool :=
  match tKindOf (tOpc w) with
  | some .ended => true
  | some .branch => tMode w == 0
  | _ => false

/-- The whole program passes (R191, R195): entries with reserved bits or of unused contexts are zero, and starts lie in
the program. -/
def programOk (m : ImgInfo) (entries : List Nat) (ops : List TWord) : Bool :=
  decide (1 ≤ ops.length) && decide (ops.length ≤ 65536) &&
  (List.range 8).all (fun c =>
    let e := entries.getD c 0
    if c < m.contexts then decide (e < m.n) else e == 0) &&
  ops.all (tOpOk m) && (match ops.getLast? with | some w => tLastOk w | none => false)

end Sys2Proof.Machine
end

