-- ==== Sys2Proof/Machine/StopOps.lean ====
section
/-! DEFINITION. Jobs on their cores (R199 to R206): commits and arrivals, stopping at a tile boundary, pausing, ending,
the return of a job whose core is fenced; paused records (R152), barrier channels left (R242), energy meters (R255). -/

namespace Sys2Proof.Machine

/-! Energy (R231, R255). -/

/-- Voltage factor of an operating point in ten-thousandths, and its core clock in MHz (Table 10.1, Table 7.9). -/
def voltFactor (k : Nat) : Nat := [10000, 8100, 6810, 5625].getD k 5625
def opMhz (k : Nat) : Nat := [2000, 1600, 1333, 1000].getD k 1000

/-- Adds energy of an operation at OP0 to its core's meter and its job, scaled by the voltage factor in force. -/
def meterOp (n fj : Nat) (s : State) : State :=
  let c := coreOf s n
  let e := ceilDiv (fj * voltFactor (pwrq s (n / 40)).opCur) 10000
  let s := setCore n { c with energyFj := c.energyFj + e } s
  match c.job with
  | some j => match job s j with
    | some x => setJob j (some { x with energyFj := x.energyFj + e }) s
    | none => s
  | none => s

/-- Running-core power of 2.8 W since the last reading, and CORE_BUSY_CYC at the uncore clock of 1 GHz (R255, R460). -/
def meterRun (n : Nat) (s : State) : State :=
  let c := coreOf s n
  let dt := s.time - c.meterAt
  match c.job with
  | none => setCore n { c with meterAt := s.time } s
  | some j =>
    let k := (pwrq s (n / 40)).opCur
    let e := ceilDiv (2800000 * voltFactor k * opMhz k * dt) 20000000
    let s := cntAdd cUtil (n / 40) 0 dt (setCore n { c with energyFj := c.energyFj + e, meterAt := s.time } s)
    match job s j with
    | some x => setJob j (some { x with energyFj := x.energyFj + e }) s
    | none => s

/-- Busy counter of an engine (Table 18.2): matrix, vector, move; the reduce engine has none. -/
def busyIdx (e : Nat) : Option Nat := if e < 2 then some 1 else if e = 2 then some 2 else if e = 3 then some 3 else none

/-- Adds the busy time of an engine up to now. -/
def flushBusy (n e : Nat) (s : State) : State :=
  let c := coreOf s n
  if (tget [] c.engines e).isEmpty then s
  else
    let s := setCore n { c with busyAt := tput 0 c.busyAt e s.time } s
    match busyIdx e with
    | some i => cntAdd cUtil (n / 40) i (s.time - tget 0 c.busyAt e) s
    | none => s

/-- Busy time of a quadrant's units since their last reading, for busy counter `i` (R460). -/
def busyNow (s : State) (q i : Nat) : Nat :=
  let one (n : Nat) : Nat :=
    let c := coreOf s n
    if i = 0 then (if c.job.isSome then s.time - c.meterAt else 0)
    else ((List.range 4).map (fun e =>
      if busyIdx e = some i && !(tget [] c.engines e).isEmpty then s.time - tget 0 c.busyAt e else 0)).foldl (· + ·) 0
  ((List.range 40).map (fun k => one (40 * q + k))).foldl (· + ·) 0

/-- Reads the busy time of a quadrant's units into its counters. -/
def flushQuad (q : Nat) (s : State) : State :=
  forEach (List.range 40) (fun k s => meterRun (40 * q + k) (forEach (List.range 4) (flushBusy (40 * q + k)) s)) s

/-! Cores of a job. -/

/-- The job that a core holds. -/
def jobOn (s : State) (n : Nat) : Option (Nat × Job) :=
  match (coreOf s n).job with
  | some j => (job s j).map (fun x => (j, x))
  | none => none

def ctxOf (c : Core) (i : Nat) : Ctx := tget {} c.ctxs i

/-- Contexts of a core that have not ended. -/
def liveCtxs (c : Core) : List (Nat × Ctx) :=
  c.ctxs.filter (fun x => decide (x.2.st ≠ .idle) && decide (x.2.st ≠ .ended))

/-- Commits a core has arrived at: the fewest that a live context has dispatched; with none live, the most (R199). -/
def arrivals (c : Core) : Nat :=
  match liveCtxs c with
  | [] => (c.ctxs.map (fun x => x.2.commits)).foldl max 0
  | x :: r => (r.map (fun x => x.2.commits)).foldl min x.2.commits

/-- The core has arrived at commit `n`: with every context ended it has arrived at all. -/
def arrivedAt (c : Core) (n : Nat) : Bool := (liveCtxs c).isEmpty || decide (n ≤ arrivals c)

/-! The sequencer's rotation (R192, R235 to R237). -/

def setCtx (n i : Nat) (x : Ctx) (s : State) : State :=
  let c := coreOf s n
  setCore n { c with ctxs := tput {} c.ctxs i x } s

/-- One context's turn at the sequencer: core, context, job, and the operation at its program counter. -/
structure Turn where
  n : Nat
  i : Nat
  jid : Nat
  j : Job
  x : Ctx
  w : TWord
  deriving DecidableEq, Repr

def Turn.tile (t : Turn) : Nat := t.x.commits + 1
def Turn.rank (t : Turn) (s : State) : Nat := (coreOf s t.n).rank

/-- The operation that a context would dispatch: its core runs, is not stopped or fenced, and the context is ready. -/
def turnOf (s : State) (n i : Nat) : Option Turn :=
  match jobOn s n with
  | none => none
  | some (jid, j) =>
    let c := coreOf s n
    let x := ctxOf c i
    if (decide (j.phase = .running) || decide (j.phase = .stopping)) && !c.frozen && !(coreFenced s n) &&
        decide (x.st = .ready) && decide (x.pc < j.program.length) then
      some { n := n, i := i, jid := jid, j := j, x := x, w := j.program.getD x.pc 0 }
    else none

/-- The contexts in the order of the rotation: from the one after the last that was dispatched (R192). -/
def rotation (c : Core) : List Nat := (List.range 8).map (fun k => (c.rota + 1 + k) % 8)

/-- Contexts whose next operation waits on a semaphore, in the rotation (R235). -/
def semWaiters (s : State) (n k : Nat) : List Nat :=
  (rotation (coreOf s n)).filter (fun i => match turnOf s n i with
    | some t => tWe t.w && tWsem t.w == k
    | none => false)

/-- Contexts become ready: their watchdogs stop (R237). -/
def wake (n : Nat) (l : List Nat) (s : State) : State :=
  forEach l (fun i s => setCtx n i { ctxOf (coreOf s n) i with waitSince := none } s) s

/-- The waiting contexts that a semaphore's count lets go on become ready (R235, R236). -/
def wakeSem (n k : Nat) (s : State) : State := wake n ((semWaiters s n k).take (tget 0 (coreOf s n).sems k)) s

/-- Raises a semaphore's count (R234). -/
def signalSem (n k : Nat) (s : State) : State :=
  let c := coreOf s n
  if 255 ≤ tget 0 c.sems k then bump cSyn 0 1 s
  else wakeSem n k (setCore n { c with sems := tput 0 c.sems k (tget 0 c.sems k + 1) } s)

def signalOpt (n : Nat) (k : Option Nat) (s : State) : State :=
  match k with | some k => signalSem n k s | none => s

/-- A barrier channel's register changes. -/
def chanOf (s : State) (p : Nat) : Chan9 := tget {} s.core.chans p
def setChan9 (p : Nat) (x : Chan9) (s : State) : State :=
  { s with core := { s.core with chans := tput {} s.core.chans p x } }

/-- A beat of a job up to a tile is not ordered at its home yet (R200). -/
def jobBeat (j : Job) (tile : Nat) (r : LineReq) : Bool :=
  decide (r.owner = some (j.queue, j.slot)) && decide (r.tile ≤ tile)

def beatsLeft (s : State) (j : Job) (tile : Nat) : Bool :=
  s.dir.lines.any (fun c => (match c.2.cur with | some r => jobBeat j tile r | none => false) ||
    c.2.queue.any (jobBeat j tile)) || s.dir.waitIn.any (fun w => jobBeat j tile w.2.2)

/-- Answers that nothing awaits any more are forgotten, and those under assembly go nowhere. -/
def forgetAnswers (ids : List Nat) (s : State) : State :=
  forEach ids (fun i s =>
    let s := { s with dir := { s.dir with answers := tput none s.dir.answers i none } }
    match tget none s.dir.pends i with
    | some p => { s with dir := { s.dir with pends := tput none s.dir.pends i (some { p with reply := .silent }) } }
    | none => s) s

/-- The job leaves its cores (R242): meters read, core state gone, channels freed, what it did after its commit
discarded. A core keeps its meter and its limit (R255, R256), and a fenced one its STATE (Table 7.12). -/
def leaveCores (jid : Nat) (s : State) : State :=
  match job s jid with
  | none => s
  | some j =>
    let s := forgetAnswers (j.effects.flatMap (·.answers) ++ j.waits.map (·.1)) s
    let s := forEach j.cores (fun n s =>
      let s := meterRun n (forEach (List.range 4) (flushBusy n) s)
      let c := coreOf s n
      setCore n { stateTime := if coreFenced s n then c.stateTime else s.time
                  energyFj := c.energyFj, meterAt := c.meterAt, limited := c.limited } s) s
    let s := forEach (List.range 16) (fun p s => if (chanOf s p).job = some jid then setChan9 p {} s else s) s
    match job s jid with
    | none => s
    | some j => setJob jid (some { j with cores := [], newSnaps := [], signals := [], effects := [], issuing := none
                                          fences := [], waits := [], why := .none_ }) s

/-! Paused records (R152). -/

/-- Takes the lowest free paused record for a job: its number and generation, which starts at 1 and skips 0. -/
def takeRecord (jid : Nat) (s : State) : Option (Nat × Nat) × State :=
  match lowest 4096 (fun r => (tget none s.que.recordJob r).isNone) with
  | none => (none, s)
  | some r =>
    let g := (tget 0 s.que.recordGen r + 1) % 2 ^ 20
    let g := if g = 0 then 1 else g
    (some (r, g), { s with que := { s.que with recordGen := tput 0 s.que.recordGen r g
                                               recordJob := tput none s.que.recordJob r (some jid) } })

/-- A job stopped by a quiesce takes a paused record; with none free it stays where it is (R152, R155). -/
def quiescePause (jid : Nat) (s : State) : State :=
  match takeRecord jid s with
  | (none, s) =>
    (match job s jid with
     | some j => setJob jid (some { j with quiesced := true, phase := if j.phase = .ready then .ready else .halted }) s
     | none => s)
  | (some r, s) =>
    let s := bump cQue 0 4 (leaveCores jid s)
    match job s jid with
    | some j => setJob jid (some { j with phase := .paused, quiesced := true, record := some r }) s
    | none => s

/-- Frees a paused record: a job that a quiesce has stopped without one takes it. -/
def freeRecord (r : Nat) (s : State) : State :=
  let s := { s with que := { s.que with recordJob := tput none s.que.recordJob r none } }
  match s.que.jobs.find? (fun c => match c.2 with | some j => j.quiesced && j.record.isNone | none => false) with
  | some c => quiescePause c.1 s
  | none => s

/-- The handle of a paused record: [11:0] record, [31:12] generation. -/
def handleOf (r : Nat × Nat) : Nat := r.1 + 4096 * r.2

/-! Completions of jobs (Table 5.9). -/

def jobResult0 (j : Job) (handle : Nat) : Nat := min j.tiles (2 ^ 32 - 1) + handle * 2 ^ 32
def jobResult1 (s : State) (j : Job) : Nat :=
  min (j.energyFj / 10 ^ 9) (2 ^ 32 - 1) +
  (match j.firstAdmit with | some t => min ((s.time - t) / 1000) (2 ^ 32 - 1) | none => 0) * 2 ^ 32

/-- A completion of the job's descriptor. -/
def jobCompl (s : State) (j : Job) (st : Status) (detail : Nat) (ext : List Byte) : Compl :=
  { queue := j.queue, slot := j.slot, tag := j.tag, status := st, detail := detail, notify := j.notify
    waitVerified := j.waitVerified, ext := ext, result0 := jobResult0 j 0, result1 := jobResult1 s j }

/-- The job leaves its cores and completes. -/
def finishJob (jid : Nat) (st : Status) (detail : Nat) (ext : List Byte) (s : State) : State :=
  let s := leaveCores jid s
  match job s jid with
  | none => s
  | some j =>
    let s := complete (jobCompl s j st detail ext) (setJob jid none s)
    match j.record with
    | some r => freeRecord r.1 s
    | none => s

/-- Stops a core: it dispatches nothing more. -/
def freeze (n : Nat) (s : State) : State :=
  let c := coreOf s n
  setCore n { c with frozen := true } s

/-- Every core of the job stops, and its STATE with it (Table 7.12). -/
def freezeAll (j : Job) (s : State) : State :=
  forEach j.cores (fun n s =>
    freeze n (if j.phase = .stopping then s else setCore n { coreOf s n with stateTime := s.time } s)) s

/-- The job ends with an outcome and nothing of it is kept: every core stops at once (Table 7.10). A commit whose held effects
have begun to issue completes first (R202); a removed tenant's job and a fenced core's are under R395 and R206. -/
def endJob (jid : Nat) (st : Status) (detail : Nat) (ext : List Byte) (s : State) : State :=
  match job s jid with
  | none => s
  | some j =>
    match j.issuing with
    | none => finishJob jid st detail ext s
    | some k =>
      if st = .tenantRevoked ∨ st = .coreFenced then finishJob jid st detail ext s
      else
        match j.why with
        | .ended _ _ _ => s
        | _ => setJob jid (some { j with phase := .stopping, why := .ended st detail ext, target := k }) (freezeAll j s)

/-- The job is dropped without a completion: its group is being released, or its tenant removed. -/
def dropJob (jid : Nat) (s : State) : State :=
  let s := leaveCores jid s
  match job s jid with
  | none => s
  | some j =>
    let s := setJob jid none s
    match j.record with
    | some r => freeRecord r.1 s
    | none => s

/-- A tile fault holds the job at its commit: it pauses with TILE_FAULT and a handle, or, with no record free, completes
and cannot be resumed (R152). -/
def faultPause (jid : Nat) (s : State) : State :=
  match takeRecord jid s with
  | (none, s) => (match job s jid with
    | some j => endJob jid .tileFault 0 j.ext s
    | none => s)
  | (some r, s) =>
    let s := bump cQue 0 4 (leaveCores jid s)
    match job s jid with
    | none => s
    | some j =>
      complete { jobCompl s j .tileFault 0 j.ext with paused := true, result0 := jobResult0 j (handleOf r) }
        (setJob jid (some { j with phase := .paused, record := some r }) s)

/-! Commits (R199, R200). -/

/-- An ended context of a snapshot. -/
def endedSnap : CtxSnap := { pc := 0, regs := [], ended := true }

/-- Commit `n` of the job completes: its snapshots are the job's, its tiles are counted, its COMMIT signals are given. -/
def commitDone (jid n : Nat) (s : State) : State :=
  match job s jid with
  | none => s
  | some j =>
    let ranks := List.range j.cores.length
    let real := ranks.filter (fun r => decide (tget [] j.newSnaps (n * 256 + r) ≠ []))
    let snaps := ranks.map (fun r =>
      match tget [] j.newSnaps (n * 256 + r) with
      | [] => List.replicate j.contexts endedSnap
      | l => l)
    let sig := j.signals.filter (fun x => x.1 == n)
    let j' := { j with commits := n, snaps := snaps, tiles := j.tiles + real.length, issuing := none
                       rankCommits := real.foldl (fun t r => tmod 0 t r (· + 1)) j.rankCommits
                       newSnaps := j.newSnaps.filter (fun c => decide (n < c.1 / 256))
                       signals := j.signals.filter (fun x => x.1 != n)
                       effects := j.effects.filter (fun e => e.commit != n) }
    let s := setJob jid (some j') s
    let s := forEach real (fun r s => bump cOps (j.cores.getD r 0 / 40) 14 s) s
    forEach sig (fun x s => signalSem (j.cores.getD x.2.1 0) x.2.2 s) s

/-- Every core of a stopping job has stopped and its commit is complete: the outcome of Table 7.10. -/
def settleStop (jid : Nat) (s : State) : State :=
  match job s jid with
  | none => s
  | some j =>
    if j.phase ≠ .stopping ∨ j.issuing.isSome ∨ !j.fences.isEmpty ∨ j.commits < j.target ∨
        !(j.cores.all (fun n => (coreOf s n).frozen)) then s
    else
      match j.why with
      | .quiesce => quiescePause jid s
      | .timeLimit => endJob jid .timeout 1 [] s
      | .release => dropJob jid s
      | .tileFault => faultPause jid s
      | .ended st detail ext => finishJob jid st detail ext s
      | _ =>
        let s := leaveCores jid s
        match job s jid with
        | some j => setJob jid (some { j with phase := .ready }) s
        | none => s

/-- A job is to stop at its tile boundaries (first row of Table 7.10): a core that has arrived at the highest commit at
which any core has arrived stops at once. A later cause replaces an earlier one, but never a tile fault or an ended outcome. -/
def beginStop (jid : Nat) (why : StopWhy) (s : State) : State :=
  match job s jid with
  | none => s
  | some j =>
    match j.phase with
    | .stopping =>
      (match j.why with
       | .tileFault => s
       | .ended _ _ _ => s
       | _ => setJob jid (some { j with why := why }) s)
    | .running =>
      let n := (j.cores.map (fun n => arrivals (coreOf s n))).foldl max j.commits
      let s := setJob jid (some { j with phase := .stopping, why := why, target := n }) s
      let s := forEach j.cores (fun c s =>
        let s := setCore c { coreOf s c with stateTime := s.time } s
        if arrivedAt (coreOf s c) n then freeze c s else s) s
      settleStop jid s
    | _ => s

/-- A tile fault on any core: every core stops at once, and the job returns to the latest commit that completes, one
whose held effects have begun to issue included (Table 7.10). -/
def tileFault (jid : Nat) (ext : List Byte) (s : State) : State :=
  match job s jid with
  | none => s
  | some j =>
    match j.why with
    | .ended _ _ _ => s
    | _ => settleStop jid (setJob jid (some { j with
        phase := .stopping, why := .tileFault, ext := ext, target := j.issuing.getD j.commits }) (freezeAll j s))

/-- Contexts of a core may have dispatched what it takes to arrive at a commit (R199): the snapshot is written, and a core that
stops there stops. -/
def arrive : Nat → Nat → State → State
  | 0, _, s => s
  | fuel + 1, n, s =>
    let c := coreOf s n
    match jobOn s n with
    | none => s
    | some (jid, j) =>
      let k := c.arrived + 1
      if arrivals c < k then s
      else
        let at_ (i : Nat) : Option Mark := (ctxOf c i).marks.find? (fun m => m.commit == k)
        let snap := (List.range j.contexts).map (fun i => match at_ i with | some m => m.snap | none => endedSnap)
        let sig := (List.range j.contexts).filterMap (fun i => match at_ i with
          | some m => m.signal.map (fun x => (k, c.rank, x)) | none => none)
        let cs := (List.range j.contexts).foldl (fun t i =>
          tput {} t i { ctxOf c i with marks := (ctxOf c i).marks.filter (fun m => m.commit != k) }) c.ctxs
        let s := setCore n { c with arrived := k, ctxs := cs } s
        arrive fuel n (setJob jid (some { j with newSnaps := tput [] j.newSnaps (k * 256 + c.rank) snap
                                                 signals := j.signals ++ sig }) s)

/-- After a COMMIT or END: arrivals, and the stop of a core that runs on to its target commit only. -/
def settleArrive (n : Nat) (s : State) : State :=
  let s := arrive (arrivals (coreOf s n) + 1) n s
  match jobOn s n with
  | none => s
  | some (jid, j) =>
    if j.phase = .stopping && arrivedAt (coreOf s n) j.target then settleStop jid (freeze n s) else s

/-! Core fences (R206). -/

/-- Destination bytes of one row of a held effect. -/
def effBytes (e : HeldEff) : Nat := if e.isAtomic then atomBytes e.op else 128 * redDstBytes e.op

/-- The core of a job is fenced: it stops, what it has not issued is discarded, and the other cores stop dispatching. -/
def fenceJob (n : Nat) (s : State) : State :=
  match jobOn s n with
  | none => s
  | some (jid, j) =>
    let c := coreOf s n
    let mine := j.effects.filter (fun e => j.issuing == some e.commit && e.rank == c.rank)
    let order := (List.range j.contexts).flatMap (fun i => mine.filter (fun e => e.ctx == i))
    let next := order.find? (fun e => decide (e.issued < e.rows.length))
    let rec_ : FenceRec := {
      core := n, rank := c.rank, time := s.time, commit := j.issuing, held := mine.length
      issued := (mine.filter (fun e => decide (e.rows.length ≤ e.issued))).length
      partialBytes := match next with | some e => e.issued * effBytes e | none => 0
      pva := match next with | some e => e.rows.headD 0 | none => 0 }
    let s := freezeAll j s
    let s := setCore n { coreOf s n with engines := [], stateTime := s.time } (forEach (List.range 4) (flushBusy n) s)
    setJob jid (some { j with
      fences := j.fences ++ [rec_]
      why := if j.phase = .stopping then j.why else .preempt
      phase := .stopping }) s

/-- The applied-range record (Table 7.11). -/
def fenceBytes (f : FenceRec) (reason : Nat) : List Byte :=
  if reason = 1 then
    leBytes 8 f.time ++ leBytes 4 0xFFFFFFFF ++ leBytes 2 0xFFFF ++ [0xFF, 1] ++ List.replicate 16 0
  else
    leBytes 8 f.time ++ leBytes 4 (f.commit.getD 0) ++ leBytes 2 f.core ++ [BitVec.ofNat 8 f.rank, 0] ++
    leBytes 2 f.held ++ leBytes 2 f.issued ++ leBytes 4 f.partialBytes ++ leBytes 8 (f.pva % 2 ^ 48)

/-- Every row of the effects of a commit has been issued and answered. -/
def effectsDone (j : Job) (n : Nat) : Bool :=
  (j.effects.filter (fun e => e.commit == n)).all (fun e => decide (e.rows.length ≤ e.issued) && e.answers.isEmpty)

/-- No operation that a tile up to a commit holds waits in an engine's queue with its beats to issue (R200). -/
def nothingWaits (s : State) (j : Job) (tile : Nat) : Bool :=
  j.cores.all (fun n => (coreOf s n).engines.all (fun q => q.2.all (fun o => !o.waits || decide (tile ≤ o.commits))))

/-- Commits that count as completed once every beat is ordered (R206 step 5): every core had arrived, and every held
effect was issued. -/
def fenceCommits : Nat → Nat → State → State
  | 0, _, s => s
  | fuel + 1, jid, s =>
    match job s jid with
    | none => s
    | some j =>
      let n := j.commits + 1
      let ok := j.cores.all (fun c => arrivedAt (coreOf s c) n) && effectsDone j n && nothingWaits s j n &&
        (List.range j.cores.length).any (fun r => decide (tget [] j.newSnaps (n * 256 + r) ≠ []))
      if ok then fenceCommits fuel jid (commitDone jid n s) else s

/-- The live cores of a job have issued their held effects of a commit, and every issued row is answered. -/
def liveEffectsDone (j : Job) (n : Nat) : Bool :=
  (j.effects.filter (fun e => e.commit == n)).all (fun e => e.answers.isEmpty &&
    (decide (e.rows.length ≤ e.issued) || j.fences.any (fun f => f.rank == e.rank)))

/-- The test of R206 steps 3 to 5, once every issued beat of the job is ordered. -/
def fenceTest (jid : Nat) (s : State) : State :=
  match job s jid with
  | none => s
  | some j =>
    if j.fences.isEmpty ∨ beatsLeft s j (2 ^ 32) ∨ !j.waits.isEmpty ∨
        !(match j.issuing with | some n => liveEffectsDone j n | none => true) then s
    else
      match j.fences.find? (fun f => decide (f.issued < f.held)) with
      | some f => endJob jid .coreFenced 0 (fenceBytes f 0) s
      | none =>
        let s := fenceCommits (j.newSnaps.length + 1) jid s
        match job s jid with
        | none => s
        | some j => settleStop jid (setJob jid (some { j with fences := [], issuing := none, target := j.commits }) s)

end Sys2Proof.Machine
end

