-- ==== Sys2Proof/Machine/LeaseOps.lean ====
section
/-! DEFINITION. Quiescing and renewal (R43 to R46, R155): a holder's tethers lapse and are renewed together. -/

namespace Sys2Proof.Machine

/-- Quiesces a group whose tether has lapsed (R155 steps 1 and 2): its queues stop fetching, running jobs are told to
stop at their tile boundaries, ready jobs take a paused record at once. With a completion already held as undeliverable the
group is ORPHANED (R155 step 4). -/
def quiesceGroup (g : Nat) (s : State) : State :=
  if (group s g).st = .active then
    let s := bump cQue 0 5 (setGroupSt g .quiescing s)
    let s := forEach s.que.jobs (fun c s =>
      match job s c.1 with
      | none => s
      | some j =>
        if j.group ≠ g then s
        else
          match j.phase with
          | .running => beginStop c.1 .quiesce s
          | .stopping => beginStop c.1 .quiesce s
          | .ready => quiescePause c.1 s
          | _ => s) s
    if (group s g).held.isEmpty then s else bump cQue 0 6 (setGroupSt g .orphaned s)
  else s

/-- Holder kind and ID as an event record names them: 0 logical device, 1 endpoint, 2 group (DEDUCED from Table 2.2). -/
def partKind : Part → Nat
  | .ld _ => 0 | .ep _ => 1 | .grp _ => 2
def partId : Part → Nat
  | .ld n => n | .ep n => n | .grp n => n

/-- A holder's tethers lapse together (R45): recorded, alerted, extents with no live tether held, a group quiesced. -/
def lapse (h : Part) (s : State) : State :=
  let s := setLease h { lease s h with lapsed := true } s
  let s := alert .tetherLapse [partKind h, partId h] (event 0x10 [partKind h, partId h, tethersOf s h] s)
  let s := forEach (extentsHeld s h) (fun e s => if allLapsed s e then holdExtent e s else s) s
  match h with
  | .grp g => quiesceGroup g s
  | _ => s

/-- The jobs of a group that a renewal makes admissible again (Table 5.15): they rejoin the ready list with their
original age. -/
def unquiesce (g : Nat) (s : State) : State :=
  let js := s.que.jobs.filter (fun c => match c.2 with | some j => j.group == g && j.quiesced | none => false)
  let s := forEach js (fun c s =>
    match job s c.1 with
    | some j => setJob c.1 (some { j with phase := .ready, quiesced := false, record := none }) s
    | none => s) s
  forEach js (fun c s => match c.2 with
    | some j => (match j.record with | some (r, _) => freeRecord r s | none => s)
    | none => s) s

def groupRenewed (g : Nat) (s : State) : State :=
  let x := group s g
  match x.st with
  | .quiescing => setGroup g { x with renewSeen := true } s
  | .lapsed => unquiesce g (setGroupSt g .active s)
  | _ => s

/-- A renewal stamped at `at_` acts on every tether of its holder (R44, R46). -/
def renewAt (h : Part) (at_ : Nat) (s : State) : State :=
  let s := setLease h { lease s h with renewedAt := at_, lapsed := false, late := none } s
  let s := forEach (extentsHeld s h) unholdExtent s
  match h with
  | .grp g => groupRenewed g s
  | _ => s

/-- A holder renews every tether it holds (R44). A renewal after the deadline is late: it waits for the tick that records the
lapse, and acts in that tick (R45). -/
def renew (h : Part) (s : State) : State :=
  let l := lease s h
  if tethersOf s h = 0 then s
  else if leaseEnd l < s.time && !l.lapsed then setLease h { l with late := some s.time } s
  else renewAt h s.time s

/-- A tick of a holder's deadline: the lapse of a deadline that has passed, then the late renewal that has waited for it
(R45). -/
def tickLease (h : Part) (s : State) : State :=
  if tethersOf s h = 0 then s
  else
    let l := lease s h
    let s := if !l.lapsed && decide (leaseEnd l < s.time) then lapse h s else s
    match l.late with
    | some a => renewAt h a s
    | none => s

end Sys2Proof.Machine
end

