-- ==== Sys2Proof/Machine/PoolOps.lean ====
section
/-! DEFINITION. Pool-memory operations shared by the commands of chapters 2, 13 and 15: block allocation (R36, R349),
releases (Tables 2.4, 2.10), version retirement (R56), cuts (R339). -/

namespace Sys2Proof.Machine

/-! Frames and blocks (R349, R350, R368). -/

/-- The block of this placement at this frame leaves frame `f` of quadrant `q` free. -/
def frameClear (b : BlockEnt) (q f : Nat) : Bool :=
  !b.valid ||
  (match b.place with
   | .deviceWide => b.frame != f
   | .localTo k => k.val != q || decide (f < b.frame) || decide (b.frame + 4 ≤ f))

/-- Frame `f` is free in every pseudo-channel of quadrant `q`: no block and no retirement substitute uses it. -/
def frameFree (s : State) (q f : Nat) : Bool :=
  s.mem.blocks.all (fun c => frameClear c.2 q f) &&
  (List.range 4).all (fun k =>
    let m := tget {} s.mem.migs k
    decide (m.st = 0) || decide (m.stack / 8 ≠ q) ||
    m.map.all (fun c => match c.2 with | some (_, g) => decide (f < g) || decide (g + 4 ≤ f) | none => true))

/-- A quadrant with a DEGRADED or FAILED stack gets no new frames (R368). -/
def quadAllocates (s : State) (q : Nat) : Bool :=
  (List.range 8).all (fun i => match (stack s (8 * q + i)).st with | .degraded => false | .failed => false | _ => true)

/-- The lowest frame a new block of a placement can use. -/
def findFrame (s : State) (pl : Placement) : Option Nat :=
  match pl with
  | .deviceWide =>
    if (List.range 4).all (quadAllocates s) then
      lowest (gradeBlocks s.grade) (fun f => (List.range 4).all (fun q => frameFree s q f))
    else none
  | .localTo q =>
    if quadAllocates s q.val then
      (lowest (gradeBlocks s.grade / 4) (fun i => (List.range 4).all (fun j => frameFree s q.val (4 * i + j)))).map (4 * ·)
    else none

/-- The lowest free block. -/
def findBlock (s : State) : Option Nat := lowest (gradeBlocks s.grade) (fun b => !(block s b).valid)

/-- Assigns `n` blocks to an extent: none when blocks or frames run out. -/
def allocBlocks : Nat → Nat → Bool → Placement → Nat → State → Option (List Nat × State)
  | 0, _, _, _, _, s => some ([], s)
  | n + 1, e, light, pl, g, s =>
    match findBlock s, findFrame s pl with
    | some b, some f =>
      let ent : BlockEnt := { valid := true, light := light, place := pl, grainLog2 := g, frame := f, extent := e }
      match allocBlocks n e light pl g (setBlock b ent s) with
      | some (l, s) => some (b :: l, s)
      | none => none
    | _, _ => none

/-- The blocks from position `keep` on are withdrawn from a balloon (R39): they drain, and then they are scrubbed. -/
def shrinkTo (e keep : Nat) (s : State) : State :=
  let x := extent s e
  let lo := x.pvaBase + keep * blockBytes
  let hi := extentHi x
  let s := setExtent e { x with blocks := x.blocks.take keep, shrinking := x.blocks.drop keep, shrinkAt := keep } s
  orderInval x.tenant lo hi true s

/-- The least size that a balloon may shrink to: its minimum, and one block at least (R36, R39). -/
def leastBlocks (x : Extent) : Nat := max 1 x.minBlocks

/-- Returns blocks to FREE. -/
def freeBlocks (l : List Nat) (s : State) : State := forEach l (fun b => setBlock b {}) s

/-! Rights (R38, R75). -/

/-- Every right of `a` is a right of `b`. -/
def rightsLe (a b : Rights) : Bool :=
  (!a.read || b.read) && (!a.write || b.write) && (!a.reduce || b.reduce) && (!a.atomic || b.atomic)

def rightsFor (r : Rights) (ov : List (Part × Rights)) (p : Part) : Rights :=
  match ov.find? (fun o => o.1 = p) with | some o => o.2 | none => r

/-- The change takes no right away from any participant. -/
def onlyAdds (r : Rights) (ov : List (Part × Rights)) (r' : Rights) (ov' : List (Part × Rights)) : Bool :=
  rightsLe r r' && ((ov ++ ov').map (·.1)).all (fun p => rightsLe (rightsFor r ov p) (rightsFor r' ov' p))

/-! Cuts (R339) and releases. -/

/-- Windows and grants on an extent, those whose cut is over apart: (logical device, grant). -/
def windowsOn (s : State) (e : Nat) : List (Nat × Nat) :=
  (s.cxl.wins.filter (fun c => c.2.extent == e && decide (c.2.st ≠ .empty) &&
    (decide (c.2.st ≠ .cut) || c.2.cutting))).map (fun c => (c.1 / 32, c.1 % 32))

/-- Windows on an extent whose cut has been ordered or is in progress. -/
def cutsOn (s : State) (e : Nat) : Bool :=
  (windowsOn s e).any (fun x => (wdw s x.1 x.2).ordered || (wdw s x.1 x.2).cutting)

/-- Windows of HDM-H exclusive grants onto an extent that are open, being cut, or waiting to open: logical device and grant. -/
def exclusivesOn (s : State) (e : Nat) : List (Nat × Nat) :=
  (windowsOn s e).filter (fun x => decide ((wdw s x.1 x.2).mode = 0) &&
    (decide ((wdw s x.1 x.2).st ≠ .granted) || (wdw s x.1 x.2).opening.isSome))

/-- The HDM-H exclusive window onto an extent closes: the other participants' rights come back (R115), unless another commit of
an exclusive window waits, which then takes its turn (DESIGN CHOICE). -/
def endExclusive (e d : Nat) (s : State) : State :=
  let x := extent s e
  if x.exclusive ≠ some d ∨ (exclusivesOn s e).any (fun y => y.1 == d) then s
  else
    match exclusivesOn s e with
    | [] => orderInval x.tenant (extentLo x) (extentHi x) false (setExtent e { x with exclusive := none } s)
    | y :: _ => orderInval x.tenant (extentLo x) (extentHi x) true (setExtent e { x with exclusive := some y.1 } s)

/-- The tether that a grant holds: on the extent, or an attachment on a kite version (R333). -/
def grantTether (w : Wdw) : TetherObj := if w.attach then .attach w.extent else .extent w.extent

/-- A grant and its tether go (R333, R339). -/
def dropGrant (d g : Nat) (s : State) : State :=
  let w := wdw s d g
  dropTether (.ld d) (grantTether w) (endExclusive w.extent d (setWdw d g {} s))

/-- An ordered cut reaches a window's port: it enters CUT, and for HDM-DB each home scans its directory (R339 steps 1
and 2). -/
def startCut (d g : Nat) (s : State) : State :=
  let w := wdw s d g
  if w.st = .open_ then
    let s := setWdw d g { w with st := .cut, ordered := false, cutting := true, refusedSeen := false } s
    if w.mode = 2 then startScans d (some w.extent) false false s else s
  else s

/-! Dynamic capacity (R336 to R338). -/

/-- The dynamic-capacity exchange in progress on an extent. -/
def dcOf (s : State) (e : Nat) (add : Bool) : Option DcOp := s.cxl.dcOps.find? (fun o => o.extent == e && o.add == add)

def setDcOps (l : List DcOp) (s : State) : State := { s with cxl := { s.cxl with dcOps := l } }
def dropDc (o : DcOp) (s : State) : State := setDcOps (s.cxl.dcOps.erase o) s
def replaceDc (o o' : DcOp) (s : State) : State := setDcOps (s.cxl.dcOps.map (fun x => if x = o then o' else x)) s

/-- DC_RESPONSE_MS as it acts (Table 13.6), in ns. -/
def dcResponse (s : State) (p : Nat) : Nat := 1000000 * clampN 100 60000 (cxlPort s p).dcResponseMs

/-- The first block of an exchange in the extent: added blocks come after the present ones, released ones are the last. -/
def dcFirst (s : State) (o : DcOp) : Nat :=
  let x := extent s o.extent
  match o.grant with
  | some _ => 0
  | none => if o.add then x.blocks.length else x.blocks.length - o.blocks.length

/-- Sends the Add or Release Capacity event of an exchange to each holding logical device (1 add, 2 release): extent, DPA
base, bytes, forced-removal flag. -/
def sendDc (e : Nat) (add : Bool) (s : State) : State :=
  match dcOf s e add with
  | none => s
  | some o =>
    let ws := match o.grant with | some w => [w] | none => windowsOn s e
    let n := match o.grant with | some _ => (extent s e).blocks.length | none => o.blocks.length
    let s := forEach ws (fun w s => emit (.hostEvent w.1 (if add then 1 else 2)
      [e, ((wdw s w.1 w.2).dpaBase + dcFirst s o) * blockBytes, n * blockBytes, 0]) s) s
    replaceDc o { o with sent := true, wait := ws.map (fun w => (w.1, s.time + dcResponse s (w.1 / 16))) } s

/-- The release of an extent begins: mappings withdrawn, tethers dropped, host windows cut, a dynamic-capacity exchange about
it ends with CONFLICT (DESIGN CHOICE: the manual gives its command no outcome), and the record of a kite's
current version left without an extent (Tables 2.4, 2.10, R57). -/
def beginRelease (e : Nat) (s : State) : State :=
  let x := extent s e
  let s := forEach (windowsOn s e) (fun x => dropGrant x.1 x.2) s
  let s := forEach (s.cxl.dcOps.filter (fun o => o.extent == e)) (fun o s => fmDone .conflict [] (dropDc o s)) s
  let s := forEach (extentTethers s e) (fun t => dropTether t.holder t.obj) s
  let s := withdrawExtent e s
  let s := match x.kite with
    | some k =>
      match kite s k with
      | some y => if y.extent = some e then setKite k (some { y with extent := none }) s else s
      | none => s
    | none => s
  setExtent e { x with st := .releasing, releaseWaits := false, releaseAfterCut := false } s

/-- A version with no reader that is no longer current is RETIRED, and released when the kite keeps none (R56). -/
def settleRetire (e : Nat) (s : State) : State :=
  let x := extent s e
  match x.kite with
  | none => s
  | some k =>
    match kite s k with
    | none => s
    | some y =>
      if x.st = .superseded ∧ readers s e = 0 then
        let s := setExtent e { x with st := .retired } s
        if y.keepRetired then s else beginRelease e s
      else s

/-- Drops a tether and settles what depends on it: a version's readers. -/
def releaseOne (h : Part) (o : TetherObj) (s : State) : State :=
  let s := dropTether h o s
  match o with
  | .attach e => settleRetire e s
  | _ => s

/-- A grant ends; a version that it was the last to read retires (R56). -/
def endGrant (d g : Nat) (s : State) : State :=
  let e := (wdw s d g).extent
  settleRetire e (dropGrant d g s)

/-- The anchor orders the cut of a window (R339); a grant without an open window ends at once. -/
def orderCut (d g : Nat) (s : State) : State :=
  let w := wdw s d g
  match w.st with
  | .open_ => setWdw d g { w with ordered := true } s
  | .granted => endGrant d g s
  | _ => s

def orderCuts (e : Nat) (s : State) : State := forEach (windowsOn s e) (fun x => orderCut x.1 x.2) s

/-- Lines of the given blocks that some participant holds. -/
def heldLines (s : State) (bs : List Nat) (p : Line → Bool) : List (Nat × Line) :=
  s.dir.lines.filter (fun c => bs.contains (64 * c.1 / blockBytes) && p c.2)

/-- Recalls every line of the blocks held with write permission, as far as its line is not busy (R54 step 2). -/
def recallOwned (bs : List Nat) (s : State) : State :=
  forEach (heldLines s bs (fun x => decide (x.dir.st = .o) && !(busy x))) (fun c s =>
    if !(mayBusy s c.1) then s
    else
      let (t, pva) := (pvaOfLine s c.1).getD (0, 0)
      let rq : LineReq := { kind := .resolve, who := .grp 0, tenant := t, pva := pva, entryQ := homeOf s (64 * c.1) }
      startRecall c.1 c.2.dir.ptrs false {} rq s) s

end Sys2Proof.Machine
end

