-- ==== Sys2Proof/Machine/Queues.lean ====
section
/-! DEFINITION. Doorbells, descriptor fetch, queue and group states (chapter 5; opcode-table rows SQ_TAIL_DOORBELL to
RESERVED_OPCODE, COALESCE_TIMER_EXPIRY, DESCRIPTOR_TIME_LIMIT_EXPIRY and QUEUE_ENABLE to GROUP_RELEASE_DRAINED). -/

namespace Sys2Proof.Machine

/-! Doorbells (R126 to R130). -/

/-- The doorbell is valid for its queue (R129). -/
def dbValid (x : Queue) (w : BitVec 64) : Bool :=
  let v := dbValue w
  !(dbReserved w) &&
  (match dbKind w with
   | 0 => decide ((v - x.sqHead).toNat ≤ sqSize x)
   | 1 => decide ((v - x.cqHead).toNat ≤ cqHeld x)
   | 2 => true
   | _ => false)

/-- Time stamps of the waiting descriptors once `held` of them are doorbelled: a new one is stamped now (R265). -/
def stampTo (held now : Nat) (l : List Nat) : List Nat := l.take held ++ List.replicate (held - l.length) now

/-- A valid doorbell sets its index; an invalid one changes none and stops a RUNNING queue with BAD_DOORBELL. It was taken, or
ordered at its line's home, at `at_` (R266). -/
def applyDoorbell (n : Nat) (w : BitVec 64) (at_ : Nat) (s : State) : State :=
  let x := queue s n
  if dbValid x w then
    match dbKind w with
    | 0 => setQueue n { x with sqTail := dbValue w
                               stamps := stampTo (dbValue w - x.sqHead).toNat at_ x.stamps } s
    | 1 => setQueue n { x with cqHead := dbValue w } s
    | _ => s
  else queueFault n 1 s

/-- A doorbell from the group's owner: it renews every tether of the group, valid or not (R130). A group without an
owner takes none, and one whose tenant is being removed ignores it (R395). -/
def doorbellAt (n : Nat) (w : BitVec 64) (at_ : Nat) (s : State) : State :=
  if (group s (n / 8)).st = .unbound then bump cQue 0 2 s
  else if (group s (n / 8)).revoking then s
  else applyDoorbell n w at_ (renew (.grp (n / 8)) s)

/-- A doorbell that is taken now. -/
def doorbell (n : Nat) (w : BitVec 64) (s : State) : State := doorbellAt n w s.time s

/-- A doorbell word of Table 5.2. -/
def dbWord (kind : Nat) (value : BitVec 32) (rsvd : BitVec 30) : BitVec 64 :=
  BitVec.ofNat 64 (value.toNat + kind * 2 ^ 32 + rsvd.toNat * 2 ^ 34)

/-- SQ_TAIL_DOORBELL (KIND 0). -/
def execSqTailDoorbell (n : Fin 8192) (value : BitVec 32) (rsvd : BitVec 30) (s : State) : Ans :=
  .next (live s (doorbell n.val (dbWord 0 value rsvd) s))

/-- CQ_HEAD_DOORBELL (KIND 1). -/
def execCqHeadDoorbell (n : Fin 8192) (value : BitVec 32) (rsvd : BitVec 30) (s : State) : Ans :=
  .next (live s (doorbell n.val (dbWord 1 value rsvd) s))

/-- HEARTBEAT_DOORBELL (KIND 2). -/
def execHeartbeatDoorbell (n : Fin 8192) (value : BitVec 32) (rsvd : BitVec 30) (s : State) : Ans :=
  .next (live s (doorbell n.val (dbWord 2 value rsvd) s))

/-- RESERVED_KIND_DOORBELL (KIND 3). -/
def execReservedKindDoorbell (n : Fin 8192) (value : BitVec 32) (rsvd : BitVec 30) (s : State) : Ans :=
  .next (live s (doorbell n.val (dbWord 3 value rsvd) s))

/-- FOREIGN_DOORBELL: a doorbell or register write from another source, or a 32-bit write to a doorbell, is ignored and
counted (R120, R126). -/
def execForeignDoorbell (_n : Fin 8192) (s : State) : Ans := .next (live s (bump cQue 0 2 s))

/-- The endpoint owns the group and is a member of its tenant (R120). -/
def ownedBy (s : State) (g id : Nat) : Bool :=
  decide ((group s g).owner = .endpoint id) && s.pool.members.contains (id, (group s g).tenant) &&
  decide ((group s g).st ≠ .unbound)

/-- A Doorbell packet acts for the queue's endpoint owner; any other is counted in FOREIGN_ACCESS (R127). -/
def actDoorbell (p : Packet) (s : State) : State :=
  if p.typ.toNat ≠ tDoorbell then s
  else
    let n := p.arg0.toNat % 8192
    if ownedBy s (n / 8) p.src.toNat then doorbell n (BitVec.ofNat 64 (leNat p.payload)) s else bump cQue 0 2 s

/-- DOORBELL_PACKET: a Doorbell packet from an endpoint owner (R127, Table 11.5). -/
def execDoorbellPacket (port : Fin 64) (p : Packet) (s : State) : Ans :=
  .next (live s (terminate port.val p (fun _ s => actDoorbell p s) s))

/-- POOL_DOORBELL_READ: the queue block reads the doorbell line with the group's tenant; each changed word acts as a
doorbell. A read that is refused or uncorrectable acts as none and is counted (R127). -/
def execPoolDoorbellRead (g : Fin 1024) (s : State) : Ans :=
  let x := group s g.val
  let a := queueActor s (8 * g.val) none
  .next (live s (
    if x.owner ≠ .pool ∨ x.st = .unbound ∨ x.dbMask = 0 then s
    else
      match engRead a (x.dbPva / 64 * 64) 64 s with
      | (.wait, s) => s
      | (.got d none, s) =>
        let s := setGroup g.val { group s g.val with dbMask := 0 } s
        forEach ((List.range 8).filter (bitOf x.dbMask)) (fun i s =>
          doorbellAt (8 * g.val + i) (BitVec.ofNat 64 (leAt d (8 * i) 8)) (tget 0 x.dbTime i) s) s
      | (.got _ (some f), s) =>
        let (_, _, s) := noteFail a f (setGroup g.val { group s g.val with dbMask := 0 } s)
        bump cQue 0 2 s))

/-! Fetch (R121 to R125). -/

/-- A queue fetches: RUNNING, its group ACTIVE, a descriptor waits, fewer than 64 in flight, and two completion slots
free for each descriptor in flight and this one. -/
def canFetch (s : State) (n : Nat) : Bool :=
  let x := queue s n
  let g := group s (n / 8)
  decide (x.st = .running) && decide (g.st = .active) && !g.revoking && !(blockFenced s 1 g.quadrant) && !(qFenced s g.quadrant) && decide (0 < sqHeld x) &&
  !x.fetching && decide (inFlight x < 64) && decide (2 * (inFlight x + 1) ≤ cqSize x - cqHeld x)

/-- DMA reads outstanding on a port (R340: at most 512). -/
def dmaRoom (s : State) (port : Nat) : Bool :=
  decide ((s.cxl.dmaReads.filter (fun r => r.ld / 16 == port)).length < 512)

/-- DESCRIPTOR_FETCH: the queue block asks for the descriptor at SQ_HEAD by the ring's placement (R121). -/
def execDescriptorFetch (n : Fin 8192) (s : State) : Ans :=
  let x := queue s n.val
  let g := group s (n.val / 8)
  let addr := x.sqBase + 64 * (x.sqHead.toNat % sqSize x)
  .next (live s (
    if !(canFetch s n.val) || follows s then s
    else
      match x.placement, g.owner with
      | 0, .host ld =>
        if hostLinkUp s ld && dmaRoom s (ld / 16) then issueFetch n.val (setQueue n.val { x with fetching := true } s)
        else s
      | 0, _ => s
      | 1, _ =>
        let s := setQueue n.val { x with fetching := true } s
        let r : RingRead := { q := g.quadrant, other := x.ringEndpoint, addr := addr, queue := n.val }
        let s := { s with e2e := { s.e2e with requests := s.e2e.requests ++ [r] } }
        sendPacket g.quadrant (mkPacket s tRdOnce 0 x.ringEndpoint g.tenant
          (BitVec.ofNat 64 (addr % 2 ^ 48 + 63 * 2 ^ 48)) []) s
      | _, _ =>
        let a := queueActor s n.val none
        match engRead a addr 64 s with
        | (.wait, s) => s
        | (.got d none, s) => descArrive n.val d (setQueue n.val { queue s n.val with fetching := true } s)
        | (.got _ (some f), s) =>
          let (_, _, s) := noteFail a f s
          fetchFailed n.val s))

/-- RING_READ_FAILED: a descriptor read returns poison or is refused. -/
def execRingReadFailed (n : Fin 8192) (s : State) : Ans :=
  .next (live s (
    if (queue s n.val).fetching then
      fetchFailed n.val { s with cxl := { s.cxl with dmaReads := s.cxl.dmaReads.filter (fun r => r.queue != n.val) }
                                 e2e := { s.e2e with requests := s.e2e.requests.filter (fun r => r.queue != n.val) } }
    else s))

/-! Descriptors without an engine. -/

/-- A descriptor of this opcode starts when its turn comes; one that R133 refuses completes with POLICED and nothing
else happens. -/
def startOp (op n slot : Nat) (f : Desc → State → State) (s : State) : State :=
  match descAt s n slot with
  | none => s
  | some d =>
    if dOpcode d ≠ op ∨ !(mayStart s n slot) then s
    else
      let s := startDesc n slot s
      match descError d with
      | some k => if nearMem d then nmFinish n d .policed k [] s else complete { complOf n d .policed with detail := k } s
      | none => f { d with started := true, startTime := s.time } s

/-- NOP. -/
def execNop (n : Fin 8192) (slot : Nat) (s : State) : Ans :=
  .next (live s (startOp 0x01 n.val slot (fun d s => complete (complOf n.val d .ok) s) s))

/-- RESERVED_OPCODE: a reserved opcode, or a non-zero reserved field under any opcode (R133). -/
def execReservedOpcode (n : Fin 8192) (slot : Nat) (s : State) : Ans :=
  .next (live s (match descAt s n.val slot with
    | none => s
    | some d =>
      match descError d with
      | some _ => startOp (dOpcode d) n.val slot (fun _ s => s) s
      | none => s))

/-- COALESCE_TIMER_EXPIRY: COALESCE_US has passed since the first completion not yet notified (R146). -/
def execCoalesceTimerExpiry (n : Fin 8192) (now : Nat) (s : State) : Ans :=
  let s1 := advance now s
  let x := queue s1 n.val
  .next (live s (
    if 0 < x.coalesced ∧ 0 < x.coalesceUs ∧ x.coalesceSince + 1000 * x.coalesceUs ≤ s1.time then notify n.val s1 else s1))

/-- DESCRIPTOR_TIME_LIMIT_EXPIRY: a job stops at its tile boundaries, a near-memory descriptor issues no more beats and
completes with TIMEOUT and its prefix; NOP and kite descriptors have no limit (R135). -/
def execDescriptorTimeLimitExpiry (n : Fin 8192) (slot now : Nat) (s : State) : Ans :=
  let s1 := advance now s
  .next (live s (match descAt s1 n.val slot with
    | none => s1
    | some d =>
      let lim := dLimitUs s1 n.val d
      if !d.started || lim == 0 || decide (s1.time < d.startTime + 1000 * lim) then s1
      else
        match d.job with
        | some jid =>
          match job s1 jid with
          | some j =>
            match j.phase with
            | .running => beginStop jid .timeLimit s1
            | .stopping => beginStop jid .timeLimit s1
            | .paused => s1
            | _ => endJob jid .timeout 1 [] s1
          | none => s1
        | none => if 2 ≤ dOpcode d ∧ dOpcode d ≤ 7 then nmFinish n.val d .timeout 1 [] s1 else s1))

/-! Queue states (Table 5.14). -/

/-- Ring fields in range (Table 5.20). -/
def ringOk (x : Queue) : Bool :=
  decide (6 ≤ x.sqLog) && decide (x.sqLog ≤ 16) && decide (6 ≤ x.cqLog) && decide (x.cqLog ≤ 16) &&
  decide (x.placement < 3) && x.sqBase % 4096 == 0 && x.cqBase % 4096 == 0

/-- A register write for a queue by whoever Table 5.1 lets write: nobody while the group is UNBOUND (R120); ignored while the
owning host's writes are (R484). -/
def queueWrite (n : Nat) (f : State → State) (s : State) : State :=
  if (group s (n / 8)).st = .unbound then bump cQue 0 2 s
  else if ownerIgnored s n then s
  else f s

def enableQueue (n : Nat) (s : State) : State :=
  let x := { queue s n with enable := true }
  match x.st with
  | .disabled => setQueue n (if ringOk x then { x with st := .running } else { x with st := .stopped, fault := 2 }) s
  | _ => setQueue n x s

/-- QUEUE_ENABLE: ENABLE written 1. -/
def execQueueEnable (n : Fin 8192) (s : State) : Ans :=
  .next (live s (queueWrite n.val (enableQueue n.val) s))

def disableQueue (n : Nat) (s : State) : State :=
  let x := { queue s n with enable := false }
  match x.st with
  | .running => settleDisable n (setQueue n { x with st := .disabling } s)
  | .stopped => settleDisable n (setQueue n { x with st := .disabling } s)
  | _ => setQueue n x s

/-- QUEUE_DISABLE: ENABLE written 0; with nothing in flight the queue is DISABLED at once. -/
def execQueueDisable (n : Fin 8192) (s : State) : Ans :=
  .next (live s (queueWrite n.val (disableQueue n.val) s))

/-- RESTART of a STOPPED queue: FAULT cleared, held completions retried first; those of an ORPHANED group wait for its
re-arm (R156). -/
def restartQueue (n : Nat) (s : State) : State :=
  let x := queue s n
  if x.st ≠ .stopped then s
  else
    let s := setQueue n { x with st := .running, fault := 0 } s
    if (group s (n / 8)).st = .orphaned then s else redeliver n s

/-- QUEUE_RESTART: RESTART written 1. -/
def execQueueRestart (n : Fin 8192) (s : State) : Ans :=
  .next (live s (queueWrite n.val (restartQueue n.val) s))

/-! Group states (Table 5.15). -/

def queuesOf (g : Nat) : List Nat := (List.range 8).map (8 * g + ·)

/-- A job of the group passes admission or runs, or a descriptor without a job runs (R155, R156). -/
def groupBusy (s : State) (g : Nat) : Bool :=
  s.que.jobs.any (fun c => match c.2 with
    | some j => j.group == g && (match j.phase with | .ready => false | .paused => false | _ => true)
    | none => false) ||
  (queuesOf g).any (fun n => (queue s n).flight.any (fun d => d.started && !d.ended && d.job.isNone))

/-- Every completion of the group has been delivered. -/
def allDelivered (s : State) (g : Nat) : Bool :=
  (group s g).held.isEmpty && (queuesOf g).all (fun n => (queue s n).awaiting.isEmpty && (queue s n).posts.isEmpty) &&
  !(s.que.unverified.any (fun c => c.queue / 8 == g)) && !(s.e2e.ringWrites.any (fun w => w.compl.queue / 8 == g && !w.acked))

/-- The owner a binding names is allowed: an endpoint must be a member of the tenant, a logical device bound to it, and
a pool owner's doorbell line aligned (R120, Table 5.17). -/
def ownerOk (s : State) (t : Nat) (o : Owner) (dbPva : Nat) : Bool :=
  match o with
  | .host d => decide (d < 64) && (logDev s d).bound && (logDev s d).tenant == t
  | .endpoint id => s.pool.members.contains (id, t)
  | .pool => dbPva % 64 == 0 && decide (dbPva < 2 ^ 48)

/-- GROUP_BIND: the group tether is created and the group is ACTIVE; a bind beyond the quota is refused (R154). -/
def execGroupBind (g : Fin 1024) (t : Fin 1024) (o : Owner) (q : Fin 4) (dbPva : Nat) (s : State) : Ans :=
  .next (served s (
    if (group s g.val).st ≠ .unbound then fmDone .conflict [] s
    else if !(ownerOk s t.val o dbPva) || !(tenantLive s t.val) then fmDone .policed [] s
    else
      match addTether { holder := .grp g.val, obj := .group g.val, tenant := t.val } s with
      | (false, s) => fmDone .policed [] s
      | (true, s) =>
        fmDone .ok [] (setGroup g.val { tenant := t.val, quadrant := q.val, owner := o, dbPva := dbPva, st := .active
                                        stateTime := s.time } s)))

/-- The group's jobs at its release (Table 5.15): a running one stops at its tile boundaries without a paused record; one
that passes admission or is halted at a boundary ends now. -/
def stopJobs (g : Nat) (s : State) : State :=
  forEach s.que.jobs (fun c s =>
    match job s c.1 with
    | none => s
    | some j =>
      if j.group ≠ g then s
      else
        match j.phase with
        | .running => beginStop c.1 .release s
        | .stopping => beginStop c.1 .release s
        | .ready => s
        | .paused => s
        | _ => dropJob c.1 s) s

/-- A group enters RELEASING: its running jobs stop without a paused record, and undelivered completions are dropped
(Table 5.15). -/
def releaseGroup (g : Nat) (s : State) : State :=
  let s := setGroupSt g .releasing (setGroup g { group s g with held := [], renewSeen := false } s)
  let s := forEach (queuesOf g) (fun n s => setQueue n { queue s n with awaiting := [], extOut := none } s) s
  let s := memberReset 2 g s
  stopJobs g { s with que := { s.que with unverified := s.que.unverified.filter (fun c => c.queue / 8 != g) } }

/-- GROUP_RELEASE. -/
def execGroupRelease (g : Fin 1024) (s : State) : Ans :=
  .next (served s (match (group s g.val).st with
    | .unbound => fmDone .conflict [] s
    | .releasing => fmDone .conflict [] s
    | _ => fmDone .ok [] (releaseGroup g.val s)))

/-- GROUP_QUIESCE_DRAINED: nothing of the group runs and every completion is delivered (Table 5.15). -/
def execGroupQuiesceDrained (g : Fin 1024) (s : State) : Ans :=
  let x := group s g.val
  .next (live s (
    if x.st ≠ .quiescing ∨ groupBusy s g.val ∨ !(allDelivered s g.val) then s
    else if x.renewSeen then
      unquiesce g.val (setGroupSt g.val .active (setGroup g.val { x with renewSeen := false } s))
    else setGroupSt g.val .lapsed s))

/-- Delivers completions in order for a re-arm, up to the first that cannot be delivered; answers how many were, and
whether a translation is awaited. -/
def rearmDeliver : List Compl → State → Nat × RingOut × State
  | [], s => (0, .ok, s)
  | c :: r, s =>
    match writeCompl c s with
    | (.ok, s) =>
      let (k, o, s) := rearmDeliver r (retireDesc c s)
      (k + 1, o, s)
    | (.failed, s) => (0, .failed, undeliverable c.queue s)
    | (.wait, s) => (0, .wait, s)

/-- The group's quiesced jobs that hold a paused record, in queue and submission order. One that found no free record has no
handle to be reported with: it keeps its place, and its descriptor stays in flight (DESIGN CHOICE). -/
def quiescedJobs (s : State) (g : Nat) : List (Nat × Job) :=
  (queuesOf g).flatMap (fun n => (queue s n).flight.filterMap (fun d =>
    match d.job with
    | some jid =>
      match job s jid with
      | some j => if j.quiesced && j.record.isSome then some (jid, j) else none
      | none => none
    | none => none))

/-- ORPHANED completion of a quiesced job: PAUSED with its handle (R156 step 2). -/
def orphanCompl (s : State) (j : Job) : Compl :=
  { jobCompl s j .orphaned 0 [] with
    paused := true, result0 := jobResult0 j (match j.record with | some r => handleOf r | none => 0) }

/-- Descriptors fetched and never started, as ORPHANED completions (R156 step 3). -/
def unstartedCompl (s : State) (g : Nat) : List Compl :=
  (queuesOf g).flatMap (fun n => ((queue s n).flight.filter (fun d => !d.started)).map (fun d => complOf n d .orphaned))

/-- GROUP_REARM: the four steps of R156. A completion whose ring address awaits its host's translation leaves the
re-arm in progress, to be continued by the same command. -/
def execGroupRearm (g : Fin 1024) (s : State) : Ans :=
  let x := group s g.val
  .next (served s (
    if x.st ≠ .orphaned ∨ groupBusy s g.val then fmDone .conflict [] s
    else
      let js := quiescedJobs s g.val
      let cs := x.held ++ js.map (fun c => orphanCompl s c.2) ++ unstartedCompl s g.val
      let (k, o, s) := rearmDeliver cs s
      let s := setGroup g.val { group s g.val with held := x.held.drop k } s
      let s := forEach (js.take (k - x.held.length)) (fun c s => setJob c.1 (some { c.2 with quiesced := false }) s) s
      match o with
      | .ok => fmDone .ok [] (setGroupSt g.val .lapsed (memberReset 2 g.val s))
      | .failed => fmDone .conflict [] s
      | .wait => s))

/-- A released or removed group: its jobs and paused records, descriptors in flight and tethers are dropped, and its
queues are DISABLED. -/
def unbindGroup (g : Nat) (s : State) : State :=
  let s := forEach s.que.jobs (fun c s => match c.2 with
    | some j => if j.group ≠ g then s else dropJob c.1 s
    | none => s) s
  let s := forEach (queuesOf g) (fun n s =>
    setQueue n { queue s n with st := .disabled, enable := false, flight := [], fetching := false, awaiting := []
                                windowsInFlight := 0, stamps := [], extOut := none, posts := [] } s) s
  let s := forEach (s.pool.tethers.filter (fun t => decide (t.holder = .grp g))) (fun t => releaseOne t.holder t.obj) s
  let x := group s g
  setGroup g { x with st := .unbound, stateTime := s.time, held := [], renewSeen := false, revoking := false
                      dbMask := 0, dbTime := [] } s

/-- GROUP_RELEASE_DRAINED: nothing of a RELEASING group runs. -/
def execGroupReleaseDrained (g : Fin 1024) (s : State) : Ans :=
  .next (live s (
    if (group s g.val).st ≠ .releasing ∨ groupBusy s g.val then s else unbindGroup g.val s))

end Sys2Proof.Machine
end

