-- ==== Sys2Proof/Machine/NearMem.lean ====
section
/-! DEFINITION. Near-memory descriptors, reduce-on-write and reduction windows (chapter 6, R322, R323; opcode-table rows
FILL to NM_FIRST_FAILURE_KNOWN and REDUCE_WR to COLLECTIVE_DEADLINE_EXPIRY). -/

namespace Sys2Proof.Machine

/-- FILL (R163). -/
def execFill (n : Fin 8192) (slot : Nat) (s : State) : Ans := .next (live s (startOp 0x02 n.val slot (nmStart n.val) s))

/-- COPY (R164, R165). -/
def execCopy (n : Fin 8192) (slot : Nat) (s : State) : Ans := .next (live s (startOp 0x03 n.val slot (nmStart n.val) s))

/-- COMPARE (R166, R167). -/
def execCompare (n : Fin 8192) (slot : Nat) (s : State) : Ans :=
  .next (live s (startOp 0x04 n.val slot (nmStart n.val) s))

/-- GATHER (R168, R169). -/
def execGather (n : Fin 8192) (slot : Nat) (s : State) : Ans :=
  .next (live s (startOp 0x05 n.val slot (nmStart n.val) s))

/-- SCATTER (R168 to R170). -/
def execScatter (n : Fin 8192) (slot : Nat) (s : State) : Ans :=
  .next (live s (startOp 0x06 n.val slot (nmStart n.val) s))

/-- REDUCE (R174). -/
def execReduce (n : Fin 8192) (slot : Nat) (s : State) : Ans :=
  .next (live s (startOp 0x07 n.val slot (nmStart n.val) s))

/-- Home quadrant of an address of a tenant, as its table maps it now. -/
def homeAt (s : State) (t pva : Nat) : Option Nat :=
  (leafAt s t pva).map (fun c => homeOf s (c.2.ppa + (pva - c.1)))

/-- Address of the first line a stripe writes; for COMPARE, reads (R158). -/
def stripeFirst (s : State) (t : Nat) (d : Desc) (i : Nat) : Nat :=
  let p0 := i * stripeBytes
  match dOpcode d with
  | 0x03 => if copyDown d then nB d % 2 ^ 48 + (nC d - p0 - 1) else nB d % 2 ^ 48 + p0
  | 0x05 => nC d % 2 ^ 48 + p0
  | 0x06 => elemAddr d (peekIndex s t d (p0 / nElem d))
  | _ => nA d + p0

/-- The move engine of a core serves a stripe. -/
def engineBusy (s : State) (c : Nat) : Bool :=
  s.que.queues.any (fun x => x.2.flight.any (fun d => !d.ended && !d.stopped && d.running.any (fun r => r.2 == c)))

/-- The move engine of a core can take a stripe. -/
def idleEngine (s : State) (c : Nat) : Bool := !(coreFenced s c) && !(engineBusy s c)

/-- A quadrant has an idle move engine. -/
def hasEngine (s : State) (q : Nat) : Bool := (List.range 40).any (fun i => idleEngine s (40 * q + i))

/-- The scheduler's placement (R158): a stripe in progress stays on its engine, and a descriptor of one engine on that; any
other goes to an idle move engine of the home quadrant of its first line, or of the group's quadrant when the first has none.
A stripe whose first line has no mapping, and so no home, goes to the group's quadrant (DESIGN CHOICE). -/
def placed (s : State) (g : Group) (d : Desc) (i c : Nat) : Bool :=
  let h := (homeAt s g.tenant (stripeFirst s g.tenant d i)).getD g.quadrant
  match d.running.find? (fun r => r.1 == i) with
  | some r => r.2 == c && !(coreFenced s c)
  | none =>
    idleEngine s c && decide (d.running.length < 32) &&
    (match (if oneEngine d then d.engine else none) with
     | some e => c == e
     | none => if hasEngine s h then c / 40 == h else c / 40 == g.quadrant)

/-- The stripes of a copy onto an overlapping range below its source start in ascending order (R165). -/
def copyUp (d : Desc) : Bool :=
  dOpcode d == 0x03 && decide (nB d % 2 ^ 48 < nA d) && decide (nA d < nB d % 2 ^ 48 + nC d)

/-- Stripe `i` may start: not carried out, not stopped, not wholly above a mismatch; stripes of one engine, and of an
overlapping copy, in order. -/
def stripeOpen (d : Desc) (i : Nat) : Bool :=
  decide (i < d.stripes) && !(d.stripesDone.contains i) && !d.stopped &&
  (match d.diff with | some (m, _, _) => decide (i * stripeBytes ≤ m) | none => true) &&
  (!(oneEngine d || copyUp d) || (List.range i).all (fun j => d.stripesDone.contains j)) &&
  !(decide (donePrefix d ≤ i * stripeBytes) && (match d.failure with | some (p, _, _) => p / stripeBytes == i | none => false))

/-- STRIPE_START: stripe `i` runs on the move engine of core `c`, its beats translated by that core's quadrant. It waits on that
engine, to be started again, while a line it reads is being recalled. -/
def execStripeStart (n : Fin 8192) (slot i : Nat) (c : Fin 160) (s : State) : Ans :=
  let g := group s (n.val / 8)
  .next (live s (match descAt s n.val slot with
    | none => s
    | some d =>
      if !(nearMem d && d.started && stripeOpen d i && placed s g d i c.val) then s
      else
        let a := { queueActor s n.val (some slot) with q := c.val / 40, lp := 2 }
        let d := { d with engine := some c.val
                          running := if d.running.any (fun r => r.1 == i) then d.running else d.running ++ [(i, c.val)] }
        let s := setDesc n.val d s
        match nmAux d, d.aux with
        | some (p, k), none =>
          match engRead a p k s with
          | (.wait, s) => s
          | (.got _ (some f), s) => nmFail a n.val slot i 0 f s
          | (.got b none, s) =>
            let d := { d with aux := some b }
            if dOpcode d == 0x07 && (sourceList d).any (fun p => p % 64 != 0) then nmFinish n.val d .policed 8 [] s
            else runStripe a n.val d i (setDesc n.val d s)
        | _, _ => runStripe a n.val d i s))

/-- NM_FIRST_FAILURE_KNOWN: the failing beat's response has returned, and no stripe issues more beats (R162). -/
def execNmFirstFailureKnown (n : Fin 8192) (slot : Nat) (s : State) : Ans :=
  .next (live s (match descAt s n.val slot with
    | none => s
    | some d => if d.failure.isSome then setDesc n.val { d with stopped := true } s else s))

/-- NM_DESCRIPTOR_COMPLETE: no beat is outstanding, and every stripe has been carried out, or a mismatch stands with everything
below it compared, or the first failure is known: then the lowest failure decides (R162, R167, Table 6.1). -/
def execNmDescriptorComplete (n : Fin 8192) (slot : Nat) (s : State) : Ans :=
  .next (live s (match descAt s n.val slot with
    | none => s
    | some d =>
      if d.stripes = 0 || !(nmOpen s n.val slot).isEmpty then s
      else if diffWins d then nmFinish n.val d .ok 0 [] s
      else
        match d.failure with
        | some (_, st, ext) => if d.stopped then nmFinish n.val d st 0 ext s else s
        | none => if donePrefix d = nmTotal d then nmFinish n.val d .ok 0 [] s else s))

/-! Reduce-on-write (R177 to R183). -/

/-- An unwindowed contribution acts: R177's tests, then translated with the REDUCE right and ordered on each line. -/
def actReduceWr (n q : Nat) (p : Packet) (s : State) : State :=
  if p.typ.toNat ≠ tReduceWr then s
  else
    let red := field p.arg0.toNat 48 8
    let c := redSrcBytes red
    let dB := redDstBytes red
    let len := p.payload.length / c * dB
    if !(redValid red) || p.payload.length % c != 0 || argPva p % dB != 0 || decide (4096 < argPva p % 4096 + len) then
      answerNow q p .reduce .policed 0 (bump cNmo 0 4 s)
    else
      let home := (homeAt s p.tenant.toNat (argPva p)).getD q
      rofRequest n q p .reduce .reduce len 0 (fun r x =>
        { r with op := red, part := p.seq.toNat, data := slice p.payload (x.2.2.2 / dB * c) (x.2.2.1 / dB * c) }) s
        (fun id _ => markContribution id p.seq.toNat (pieces (argPva p) len).length red home)

/-- REDUCE_WR. -/
def execReduceWr (port : Fin 64) (p : Packet) (s : State) : Ans :=
  .next (live s (terminate port.val p (fun q s => actReduceWr port.val q p s) s))

/-! Reduction windows (R180 to R182, R322, R323). -/

/-- Contributors with at least one chunk whose bit is clear (R323). -/
def winMissing (x : Window) : Nat :=
  let full := 2 ^ x.contributors - 1
  let have_ := if x.bitmap.length < chunkCount x then 0 else x.bitmap.foldl (fun a c => a &&& c.2) full
  full - have_

/-- The missing-contributor record (Table 12.7). -/
def missingRec (s : State) (w : Nat) (x : Window) : List Byte :=
  let m := winMissing x
  let l := (List.range x.contributors).filter (bitOf m)
  leBytes 8 s.time ++ leBytes 2 w ++ leBytes 2 l.length ++ leBytes 2 (l.headD 0) ++ leBytes 2 0 ++
  leBytes 4 x.generation.toNat ++ leBytes 4 x.chunksDone ++ leBytes 4 x.chunksFailed ++ leBytes 4 0

/-- The PARTIAL event of an arm: counted, the bitmap written to MISSING_PVA, then the completion (R323). -/
def winPartial (w : Nat) (s : State) : State :=
  let x := window s w
  if x.partialDone then s
  else
    let s := bump cE2e 0 14 (setWindow w { x with partialDone := true } s)
    let p := tget 0 s.e2e.collMissing w
    let s := if p = 0 then s else winWrite w p (leBytes (ceilDiv x.contributors 64 * 8) (winMissing x)) s
    winCompl w .partial_ (missingRec s w x) s

/-- A windowed contribution enters: the first row of Table 6.12 and its translation are tested, and it goes to be ordered on its
chunk's bitmap line (R178, R182). -/
def winContribute (c : Contrib) (r : LineReq) (lp : Nat) (via : Via) (open_ : State → Nat × State)
    (answer : Status → State → State) (refused : Refuse → Nat → State → State) (s : State) : State :=
  let x := window s c.window
  if winRefuses x r.tenant c r.data.length then answer .policed (bump cNmo 0 4 s)
  else
    let pva := x.dstPva + c.chunk * chunkBytes x
    match translate r.entryQ r.tenant pva r.who via .reduce s with
    | (.error e, s) => refused e pva s
    | (.ok (ppa, _), s) =>
      let (id, s) := open_ s
      deliver (bitmapLine s c ppa) lp { r with pva := pva, op := x.red, pend := id, win := some { c with base := ppa / 64 } } false s

/-- What a ReduceWrW packet names: chunk, window and contributor in ARG0, generation in ARG1 (Table 11.5). -/
def contribOf (p : Packet) : Contrib :=
  let a := p.arg0.toNat
  { window := field a 32 10, chunk := field a 0 32, contributor := field a 42 12, gen := p.arg1.toNat }

/-- A ReduceWrW packet acts. -/
def actReduceWrW (n q : Nat) (p : Packet) (s : State) : State :=
  if p.typ.toNat ≠ tReduceWrW then s
  else
    settleOrder (winContribute (contribOf p)
      { kind := .reduceW, who := .ep p.src.toNat, tenant := p.tenant.toNat, pva := 0, entryQ := n / 16, data := p.payload }
      0 .port (fun s => msgPend q p .reduceW 1 0 s)
      (fun st s => sendReply 0 (replyOf s q p 0) .reduceW st [] s)
      (fun r pva s => sendReply 0 (replyOf s q p 0) .reduceW (refuseStatus r.reason) []
        (refuse (n / 16) p.tenant.toNat pva r 1 p.src.toNat s)) s)

/-- REDUCE_WR_W. -/
def execReduceWrW (port : Fin 64) (p : Packet) (s : State) : Ans :=
  .next (live s (terminate port.val p (fun q s => actReduceWrW port.val q p s) s))

/-- The window may be configured and assigned: IDLE, COMPLETE or DISARMED. -/
def winFree (x : Window) : Bool := match x.st with | .arming => false | .armed => false | _ => true

/-- RWIN_ASSIGN: the fabric manager assigns the window to a tenant (R180). -/
def execRwinAssign (w t : Fin 1024) (s : State) : Ans :=
  let x := window s w.val
  .next (served s (if winFree x then fmDone .ok [] (setWindow w.val { x with tenant := t.val } s) else fmDone .conflict [] s))

/-- Bytes of one chunk's bitmap (R180). -/
def bitmapBytes (x : Window) : Nat := ceilDiv x.contributors 64 * 8

/-- Bitmap bytes by pseudo-channel that a window uses. -/
def bitmapUse (s : State) (x : Window) (t : Tbl Nat) : Tbl Nat :=
  (List.range (chunkCount x)).foldl (fun t c =>
    match leafAt s x.tenant (x.dstPva + c * chunkBytes x) with
    | some (b, lf) => tmod 0 t (pcOf s (lf.ppa + (x.dstPva + c * chunkBytes x - b))) (· + bitmapBytes x)
    | none => t) t

/-- Bitmap space remains: 1 GiB device-wide and 512 KiB on every pseudo-channel (R180). -/
def bitmapFits (s : State) (x : Window) : Bool :=
  let used := (s.nm.windows.filter (fun c => !(winFree c.2))).map (·.2)
  let total := ((x :: used).map (fun y => chunkCount y * bitmapBytes y)).foldl (· + ·) 0
  decide (total ≤ 2 ^ 30) && ((x :: used).foldl (fun t y => bitmapUse s y t) []).all (fun c => decide (c.2 ≤ 524288))

/-- The collective settings allow an arm (R322). -/
def collOk (s : State) (w : Nat) (x : Window) : Bool :=
  let n := tget 0 s.e2e.collQ w
  tget 0 s.e2e.collMissing w % 8 == 0 &&
  (!(tget false s.e2e.collValid w) ||
    (decide ((queue s n).st = .running) && decide (inFlight (queue s n) < 64) &&
     decide ((group s (n / 8)).st ≠ .unbound) && (group s (n / 8)).tenant == x.tenant))

/-- ARM_FAULT of an arm (Table 6.13). -/
def armFault (s : State) (w : Nat) (x : Window) : Nat :=
  let c := chunkBytes x
  if !(decide (8 ≤ x.chunkLog2) && decide (x.chunkLog2 ≤ 12) && x.dstPva % c == 0 && decide (x.length ≠ 0) &&
      x.length % c == 0 && decide (chunkCount x ≤ 2 ^ 32) && redValid x.red && decide (1 ≤ x.contributors) &&
      decide (x.contributors ≤ 4096) && x.notifyPva % 8 == 0 && collOk s w x) then 1
  else
    match extentAt s x.tenant x.dstPva with
    | none => 2
    | some e =>
      let y := extent s e
      if !(tenantLive s x.tenant) || decide (y.kind ≠ .ordinary) || !(covers y (x.dstPva + x.length - 1)) ||
          decide (y.grainLog2 < x.chunkLog2) then 2
      else if !(bitmapFits s x) then 3
      else 0

/-- The identity fills the destination (R173): every line is written at its home. -/
def winFill (w : Nat) (s : State) : State :=
  let x := window s w
  let dB := redDstBytes x.red
  let d := (List.range (64 / dB)).flatMap (fun _ => leBytes dB (redIdentity x.red))
  forEach (List.range (x.length / 64)) (fun i s =>
    let pva := x.dstPva + 64 * i
    match leafAt s x.tenant pva with
    | some (b, lf) => deliver ((lf.ppa + (pva - b)) / 64) 3
        { kind := .wrLine, who := winPart w, tenant := x.tenant, pva := pva, entryQ := 0, data := d } false s
    | none => s) s

/-- A write of Word 2 with ARM = 1: the arm is taken or refused, and ARM_FAULT says which (R181). -/
def armWindow (w : Nat) (s : State) : State :=
  let x := window s w
  if !(winFree x) then s
  else
    let f := armFault s w x
    if f ≠ 0 then setWindow w { x with armFault := f } s
    else
      let s := setWindow w { x with armFault := 0, st := .arming, generation := x.generation + 1, bitmap := [], failed := []
                                    duplicates := 0, disarming := false, takenBy := [], due := false, partialDone := false, completed := false } s
      let s := if x.init then winFill w s else s
      if tget false s.e2e.collValid w then
        let n := tget 0 s.e2e.collQ w
        setQueue n { queue s n with windowsInFlight := (queue s n).windowsInFlight + 1 } s
      else s

/-- RWIN_ARM: Word 2 of the window's configuration is written with its CONTRIBUTORS and ARM = 1. -/
def execRwinArm (w : Fin 1024) (contributors : BitVec 13) (s : State) : Ans :=
  let x := window s w.val
  .next (live s (
    if winFree x then armWindow w.val (setWindow w.val { x with contributors := contributors.toNat } s) else s))

/-- A line of the window's fill has not been written yet. -/
def fillOpen (s : State) (w : Nat) : Bool :=
  let mine (r : LineReq) : Bool := decide (r.who = winPart w) && decide (r.kind = .wrLine)
  s.dir.waitIn.any (fun x => mine x.2.2) ||
  s.dir.lines.any (fun c => (match c.2.cur with | some r => mine r | none => false) || c.2.queue.any mine)

/-- RWIN_ARM_FILL_DONE: the fills of an ARMING window are complete (Table 6.11). -/
def execRwinArmFillDone (w : Fin 1024) (now : Nat) (s : State) : Ans :=
  let s1 := advance now s
  let x := window s1 w.val
  .next (live s (
    if x.st ≠ .arming ∨ x.disarming ∨ fillOpen s1 w.val then s1
    else
      setWindow w.val { x with st := .armed, chunksDone := 0, chunksFailed := 0, armTime := s1.time } s1))

/-- A write of Word 2 with DISARM = 1: it goes to be ordered at every bitmap line's home; before COMPLETE it is a PARTIAL
event. -/
def disarmWindow (w : Nat) (s : State) : State :=
  let x := window s w
  if winFree x || x.disarming then s
  else
    winPartial w (setWindow w { x with disarming := true } s)

/-- RWIN_DISARM. -/
def execRwinDisarm (w : Fin 1024) (s : State) : Ans := .next (live s (disarmWindow w.val s))

/-- A contribution that was ordered before a disarm has not been decided yet. -/
def contribOpen (s : State) (w : Nat) : Bool :=
  s.dir.lines.any (fun c => c.2.queue.any (fun r =>
    match r.win with | some c => c.window == w && !c.refused | none => false))

/-- RWIN_DISARM_DONE: every home has taken the disarm, behind the contributions it had ordered before (R181). -/
def execRwinDisarmDone (w : Fin 1024) (s : State) : Ans :=
  let x := window s w.val
  .next (live s (if x.disarming && !(contribOpen s w.val)
    then setWindow w.val { x with st := .disarmed, disarming := false, takenBy := [] } s else s))

/-- COLLECTIVE_DEADLINE_EXPIRY: DEADLINE_US has passed since ARM_TIME with the window ARMED (R323). -/
def execCollectiveDeadlineExpiry (w : Fin 1024) (now : Nat) (s : State) : Ans :=
  let s1 := advance now s
  let x := window s1 w.val
  let d := tget 0 s1.e2e.collDeadline w.val
  .next (live s (if x.st = .armed ∧ d ≠ 0 ∧ x.armTime + 1000 * d ≤ s1.time then winPartial w.val s1 else s1))

end Sys2Proof.Machine
end

