-- ==== Sys2Proof/Machine/Elem.lean ====
section
/-! DEFINITION. The vector functions of Table 8.4 (R229). The exact result is approximated in fixed point, far more closely
than any bound of the table, and a value is a result of the device when it lies within its function's bound. Fixed-point
numbers have 256 fraction bits, and results 405, so that every FP32 value is a whole number of them. -/

namespace Sys2Proof.Machine

/-! Fixed point. -/

abbrev fxOne : Nat := 2 ^ 256
/-- log_e 2, log_2 e, and 2 / √π. -/
def fxLn2 : Nat := 80260960185991308862233904206310070533990667611589946606122867505419956976171
def fxLog2e : Nat := 167052672916848388242985626561247531987276682633131050150846402744536260568207
def fxErf : Nat := 130657381209852114387528029350014196574164286124850014242073919076264802271585

def fxMul (a b : Nat) : Nat := a * b / fxOne

/-- The sum of a power series whose term `k + 1` follows from term `k`. -/
def fxSeries (next : Nat → Nat → Nat) : Nat → Nat → Nat → Nat
  | 0, _, t => t
  | n + 1, k, t => t + fxSeries next n (k + 1) (next k t)

/-- 2 to the power of a number from 0 to 1. -/
def fxExp2 (a : Nat) : Nat :=
  let t := fxMul a fxLn2
  fxSeries (fun k x => fxMul x t / (k + 1)) 80 0 fxOne

/-- e to the power of the negative of a number. -/
def fxExpNeg (a : Nat) : Nat :=
  if 2 ^ 265 ≤ a then 0
  else
    let t := fxMul a fxLog2e
    fxExp2 (fxOne - t % fxOne) / 2 ^ (t / fxOne + 1)

/-- The sum of the odd powers of `z`, each divided by its exponent, from the power `x` with exponent 2k + 1 on. -/
def fxAtanh (z : Nat) : Nat → Nat → Nat → Nat
  | 0, _, _ => 0
  | n + 1, k, x => x / (2 * k + 1) + fxAtanh z n (k + 1) (fxMul (fxMul x z) z)

/-- The base-2 logarithm of a number from 1 to 2. -/
def fxLog2 (a : Nat) : Nat :=
  let z := (a - fxOne) * fxOne / (a + fxOne)
  fxMul (2 * fxAtanh z 90 0 z) fxLog2e

/-- The error function of a number that is not negative. -/
def fxErfOf (a : Nat) : Nat :=
  if 8 * fxOne ≤ a then fxOne
  else
    let q := fxMul a a
    fxMul (fxMul (fxSeries (fun k x => fxMul x (2 * q) / (2 * k + 3)) 500 0 a) (fxExpNeg q)) fxErf

/-- The integer square root: bits from `k` down. -/
def isqrt (n : Nat) : Nat → Nat → Nat
  | 0, r => r
  | k + 1, r => isqrt n k (if (r + 2 ^ k) * (r + 2 ^ k) ≤ n then r + 2 ^ k else r)

/-! The exact results. -/

/-- The result of a function at ± `m` × 2^−149, in units of 2^−405; outside the special inputs of Table 8.4. -/
def funcExact (f : Nat) (neg : Bool) (m : Nat) : Int :=
  let x := m * 2 ^ 107
  let sg (y : Nat) : Int := if neg then -(y : Int) else y
  match f with
  | 0 =>
    let v := sg m
    ((fxExp2 ((v % 2 ^ 149).toNat * 2 ^ 107) * 2 ^ ((v / 2 ^ 149) + 149).toNat : Nat) : Int)
  | 1 =>
    let e := Nat.log2 m
    (((e : Int) - 149) * 2 ^ 256 + (fxLog2 (m * 2 ^ 256 / 2 ^ e) : Nat)) * 2 ^ 149
  | 2 => sg (2 ^ 554 / m)
  | 3 => ((isqrt (2 ^ 959 / m) 480 0 : Nat) : Int)
  | 4 =>
    let e := fxExpNeg (2 * x)
    sg ((fxOne - e) * fxOne / (fxOne + e) * 2 ^ 149)
  | 5 =>
    let e := fxExpNeg x
    (((if neg then e else fxOne) * fxOne / (fxOne + e) * 2 ^ 149 : Nat) : Int)
  | 6 =>
    let e := fxExpNeg x
    sg (m * ((if neg then e else fxOne) * fxOne / (fxOne + e)))
  | _ => sg (fxErfOf x * 2 ^ 149)

/-! The bounds. -/

/-- ulp of a result (R229), in units of 2^−405. -/
def ulpOf (y : Int) : Nat := if y.natAbs < 2 ^ 279 then 2 ^ 256 else 2 ^ (Nat.log2 y.natAbs - 23)

/-- The largest error of a function (Table 8.4). -/
def funcBound (f : Nat) (y : Int) : Nat :=
  match f with
  | 1 => max (2 * ulpOf y) (2 ^ 382)
  | _ => [2, 2, 1, 2, 4, 4, 5, 4].getD f 4 * ulpOf y

/-- A value is within the bound of its function, an infinity where the bound reaches values that round to it (R218); a zero
has the sign of the exact result (R219). -/
def funcOk (f : Nat) (y : Int) (v : Fp) : Bool :=
  let b := funcBound f y
  match v with
  | .nan => false
  | .inf n => decide ((2 ^ 128 - 2 ^ 103) * 2 ^ 405 ≤ y.natAbs + b) && n == decide (y < 0)
  | .fin n m e =>
    let w : Int := (if n then -(m : Int) else m) * 2 ^ (e + 405).toNat
    decide ((w - y).natAbs ≤ b + b / 2 ^ 16) && (m != 0 || y == 0 || n == decide (y < 0))

/-- A function's FP32 result outside the special inputs: the device's own where that is within the bound, else the exact result
rounded once. -/
def funcResult (f : Nat) (neg : Bool) (m : Nat) (own : Nat) : Fp :=
  let y := funcExact f neg m
  if funcOk f y (f32 own) then f32 own else f32 (toF32 (.fin (decide (y < 0)) y.natAbs (-405)))

end Sys2Proof.Machine
end

