-- ==== Sys2Proof/Machine/TileArith.lean ====
section
/-! DEFINITION. Tile data (chapter 8): rows of elements and their scales (R211 to R214), the matrix sum (R220 to R223),
vector elements (R226 to R229). -/

namespace Sys2Proof.Machine

/-- Floating-point layout of a format code; integers have none. -/
def fmtSpec (code : Nat) : Option FmtSpec :=
  match code with
  | 1 => some fE2M1 | 2 => some fE3M2 | 3 => some fE2M3 | 4 => some fE4M3 | 5 => some fE5M2
  | 7 => some fBf16 | 8 => some fFp32 | _ => none

/-- The value of an element code (R209, R210). -/
def elemVal (code x : Nat) : Fp :=
  match fmtSpec code with
  | some f => fpDecode f x
  | none => fpOfSgn (sgnOf (elemBits code) x)

/-- Multiplies by a power of two. -/
def fpScale (x : Fp) (k : Int) : Fp :=
  match x with
  | .fin n m e => .fin n m (e + k)
  | y => y

/-- Element codes of a row, packed from bit 0 upwards (R211). -/
def rowCodes (code : Nat) (row : List Byte) : List Nat :=
  let b := elemBits code
  if b % 8 = 0 then (List.range 128).map (fun i => leAt row (i * (b / 8)) (b / 8))
  else
    let x := leAt row 0 (16 * b)
    (List.range 128).map (fun i => field x (b * i) b)

/-- Values of a row: an MX element times its block's scale, NaN under scale 0xFF (R212, R213). -/
def rowVals (code : Nat) (row : List Byte) : List Fp :=
  let l := (rowCodes code row).map (elemVal code)
  if isMx code then
    (List.range 128).map (fun i =>
      let sc := (byteAt row (16 * elemBits code + i / 32)).toNat
      if sc = 255 then .nan else fpScale (l.getD i .nan) ((sc : Int) - 127))
  else l

/-- An element code of a non-MX format, rounded (R215 to R219). -/
def elemEnc (code : Nat) (md : Round) (x : Fp) : Nat :=
  match fmtSpec code with
  | some f => fpEncode f md x
  | none => fpToInt (elemBits code) md x

/-- emax of an MX element format (R214 step 3). -/
def mxEmax (code : Nat) : Int := if code = 2 then 4 else 2

/-- Scale byte of a block of source values (R214 steps 1 to 3). -/
def mxScale (code : Nat) (l : List Fp) : Nat :=
  if l.any (fun x => x == .nan) then 255
  else
    let exps := l.filterMap (fun x => match x with
      | .fin _ m e => if m = 0 then none else some (fpExp m e)
      | _ => none)
    match exps with
    | [] => 127
    | e :: r => ((max (-127) (min 127 ((r.foldl max e) - mxEmax code))) + 127).toNat

/-- Element code of an MX block under its scale byte (R214 step 4): infinities become the largest finite element. -/
def mxElem (code scale : Nat) (md : Round) (x : Fp) : Nat :=
  if scale = 255 then 0
  else
    match fmtSpec code with
    | some f => fpEncode f md (fpScale x (127 - (scale : Int)))
    | none => 0

/-- Packs element codes of `b` bits from bit 0 upwards. -/
def packBits (b : Nat) (l : List Nat) : Nat := l.foldr (fun x a => x % 2 ^ b + 2 ^ b * a) 0

/-- Row bytes of 128 values: element codes, then the scale bytes of an MX row. -/
def rowEnc (code : Nat) (md : Nat → Round) (l : List Fp) : List Byte :=
  if isMx code then
    let scales := (List.range 4).map (fun j => mxScale code (slicePart l (32 * j)))
    let codes := (List.range 128).map (fun i => mxElem code (scales.getD (i / 32) 255) (md i) (l.getD i .nan))
    leBytes (16 * elemBits code) (packBits (elemBits code) codes) ++ scales.map (BitVec.ofNat 8)
  else (List.range 128).flatMap (fun i => leBytes (elemBits code / 8) (elemEnc code (md i) (l.getD i .nan)))
where
  /-- 32 values from a position. -/
  slicePart (l : List Fp) (o : Nat) : List Fp := (l.drop o).take 32

/-! The matrix sum (R221, R222). -/

/-- Exponent of a non-zero term. -/
def termExp (x : Fp) : Option Int :=
  match x with
  | .fin _ m e => if m = 0 then none else some (fpExp m e)
  | _ => none

/-- A term truncated toward zero to a multiple of 2^q. -/
def alignTerm (q : Int) (x : Fp) : Int :=
  match x with
  | .fin n m e =>
    let k : Int := toQuantum .zero m e q
    if n then -k else k
  | _ => 0

/-- The sum of an MMA's terms, rounded once to FP32: special terms decide by R222; finite terms are aligned to the
largest exponent with `keep` bits below its leading bit. A sum of zeros is −0 only when every term is. -/
def termSum (keep : Nat) (l : List Fp) : Nat :=
  if l.any (fun x => x == .nan) || (l.any (fun x => x == .inf true) && l.any (fun x => x == .inf false)) then
    nanCode fFp32
  else if l.any (fun x => x == .inf true) then toF32 (.inf true)
  else if l.any (fun x => x == .inf false) then toF32 (.inf false)
  else
    match l.filterMap termExp with
    | [] => toF32 (.fin (l.all (fun x => match x with | .fin n _ _ => n | _ => false)) 0 0)
    | e :: r =>
      let q := r.foldl max e - keep
      toF32 (fpOfInt ((l.map (alignTerm q)).foldl (· + ·) 0) q)

/-- Bits kept below the leading bit: 40 and whatever the part keeps beyond (R221). -/
def mmaKeep : Nat := 40 + Config.mmaExtra

/-- One output of an MMA: the accumulator term and the products of two rows (R220). -/
def mmaDot (acc : Nat) (zero : Bool) (a b : List Fp) : Nat :=
  termSum mmaKeep ((if zero then .fin false 0 0 else f32 acc) :: List.zipWith fpMul a b)

/-! Vector elements (R226 to R229). -/

/-- VBIN and VBCAST of two element codes: 0 ADD, 1 SUB, 2 MUL, 3 MIN, 4 MAX; INT32 wraps and compares as signed. -/
def vecBin (code mode a b : Nat) : Nat :=
  if code = 9 then
    match mode with
    | 0 => (a + b) % 2 ^ 32
    | 1 => (a + 2 ^ 32 - b % 2 ^ 32) % 2 ^ 32
    | 3 => if sgnOf 32 b < sgnOf 32 a then b else a
    | 4 => if sgnOf 32 a < sgnOf 32 b then b else a
    | _ => a
  else
    let x := elemVal code a
    let y := elemVal code b
    elemEnc code .near (match mode with
      | 0 => fpAdd x y
      | 1 => fpAdd x (fpNeg y)
      | 2 => fpMul x y
      | 3 => fpMin x y
      | _ => fpMax x y)

/-- VFMA: one rounding. -/
def vecFma (code a b d : Nat) : Nat :=
  elemEnc code .near (fpAdd (fpMul (elemVal code a) (elemVal code b)) (elemVal code d))

/-- The special inputs of Table 8.4; none where the result is only bounded. -/
def funcSpecial (f : Nat) (x : Fp) : Option Fp :=
  let lt (k : Int) : Bool := fpLt x (fpOfSgn k)
  match x with
  | .nan => some .nan
  | .inf n =>
    match f with
    | 0 => some (if n then .fin false 0 0 else .inf false)
    | 1 => some (if n then .nan else .inf false)
    | 2 => some (.fin n 0 0)
    | 3 => some (if n then .nan else .fin false 0 0)
    | 4 => some (.fin n 1 0)
    | 5 => some (if n then .fin false 0 0 else .fin false 1 0)
    | 6 => some (if n then .fin true 0 0 else .inf false)
    | _ => some (.fin n 1 0)
  | .fin n m _ =>
    match f with
    | 0 => if !(lt 128) then some (.inf false) else if lt (-149) then some (.fin false 0 0) else none
    | 1 => if m = 0 then some (.inf true) else if n then some .nan else none
    | 2 => if m = 0 then some (.inf n) else none
    | 3 => if m = 0 then some (.inf n) else if n then some .nan else none
    | _ => none

/-- VFUNC of an element code: in FP32, then rounded once to BF16 where that is the format (R229). -/
def vecFunc (code f x : Nat) : Nat :=
  let v := elemVal code x
  let y : Fp := match funcSpecial f v with
    | some y => y
    | none => match v with
      | .fin n m e => funcResult f n (m * 2 ^ (e + 149).toNat) (Config.vfuncValue f (BitVec.ofNat 32 (toF32 v))).toNat
      | y => y
  if code = 8 then toF32 y else elemEnc code .near (f32 (toF32 y))

/-- VROWRED of one row: SUM as FP32 additions in an order the device chooses, MAX, MIN (R228). -/
def rowRed (code mode : Nat) (sum : List Nat → Nat) (row : List Nat) : Nat :=
  match mode with
  | 0 =>
    let s := sum (row.map (fun x => toF32 (elemVal code x)))
    if code = 8 then s else elemEnc code .near (f32 s)
  | 1 => elemEnc code .near (row.foldl (fun a x => fpMax a (elemVal code x)) (.inf true))
  | _ => elemEnc code .near (row.foldl (fun a x => fpMin a (elemVal code x)) (.inf false))

end Sys2Proof.Machine
end

