-- ==== Sys2Proof/Machine/CoreOps.lean ====
section
/-! DEFINITION. Sequencer and engines of a core (R186 to R196, R234 to R240): a context's turn, core-store operands,
pre-checks of moves, barrier arrivals, effects of jobs. -/

namespace Sys2Proof.Machine

/-! Registers and contexts. -/

/-- Register s0 reads as 0 (R192). -/
def sreg (x : Ctx) (r : Nat) : BitVec 64 := if r = 0 then 0 else tget 0 x.regs r

/-- Writes to s0 are ignored (R192). -/
def setSreg (r : Nat) (v : BitVec 64) (x : Ctx) : Ctx :=
  if r = 0 ∨ 63 < r then x else { x with regs := tput 0 x.regs r v }

/-- The context begins to wait on what its watchdog covers, which starts from zero at the start of each wait (R237). -/
def startWait (n i cause number : Nat) (s : State) : State :=
  let x := ctxOf (coreOf s n) i
  if x.waitSince.isSome && x.waitCause == cause && x.waitNumber == number then s
  else setCtx n i { x with waitSince := some s.time, waitCause := cause, waitNumber := number } s

/-- Held effects of a core that have not been issued whole occupy its list of 256 entries (R201). -/
def heldCount (j : Job) (rank : Nat) : Nat :=
  (j.effects.filter (fun e => e.rank == rank && decide (e.issued < e.rows.length))).length

/-- A held operation finds the list full; from then on it waits until the list empties (R201). -/
def heldFull (s : State) (t : Turn) : Bool :=
  (decide (tKindOf (tOpc t.w) = some .treduce) || decide (tKindOf (tOpc t.w) = some .tatomic)) &&
  (decide (256 ≤ heldCount t.j (t.rank s)) ||
   (t.x.waitSince.isSome && t.x.waitCause == 2 && decide (0 < heldCount t.j (t.rank s))))

/-- The target engine's queue of 8 is full (R186, R192). -/
def queueFull (s : State) (t : Turn) : Bool :=
  match tKindOf (tOpc t.w) with
  | none => false
  | some k => decide (tEngine k t.w < 5) && decide (8 ≤ (tget [] (coreOf s t.n).engines (tEngine k t.w)).length)

/-- The semaphore has a count left for the context, after the waiters before it in the rotation that nothing else holds
(R235). -/
def semOpen (s : State) (t : Turn) : Bool :=
  let before := ((semWaiters s t.n (tWsem t.w)).takeWhile (· != t.i)).filter (fun i =>
    match turnOf s t.n i with
    | some u => !(heldFull s u) && !(queueFull s u)
    | none => false)
  decide (before.length < tget 0 (coreOf s t.n).sems (tWsem t.w))

/-- A context takes its turn with an operation of the kind (R234 to R236): a semaphore without a count for it, a full
held-effect list or a full engine queue makes it wait; otherwise the semaphore is lowered, the program counter moves on,
and the operation is dispatched. -/
def dispatch (k : TKind) (n i : Nat) (f : Turn → State → State) (s : State) : State :=
  match turnOf s n i with
  | none => s
  | some t =>
    if tKindOf (tOpc t.w) ≠ some k then s
    else
      let c := coreOf s n
      if tWe t.w && !(semOpen s t) then
        let on := t.x.waitSince.isSome && t.x.waitCause == 0 && t.x.waitNumber == tWsem t.w
        startWait n i 0 (tWsem t.w) (if on then s else bump cSyn 0 0 s)
      else if heldFull s t then startWait n i 2 0 s
      else if queueFull s t then setCtx n i { t.x with waitSince := none } s
      else
        let x := { t.x with waitSince := none, pc := t.x.pc + 1 }
        let sems := if tWe t.w then tput 0 c.sems (tWsem t.w) (tget 0 c.sems (tWsem t.w) - 1) else c.sems
        f { t with x := x } (setCore n { c with sems := sems, ctxs := tput {} c.ctxs i x, rota := i } s)

/-! Core-store operands (R187). -/

def overlap (a n b m : Nat) : Bool := decide (a < b + m) && decide (b < a + n)
def inRanges (l : List (Nat × Nat)) (a : Nat) : Bool := l.any (fun p => decide (p.1 ≤ a) && decide (a < p.1 + p.2))

/-- Two lists of ranges meet. -/
def meets (l m : List (Nat × Nat)) : Bool := l.any (fun p => m.any (fun q => overlap p.1 p.2 q.1 q.2))

/-- An operation that another of engine `e` and context `i` is not ordered with. -/
def apart (e i e' : Nat) (o : EngOp) : Bool := !(e' == e && o.ctx == i)

/-- Operations dispatched and not complete that another operation of engine `e` and context `i` is not ordered with. -/
def others (c : Core) (e i : Nat) : List EngOp := c.engines.flatMap (fun q => q.2.filter (apart e i q.1))

/-- What operations it is not ordered with have written while the operation that now acts waited in its queue. -/
def racedOf (c : Core) (e i : Nat) : List (Nat × Nat) :=
  match (tget [] c.engines e).head? with
  | some o => if o.waits && o.ctx == i then o.raced else []
  | none => []

/-- Reads bytes of the core store: those that an unordered operation writes are undefined (R187). -/
def csRead (n e i a k : Nat) (s : State) : List Byte × State :=
  let c := coreOf s n
  let w := (others c e i).flatMap (·.writes) ++ racedOf c e i
  if w.any (fun p => overlap a k p.1 p.2) then
    let (fr, s) := drawBytes k s
    ((List.range k).map (fun p => if inRanges w (a + p) then byteAt fr p else tget 0 c.store (a + p)), s)
  else ((List.range k).map (fun p => tget 0 c.store (a + p)), s)

/-! Accumulators. -/

/-- Key of an accumulator element. -/
def accKey (eng acc row col : Nat) : Nat := ((eng * 4 + acc) * 128 + row) * 128 + col

/-- Sets accumulator rows 0 to R − 1. -/
def setAcc (n eng acc rows : Nat) (f : Nat → Nat → Nat) (s : State) : State :=
  let c := coreOf s n
  let t := (List.range rows).foldl (fun t r => (List.range 128).foldl (fun t k =>
    tput 0 t (accKey eng acc r k) (f r k)) t) c.acc
  setCore n { c with acc := t } s

/-- Accumulator elements that an operation works on, as a range of keys. -/
def accRange (o : EngOp) : List (Nat × Nat) := [(accKey (tEng o.word) (tAcc o.word) 0 0, 128 * tRows o.word)]

/-- Accumulator elements whose values an operation uses, gives a value of its own, and clears. -/
def accReads (o : EngOp) : List (Nat × Nat) :=
  match tKindOf (tOpc o.word) with
  | some .mma => if tMode o.word == 1 then [] else accRange o
  | some .accrd => accRange o
  | _ => []
def accWrites (o : EngOp) : List (Nat × Nat) :=
  match tKindOf (tOpc o.word) with
  | some .mma => accRange o
  | some .accwr => accRange o
  | _ => []
def accClears (o : EngOp) : List (Nat × Nat) :=
  match tKindOf (tOpc o.word) with
  | some .accrd => if bitOf (tMode o.word) 2 then accRange o else []
  | _ => []

/-- The operations of a queue whose results are undefined because bytes that `hit` ones read have been overwritten: those,
and later ones that read what such an operation wrote. -/
def spoiled (hit : EngOp → Bool) : List EngOp → List (Nat × Nat) → List (Nat × Nat) → List (EngOp × Bool)
  | [], _, _ => []
  | o :: r, ws, as =>
    let b := !o.waits && (hit o || meets o.reads ws || meets (accReads o) as)
    (o, b) :: spoiled hit r (if b then o.writes ++ ws else ws) (if b then accWrites o ++ as else as)

/-- What one operation wrote becomes undefined, but for what `later` ones of its queue wrote over it: bytes of the core store,
accumulators, and bytes of the pool, in memory or in beats that still wait. -/
def spoilOp (n : Nat) (o : EngOp) (later : List EngOp) (s : State) : State :=
  let ws := later.flatMap (·.writes)
  let as := later.flatMap (fun p => accWrites p ++ accClears p)
  let s := forEach o.writes (fun p s =>
    let (fr, s) := drawBytes p.2 s
    let c := coreOf s n
    setCore n { c with store := putBytes ((List.range p.2).map (fun i =>
      if inRanges ws (p.1 + i) then tget 0 c.store (p.1 + i) else byteAt fr i)) p.1 c.store } s) s
  let s := forEach (accWrites o) (fun p s =>
    let (fr, s) := drawBytes (4 * p.2) s
    let c := coreOf s n
    setCore n { c with acc := (List.range p.2).foldl (fun t i =>
      if inRanges as (p.1 + i) then t else tput 0 t (p.1 + i) (leAt fr (4 * i) 4)) c.acc } s) s
  match jobOn s n, o.pool with
  | none, _ => s
  | _, [] => s
  | some (_, j), _ =>
    forEach o.pool (scrambleRange (group s j.group).tenant (.grp j.group))
      (scrambleBeats (fun r => r.owner == some (j.queue, j.slot) && inRanges o.pool r.pva) s)

def spoil (n : Nat) : List (EngOp × Bool) → State → State
  | [], s => s
  | (o, b) :: r, s => spoil n r (if b then spoilOp n o ((r.filter (fun x => !x.2)).map (·.1)) s else s)

/-- Bytes of the core store were written: an operation not ordered with the write that has read any of them has read undefined
values, and one that still waits in its queue is to take note (R187). -/
def spoilReaders (n e i : Nat) (r : Nat × Nat) (s : State) : State :=
  let s := forEach (coreOf s n).engines (fun q s =>
    spoil n (spoiled (fun o => apart e i q.1 o && meets o.reads [r]) q.2 [] []) s) s
  let c := coreOf s n
  setCore n { c with engines := tmapAll [] (fun k (l : List EngOp) =>
    l.map (fun o => if o.waits && apart e i k o then { o with raced := r :: o.raced } else o)) c.engines } s

/-- Writes bytes of the core store: one that an unordered operation writes too holds either value (R187). -/
def csWrite (n e i a : Nat) (d : List Byte) (s : State) : State :=
  let c := coreOf s n
  let w := ((others c e i).filter (fun o => !o.waits)).flatMap (·.writes) ++ racedOf c e i
  let (d, s) : List Byte × State :=
    if w.any (fun p => overlap a d.length p.1 p.2) then
      ((List.range d.length).map (fun p =>
        if inRanges w (a + p) && Config.freeBool (s.free + p) then tget 0 c.store (a + p) else byteAt d p),
       { s with free := s.free + d.length })
    else (d, s)
  spoilReaders n e i (a, d.length) (setCore n { coreOf s n with store := putBytes d a (coreOf s n).store } s)

/-- Energy of the bytes an operation reads and writes in the core store (Table 8.6), in femtojoules. -/
def storeFj (l : List (Nat × Nat)) : Nat := 150 * (l.map (fun p => p.2)).foldl (· + ·) 0

/-- The destination of a reduction is FP32 (Table 6.8). -/
def redToF32 (red : Nat) : Bool := red / 16 % 16 == 1 || red % 16 == 1

/-- Energy of an operation's work at OP0 in femtojoules (Table 8.6). -/
def workFj (k : TKind) (w : TWord) : Nat :=
  let el := 128 * tRows w
  let full := decide (tFd w = 8)
  match k with
  | .mma =>
    let macs := 16384 * tRows w
    if tFa w = 1 ∧ tFb w = 1 then macs * 105 / 2
    else if tFa w = 6 then macs * 70
    else if tFa w = 7 then macs * 190
    else macs * 95
  | .vfma => el * (if full then 900 else 450)
  | .vbin => el * (if full then 600 else 300)
  | .vrowred => el * (if full then 600 else 300)
  | .vbcast => el * (if full then 600 else 300)
  | .racc => el * (if redToF32 (tRed w) then 600 else 300)
  | .vfunc => el * 2400
  | .vcvt => el * 200
  | _ => 0

/-- The counter of Table 18.3 and its step that an operation counts under when it completes. -/
def opCount (k : TKind) (w : TWord) : Nat × Nat :=
  match k with
  | .mma => (if tFa w = 1 ∧ tFb w = 1 then 0 else if tFa w = 6 then 2 else if tFa w = 7 then 3 else 1, tRows w)
  | .vfunc => (7, tRows w)
  | .racc => (8, tRows w)
  | .accrd => (9, 1)
  | .accwr => (9, 1)
  | .tload => (10, 0)
  | .tstore => (11, 0)
  | .treducew => (12, 1)
  | .tcopy => (0, 0)
  | _ => (if tFd w = 8 then 4 else if tFd w = 9 then 6 else 5, tRows w)

/-- The operation joins its engine's queue until TILE_OP_COMPLETE; its energy is metered. -/
def enqueueOp (k : TKind) (t : Turn) (s : State) (lines : Option Nat := none)
    (rd : List (Nat × Nat) := tReads k t.w) (pool : List (Nat × Nat) := []) (waits : Bool := false) : State :=
  let e := tEngine k t.w
  let c := coreOf s t.n
  let (cnt, rows) := opCount k t.w
  let o : EngOp := { ctx := t.i, count := cnt, rows := lines.getD rows, signal := tSignal t.w, reads := rd
                     writes := tWrites k t.w, pool := pool, word := t.w, regs := t.x.regs, commits := t.x.commits
                     waits := waits }
  let q := tget [] c.engines e
  let c := { c with engines := tput [] c.engines e (q ++ [o])
                    busyAt := if q.isEmpty then tput 0 c.busyAt e s.time else c.busyAt }
  meterOp t.n (workFj k t.w + storeFj (rd ++ tWrites k t.w)) (setCore t.n c s)

/-! Moves (Table 7.6). -/

/-- The binding slot's argument and MIN_BYTES (Table 5.13). -/
def slotArg (j : Job) (k : Nat) : Nat := j.args.getD k 0
def slotBytes (j : Job) (k : Nat) : Nat := leAt j.binds (16 * k + 8) 8

/-- Offset of row `r` of a move: s[OFF_REG] + r × s[STRIDE_REG], modulo 2^64. -/
def rowOff (t : Turn) (r : Nat) : Nat :=
  ((sreg t.x (tR1 t.w)).toNat + r * (sreg t.x (tR2 t.w)).toNat) % 2 ^ 64

/-- The job's image digest is on the admitted-image list of the sealed region at an address (R49). -/
def admitted (s : State) (j : Job) (ten pva : Nat) : Bool :=
  match extentAt s ten pva with
  | some e => (tget ({} : Sealed) s.sec.sealeds e).admitted.contains j.digest
  | none => false

/-- The move engine of a core acting for its job at an address. -/
def moveActor (s : State) (t : Turn) (pva : Nat) : Actor :=
  let ten := (group s t.j.group).tenant
  { q := t.n / 40, tenant := ten, who := .grp t.j.group, via := .inPool (admitted s t.j ten pva)
    src := { source := 2, sourceId := t.j.queue, tenant := ten }, owner := some (t.j.queue, t.j.slot), tile := t.tile
    lp := 2 }

/-- The page of an address: its size by the leaf's level, and its number (Table 3.1). -/
def pageId (lf : Leaf) (pva : Nat) : Nat × Nat :=
  (lf.level, pva / 2 ^ (if lf.level = 0 then 36 else if lf.level = 1 then 26 else 16))

/-- Pre-checks pages of operands in order (R78, R79): the first that fails, and the distinct pages seen. Too many pages are
recorded at the tile's first address (Table 3.7). -/
def checkPages (t : Turn) (acc : Access) (first : Nat) : List Nat → List (Nat × Nat) → State →
    Option (Refuse × Nat) × List (Nat × Nat) × State
  | [], seen, s => (none, seen, s)
  | p :: r, seen, s =>
    let a := moveActor s t p
    match translate a.q a.tenant p a.who a.via acc s with
    | (.error e, s) => (some (e, p), seen, s)
    | (.ok (_, lf), s) =>
      let id := pageId lf p
      let seen := if seen.contains id then seen else id :: seen
      if 256 < seen.length then
        (some ({ reason := .pageSpan, access := accCode acc, level := lf.level, extent := some lf.extent }, first), seen, s)
      else checkPages t acc first r seen s

/-- Pre-check of a move's rows: each lies in its slot (Table 7.7), and each of its pages passes. -/
def checkRows (t : Turn) (acc : Access) (lo hi n first : Nat) : List Nat → List (Nat × Nat) → State →
    Option (Refuse × Nat) × List (Nat × Nat) × State
  | [], seen, s => (none, seen, s)
  | p :: r, seen, s =>
    if p < lo ∨ hi < p + n then
      (some ({ reason := .noRight, access := accCode acc, level := 3, extent := none }, p), seen, s)
    else
      match checkPages t acc first [p, p + (n - 1)] seen s with
      | (none, seen, s) => checkRows t acc lo hi n first r seen s
      | x => x

/-- A refused pre-check: logged, and the job pauses with TILE_FAULT (R78). -/
def moveFault (t : Turn) (r : Refuse) (pva : Nat) (s : State) : State :=
  let a := moveActor s t pva
  let (_, ext, s) := noteFail a (.refused r pva) s
  tileFault t.jid ext s

/-- Base of the hidden tag area (R386). -/
def tagBase (s : State) : Nat := (gradeBlocks s.grade - tagBlocks s.grade) * blockBytes

/-- Pool-physical address of page `j` of an extent. -/
def pagePpa (x : Extent) (j : Nat) : Nat := x.blocks.getD (4096 * j / blockBytes) 0 * blockBytes + 4096 * j % blockBytes

/-- The GMAC tags of a sealed region's pages that a range touches match (R49, R386). -/
def gmacOk (s : State) (ten pva n : Nat) : Bool :=
  match extentAt s ten pva with
  | none => true
  | some e =>
    let x := extent s e
    !(decide (x.kind = .sealed)) ||
    (List.range ((pva % 4096 + n + 4095) / 4096)).all (fun i =>
      let v := (pva / 4096 + i) * 4096
      let ppa := x.blocks.getD ((v - x.pvaBase) / blockBytes) 0 * blockBytes + (v - x.pvaBase) % blockBytes
      let page := (List.range 4096).map (fun k => readByte s (ppa + k))
      let tag := (List.range 16).map (fun k => readByte s (tagBase s + 16 * (ppa / 4096) + k))
      decide (leNat tag = (Config.gmac ((tenant s x.tenant).tagKey.getD 0) e ((v - x.pvaBase) / 4096) page).toNat))

/-- Reads rows of pool memory, each with its own actor; `none` while a line is being recalled. A tag that does not match is an
uncorrectable read (R49). -/
def readRows (t : Turn) (n : Nat) : List Nat → State → Option (List Byte × Option EngFail) × State
  | [], s => (some ([], none), s)
  | p :: r, s =>
    let a := moveActor s t p
    match engRead a p n s with
    | (.wait, s) => (none, s)
    | (.got _ (some f), s) => (some ([], some f), s)
    | (.got b none, s) =>
      if !(gmacOk s a.tenant p n) then (some ([], some .poison), s)
      else
        match readRows t n r s with
        | (some (d, f), s) => (some (b ++ d, f), s)
        | x => x

/-- A move that fails after its pre-check ends the job: POISON, or MAPPING_WITHDRAWN where an invalidation has come since
(Table 7.7, R80). -/
def moveEnds (t : Turn) (f : EngFail) (s : State) : State :=
  let f := match f with | .refused r pva => .refused (lateRefuse true r) pva | .poison => .poison
  let (st, ext, s) := noteFail (moveActor s t 0) f s
  endJob t.jid st 0 ext s

/-- Lines of the rows can be read now; those that cannot are asked for. -/
def rowsReady (t : Turn) (n : Nat) (rows : List Nat) (s : State) : Bool × State :=
  rows.foldl (fun (c : Bool × State) p =>
    let (ok, s) := engReady (moveActor c.2 t p) [(p, n)] c.2
    (c.1 && ok, s)) (true, s)

/-! Barriers (R239 to R242). -/

/-- Physical channel of a job's logical channel. -/
def physChan (s : State) (jid c : Nat) : Option Nat :=
  (List.range 16).find? (fun p => decide ((chanOf s p).job = some jid) && (chanOf s p).logical == c)

/-- Contexts of a core that wait at a logical channel are released (R240). -/
def releaseCore (n c : Nat) (s : State) : State :=
  forEach ((coreOf s n).ctxs.filter (fun x => decide (x.2.st = .barrier c))) (fun x s =>
    signalOpt n x.2.barrierSignal
      (setCtx n x.1 { ctxOf (coreOf s n) x.1 with st := .ready, waitSince := none, barrierSignal := none } s)) s

/-- Every live context of the core waits at the channel. -/
def coreAtBarrier (c : Core) : Option Nat :=
  match liveCtxs c with
  | [] => none
  | x :: r =>
    match x.2.st with
    | .barrier k => if r.all (fun y => decide (y.2.st = .barrier k)) then some k else none
    | _ => none

/-- A core may have arrived at a barrier (R240): in a job of one core the barrier completes at once (R239). -/
def barrierCheck (n : Nat) (s : State) : State :=
  match jobOn s n, coreAtBarrier (coreOf s n) with
  | some (jid, j), some k =>
    if j.width = 1 then releaseCore n k s
    else
      match physChan s jid k with
      | some p =>
        let x := chanOf s p
        if x.arrived.contains n then s else setChan9 p { x with arrived := n :: x.arrived } s
      | none => s
  | _, _ => s

/-- An episode completes: the channel's sense inverts and every member's waiting contexts are released. -/
def completeEpisode (p : Nat) (s : State) : State :=
  let x := chanOf s p
  match x.job with
  | none => s
  | some jid =>
    match job s jid with
    | none => s
    | some j =>
      let s := bump cSyn 0 2 (setChan9 p { x with sense := !x.sense, arrived := [] } s)
      forEach j.cores (fun n s => releaseCore n x.logical s) s

/-! Answers of jobs' effects (R205). -/

/-- Takes the answers of windowed contributions and held effects that have come; a failure ends the job. -/
def collectWaits (jid : Nat) (s : State) : State :=
  match job s jid with
  | none => s
  | some j =>
    forEach j.waits (fun w s =>
      match tget none s.dir.answers w.1 with
      | none => s
      | some (st, _) =>
        let s := { s with dir := { s.dir with answers := tput none s.dir.answers w.1 none } }
        match job s jid with
        | none => s
        | some j =>
          let s := setJob jid (some { j with waits := j.waits.filter (fun x => x.1 != w.1) }) s
          match st with
          | .ok => s
          | .policed => endJob jid .conflict 0 [] s
          | _ => endJob jid st 0 [] s) s

/-- The result of a TATOMIC goes to its register, in the context and in the snapshot of its commit (R200). -/
def atomicResult (jid : Nat) (e : HeldEff) (old : List Byte) (s : State) : State :=
  match job s jid with
  | none => s
  | some j =>
    let n := j.cores.getD e.rank 0
    let k := if atomBytes e.op = 16 then 2 else 1
    let put (x : Ctx) : Ctx := (List.range k).foldl (fun x i =>
      setSreg (e.reg + i) (BitVec.ofNat 64 (leAt old (8 * i) 8)) x) x
    let s := setCtx n e.ctx (put (ctxOf (coreOf s n) e.ctx)) s
    let key := e.commit * 256 + e.rank
    let snaps := tget [] j.newSnaps key
    match (snaps.drop e.ctx).head? with
    | some c =>
      let c := { c with regs := (put { regs := c.regs }).regs }
      setJob jid (some { j with newSnaps := tput [] j.newSnaps key (lset snaps e.ctx c) }) s
    | none => s

/-- Takes the answers of held effects. -/
def collectEffects (jid : Nat) (s : State) : State :=
  match job s jid with
  | none => s
  | some j =>
    forEach (j.effects.flatMap (fun e => e.answers.map (fun a => (e, a)))) (fun x s =>
      match tget none s.dir.answers x.2 with
      | none => s
      | some (st, old) =>
        let s := { s with dir := { s.dir with answers := tput none s.dir.answers x.2 none } }
        match job s jid with
        | none => s
        | some j =>
          let s := setJob jid (some { j with effects := j.effects.map (fun e =>
            { e with answers := e.answers.filter (fun a => a != x.2) }) }) s
          match st with
          | .ok => if x.1.isAtomic then atomicResult jid x.1 old s else s
          | .policed => endJob jid .policed 8 [] s
          | _ => endJob jid st 0 [] s) s

def collect (jid : Nat) (s : State) : State := collectEffects jid (collectWaits jid s)

end Sys2Proof.Machine
end

