-- ==== Sys2Proof/Machine/Cores.lean ====
section
/-! DEFINITION. The tile operations (chapters 7 and 8; opcode-table rows SALU to RACC and TILE_OP_COMPLETE): each row is
the turn of one context of one core whose next operation it is. A move or an arithmetic operation takes its effect on
core store, accumulators and pool memory when it is dispatched, and stays in its engine's queue until it completes. -/

namespace Sys2Proof.Machine

/-! Sequencer operations. -/

/-- The value of a SALU operation (Table 7.5). -/
def saluValue (s : State) (t : Turn) : BitVec 64 :=
  let a := sreg t.x (tA t.w % 64)
  let b := sreg t.x (tB t.w % 64)
  let imm := (BitVec.ofNat 32 (tX t.w)).signExtend 64
  match tMode t.w with
  | 0 => imm
  | 1 => a + b
  | 2 => a - b
  | 3 => a * b
  | 4 => a &&& b
  | 5 => a ||| b
  | 6 => a ^^^ b
  | 7 => if 64 ≤ b.toNat then 0 else a <<< b.toNat
  | 8 => if 64 ≤ b.toNat then 0 else a >>> b.toNat
  | 9 => if b.toInt < a.toInt then b else a
  | 10 => if a.toInt < b.toInt then b else a
  | 11 => a + imm
  | 12 => BitVec.ofNat 64 (tX t.w * 2 ^ 32)
  | _ =>
    match tX t.w with
    | 0 => BitVec.ofNat 64 (coreOf s t.n).rank
    | 1 => BitVec.ofNat 64 t.j.width
    | 2 => BitVec.ofNat 64 t.i
    | 3 => BitVec.ofNat 64 s.time
    | _ => BitVec.ofNat 64 t.j.commits

/-- SALU. -/
def execSalu (n : Fin 160) (c : Fin 8) (s : State) : Ans :=
  .next (live s (dispatch .salu n.val c.val (fun t s =>
    signalOpt t.n (tSignal t.w) (setCtx t.n t.i (setSreg (tD t.w % 64) (saluValue s t) t.x) s)) s))

/-- The condition of a BRANCH (Table 7.5). -/
def branchTaken (t : Turn) : Bool :=
  let a := sreg t.x (tA t.w % 64)
  let b := sreg t.x (tB t.w % 64)
  match tMode t.w with
  | 0 => true
  | 1 => a == b
  | 2 => a != b
  | 3 => decide (a.toInt < b.toInt)
  | 4 => decide (b.toInt ≤ a.toInt)
  | 5 => decide (a.toNat < b.toNat)
  | _ => decide (b.toNat ≤ a.toNat)

/-- BRANCH. -/
def execBranch (n : Fin 160) (c : Fin 8) (s : State) : Ans :=
  .next (live s (dispatch .branch n.val c.val (fun t s =>
    signalOpt t.n (tSignal t.w) (setCtx t.n t.i { t.x with pc := if branchTaken t then tX t.w else t.x.pc } s)) s))

/-- SYNC: only its semaphore fields act. -/
def execSync (n : Fin 160) (c : Fin 8) (s : State) : Ans :=
  .next (live s (dispatch .sync n.val c.val (fun t s => signalOpt t.n (tSignal t.w) s) s))

/-- BARRIER: the context waits at the logical channel, and its core may have arrived (R240). -/
def execBarrier (n : Fin 160) (c : Fin 8) (s : State) : Ans :=
  .next (live s (dispatch .barrier n.val c.val (fun t s =>
    let k := tX t.w % 16
    barrierCheck t.n (setCtx t.n t.i { t.x with st := .barrier k, barrierSignal := tSignal t.w, waitSince := some s.time
                                                waitCause := 1, waitNumber := k } s)) s))

/-- BARRIER_RELEASE: the last member's sense inversion has reached every member after the fixed latency (R241). -/
def execBarrierRelease (p : Fin 16) (now : Nat) (s : State) : Ans :=
  let s1 := advance now s
  let x := chanOf s1 p.val
  .next (live s (if x.job.isSome && decide (0 < x.members) && decide (x.members ≤ x.arrived.length) then
    completeEpisode p.val s1 else s1))

/-- COMMIT: a commit point; the snapshot holds the resume index and the registers (R199), and the context's draws start afresh
(R217). -/
def execCommit (n : Fin 160) (c : Fin 8) (s : State) : Ans :=
  .next (live s (dispatch .commit n.val c.val (fun t s =>
    let m : Mark := { commit := t.x.commits + 1, snap := { pc := tX t.w, regs := t.x.regs }, signal := tSignal t.w }
    settleArrive t.n (setCtx t.n t.i { t.x with commits := t.x.commits + 1, marks := t.x.marks ++ [m], accDraws := 0, cvtDraws := 0 } s)) s))

/-- END: the context ends. -/
def execEndOp (n : Fin 160) (c : Fin 8) (s : State) : Ans :=
  .next (live s (dispatch .ended n.val c.val (fun t s =>
    settleArrive t.n (barrierCheck t.n (signalOpt t.n (tSignal t.w)
      (setCtx t.n t.i { t.x with st := .ended } s)))) s))

/-! Move operations. -/

/-- PVAs of the rows of a move in a slot. -/
def moveRows (t : Turn) (rows : Nat) : List Nat :=
  (List.range rows).map (fun r => slotArg t.j (tSlot t.w) + rowOff t r)

/-- Pre-check of the rows of a slot. -/
def checkSlot (t : Turn) (acc : Access) (n : Nat) (rows : List Nat) (s : State) : Option (Refuse × Nat) × State :=
  let lo := slotArg t.j (tSlot t.w)
  let (f, _, s) := checkRows t acc lo (lo + slotBytes t.j (tSlot t.w)) n (rows.headD 0) rows [] s
  (f, s)

/-- Lines that rows of `n` bytes touch. -/
def lineCount (n : Nat) (rows : List Nat) : Nat := (rows.map (fun p => (pieces p n).length)).foldl (· + ·) 0

/-- How a move fares when its turn at the engine has come: its effect is taken, it waits for a line that is being recalled,
or its job ends. -/
inductive MoveRes where
  | took | waits | over
  deriving DecidableEq, Repr

/-- Offsets of the rows of a CONST load. -/
def constRows (t : Turn) : List Nat := (List.range (tMoveRows t.w)).map (rowOff t)

/-- The effect of a TLOAD: rows of the constant section, or of pool memory, read in order into the core store. -/
def runTload (t : Turn) (s : State) : MoveRes × State :=
  let k := rowBytesOf (tFd t.w)
  if tMode t.w = 1 then
    (.took, csWrite t.n 3 t.i (128 * tD t.w) ((constRows t).flatMap (fun o => slice t.j.consts o k)) s)
  else
    let rows := moveRows t (tMoveRows t.w)
    match rowsReady t k rows s with
    | (false, s) => (.waits, s)
    | (true, s) =>
      match readRows t k rows s with
      | (none, s) => (.waits, s)
      | (some (d, none), s) => (.took, csWrite t.n 3 t.i (128 * tD t.w) d s)
      | (some (_, some f), s) => (.over, moveEnds t f s)

/-- Writes the rows of a TSTORE in order, up to the first that fails. -/
def storeRows (t : Turn) (n : Nat) : List Nat → List Byte → State → Option EngFail × State
  | [], _, s => (none, s)
  | p :: r, d, s =>
    match engWrite (moveActor s t p) p (slice d 0 n) s with
    | (_, none, s) => storeRows t n r (d.drop n) s
    | (_, some f, s) => (some f, s)

/-- The effect of a TSTORE. -/
def runTstore (t : Turn) (s : State) : MoveRes × State :=
  let k := rowBytesOf (tFa t.w)
  let (d, s) := csRead t.n 3 t.i (128 * tA t.w) (tMoveRows t.w * k) s
  match storeRows t k (moveRows t (tMoveRows t.w)) d s with
  | (none, s) => (.took, s)
  | (some f, s) => (.over, moveEnds t f s)

/-- Bytes of a TREDUCEW's chunk in the contribution format (R177). -/
def chunkSrc (x : Window) : Nat := chunkBytes x / redDstBytes x.red * redSrcBytes x.red

/-- What a TREDUCEW names: its window, and chunk, contributor and generation from its registers (Table 7.6). -/
def moveContrib (t : Turn) : Contrib :=
  { window := tWindow t.w, chunk := (sreg t.x (tR1 t.w)).toNat, contributor := (sreg t.x (tR2 t.w)).toNat
    gen := (sreg t.x (tR3 t.w)).toNat % 65536 }

/-- The effect of a TREDUCEW: one chunk read from A is sent as a windowed contribution; a refused translation is a tile fault
(R205), and a chunk beyond the declared core store ends the job with CONFLICT, unsent. -/
def runTreducew (t : Turn) (s : State) : MoveRes × State :=
  let w := tWindow t.w
  let x := window s w
  let a := 128 * tA t.w
  if t.j.coreStoreBytes < a + chunkSrc x then (.over, endJob t.jid .conflict 0 [] s)
  else
    let (d, s) := csRead t.n 3 t.i a (chunkSrc x) s
    let act := moveActor s t 0
    (.took, collectWaits t.jid (settleOrder (winContribute (moveContrib t)
      { kind := .reduceW, who := act.who, tenant := act.tenant, pva := 0, entryQ := act.q, data := d, owner := act.owner
        tile := act.tile } 2 (.inPool false)
      (fun s =>
        let (id, s) := openPend .kept .reduceW 1 false s
        (id, match job s t.jid with
          | some j => setJob t.jid (some { j with waits := j.waits ++ [(id, t.tile)] }) s
          | none => s))
      (fun st s => match st with
        | .ok => s
        | .policed => endJob t.jid .conflict 0 [] s
        | st => endJob t.jid st 0 [] s)
      (fun r p s => moveFault t r p s) s)))

/-- The effect of a TCOPY. -/
def runTcopy (t : Turn) (s : State) : MoveRes × State :=
  let (d, s) := csRead t.n 3 t.i (128 * tA t.w) (128 * tF t.w 96 16) s
  (.took, csWrite t.n 3 t.i (128 * tD t.w) d s)

/-- The effect of a move. -/
def runMove (k : TKind) (t : Turn) (s : State) : MoveRes × State :=
  match k with
  | .tload => runTload t s
  | .tstore => runTstore t s
  | .treducew => runTreducew t s
  | _ => runTcopy t s

/-- A move is dispatched: it acts at once unless an earlier move of its engine still waits, or a line it reads is being
recalled; then it waits in the engine's queue (R186, R187). -/
def enterMove (k : TKind) (t : Turn) (s : State) (lines : Option Nat := none) (rd : List (Nat × Nat) := tReads k t.w)
    (pool : List (Nat × Nat) := []) : State :=
  let s := enqueueOp k t s (lines := lines) (rd := rd) (pool := pool) (waits := true)
  let q := tget [] (coreOf s t.n).engines 3
  if (q.take (q.length - 1)).any (·.waits) then s
  else
    match runMove k t s with
    | (.took, s) =>
      let c := coreOf s t.n
      let q := tget [] c.engines 3
      let q := q.take (q.length - 1) ++ (q.drop (q.length - 1)).map (fun o => { o with waits := false, raced := [] })
      setCore t.n { c with engines := tput [] c.engines 3 q } s
    | (_, s) => s

/-- TLOAD: pre-checked (R78); a row outside the constant section faults with NO_RIGHT (Table 7.7); an uncorrectable read ends
the job with POISON. -/
def execTload (n : Fin 160) (c : Fin 8) (s : State) : Ans :=
  .next (live s (dispatch .tload n.val c.val (fun t s =>
    let k := rowBytesOf (tFd t.w)
    if tMode t.w = 1 then
      match (constRows t).find? (fun o => decide (t.j.consts.length < o + k)) with
      | some o =>
        moveFault t { reason := .noRight, access := 0, level := 3, extent := none }
          (t.j.imagePva + leAt t.j.header 24 4 + o) s
      | none => enterMove .tload t s (lines := some (ceilDiv (tMoveRows t.w * k) 64))
    else
      let rows := moveRows t (tMoveRows t.w)
      match checkSlot t .read k rows s with
      | (some (r, p), s) => moveFault t r p s
      | (none, s) => enterMove .tload t s (lines := some (lineCount k rows))) s))

/-- TSTORE: pre-checked, then each row written to pool memory. -/
def execTstore (n : Fin 160) (c : Fin 8) (s : State) : Ans :=
  .next (live s (dispatch .tstore n.val c.val (fun t s =>
    let rows := moveRows t (tMoveRows t.w)
    let k := rowBytesOf (tFa t.w)
    match checkSlot t .write k rows s with
    | (some (r, p), s) => moveFault t r p s
    | (none, s) => enterMove .tstore t s (lines := some (lineCount k rows)) (pool := rows.map (fun p => (p, k)))) s))

/-- The slot's range holds each row. -/
def outOfSlot (t : Turn) (n : Nat) (rows : List Nat) : Option Nat :=
  let lo := slotArg t.j (tSlot t.w)
  rows.find? (fun p => decide (p < lo) || decide (lo + slotBytes t.j (tSlot t.w) < p + n))

/-- Records a held effect (R201). -/
def holdEffect (t : Turn) (e : HeldEff) (s : State) : State :=
  match job s t.jid with
  | some j => setJob t.jid (some { j with effects := j.effects ++ [e] }) s
  | none => s

/-- TREDUCE: recorded as a held effect; a row outside its slot faults, one that breaks R177 ends the job. -/
def execTreduce (n : Fin 160) (c : Fin 8) (s : State) : Ans :=
  .next (live s (dispatch .treduce n.val c.val (fun t s =>
    let rows := moveRows t (tMoveRows t.w)
    let d := redDstBytes (tRed t.w)
    match outOfSlot t (128 * d) rows with
    | some p => moveFault t { reason := .noRight, access := 2, level := 3, extent := none } p s
    | none =>
      if rows.any (fun p => p % d != 0 || decide (4096 < p % 4096 + 128 * d)) then endJob t.jid .policed 8 [] s
      else holdEffect t { rank := t.rank s, commit := t.tile, ctx := t.i, isAtomic := false, rows := rows, op := tRed t.w
                          src := 128 * tA t.w, signal := tSignal t.w } s) s))

/-- TATOMIC: recorded as a held effect with its operands; an address that breaks R111 faults with NO_RIGHT. -/
def execTatomic (n : Fin 160) (c : Fin 8) (s : State) : Ans :=
  .next (live s (dispatch .tatomic n.val c.val (fun t s =>
    let p := slotArg t.j (tSlot t.w) + (sreg t.x (tR1 t.w)).toNat
    let k := atomBytes (tRed t.w)
    let two (r : Nat) : Nat := (sreg t.x r).toNat + (if k = 16 then (sreg t.x ((r + 1) % 64)).toNat * 2 ^ 64 else 0)
    if (outOfSlot t k [p]).isSome ∨ p % k ≠ 0 then
      moveFault t { reason := .noRight, access := 3, level := 3, extent := none } p s
    else
      holdEffect t { rank := t.rank s, commit := t.tile, ctx := t.i, isAtomic := true, rows := [p], op := tRed t.w
                     opA := two (tR2 t.w) % 2 ^ (8 * k), opC := two (tR3 t.w) % 2 ^ (8 * k)
                     reg := tD t.w % 64, signal := tSignal t.w } s) s))

/-- TREDUCEW: one chunk read from A goes to its window at once (R201, R205). -/
def execTreducew (n : Fin 160) (c : Fin 8) (s : State) : Ans :=
  .next (live s (dispatch .treducew n.val c.val (fun t s =>
    let x := window s (tWindow t.w)
    enterMove .treducew t s (rd := [(128 * tA t.w, chunkSrc x)])
      (pool := [(x.dstPva + (sreg t.x (tR1 t.w)).toNat * chunkBytes x, chunkBytes x)])) s))

/-- TCOPY. -/
def execTcopy (n : Fin 160) (c : Fin 8) (s : State) : Ans :=
  .next (live s (dispatch .tcopy n.val c.val (fun t s => enterMove .tcopy t s) s))

/-! Matrix operations. -/

/-- Rows of an operand as values. -/
def rowsOf (code rows : Nat) (d : List Byte) : List (List Fp) :=
  (List.range rows).map (fun r => rowVals code (slice d (r * rowBytesOf code) (rowBytesOf code)))

/-- MMA (R220 to R223). -/
def execMma (n : Fin 160) (c : Fin 8) (s : State) : Ans :=
  .next (live s (dispatch .mma n.val c.val (fun t s =>
    let e := tEng t.w
    let (a, s) := csRead t.n e t.i (128 * tA t.w) (tRows t.w * rowBytesOf (tFa t.w)) s
    let (b, s) := csRead t.n e t.i (128 * tB t.w) (128 * rowBytesOf (tFb t.w)) s
    let ra := rowsOf (tFa t.w) (tRows t.w) a
    let rb := rowsOf (tFb t.w) 128 b
    let old := (coreOf s t.n).acc
    enqueueOp .mma t (setAcc t.n e (tAcc t.w) (tRows t.w) (fun r k =>
      mmaDot (tget 0 old (accKey e (tAcc t.w) r k)) (tMode t.w == 1) (ra.getD r []) (rb.getD k [])) s)) s))

/-- Rounding of an operation's element (R215 to R217): the draws of its context on its path go on from `base`, seeded at the
context's last commit point; the contexts of a core take turns at the numbers of the path's generator. -/
def roundOf (t : Turn) (s : State) (path mode base k : Nat) : Round :=
  match mode with
  | 0 => .near
  | 2 => .zero
  | _ => .stoch (Config.srDraw path t.j.srSeed (if t.j.srFixed then 0 else t.j.serial) (t.rank s)
      t.x.commits (8 * (base + k) + t.i)).toNat

/-- ACCRD: rows converted to FD; FP32 copies exactly; CLEAR zeroes the rows after they are read (R224). -/
def execAccrd (n : Fin 160) (c : Fin 8) (s : State) : Ans :=
  .next (live s (dispatch .accrd n.val c.val (fun t s =>
    let e := tEng t.w
    let x := coreOf s t.n
    let md := tMode t.w % 4
    let val (r k : Nat) : Nat := tget 0 x.acc (accKey e (tAcc t.w) r k)
    let d := (List.range (tRows t.w)).flatMap (fun r =>
      if tFd t.w = 8 then (List.range 128).flatMap (fun k => leBytes 4 (val r k))
      else rowEnc (tFd t.w) (fun k => roundOf t s 0 md t.x.accDraws (128 * r + k)) ((List.range 128).map (fun k => f32 (val r k))))
    let s := if md = 1 then setCtx t.n t.i { t.x with accDraws := t.x.accDraws + 128 * tRows t.w } s else s
    let s := if bitOf (tMode t.w) 2 then setAcc t.n e (tAcc t.w) (tRows t.w) (fun _ _ => 0) s else s
    enqueueOp .accrd t (csWrite t.n e t.i (128 * tD t.w) d s)) s))

/-- ACCWR: FP32 rows loaded exactly. -/
def execAccwr (n : Fin 160) (c : Fin 8) (s : State) : Ans :=
  .next (live s (dispatch .accwr n.val c.val (fun t s =>
    let e := tEng t.w
    let (a, s) := csRead t.n e t.i (128 * tA t.w) (512 * tRows t.w) s
    enqueueOp .accwr t (setAcc t.n e (tAcc t.w) (tRows t.w) (fun r k => leAt a (512 * r + 4 * k) 4) s)) s))

/-! Vector and reduce operations. -/

/-- Element codes of an operand of the vector engine. -/
def vecCodes (t : Turn) (a n code : Nat) (s : State) : List Nat × State :=
  let b := elemBits code / 8
  let (d, s) := csRead t.n 2 t.i a (n * b) s
  ((List.range n).map (fun i => leAt d (i * b) b), s)

/-- Element codes as bytes. -/
def codeBytes (code : Nat) (l : List Nat) : List Byte := l.flatMap (leBytes (elemBits code / 8))

/-- VBIN: D = A op B, element by element. -/
def execVbin (n : Fin 160) (c : Fin 8) (s : State) : Ans :=
  .next (live s (dispatch .vbin n.val c.val (fun t s =>
    let k := 128 * tRows t.w
    let f := tFd t.w
    let (a, s) := vecCodes t (128 * tA t.w) k f s
    let (b, s) := vecCodes t (128 * tB t.w) k f s
    enqueueOp .vbin t (csWrite t.n 2 t.i (128 * tD t.w) (codeBytes f (List.zipWith (vecBin f (tMode t.w)) a b)) s)) s))

/-- VFMA: D = A × B + D, rounded once. -/
def execVfma (n : Fin 160) (c : Fin 8) (s : State) : Ans :=
  .next (live s (dispatch .vfma n.val c.val (fun t s =>
    let k := 128 * tRows t.w
    let f := tFd t.w
    let (a, s) := vecCodes t (128 * tA t.w) k f s
    let (b, s) := vecCodes t (128 * tB t.w) k f s
    let (d, s) := vecCodes t (128 * tD t.w) k f s
    enqueueOp .vfma t (csWrite t.n 2 t.i (128 * tD t.w) (codeBytes f ((List.range k).map (fun i =>
      vecFma f (a.getD i 0) (b.getD i 0) (d.getD i 0)))) s)) s))

/-- VFUNC: D = f(A). -/
def execVfunc (n : Fin 160) (c : Fin 8) (s : State) : Ans :=
  .next (live s (dispatch .vfunc n.val c.val (fun t s =>
    let f := tFd t.w
    let (a, s) := vecCodes t (128 * tA t.w) (128 * tRows t.w) f s
    enqueueOp .vfunc t (csWrite t.n 2 t.i (128 * tD t.w) (codeBytes f (a.map (vecFunc f (tMode t.w)))) s)) s))

/-- VROWRED: D is a column of the reductions of the rows. -/
def execVrowred (n : Fin 160) (c : Fin 8) (s : State) : Ans :=
  .next (live s (dispatch .vrowred n.val c.val (fun t s =>
    let f := tFd t.w
    let (a, s) := vecCodes t (128 * tA t.w) (128 * tRows t.w) f s
    let (ord, s) := drawOrderAt [t.j.quadrant, t.j.serial, t.rank s, t.x.commits, t.i, t.x.pc] s
    let col := (List.range (tRows t.w)).map (fun r =>
      rowRed f (tMode t.w) (anySum f32Add 0 (fun k => ord (256 * r + k)) 128) ((a.drop (128 * r)).take 128))
    enqueueOp .vrowred t (csWrite t.n 2 t.i (128 * tD t.w) (codeBytes f col) s)) s))

/-- VBCAST: D[r][c] = A[r][c] op B[r], B a column. -/
def execVbcast (n : Fin 160) (c : Fin 8) (s : State) : Ans :=
  .next (live s (dispatch .vbcast n.val c.val (fun t s =>
    let k := 128 * tRows t.w
    let f := tFd t.w
    let (a, s) := vecCodes t (128 * tA t.w) k f s
    let (b, s) := vecCodes t (128 * tB t.w) (tRows t.w) f s
    enqueueOp .vbcast t (csWrite t.n 2 t.i (128 * tD t.w) (codeBytes f ((List.range k).map (fun i =>
      vecBin f (tMode t.w) (a.getD i 0) (b.getD (i / 128) 0)))) s)) s))

/-- VCVT: A converted from FA to FD; an MX destination gets its scales by R214. -/
def execVcvt (n : Fin 160) (c : Fin 8) (s : State) : Ans :=
  .next (live s (dispatch .vcvt n.val c.val (fun t s =>
    let (a, s) := csRead t.n 2 t.i (128 * tA t.w) (tRows t.w * rowBytesOf (tFa t.w)) s
    let d := (List.range (tRows t.w)).flatMap (fun r =>
      rowEnc (tFd t.w) (fun k => roundOf t s 1 (tMode t.w) t.x.cvtDraws (128 * r + k))
        (rowVals (tFa t.w) (slice a (r * rowBytesOf (tFa t.w)) (rowBytesOf (tFa t.w)))))
    let s := if tMode t.w = 1 then setCtx t.n t.i { t.x with cvtDraws := t.x.cvtDraws + 128 * tRows t.w } s else s
    enqueueOp .vcvt t (csWrite t.n 2 t.i (128 * tD t.w) d s)) s))

/-- RACC: D = D op A under the reduction byte (Table 6.8). -/
def execRacc (n : Fin 160) (c : Fin 8) (s : State) : Ans :=
  .next (live s (dispatch .racc n.val c.val (fun t s =>
    let red := tRed t.w
    let k := 128 * tRows t.w
    let (a, s) := csRead t.n 4 t.i (128 * tA t.w) (k * redSrcBytes red) s
    let (d, s) := csRead t.n 4 t.i (128 * tD t.w) (k * redDstBytes red) s
    enqueueOp .racc t (csWrite t.n 4 t.i (128 * tD t.w) (redBytes red k d a) s)) s))

/-- The turn of an operation that waited in its engine's queue, as at its dispatch. -/
def opTurn (s : State) (n : Nat) (o : EngOp) : Option Turn :=
  (jobOn s n).map (fun c => { n := n, i := o.ctx, jid := c.1, j := c.2, w := o.word
                              x := { ctxOf (coreOf s n) o.ctx with regs := o.regs, commits := o.commits } })

/-- The turn at the engine of its oldest operation: one that waited takes its effect now, unless its core is fenced or has
stopped short of the operation's tile (R200, R202). -/
def runOldest (n : Nat) (o : EngOp) (s : State) : MoveRes × State :=
  if !o.waits then (.took, s)
  else
    match opTurn s n o, tKindOf (tOpc o.word) with
    | some t, some k =>
      if coreFenced s n || ((coreOf s n).frozen && t.j.fences.isEmpty && decide (t.j.target ≤ o.commits)) then (.waits, s)
      else runMove k t s
    | _, _ => (.waits, s)

/-- TILE_OP_COMPLETE: the oldest operation of an engine (0, 1 matrix; 2 vector; 3 move; 4 reduce) has finished with the
core store; it is counted and signals its semaphore (R187, R234, R461). -/
def execTileOpComplete (n : Fin 160) (e : Fin 5) (now : Nat) (s : State) : Ans :=
  let s1 := advance now s
  .next (live s (match tget [] (coreOf s1 n.val).engines e.val with
    | [] => s1
    | o :: _ =>
      match runOldest n.val o s1 with
      | (.took, s1) =>
        let s2 := flushBusy n.val e.val s1
        let c := coreOf s2 n.val
        let s2 := setCore n.val { c with engines := tput [] c.engines e.val ((tget [] c.engines e.val).drop 1) } s2
        let s2 := signalOpt n.val o.signal (cntAdd cOps (n.val / 40) o.count o.rows s2)
        (match c.job with
         | some jid => collect jid s2
         | none => s2)
      | (_, s1) => s1))

end Sys2Proof.Machine
end

