-- ==== Sys2Proof/Machine/CxlOps.lean ====
section
/-! DEFINITION. CXL host ports (chapter 13), shared operations: windows and their resets (R332 to R335), link-down
(R343). -/

namespace Sys2Proof.Machine

/-- Logical devices of a port. -/
def ldsOf (p : Nat) : List Nat := (List.range 16).map (16 * p + ·)

/-- The grants of a logical device, free ones apart. -/
def grantsOf (s : State) (d : Nat) : List (Nat × Wdw) :=
  (List.range 32).filterMap (fun g => if (wdw s d g).st = .empty then none else some (g, wdw s d g))

/-- A port trains or runs at a CXL version (Table 13.6). -/
def versionOf (s : State) (d : Nat) : Nat := (cxlPort s (d / 16)).version

/-- A window closes by decommit or reset: its grant remains, exclusive rights end, and an HDM-DB window's directory
entries are resolved by scans (R334). A cut that has been ordered stays so. After a finished cut the grant becomes FREE (R339
step 5); during one the scans go on, as of a host that is gone. -/
def closeWindow (d g : Nat) (s : State) : State :=
  let w := wdw s d g
  match w.st with
  | .open_ =>
    let w' := { w with opening := none, st := .granted, hpaBase := 0, decoder := 0 }
    let s := endExclusive w.extent d (setWdw d g w' s)
    if w.mode = 2 then startScans d (some w.extent) true false s else s
  | .granted => endExclusive w.extent d (setWdw d g { w with opening := none } s)
  | .cut =>
    if !w.cutting then setWdw d g {} s
    else if w.mode = 2 then startScans d (some w.extent) true false s
    else s
  | .empty => s

/-- A logical device is reset (R332): decoders decommitted and windows closed, its ATC entries dropped, MSI-X messages that
its queues still coalesce discarded (DEDUCED: what is pending), its configuration space and its registers of R488 at their
reset values; tenant, grants and tethers stay. It is a member reset (Table 9.5). -/
def resetLd (d : Nat) (s : State) : State :=
  let s := forEach (List.range 32) (fun g s => closeWindow d g s) s
  let q := d / 16
  let u := xunit s q
  let s := setXunit q { u with atc := u.atc.filter (fun e => e.ld != d), atsInvals := u.atsInvals.filter (fun i => i.ld != d) } s
  let x := logDev s d
  let s := { s with
    obs := { s.obs with cursor := tput 0 s.obs.cursor d 0 }
    map := { s.map with
      badWrite := tput false s.map.badWrite d false, badRead := tput false s.map.badRead d false
      lastOffset := tput 0 s.map.lastOffset d 0
      msix := s.map.msix.filter (fun c => c.1 / 8192 != d), comp := s.map.comp.filter (fun c => c.1 / 8192 != d)
      mbox := s.map.mbox.filter (fun c => c.1 / 512 != d) } }
  let s := { s with que := { s.que with queues := s.que.queues.map (fun c =>
    if c.2.notifyKind == 1 && decide ((group s (c.1 / 8)).owner = .host d) then
      (c.1, { c.2 with coalesced := 0, posts := c.2.posts.map (fun p => { p with notify := false }) })
    else c) } }
  memberReset 0 d (setLogDev d { x with biEnabled := false, eventPolicy := 0, errNotCommitted := 0, resetTime := s.time } s)

/-- LINK_STATE changes; a link that is not up has no version, and its logical devices are at none. -/
def setLink (p st : Nat) (s : State) : State :=
  let x := cxlPort s p
  let s := if st = 2 then s else forEach (ldsOf p) (fun d s => setLogDev d { logDev s d with dcd := false } s) s
  setCxlPort p (if st = 2 then { x with linkState := st, stateTime := s.time }
    else { x with linkState := st, stateTime := s.time, width := 0, rateGts := 0, version := 0, mld := false, ldCount := 0 }) s

/-- The queues that a link-down stops: host rings of a logical device of the port (Table 5.19). -/
def linkQueues (s : State) (p : Nat) : List Nat :=
  (s.que.queues.filter (fun c => c.2.placement == 0 && decide (c.2.st = .running) &&
    (match (group s (c.1 / 8)).owner with | .host d => d / 16 == p | _ => false) &&
    decide ((group s (c.1 / 8)).st ≠ .unbound))).map (·.1)

/-- A link goes down with work outstanding (R343 steps 1 to 4): requests accepted are carried out and their answers
discarded, logical devices reset, directories scanned, host-ring queues stopped, completions that await a translation
held. -/
def linkDown (p st : Nat) (s : State) : State :=
  let mine (r : Reply) : Bool := match r with | .cxl d _ => d / 16 == p | _ => false
  let reqs := (s.dir.pends.filter (fun c => match c.2 with | some x => mine x.reply | none => false)).length
  let s := { s with dir := { s.dir with pends := s.dir.pends.map (fun c => (c.1, match c.2 with
    | some x => some (if mine x.reply then { x with reply := .silent } else x)
    | none => none)) } }
  let s := bump cCxl p 6 (setLink p st s)
  let qs := linkQueues s p
  let x := cxlPort s p
  let s := setCxlPort p { x with downAt := some s.time, downReqs := reqs, downPoisoned := 0, downQueues := qs.length } s
  let s := forEach (ldsOf p) (fun d s => startScans d none true true (resetLd d s)) s
  let s := forEach qs (queueFault · 8) s
  let lost := s.cxl.dmaReads.filter (fun r => r.ld / 16 == p)
  let s := { s with cxl := { s.cxl with dmaReads := s.cxl.dmaReads.filter (fun r => r.ld / 16 != p) } }
  let s := forEach lost (fun r s => setQueue r.queue { queue s r.queue with fetching := false } s) s
  let held := (s.que.queues.filter (fun c => c.2.placement == 0 && !c.2.awaiting.isEmpty &&
    (match (group s (c.1 / 8)).owner with | .host d => d / 16 == p | _ => false))).map (·.1)
  forEach held denyAwaiting s

/-- A port may train: enabled, not fenced, its quadrant in service. -/
def mayTrain (s : State) (p : Nat) : Bool :=
  (cxlPort s p).enable && !(tget false s.fen.fencedCxl p) && !(quad s p).faultFenced && decide (s.clk.phase = .released) &&
  !(gated s)

/-- Training begins on a port that may train. -/
def trainCxl (p : Nat) (s : State) : State :=
  if mayTrain s p && decide ((cxlPort s p).linkState ≠ 2) then setLink p 1 s else s

/-- The logical device exists on a link that is up. -/
def ldUp (s : State) (d : Nat) : Bool :=
  let p := cxlPort s (d / 16)
  p.linkState == 2 && decide (d % 16 < p.ldCount)

/-- The window that a request hits when it may be accepted (R335): open, its capacity accepted, within the extent's
present size. -/
def openHit (s : State) (d hpa : Nat) : Option (Nat × Wdw) :=
  match hostWindow s d hpa with
  | some (g, w) =>
    if w.st = .open_ ∧ !w.offered ∧ hpa - w.hpaBase < (extent s w.extent).blocks.length * blockBytes then some (g, w) else none
  | none => none

/-- A refused request: the first in each window since it was opened or cut is recorded (R335). -/
def noteRefused (d hpa : Nat) (s : State) : State :=
  match hostWindow s d hpa with
  | some (g, w) =>
    if w.refusedSeen then s else event 0x18 [d, g, hpa] (setWdw d g { w with refusedSeen := true } s)
  | none => s

end Sys2Proof.Machine
end

