-- ==== Sys2Proof/Machine/Cxl.lean ====
section
/-! DEFINITION. CXL.mem, links, logical devices, windows, dynamic capacity (chapter 13; opcode-table rows CXL_MEM_READ to
CXL_MEM_INV and CXL_LINK_TRAINED to DMA_READ_COMPLETE, DIRECTORY_SCAN). -/

namespace Sys2Proof.Machine

/-! CXL.mem. -/

/-- A request of a host's window: answered as `refused` says when its translation fails (Table 3.4). -/
def cxlRequest (d tag hpa : Nat) (k : ReqKind) (acc : Access) (mk : LineReq → LineReq) (isWrite : Bool)
    (refused : State → State) (s : State) : State :=
  let t := (logDev s d).tenant
  let q := d / 16
  let pva := (hostPva s d hpa).getD 0 / 64 * 64
  match translate q t pva (.ld d) .port acc s with
  | (.error r, s) => refused (refuse q t pva r 0 d s)
  | (.ok (ppa, _), s) =>
    let (id, s) := openPend (.cxl d tag) k 1 false s
    deliver (ppa / 64) 1 (mk { kind := k, who := .ld d, tenant := t, pva := pva, entryQ := q, pend := id }) isWrite s

/-- What a CXL.mem read asks for (Table 4.3): MetaValue I or No-Op, S, or A. -/
def readKind (m : Nat) : ReqKind × Access :=
  match m with
  | 1 => (.rdShared, .read)
  | 2 => (.rdOwn, .own)
  | _ => (.rdOnce, .read)

/-- A read that a port has received: outside an open window it returns poison (R335). -/
def cxlRead (d tag hpa m : Nat) (s : State) : State :=
  let bad (s : State) : State := emit (.cxl d tag true 0 []) (bump cCxl (d / 16) 2 s)
  match openHit s d hpa with
  | none => bad (noteRefused d hpa s)
  | some (_, w) =>
    let (k, acc) := readKind (if w.mode = 2 then m else 0)
    cxlRequest d tag hpa k acc id false bad (bump cCxl (d / 16) 0 s)

/-- CXL_MEM_READ: `m` is the MetaValue (0 I or No-Op, 1 S, 2 A), which counts on an HDM-DB window alone (R115 to R117). -/
def execCxlMemRead (d : Fin 64) (tag hpa : Nat) (m : Fin 3) (s : State) : Ans :=
  .next (live s (
    if ldUp s d.val then cxlRead d.val tag hpa m.val (orderRec (.cxlRead d.val tag hpa m.val) s) else s))

/-- The line after a host's write of the bytes under a mask. -/
def maskedLine (s : State) (l mask : Nat) (b : List Byte) : List Byte :=
  let old := viewLine s l
  (List.range 64).map (fun i => if bitOf mask i then byteAt b i else byteAt old i)

/-- The line on which a host's write is a WrBack or the answer of a snoop: the logical device is the recorded owner, or a
recall to it is outstanding (R96, R98). -/
def wbTarget (s : State) (d hpa : Nat) : Option Nat :=
  match answerLine s (.ld d) (hostAddr s d hpa) with
  | some l =>
    let x := line s l
    if x.recalls.any (fun r => decide (r.holder = .ld d)) || (decide (x.dir.st = .o) && decide (x.dir.ptrs = [.ld d])) then some l
    else none
  | none => none

/-- A host's write that a port has received: the recorded owner's is a WrBack, even to a cut window; any other is a WrLine
or WrPart, or is completed and dropped outside an open window (R96, R335, R341). -/
def cxlWrite (d tag hpa mask : Nat) (data : List Byte) (poison : Bool) (s : State) : State :=
  let done (s : State) : State := emit (.cxl d tag false 0 []) s
  let drop (s : State) : State := done (bump cCxl (d / 16) 3 s)
  let noted (s : State) : State := when poison (bump cCxl (d / 16) 8) (bump cCxl (d / 16) 1 s)
  match wbTarget s d hpa with
  | some l => done (absorbAt (d / 16) l (.ld d) (some (maskedLine s l mask data)) poison true (noted s))
  | none =>
    match openHit s d hpa with
    | none => drop (noteRefused d hpa s)
    | some _ =>
      let full := decide (mask = 2 ^ 64 - 1)
      cxlRequest d tag hpa (if full then .wrLine else .wrPart) .write
        (fun r => { r with data := slice data 0 64, mask := mask, poison := poison }) true drop (noted s)

/-- CXL_MEM_WRITE: MemWr with every byte of the mask set, MemWrPtl otherwise. -/
def execCxlMemWrite (d : Fin 64) (tag hpa : Nat) (mask : BitVec 64) (data : List Byte) (poison : Bool) (s : State) : Ans :=
  .next (live s (
    if ldUp s d.val then
      cxlWrite d.val tag hpa mask.toNat data poison
        (orderRec (.cxlWrite d.val tag hpa mask.toNat (slice data 0 64) poison) s)
    else s))

/-- A host's MemInv with MetaValue A: an Upgrade on an HDM-DB window; elsewhere it completes without a grant, since the
device stores no metadata (R96). One that fails its translation completes without a grant too (DESIGN CHOICE: Table 3.4
names reads and writes alone). -/
def cxlInv (d tag hpa : Nat) (s : State) : State :=
  let done (s : State) : State := emit (.cxl d tag false 0 []) s
  match openHit s d hpa with
  | none => done (noteRefused d hpa s)
  | some (_, w) => if w.mode = 2 then cxlRequest d tag hpa .upgrade .own id false done s else done s

/-- CXL_MEM_INV. -/
def execCxlMemInv (d : Fin 64) (tag hpa : Nat) (s : State) : Ans :=
  .next (live s (
    if ldUp s d.val then cxlInv d.val tag hpa (orderRec (.cxlInv d.val tag hpa) s) else s))

/-! Links. -/

/-- CXL_LINK_TRAINED: a port that trains comes up at a version, width and rate, or is held down below x4 or 32 GT/s
(R330, Table 13.1); behind a switch that supports it and with MLD_ALLOW it has several logical devices (R331). -/
def execCxlLinkTrained (p : Fin 4) (version : Fin 4) (width rate : Nat) (mldSwitch : Bool) (lds : Fin 17) (now : Nat)
    (s : State) : Ans :=
  let s1 := advance now s
  let x := cxlPort s1 p.val
  .next (live s (
    if x.linkState ≠ 1 then s1
    else if !([4, 8, 16].contains width) || !([32, 64].contains rate) || version.val == 0 ||
        (rate == 64 && version.val != 3) then setLink p.val 0 s1
    else
      let mld := mldSwitch && x.mldAllow && decide (2 ≤ version.val)
      let s2 := setCxlPort p.val { x with
        linkState := 2, stateTime := s1.time, version := version.val, width := width, rateGts := rate, mld := mld
        ldCount := if mld then max 1 lds.val else 1, downAt := none } s1
      forEach (ldsOf p.val) (fun d s => setLogDev d { logDev s d with dcd := decide (version.val = 3) } s) s2))

/-- LINK_DOWN. -/
def execLinkDown (p : Fin 4) (now : Nat) (s : State) : Ans :=
  let s1 := advance now s
  .next (live s (if (cxlPort s1 p.val).linkState = 2 then linkDown p.val 0 s1 else s1))

/-- LINK_DOWN_SCAN_COMPLETE: no scan of the port's logical devices has a line left; the event is recorded, and an enabled
port trains again (R343 step 5). -/
def execLinkDownScanComplete (p : Fin 4) (now : Nat) (s : State) : Ans :=
  let s1 := advance now s
  let x := cxlPort s1 p.val
  let mine := s1.dir.scans.filter (fun sc => sc.link && sc.ld / 16 == p.val)
  .next (live s (match x.downAt with
    | none => s1
    | some _ =>
      if mine.any (fun sc => s1.dir.lines.any (fun c => scanHits s1 sc c.1)) then s1
      else
        let s2 := { s1 with dir := { s1.dir with scans := s1.dir.scans.filter (fun sc => !(sc.link && sc.ld / 16 == p.val)) } }
        let s2 := event 0x19 [p.val, x.downReqs, x.downPoisoned, x.downQueues] (setCxlPort p.val { x with downAt := none } s2)
        if x.linkState = 3 then s2 else trainCxl p.val s2))

/-- DIRECTORY_SCAN: a scan reaches a line's entry. -/
def execDirectoryScan (l : Nat) (s : State) : Ans := .next (live s (scanLine l s))

/-- CONVENTIONAL_RESET: PERST of the port resets every logical device, and the link trains again (R332). -/
def execConventionalReset (p : Fin 4) (now : Nat) (s : State) : Ans :=
  let s1 := advance now s
  .next (live s (
    let s2 := forEach (ldsOf p.val) resetLd s1
    if (cxlPort s2 p.val).linkState = 2 then setLink p.val 1 s2 else s2))

/-- RESET_LD. -/
def execResetLd (d : Fin 64) (s : State) : Ans := .next (served s (fmDone .ok [] (resetLd d.val s)))

/-- BIND_LD: only a logical device without windows and tethers changes its tenant (R34). -/
def execBindLd (d : Fin 64) (t : Fin 1024) (s : State) : Ans :=
  .next (served s (
    if !((grantsOf s d.val).isEmpty) || tethersOf s (.ld d.val) != 0 then fmDone .conflict [] s
    else if !(tenantLive s t.val) then fmDone .policed [] s
    else fmDone .ok [] (setLogDev d.val { logDev s d.val with tenant := t.val, bound := true } s)))

/-- PORT_ENABLE: disabling a port whose link is up is a link-down, after which it shows DISABLED (R343). The command sets
DC_RESPONSE_MS too, when it gives one (DESIGN CHOICE: the fabric manager sets that field, and no row of its own does). -/
def execPortEnable (p : Fin 4) (enable : Bool) (ctl : CxlPortSet) (now : Nat) (s : State) : Ans :=
  let s1 := advance now s
  let x := cxlPort s1 p.val
  let s2 := setCxlPort p.val { x with enable := enable, mldAllow := ctl.mldAllow
                                      dcResponseMs := match ctl.dcResponseMs with | some v => v.toNat | none => x.dcResponseMs } s1
  .next (served s (fmDone .ok [] (
    if enable then
      let s2 := if x.linkState = 3 then setLink p.val 0 s2 else s2
      if x.downAt.isNone then trainCxl p.val s2 else s2
    else if x.linkState = 2 then linkDown p.val 3 s2
    else setLink p.val 3 s2)))

/-! Grants and windows (R333, R334). -/

/-- The extent may be granted: ACTIVE or HELD, or the extent of an ordinary kite version CURRENT or SUPERSEDED. -/
def grantable (x : Extent) : Bool :=
  decide (x.kind ≠ .sealed) &&
  (match x.st with | .active => true | .held => true | .current => true | .superseded => true | _ => false)

/-- Blocks of DPA that a grant of the extent takes. -/
def grantSize (x : Extent) : Nat := if x.kind = .balloon then x.maxBlocks else x.blocks.length

/-- The lowest free DPA range of a size, in blocks, of the 2 TiB of a logical device. -/
def findDpa (s : State) (d n : Nat) : Option Nat :=
  lowest (8192 - n + 1) (fun b => decide (n ≤ 8192) && (grantsOf s d).all (fun w =>
    decide (b + n ≤ w.2.dpaBase) || decide (w.2.dpaBase + w.2.size ≤ b)))

/-- The lowest free dynamic capacity region for a balloon: region 0 takes the other extents (R336). -/
def findRegion (s : State) (d : Nat) : Option Nat :=
  (List.range 8).find? (fun r => decide (1 ≤ r) && !((grantsOf s d).any (fun w => w.2.balloon && w.2.region == r)))

/-- GRANT_EXTENT (R333): a tether, or an attachment on a kite version, and a DPA range; at CXL 3.1 the capacity is offered
to the host and the command completes with its answer (R337). -/
def execGrantExtent (d : Fin 64) (e : Fin 16384) (mode : Fin 3) (s : State) : Ans :=
  let x := extent s e.val
  let y := logDev s d.val
  let bal := decide (x.kind = .balloon)
  let obj : TetherObj := if x.kite.isSome then .attach e.val else .extent e.val
  .next (served s (
    if !(grantable x) || !y.bound || x.tenant != y.tenant || (decide (mode.val = 2) && !y.dcd) ||
        (bal && (!y.dcd || (findRegion s d.val).isNone)) then fmDone .policed [] s
    else
      match lowest 32 (fun g => decide ((wdw s d.val g).st = .empty)), findDpa s d.val (grantSize x) with
      | some g, some b =>
        match addTether { holder := .ld d.val, obj := obj, tenant := x.tenant } s with
        | (false, s) => fmDone .policed [] s
        | (true, s) =>
          let w : Wdw := { extent := e.val, mode := mode.val, st := .granted, balloon := bal
                           region := if bal then (findRegion s d.val).getD 0 else 0, dpaBase := b, size := grantSize x
                           offered := y.dcd, attach := x.kite.isSome }
          let s := setWdw d.val g w s
          if y.dcd then
            sendDc e.val true (setDcOps (s.cxl.dcOps ++ [{ extent := e.val, add := true, grant := some (d.val, g) }]) s)
          else fmDone .ok [g, b] s
      | _, _ => fmDone .policed [] s))

/-- Sets or clears a decoder's Error Not Committed. -/
def setDecErr (d k : Nat) (e : Bool) (s : State) : State :=
  let x := logDev s d
  let m := 1#32 <<< k
  setLogDev d { x with errNotCommitted := if e then x.errNotCommitted ||| m else x.errNotCommitted &&& ~~~m } s

/-- The decoder holds a window, or a commit that waits. -/
def decoderBusy (s : State) (d k : Nat) : Bool :=
  (grantsOf s d).any (fun w => (decide (w.2.st = .open_) && w.2.decoder == k) ||
    (match w.2.opening with | some (j, _) => j == k | none => false))

/-- HDM_DECODER_COMMIT: a decoder of 32 whose DPA range equals a grant's opens a window at the HPA base committed; an
HDM-H exclusive grant first takes every other participant's rights away (R115, R334). While another logical device has an
exclusive window onto the extent the commit waits (DESIGN CHOICE: R115 leaves one participant with rights). -/
def execHdmDecoderCommit (d : Fin 64) (k : Fin 32) (dpa size hpa ways : Nat) (s : State) : Ans :=
  .next (live s (
    if !(ldUp s d.val) || decoderBusy s d.val k.val then s
    else
      match (grantsOf s d.val).find? (fun w => decide (dpa = w.2.dpaBase * blockBytes) && decide (size = w.2.size * blockBytes)) with
      | none => setDecErr d.val k.val true s
      | some (g, w) =>
        if w.st ≠ .granted ∨ w.opening.isSome ∨ 1 < ways ∨ (w.mode = 2 ∧ (!(logDev s d.val).biEnabled ∨ versionOf s d.val ≠ 3)) then
          setDecErr d.val k.val true s
        else
          let s := setDecErr d.val k.val false s
          if w.mode = 0 then
            let x := extent s w.extent
            let s := setWdw d.val g { w with opening := some (k.val, hpa) } s
            settleOpenings (if x.exclusive.isSome then s
              else orderInval x.tenant (extentLo x) (extentHi x) true (setExtent w.extent { x with exclusive := some d.val } s))
          else setWdw d.val g { w with st := .open_, hpaBase := hpa, decoder := k.val, refusedSeen := false } s))

/-- HDM_DECODER_DECOMMIT: the window closes and the grant remains (R334); after a cut at CXL 1.1 the grant becomes FREE. -/
def execHdmDecoderDecommit (d : Fin 64) (k : Fin 32) (s : State) : Ans :=
  .next (live s (match (grantsOf s d.val).find? (fun w =>
      ((decide (w.2.st = .open_) || decide (w.2.st = .cut)) && w.2.decoder == k.val) ||
      (match w.2.opening with | some (j, _) => j == k.val | none => false)) with
    | some (g, _) => closeWindow d.val g s
    | none => setDecErr d.val k.val false s))

/-! Dynamic capacity (R336 to R338). -/

/-- INITIATE_DYNAMIC_CAPACITY_ADD: a balloon held by hosts grows: blocks are assigned and filled, then offered (R337). -/
def execInitiateDynamicCapacityAdd (e : Fin 16384) (n : Nat) (s : State) : Ans :=
  let x := extent s e.val
  .next (served s (
    if x.st ≠ .active ∨ x.kind ≠ .balloon ∨ x.growing ≠ [] ∨ (windowsOn s e.val).isEmpty ∨ (dcOf s e.val false).isSome ∨
        (dcOf s e.val true).isSome ∨ cutsOn s e.val then fmDone .conflict [] s
    else if n = 0 ∨ x.maxBlocks < x.blocks.length + n then fmDone .policed [] s
    else
      match allocBlocks n e.val x.light x.place x.grainLog2 s with
      | none => fmDone .policed [] s
      | some (bs, s) => setExtent e.val { x with growing := bs }
          (setDcOps (s.cxl.dcOps ++ [{ extent := e.val, add := true, blocks := bs }]) s)))

/-- An add that is declined or not answered in time: the blocks are scrubbed and returned, a grant is undone; the operation
completes with CONFLICT (R337). -/
def failAdd (o : DcOp) (s : State) : State :=
  let s := dropDc o s
  let x := extent s o.extent
  let s := match o.grant with
    | some (d, g) => endGrant d g s
    | none => setExtent o.extent { x with growing := [], scrubbing := x.scrubbing ++ o.blocks } s
  fmDone .conflict [] s

/-- Every holder has accepted: the blocks join the balloon for every participant, or the grant stands (R337 step 4). -/
def joinAdd (o : DcOp) (s : State) : State :=
  let s := dropDc o s
  let x := extent s o.extent
  match o.grant with
  | some (d, g) => fmDone .ok [g, (wdw s d g).dpaBase] (setWdw d g { wdw s d g with offered := false } s)
  | none => fmDone .ok [] (setExtent o.extent { x with blocks := x.blocks ++ o.blocks, growing := [] } s)

/-- Every holder has released: the blocks are withdrawn and leave the balloon, or the grant ends (R338 step 3). -/
def finishRelease (o : DcOp) (s : State) : State :=
  let s := dropDc o s
  let x := extent s o.extent
  match o.grant with
  | some (d, g) => fmDone .ok [] (endGrant d g s)
  | none =>
    fmDone .ok [] (shrinkTo o.extent (x.blocks.length - o.blocks.length) s)

/-- A logical device no longer holds an extent: an exchange that waits for its answer waits no more, and one about a grant
that is gone ends (R337 to R339). -/
def settleDc (e : Nat) (s : State) : State :=
  forEach (s.cxl.dcOps.filter (fun o => o.extent == e && o.sent)) (fun o s =>
    match o.grant with
    | some (d, g) =>
      if (wdw s d g).st = .empty then fmDone (if o.add then .conflict else .ok) [] (dropDc o s) else s
    | none =>
      let o' := { o with wait := o.wait.filter (fun w => (windowsOn s e).any (fun x => x.1 == w.1)) }
      let s := replaceDc o o' s
      if !(o'.wait.isEmpty) then s else if o.add then joinAdd o' s else finishRelease o' s) s

/-- REVOKE_GRANT: ordinary if no window is open (at CXL 3.1 by the exchange of R338), otherwise a cut (R339). -/
def execRevokeGrant (d : Fin 64) (g : Fin 32) (s : State) : Ans :=
  let w := wdw s d.val g.val
  .next (served s (match w.st with
    | .granted =>
      if (logDev s d.val).dcd ∧ !w.offered then
        sendDc w.extent false (setDcOps (s.cxl.dcOps ++ [{ extent := w.extent, add := false, grant := some (d.val, g.val) }]) s)
      else fmDone .ok [] (settleDc w.extent (endGrant d.val g.val s))
    | .open_ => fmDone .ok [] (orderCut d.val g.val (setWdw d.val g.val { w with revoked := true } s))
    | _ => fmDone .conflict [] s))

/-- ADD_DYNAMIC_CAPACITY_RESPONSE: a host accepts or declines the capacity that it was offered. -/
def execAddDynamicCapacityResponse (d : Fin 64) (e : Fin 16384) (accept : Bool) (s : State) : Ans :=
  .next (live s (
    if !(ldUp s d.val) then s
    else if versionOf s d.val ≠ 3 then (if versionOf s d.val = 2 then emit (.mailbox d.val 3 []) s else s)
    else
      match s.cxl.dcOps.find? (fun o => o.extent == e.val && o.add && o.sent && o.wait.any (fun w => w.1 == d.val)) with
      | none => emit (.mailbox d.val 2 []) s
      | some o =>
        let s := emit (.mailbox d.val 0 []) s
        if !accept then failAdd o s
        else
          let o' := { o with wait := o.wait.filter (fun w => w.1 != d.val) }
          let s := replaceDc o o' s
          if o'.wait.isEmpty then joinAdd o' s else s))

/-- DC_RESPONSE_TIMEOUT: a holder has not answered within DC_RESPONSE_MS: an add fails; a release is reported to the
fabric manager and goes on waiting (R337, R338). -/
def execDcResponseTimeout (e : Fin 16384) (add : Bool) (now : Nat) (s : State) : Ans :=
  let s1 := advance now s
  .next (live s (match s1.cxl.dcOps.find? (fun o => o.extent == e.val && o.add == add && o.sent && !o.reported &&
      o.wait.any (fun w => decide (w.2 ≤ s1.time))) with
    | none => s1
    | some o =>
      let late := (o.wait.filter (fun w => decide (w.2 ≤ s1.time))).map (·.1)
      let s2 := forEach late (fun d s => bump cCxl (d / 16) 7 s) s1
      if add then failAdd o s2 else alert .other (e.val :: late) (replaceDc o { o with reported := true } s2)))

/-- INITIATE_DYNAMIC_CAPACITY_RELEASE: the last `n` blocks of a balloon held by hosts are to be released (R338), or with
forced removal every window onto the extent is cut (R339). -/
def execInitiateDynamicCapacityRelease (e : Fin 16384) (n : Nat) (forced : Bool) (s : State) : Ans :=
  let x := extent s e.val
  .next (served s (
    if (windowsOn s e.val).isEmpty || cutsOn s e.val then fmDone .conflict [] s
    else if forced then
      let ws := windowsOn s e.val
      fmDone .ok [] (settleDc e.val
        (forEach ws (fun w s => orderCut w.1 w.2 (setWdw w.1 w.2 { wdw s w.1 w.2 with revoked := true } s)) s))
    else if x.st ≠ .active ∨ x.kind ≠ .balloon ∨ x.shrinking ≠ [] ∨ (dcOf s e.val true).isSome ∨ (dcOf s e.val false).isSome then
      fmDone .conflict [] s
    else if n = 0 ∨ x.blocks.length < n ∨ x.blocks.length - n < leastBlocks x then fmDone .policed [] s
    else sendDc e.val false (setDcOps (s.cxl.dcOps ++
      [{ extent := e.val, add := false, blocks := x.blocks.drop (x.blocks.length - n) }]) s)))

/-- RELEASE_DYNAMIC_CAPACITY: a host releases the blocks of an exchange. -/
def execReleaseDynamicCapacity (d : Fin 64) (e : Fin 16384) (s : State) : Ans :=
  .next (live s (
    if !(ldUp s d.val) then s
    else if versionOf s d.val ≠ 3 then (if versionOf s d.val = 2 then emit (.mailbox d.val 3 []) s else s)
    else
      match s.cxl.dcOps.find? (fun o => o.extent == e.val && !o.add && o.sent && o.wait.any (fun w => w.1 == d.val)) with
      | none => emit (.mailbox d.val 2 []) s
      | some o =>
        let o' := { o with wait := o.wait.filter (fun w => w.1 != d.val) }
        let s := emit (.mailbox d.val 0 []) (replaceDc o o' s)
        if o'.wait.isEmpty then finishRelease o' s else s))

/-! Cuts (R339). -/

/-- A forced release goes on once no cut of the extent is left (R339 step 4). -/
def afterCut (e : Nat) (s : State) : State :=
  if (extent s e).releaseAfterCut && !(cutsOn s e) then beginRelease e s else s

/-- An ordered cut reaches a window: it enters CUT; one that its host has closed since then has nothing to cut. -/
def reachCut (d g : Nat) (s : State) : State :=
  let w := wdw s d g
  if w.st = .granted then
    let s := setWdw d g { w with ordered := false } s
    afterCut w.extent (if w.revoked then settleDc w.extent (endGrant d g s) else s)
  else startCut d g s

/-- CUT: the anchor's cut command reaches a port: every window onto the extent whose cut is ordered enters CUT. -/
def execCut (e : Fin 16384) (p : Fin 4) (s : State) : Ans :=
  .next (live s (forEach ((windowsOn s e.val).filter (fun w => w.1 / 16 == p.val && (wdw s w.1 w.2).ordered))
    (fun w s => reachCut w.1 w.2 s) s))

/-- The report of a finished cut to its host, by version (R339 step 5): Release Capacity with forced removal, an Extent
Cut record (type 1 in the warning log, DESIGN CHOICE), or none. -/
def reportCut (d g : Nat) (s : State) : State :=
  let w := wdw s d g
  match versionOf s d with
  | 3 => emit (.hostEvent d 2 [w.extent, w.dpaBase * blockBytes, w.size * blockBytes, 1]) s
  | 2 => hostLog d 1 1 [w.extent, w.dpaBase * blockBytes, s.time] s
  | _ => s

/-- CUT_COMPLETE: the scans have run through every directory, and every line that they found is answered or resolved; the
requests accepted before K left their translation unit when they were accepted. The cut is reported; a revoked grant loses its
tether, a forced release goes on when no cut of the extent is left (R339 steps 4 and 5). At CXL 1.1 the window stays CUT until
the decoder is decommitted or the logical device reset. -/
def execCutComplete (d : Fin 64) (g : Fin 32) (s : State) : Ans :=
  let w := wdw s d.val g.val
  let mine (sc : Scan) : Bool := sc.ld == d.val && decide (sc.extent = some w.extent)
  .next (live s (
    if w.st ≠ .cut || !w.cutting || s.dir.scans.any (fun sc => mine sc && s.dir.lines.any (fun c => scanHits s sc c.1)) then s
    else
      let s := { s with dir := { s.dir with scans := s.dir.scans.filter (fun sc => !(mine sc)) } }
      let s := reportCut d.val g.val s
      let keep := decide (versionOf s d.val = 1)
      let s := if w.revoked then endGrant d.val g.val s else endExclusive w.extent d.val (setWdw d.val g.val {} s)
      let s := if keep then setWdw d.val g.val { w with cutting := false } s else s
      afterCut w.extent (settleDc w.extent s)))

/-- DMA_READ_COMPLETE: host data of a queue block's read arrive, are poisoned, or are discarded after the drain bound of an
ATS invalidation (R82, R341). -/
def execDmaReadComplete (id : Nat) (data : List Byte) (poison : Bool) (s : State) : Ans :=
  .next (live s (match s.cxl.dmaReads.find? (fun r => r.id == id) with
    | none => s
    | some r =>
      let s := { s with cxl := { s.cxl with dmaReads := s.cxl.dmaReads.filter (fun x => x.id != id) } }
      if r.discard then issueFetch r.queue s
      else if poison then fetchFailed r.queue s
      else descArrive r.queue data (orderRec (.dmaRead r.queue (slice data 0 64)) s)))

end Sys2Proof.Machine
end

