-- ==== Sys2Proof/Machine/LinkOps.lean ====
section
/-! DEFINITION. Optical ports (chapter 11): state changes (R282), lane masks (R283 to R285), rerouting (R296),
training, credit retrains. -/

namespace Sys2Proof.Machine

/-- STATE of Table 11.7. -/
def portCode : PortSt → Nat
  | .disabled => 0 | .probing => 1 | .lighting => 2 | .training => 3 | .up => 4

/-- The parent port in use: PARENT while UP, else ALT while UP (R325). -/
def parentPort (s : State) : Option Nat :=
  if s.e2e.parentValid && decide ((port s s.e2e.parent).st = .up) then some s.e2e.parent
  else if s.e2e.altValid && decide ((port s s.e2e.alt).st = .up) then some s.e2e.alt
  else none

/-- With no parent port UP, a locked device loses LOCKED and runs in HOLDOVER (R326). -/
def checkParents (s : State) : State :=
  if s.e2e.locked && !s.e2e.root && (parentPort s).isNone then
    { s with e2e := { s.e2e with locked := false, holdover := true, lockTime := s.time, goodExchanges := 0 } }
  else s

/-- A port changes state: an event-recorder entry, STATE_TIME (R301). -/
def setPortSt (n : Nat) (st : PortSt) (s : State) : State :=
  let x := port s n
  if x.st = st then s
  else
    let s := checkParents (event 0x17 [n, portCode x.st, portCode st] (setPort n { x with st := st, stateTime := s.time } s))
    if x.pair && (decide (x.st = .up) || decide (st = .up)) then pairLinkChanged s else s

/-- Every frame queued on a port that had not started is routed again under R295 (R296); the pair's own traffic goes to another
pair port (R422), and a Time packet, whose DST names its one link's far end, is routed like any other. A multicast copy is
lost and counted in DROP_NO_ROUTE of its entry port, since copies never take another port (R300). -/
def reroute (n : Nat) (s : State) : State :=
  let x := port s n
  let s := setPort n { x with txq := [] } s
  forEach x.txq (fun f s =>
    let back (s : State) : State := match f.entry with | some e => copyStarted e f.pkt s | none => s
    if isPairType f.pkt.typ.toNat ||
      (x.pair && f.entry.isNone && f.pkt.src.toNat == b2n s.sec.side && f.pkt.dst.toNat == b2n (!s.sec.side)) then
      match pairPort s (n / 16) with
      | some p => enqueue p f.pkt f.entry s
      | none => back s
    else if f.pkt.mcast then
      match f.entry with | some e => back (bump cRof e 7 s) | none => s
    else
      match choosePort s (n / 16) f.pkt f.entry with
      | some _ => routeOut (n / 16) f.pkt f.entry s
      | none => back (routeOut (n / 16) f.pkt f.entry s)) s

/-- The lanes of a port go dark and its link session ends. -/
def darken (n : Nat) (s : State) : State :=
  let x := port s n
  setPort n { x with lit := 0, txMask := 0, rxMask := 0, rxReady := 0, partnerReady := 0, laneFault := 0, txFault := 0
                     parked := [], wantWidth := 0, trainSeen := false, keyParts := [], keyAgreed := false
                     keySigned := false, ephemeral := none, linkTx := [], linkRx := [], creditSeen := false, tagFails := 0, retraining := false, rxRetrain := none, audits := []
                     rxq := [] } s

/-- Ends a wait for credits: STALL_CYCLES counts it (R301). -/
def endStall (n v : Nat) (s : State) : State :=
  let c := vcOf s n v
  match c.stallAt with
  | some t => cntAdd cRof n (20 + v) (s.time - t) (setVc n v { c with stallAt := none } s)
  | none => s

/-- Channel counts at the start of a link session. -/
def resetVcs (n : Nat) (s : State) : State :=
  forEach (List.range 8) (fun v s =>
    let s := endStall n v s
    setVc n v { vcOf s n v with txWindow := 0, txAvail := 0, txLeaked := 0, sent := 0, recvd := 0, owed := 0, held := 0
                                rxInForce := rxWords s n v } s) s

/-- A lit port goes dark and returns to PROBING (LINK_DOWNS), or is disabled; its queued frames are rerouted. -/
def portDown (n : Nat) (st : PortSt) (s : State) : State :=
  let lit := match (port s n).st with | .lighting => true | .training => true | .up => true | _ => false
  let s := when (lit && decide (st = .probing)) (bump cRof n 17) s
  reroute n (setPortSt n st (resetVcs n (darken n s)))

/-- A port enters TRAINING: a new session begins with a new ephemeral key; the TRAIN word, the key agreement's first parts
and the receive partitions are sent (R276, R282, R388). Without an attestation key it agrees none (R377). -/
def beginTraining (n : Nat) (s : State) : State :=
  let s := resetVcs n s
  let x := port s n
  let eph := s.sec.ak.map (fun _ => s.free)
  let s := setPort n { x with trainSeen := false, keyParts := [], keyAgreed := false, keySigned := false
                              ephemeral := eph, linkTx := [], linkRx := [], wantWidth := 0
                              creditSeen := false, tagFails := 0, retraining := false, rxRetrain := none, audits := []
                              auditSent := [], rxq := [] } { s with free := s.free + 1 }
  let s := setPortSt n .training s
  let x := port s n
  let s := sendCtrl n 0x09 [endpointOf s (n / 16), b2n x.pair + 2 * b2n (x.pair && s.sec.side), x.rxReady.toNat] s
  let s := match eph with
    | some d => sendPart n 1 (ownChain s) (sendPart n 0 (ownPart0 d) s)
    | none => s
  sendCtrl n 0x01 ((List.range 8).map (fun v => (vcOf s n v).rxInForce)) s

/-- A full retrain: frames rerouted, credits reset, lanes kept lit (Table 11.2). -/
def fullRetrain (n : Nat) (s : State) : State :=
  if (port s n).st = .up then beginTraining n (reroute n (bump cRof n 16 (setPortSt n .training s))) else s

/-! Lanes. -/

/-- Lanes that may stand in the transmit mask: lit, ready at the partner, not declared faulty, not disabled (R284). -/
def goodLanes (x : Port) : List Nat := lanesOf (x.lit &&& x.partnerReady &&& ~~~x.txFault &&& ~~~x.laneDisable)

/-- The largest width of 1, 2, 4, 8, 16 that `n` lanes allow (R275). -/
def widthFor (n : Nat) : Nat := if 16 ≤ n then 16 else if 8 ≤ n then 8 else if 4 ≤ n then 4 else if 2 ≤ n then 2 else n

/-- 2^MIN_WIDTH_LOG2; 5 to 7 act as 4. -/
def minWidth (x : Port) : Nat := 2 ^ (min 4 x.minWidthLog2)

/-- The width a policy keeps at training: every good lane, or 2^MIN_WIDTH_LOG2 under policy 2 (R283). -/
def policyWidth (x : Port) : Nat :=
  let w := widthFor (goodLanes x).length
  if x.widthPolicy = 2 then min w (minWidth x) else w

/-- Lanes go dark: the partner's lock on them is gone, and they relight and relock before they can rejoin (R283). -/
def dim (m : BitVec 16) (x : Port) : Port :=
  { x with lit := x.lit &&& ~~~m, partnerReady := x.partnerReady &&& ~~~m
           parked := (lanesOf m).foldl (fun t i => tput none t i none) x.parked }

/-- The transmitter moves to the mask of the `w` lowest good lanes: LANE_SET on the old mask; lanes that leave park, or
go dark at once when PARK_HOLD_US is 0 (R283, R285). -/
def setWidth (n w : Nat) (s : State) : State :=
  let x := port s n
  let m := maskFrom ((goodLanes x).take w)
  if m = x.txMask then s
  else
    let out := lanesOf (x.txMask &&& ~~~m)
    let stay := out.filter (fun i => x.lit.getLsbD i)
    let y := if x.parkHoldUs = 0 then dim (maskFrom out) x
      else { x with parked := stay.foldl (fun t i => tput none t i (some s.time)) x.parked }
    let y := { y with txMask := m, parked := (lanesOf m).foldl (fun t i => tput none t i none) y.parked }
    setPort n y (sendCtrl n 0x02 [m.toNat] (bump cRof n 14 s))

/-- The transmit width that the policy and the good lanes call for (R283, R284): under policy 1 the present one, or the one
it has decided to widen to once there are lanes for it. -/
def dueWidth (x : Port) : Nat :=
  if x.widthPolicy = 1 then min (widthFor (goodLanes x).length) (max x.wantWidth (lanesOf x.txMask).length)
  else policyWidth x

/-- Lanes that the policy wants lit, of those neither faulty nor disabled: the lowest. -/
def wantedLanes (x : Port) : BitVec 16 :=
  let c := lanesOf (~~~x.txFault &&& ~~~x.laneDisable)
  let w := if x.widthPolicy = 1 then max x.wantWidth (lanesOf x.txMask).length
    else if x.widthPolicy = 2 then minWidth x
    else c.length
  maskFrom (c.take w)

/-- An UP port's width follows its good lanes and its policy: wanted lanes that are dark relight, and the mask changes when
the partner has them ready; with no good lane left, a full retrain (R283 to R285). -/
def settleWidth (n : Nat) (s : State) : State :=
  let x := port s n
  if x.st ≠ .up then s
  else if goodLanes x = [] then fullRetrain n s
  else
    let w := dueWidth x
    let keep := (lanesOf x.txMask).all (fun i => (goodLanes x).contains i) && decide ((lanesOf x.txMask).length = w)
    let s := if keep then s else setWidth n w s
    let y := port s n
    setPort n { y with lit := y.lit ||| wantedLanes y, wantWidth := if y.wantWidth ≤ w then 0 else y.wantWidth } s

/-- Starts a credit retrain of the transmit direction: RETRAIN with byte 2 = 0 (R289 step 1). -/
def creditRetrain (n : Nat) (s : State) : State :=
  let x := port s n
  if x.retraining then s
  else sendCtrl n 0x07 [0] (bump cRof n 15 (setPort n { x with retraining := true } s))

/-- The receiver's check of SRC (R297). -/
def srcOk (x : Port) (p : Packet) : Bool := !x.srcCheck || decide (p.src &&& x.srcMask = x.srcBase)

/-- A router drops a forwarded packet: its words are credited. -/
def dropTransit (n i : Nat) (p : Packet) (s : State) : State := forwardFrame n p 0 (bump cRof n i s)

end Sys2Proof.Machine
end

