-- ==== Sys2Proof/Machine/Fabric.lean ====
section
/-! DEFINITION. The optical fabric (chapter 11; opcode-table rows ROF_PORT_ENABLE to MULTICAST and LANE_LOCK_LOSS). -/

namespace Sys2Proof.Machine

/-! Fabric-manager commands (R282, R286, R302). -/

/-- The port's optical engine or quadrant is fenced (R409, R410). -/
def portFenced (s : State) (n : Nat) : Bool := tget false s.fen.fencedOe (n / 4) || (quad s (n / 16)).faultFenced

/-- ROF_PORT_ENABLE: DISABLED to PROBING (Table 11.2). -/
def execRofPortEnable (n : Fin 64) (s : State) : Ans :=
  .next (served s (
    if (port s n.val).st ≠ .disabled ∨ portFenced s n.val then fmDone .conflict [] s
    else fmDone .ok [] (setPortSt n.val .probing (setPort n.val { port s n.val with enable := true } s))))

/-- ROF_PORT_DISABLE: lanes dark, queued frames rerouted (Table 11.2). -/
def execRofPortDisable (n : Fin 64) (s : State) : Ans :=
  .next (served s (fmDone .ok [] (portDown n.val .disabled (setPort n.val { port s n.val with enable := false } s))))

/-- A port with the settings of Table 11.7: its lanes that they disable go dark and are used in neither direction (R284). -/
def configured (x : Port) (c : PortConfig) : Port :=
  dim (x.lit &&& c.laneDisable) { x with
    pair := c.pair, widthPolicy := c.widthPolicy.val, minWidthLog2 := c.minWidthLog2.val, srcCheck := c.srcCheck
    srcBase := c.srcBase, srcMask := c.srcMask, laneDisable := c.laneDisable, parkHoldUs := c.parkHoldUs.toNat
    rxReady := x.rxReady &&& ~~~c.laneDisable }

/-- SET_PORT_CONFIG (Table 11.7): the width of an UP port follows the new settings (R283, R284). -/
def execSetPortConfig (n : Fin 64) (c : PortConfig) (s : State) : Ans :=
  let x := port s n.val
  let y := configured x c
  let tell := decide (x.st = .up) && decide (y.rxReady ≠ x.rxReady)
  .next (served s (settleWidth n.val
    (when tell (sendCtrl n.val 0x03 [y.rxReady.toNat]) (fmDone .ok [] (setPort n.val y s)))))

/-- SET_VC_PARTITION: refused when the channel falls below its least partition or the port exceeds 16,384 words; in
force from the next credit retrain or training (R286). -/
def execSetVcPartition (n : Fin 64) (v : Fin 8) (words : BitVec 16) (s : State) : Ans :=
  let others := (((List.range 8).filter (fun u => u != v.val)).map (rxWords s n.val)).foldl (· + ·) 0
  .next (served s (
    if words.toNat < (if v.val = 7 then 8 else 130) ∨ 16384 < others + words.toNat then fmDone .policed [] s
    else fmDone .ok [] (setVc n.val v.val { vcOf s n.val v.val with rxWords := some words.toNat } s)))

/-- SET_ROUTE (Table 11.10). -/
def execSetRoute (d : BitVec 16) (ports : BitVec 64) (s : State) : Ans :=
  .next (served s (fmDone .ok [] { s with rof := { s.rof with route := tput 0 s.rof.route d.toNat ports } }))

/-- SET_MCAST (Table 11.11). -/
def execSetMcast (g : Fin 4096) (ports : BitVec 64) (valid loc : Bool) (s : State) : Ans :=
  .next (served s (fmDone .ok [] { s with rof := { s.rof with
    mcast := tput (0, false, false) s.rof.mcast g.val (ports, valid, loc) } }))

/-- SET_ROF_CTRL (Table 11.6): the values as written; they act within their ranges. -/
def execSetRofCtrl (adaptBiasW auditUs : BitVec 16) (retrainDrainUs : BitVec 10) (trainLimitMs : BitVec 16) (s : State) :
    Ans :=
  .next (served s (fmDone .ok [] { s with rof := { s.rof with
    adaptBiasW := adaptBiasW.toNat, auditUs := auditUs.toNat, retrainDrainUs := retrainDrainUs.toNat
    trainLimitMs := trainLimitMs.toNat } }))

/-! Link states (R279 to R282). -/

/-- PROBE_EMIT: a PROBING port sends a probe on L0 (R280). -/
def execProbeEmit (n : Fin 64) (now : Nat) (s : State) : Ans :=
  let s1 := advance now s
  .next (live s (if (port s1 n.val).st = .probing then emit (.probe n.val) s1 else s1))

/-- PARTNER_DETECTED: every lane not disabled is lit; LIGHTING (R280, Table 11.2). -/
def execPartnerDetected (n : Fin 64) (now : Nat) (s : State) : Ans :=
  let s1 := advance now s
  let x := port s1 n.val
  .next (live s (
    if x.st = .probing then setPortSt n.val .lighting (setPort n.val { x with lit := ~~~x.laneDisable } s1) else s1))

/-- RECEIVE_LOCK: a lane locks; a LIGHTING port starts TRAINING, an UP port reports its locked lanes (Table 11.2). -/
def execReceiveLock (n : Fin 64) (lane : Fin 16) (now : Nat) (s : State) : Ans :=
  let s1 := advance now s
  let x := port s1 n.val
  let y := { x with rxReady := x.rxReady ||| ((1#16 <<< lane.val) &&& ~~~x.laneFault &&& ~~~x.laneDisable) }
  .next (live s (match x.st with
    | .lighting => if y.rxReady = 0 then s1 else beginTraining n.val (setPort n.val y s1)
    | .training => setPort n.val y s1
    | .up => sendCtrl n.val 0x03 [y.rxReady.toNat] (setPort n.val y s1)
    | _ => s1))

/-- TRAINING_COMPLETE: keys agreed, TRAIN and CREDIT words exchanged, a good lane in each direction: FCTR 0, the transmit mask
chosen, the ephemeral key zeroised, UP (R284, R389). Until a LANE_SET arrives the receiver takes the partner's mask to be the
lowest of its locked lanes at the largest permitted width: DESIGN CHOICE, the manual has no word that tells the first mask. -/
def execTrainingComplete (n : Fin 64) (now : Nat) (s : State) : Ans :=
  let s1 := advance now s
  let x := port s1 n.val
  .next (live s (
    if x.st = .training ∧ x.keyAgreed ∧ x.trainSeen ∧ x.creditSeen ∧ goodLanes x ≠ [] ∧ x.rxReady ≠ 0 then
      let m := maskFrom ((goodLanes x).take (policyWidth x))
      let r := lanesOf x.rxReady
      setPortSt n.val .up (setPort n.val { x with
        fctrTx := 0, fctrRx := 0, txMask := m, rxMask := maskFrom (r.take (widthFor r.length))
        ephemeral := none, auditAt := s1.time } s1)
    else s1))

/-- TRAIN_LIMIT_MS as it acts. -/
def trainLimitMs (s : State) : Nat := clampN 1 100 s.rof.trainLimitMs

/-- The key agreement of a port failed: counted, and the port returns to PROBING (Table 11.2, R388). -/
def keyFailed (n : Nat) (s : State) : State := portDown n .probing (bump cSec 0 7 s)

/-- TRAIN_LIMIT_EXPIRY: a port that did not reach UP in time goes dark and returns to PROBING; where the parts of the key
agreement had not all arrived, that failed (R388). -/
def execTrainLimitExpiry (n : Fin 64) (now : Nat) (s : State) : Ans :=
  let s1 := advance now s
  let x := port s1 n.val
  .next (live s (
    if (x.st = .lighting ∨ x.st = .training) ∧ x.stateTime + 1000000 * trainLimitMs s1 ≤ s1.time then
      if x.st = .training ∧ !x.keyAgreed then keyFailed n.val s1 else portDown n.val .probing s1
    else s1))

/-- LOSS_OF_SIGNAL: no signal on any receive lane for 10 µs: dark, PROBING, frames rerouted (R281). -/
def execLossOfSignal (n : Fin 64) (now : Nat) (s : State) : Ans :=
  let s1 := advance now s
  .next (live s (match (port s1 n.val).st with
    | .lighting => portDown n.val .probing s1
    | .training => portDown n.val .probing s1
    | .up => portDown n.val .probing s1
    | _ => s1))

/-- FULL_RETRAIN: a trigger of R282 takes an UP port to TRAINING. -/
def execFullRetrain (n : Fin 64) (byFm : Bool) (s : State) : Ans :=
  .next (live s (
    if byFm && !(anchorServes s) then s else
    let up := decide ((port s n.val).st = .up)
    let s1 := when byFm (fmDone (if up then .ok else .conflict) []) s
    fullRetrain n.val s1))

/-! Frames (R277, R287). -/

/-- The packet needs forwarding: it is for no endpoint of the device, or it is a multicast packet (R293, R300). -/
def needsForward (s : State) (n : Nat) (p : Packet) : Bool := p.mcast && !(decide (p.typ.toNat = tTime)) ||
  (termQuadrant s n p).isNone

/-- FRAME_RECEIVE: the blocks of the port since its last frame, then those of this frame, with the bits that the line turned
in each (R274); then the link checks of R277. `p` is the packet whose header and payload the frame carries, `lcrcOk` and
`tagOk` whether its LCRC and TAG hold over what arrived. A frame that passes is held in its channel's partition. -/
def execFrameReceive (n : Fin 64) (p : Packet) (blocks : RxBlocks) (lcrcOk tagOk : Bool) (fctr : BitVec 32) (now : Nat)
    (s : State) : Ans :=
  let s1 := advance now s
  let x := port s1 n.val
  let d := (fctr.toNat + 2 ^ 32 - x.fctrRx % 2 ^ 32) % 2 ^ 32
  .next (live s (
    if x.st ≠ .up then s1
    else
      let (_, s1) := readBlocks n.val blocks.idle s1
      let (lostWord, s1) := readBlocks n.val blocks.frame s1
      let s1 := bump cRof n.val 1 s1
      if lostWord || !lcrcOk || decide (2 ^ 31 ≤ d) then bump cRof n.val 4 s1
      else if !tagOk then
        let s1 := bump cRof n.val 5 (setPort n.val { x with tagFails := x.tagFails + 1 } s1)
        if 3 ≤ x.tagFails + 1 then fullRetrain n.val s1 else s1
      else
        let v := p.vc.toNat
        let c := vcOf s1 n.val v
        let w := frameWords p
        let f : RxFrame := { id := x.fctrRx + d, pkt := p, time := s1.time, fwd := !(needsForward s1 n.val p)
                             loc := (termQuadrant s1 n.val p).isNone }
        let s1 := setPort n.val { x with fctrRx := x.fctrRx + d + 1, tagFails := 0, rxq := x.rxq ++ [f] } s1
        let s1 := setVc n.val v { c with held := c.held + w, recvd := (c.recvd + w) % 65536 } s1
        let s1 := cntAdd cRof n.val 3 (32 + p.payload.length) s1
        if 2 ^ 63 ≤ x.fctrRx + d + 1 then fullRetrain n.val s1 else s1))

/-- A frame of the device as its transmission starts: BIRTH is the pool time of that moment (Table 11.4), and a Time packet
carries it as t3 (R326). A frame in transit is never changed. -/
def atStart (s : State) (f : TxFrame) : Packet :=
  if f.entry.isSome then f.pkt
  else stamp s (if f.pkt.typ.toNat = tTime then { f.pkt with arg0 := BitVec.ofNat 64 s.time } else f.pkt)

/-- The frame at the head of a channel's transmit queue. -/
def headFrame (x : Port) (v : Nat) : Option TxFrame := x.txq.find? (fun f => f.pkt.vc.toNat == v)

/-- FRAME_TRANSMIT: the head frame of a channel starts once TX_AVAIL covers it; a frame in transit that has grown too
old is dropped (R287, R294). -/
def execFrameTransmit (n : Fin 64) (v : Fin 8) (now : Nat) (s : State) : Ans :=
  let s1 := advance now s
  let x := port s1 n.val
  .next (live s (match headFrame x v.val with
    | none => s1
    | some f =>
      let w := frameWords f.pkt
      let c := vcOf s1 n.val v.val
      if x.st ≠ .up ∨ x.retraining then s1
      else if f.entry.isSome && decide (976 < ageOf s1 f.pkt) then
        let e := f.entry.getD 0
        copyStarted e f.pkt (bump cRof e 6 (endStall n.val v.val (setPort n.val { x with txq := x.txq.erase f } s1)))
      else if c.txAvail < w then
        setVc n.val v.val { c with stallAt := match c.stallAt with | some t => some t | none => some s1.time } s1
      else
        let s1 := endStall n.val v.val s1
        let c := vcOf s1 n.val v.val
        let s1 := setVc n.val v.val { c with txAvail := c.txAvail - w, sent := (c.sent + w) % 65536 } s1
        let o := frameOut s1 n.val (atStart s1 f)
        let s1 := setPort n.val { x with txq := x.txq.erase f, fctrTx := x.fctrTx + 1 } s1
        let s1 := cntAdd cRof n.val 2 (32 + f.pkt.payload.length) (bump cRof n.val 0 s1)
        let s1 := when f.pkt.mcast (bump cRof n.val 18) s1
        let s1 := emit o s1
        let s1 := match f.entry with | some e => copyStarted e f.pkt s1 | none => s1
        if 2 ^ 63 ≤ x.fctrTx + 1 then fullRetrain n.val s1 else s1))

/-! Credits and audits (R287 to R289). -/

/-- CREDIT: freed words come back; during training the words advertise the partner's partitions. -/
def execCredit (n : Fin 64) (counts : List (BitVec 16)) (s : State) : Ans :=
  let x := port s n.val
  let k (v : Nat) : Nat := ((counts.drop v).head?.map (·.toNat)).getD 0
  .next (live s (match x.st with
    | .training =>
      setPort n.val { x with creditSeen := true } (forEach (List.range 8) (fun v s =>
        setVc n.val v { vcOf s n.val v with txWindow := k v, txAvail := k v } s) s)
    | .up => forEach (List.range 8) (fun v s =>
        let c := vcOf s n.val v
        setVc n.val v { c with txAvail := min 65535 (c.txAvail + k v) } s) s
    | _ => s))

/-- CREDIT_RETURN_TIMER: a CREDIT word returns what is owed. -/
def execCreditReturnTimer (n : Fin 64) (now : Nat) (s : State) : Ans :=
  let s1 := advance now s
  let owed := (List.range 8).map (fun v => (vcOf s1 n.val v).owed)
  .next (live s (
    if (port s1 n.val).st ≠ .up ∨ owed.all (· == 0) then s1
    else sendCtrl n.val 0x01 owed (forEach (List.range 8) (fun v s =>
      setVc n.val v { vcOf s n.val v with owed := 0 } s) s1)))

/-- AUDIT_US as it acts. -/
def auditUs (s : State) : Nat := clampN 10 10000 s.rof.auditUs

/-- AUDIT_TIMER: AUDIT_US after the last AUDIT, the words sent on each channel go to the partner. -/
def execAuditTimer (n : Fin 64) (now : Nat) (s : State) : Ans :=
  let s1 := advance now s
  let x := port s1 n.val
  let sent := (List.range 8).map (fun v => (vcOf s1 n.val v).sent)
  .next (live s (
    if x.st ≠ .up ∨ s1.time < x.auditAt + 1000 * auditUs s1 then s1
    else sendCtrl n.val 0x05 sent (setPort n.val { x with auditSent := sent, auditAt := s1.time } s1)))

/-- AUDIT: answered once every frame received before it has been freed. -/
def execAudit (n : Fin 64) (counts : List (BitVec 16)) (s : State) : Ans :=
  let x := port s n.val
  let _ := counts
  .next (live s (
    if x.st ≠ .up then s
    else settleRx n.val (setPort n.val { x with audits := x.audits ++ [(x.fctrRx, recvdWords s n.val)] } s)))

/-- AUDIT_ACK: TX_LEAKED of each channel, and a credit retrain when one exceeds half its window. -/
def execAuditAck (n : Fin 64) (counts : List (BitVec 16)) (s : State) : Ans :=
  let x := port s n.val
  let k (v : Nat) : Nat := ((counts.drop v).head?.map (·.toNat)).getD 0
  .next (live s (
    if x.st ≠ .up ∨ x.auditSent = [] then s
    else
      let s1 := forEach (List.range 8) (fun v s =>
        setVc n.val v { vcOf s n.val v with txLeaked := ((x.auditSent.getD v 0) + 65536 - k v) % 65536 } s) s
      let s1 := setPort n.val { port s1 n.val with auditSent := [] } s1
      if (List.range 8).any (fun v => decide ((vcOf s1 n.val v).txWindow < 2 * (vcOf s1 n.val v).txLeaked)) then
        creditRetrain n.val s1
      else s1))

/-- RETRAIN: byte 2 = 1 takes a full retrain, 0 a credit retrain of the receive direction; other values are reserved. -/
def execRetrain (n : Fin 64) (byte2 : BitVec 8) (now : Nat) (s : State) : Ans :=
  let s1 := advance now s
  let x := port s1 n.val
  .next (live s (
    if x.st ≠ .up then s1
    else if byte2 = 1 then fullRetrain n.val s1
    else if byte2 = 0 then
      settleRx n.val (bump cRof n.val 15 (setPort n.val { x with rxRetrain := some (s1.time, x.fctrRx) } s1))
    else s1))

/-- RETRAIN_ACK with the CREDIT words that return the full partition: the transmitter's counts start anew, those of later
audits too, since both ends set them at this one point of the stream (R288). -/
def execRetrainAck (n : Fin 64) (counts : List (BitVec 16)) (s : State) : Ans :=
  let x := port s n.val
  let k (v : Nat) : Nat := ((counts.drop v).head?.map (·.toNat)).getD 0
  .next (live s (
    if !x.retraining then s
    else setPort n.val { x with retraining := false, auditSent := [] } (forEach (List.range 8) (fun v s =>
      setVc n.val v { vcOf s n.val v with txWindow := k v, txAvail := k v, txLeaked := 0, sent := 0 } s) s)))

/-- RETRAIN_DRAIN_US as it acts. -/
def retrainDrainUs (s : State) : Nat := clampN 10 1000 s.rof.retrainDrainUs

/-- RETRAIN_DRAIN_EXPIRY: frames received before the RETRAIN and still held are dropped (R289 step 2). -/
def execRetrainDrainExpiry (n : Fin 64) (now : Nat) (s : State) : Ans :=
  let s1 := advance now s
  .next (live s (match (port s1 n.val).rxRetrain with
    | none => s1
    | some (c, t) =>
      if s1.time < c + 1000 * retrainDrainUs s1 then s1
      else
        let late := (port s1 n.val).rxq.filter (fun f => decide (f.id < t))
        forEach late (fun f s =>
          let s := forEach (List.range 64) (fun m s =>
            let y := port s m
            setPort m { y with txq := y.txq.filter (fun g => !(decide (g = { pkt := f.pkt, entry := some n.val }))) } s) s
          freeWords n.val f (bump cRof n.val 10 s)) s1))

/-! Lanes (R283 to R285). -/

/-- LANE_SET: the receiver takes the new mask, of a permitted width, from the next word. -/
def execLaneSet (n : Fin 64) (mask : BitVec 16) (s : State) : Ans :=
  let w := (lanesOf mask).length
  .next (live s (if w ≠ 0 ∧ widthFor w = w then setPort n.val { port s n.val with rxMask := mask } s else s))

/-- LANE_READY: the lanes on which the partner has receive lock; an UP port's width follows (R283 to R285). -/
def execLaneReady (n : Fin 64) (mask : BitVec 16) (s : State) : Ans :=
  .next (live s (settleWidth n.val (setPort n.val { port s n.val with partnerReady := mask } s)))

/-- LANE_FAULT: the transmitter narrows to what the remaining good lanes allow; with none left, a full retrain (R284). -/
def execLaneFault (n : Fin 64) (mask : BitVec 16) (s : State) : Ans :=
  .next (live s (settleWidth n.val (setPort n.val { port s n.val with txFault := mask } s)))

/-- LANE_LOCK_LOSS: the receiver declares one lane faulty and reports it; a port that has lost every lane of its receive mask
takes a full retrain (R282, R284). -/
def execLaneLockLoss (n : Fin 64) (lane : Fin 16) (now : Nat) (s : State) : Ans :=
  let s1 := advance now s
  let x := port s1 n.val
  let b := 1#16 <<< lane.val
  let y := { x with laneFault := x.laneFault ||| b, rxReady := x.rxReady &&& ~~~b }
  let told := sendCtrl n.val 0x03 [y.rxReady.toNat] (sendCtrl n.val 0x04 [y.laneFault.toNat] (setPort n.val y s1))
  .next (live s (match x.st with
    | .training => told
    | .up => if y.rxMask &&& y.rxReady = 0 then fullRetrain n.val told else told
    | _ => s1))

/-- WIDTH_NARROW: under policy 1 the transmit width is halved, not below 2^MIN_WIDTH_LOG2 (R283). -/
def execWidthNarrow (n : Fin 64) (s : State) : Ans :=
  let x := port s n.val
  let w := (lanesOf x.txMask).length
  .next (live s (
    if x.st = .up ∧ x.widthPolicy = 1 ∧ minWidth x < w then
      setWidth n.val (w / 2) (setPort n.val { x with wantWidth := 0 } s)
    else s))

/-- WIDTH_WIDEN: under policy 1 the width is doubled: dark lanes relight first, and the mask changes once the partner
reports every lane of it ready (R283, R285). -/
def execWidthWiden (n : Fin 64) (s : State) : Ans :=
  let x := port s n.val
  let w := 2 * (lanesOf x.txMask).length
  let cand := lanesOf (~~~x.txFault &&& ~~~x.laneDisable)
  .next (live s (
    if x.st ≠ .up ∨ x.widthPolicy ≠ 1 ∨ 16 < w ∨ cand.length < w then s
    else settleWidth n.val (setPort n.val { x with wantWidth := w } s)))

/-- LANE_PARK_EXPIRY: a lane out of the mask for PARK_HOLD_US goes dark. -/
def execLaneParkExpiry (n : Fin 64) (lane : Fin 16) (now : Nat) (s : State) : Ans :=
  let s1 := advance now s
  let x := port s1 n.val
  .next (live s (match tget none x.parked lane.val with
    | some t =>
      if t + 1000 * x.parkHoldUs ≤ s1.time then setPort n.val (dim (1#16 <<< lane.val) x) s1 else s1
    | none => s1))

/-! Training words (R282, R388). -/

/-- A part of the partner's key agreement is whole: its bytes. -/
def keyPart (x : Port) (part : Nat) : Option (List Byte) :=
  match x.keyParts.find? (fun f => f.1.1 == part) with
  | none => none
  | some f =>
    let total := f.2.1
    if (List.range total).all (fun i => (afind x.keyParts (part, i)).isSome) then
      some ((List.range total).flatMap (fun i => match afind x.keyParts (part, i) with | some d => d.2 | none => []))
    else none

/-- The key agreement goes on with what has arrived: PART 2 of this side goes out once the partner's PART 0 is whole and its
TRAIN word gave its endpoint ID; when all three parts are whole they are verified, and the link keys are agreed or the
agreement fails (R388, R389). -/
def keyStep (n : Nat) (s : State) : State :=
  let x := port s n
  match x.ephemeral, keyPart x 0 with
  | some d, some k =>
    if !x.trainSeen || x.keyAgreed then s
    else
      let k := slice k 0 97
      let own := keyDigest (ownPart0 d) k (endpointOf s (n / 16)) x.partnerId
      let s := if x.keySigned then s
        else sendPart n 2 (akSigned s own) (setPort n { x with keySigned := true } s)
      match keyPart x 1, keyPart x 2 with
      | some c, some g =>
        if partnerProven s n d k c (slice g 0 96) then
          let okm := linkOkm s n d k
          setPort n { port s n with keyAgreed := true, linkTx := sideKeys okm (firstSide s n)
                                    linkRx := sideKeys okm (!(firstSide s n)) } s
        else keyFailed n s
      | _, _ => s
  | _, _ => s

/-- TRAIN: the partner's endpoint ID, mode and side. A mode that differs from PAIR, or an equal SIDE on a pair port, fails
training (R282); equal endpoint IDs on another port fail the key agreement (R389). -/
def execTrain (n : Fin 64) (id : BitVec 16) (pair side : Bool) (ready : BitVec 16) (s : State) : Ans :=
  let x := port s n.val
  .next (live s (match x.st with
    | .lighting => setPort n.val { x with partnerId := id.toNat, partnerPair := pair, partnerSide := side
                                          partnerReady := ready } s
    | .training =>
      if (pair != x.pair) || (x.pair && side == s.sec.side) then portDown n.val .probing s
      else if !x.pair && id.toNat == endpointOf s (n.val / 16) then keyFailed n.val s
      else keyStep n.val (setPort n.val { x with
        trainSeen := true, partnerId := id.toNat, partnerPair := pair, partnerSide := side, partnerReady := ready } s)
    | _ => s))

/-- KEYX: a fragment of the partner's key agreement (Table 15.4). -/
def execKeyx (n : Fin 64) (part : Fin 4) (index total : BitVec 16) (data : List Byte) (s : State) : Ans :=
  let x := port s n.val
  .next (live s (
    if x.st ≠ .training ∨ part.val = 3 ∨ total = 0 ∨ total ≤ index then s
    else keyStep n.val (setPort n.val { x with
      keyParts := aset (part.val, index.toNat) (total.toNat, slice data 0 22) x.keyParts } s)))

/-- CONTROL_WORD_DISCARD: a control word whose CRC fails or whose CTYPE is reserved is counted and has no other effect; any
other word is a command of its own (R278). -/
def execControlWordDiscard (w : RxControl) (s : State) : Ans :=
  .next (live s (if ctrlBad w.bytes then bump cRof w.port.val 13 s else s))

/-! Routing (R293 to R300). -/

/-- FORWARD: SRC check, age and route of a packet that is not for the device (R293 to R297). A port whose quadrant no
strait path reaches is a candidate like any other (DESIGN CHOICE: R295 leaves out only the entry port and ports not UP). -/
def execForward (n : Fin 64) (p : Packet) (s : State) : Ans :=
  .next (live s (
    if p.mcast || (termQuadrant s n.val p).isSome then s
    else if !(srcOk (port s n.val) p) then dropTransit n.val 8 p s
    else if 976 < ageOf s p then dropTransit n.val 6 p s
    else
      match choosePort s (n.val / 16) p (some n.val) with
      | none => forwardFrame n.val p 0 (routeOut (n.val / 16) p (some n.val) s)
      | some _ => forwardFrame n.val p 1 (routeOut (n.val / 16) p (some n.val) (bump cRof n.val 19 s))))

/-- MULTICAST: a copy to every UP branch port but the entry port; a branch that is not UP is counted (R300). The local
copy is the packet's own command. -/
def execMulticast (n : Fin 64) (p : Packet) (s : State) : Ans :=
  let (ports, valid, _) := tget (0#64, false, false) s.rof.mcast (p.dst.toNat % 4096)
  .next (live s (
    if !p.mcast then s
    else if !(srcOk (port s n.val) p) then takeFrame n.val p (dropTransit n.val 8 p s)
    else if 976 < ageOf s p then dropTransit n.val 6 p s
    else if 4096 ≤ p.dst.toNat ∨ !valid then takeFrame n.val p (dropTransit n.val 7 p s)
    else
      let br := (List.range 64).filter (fun m => ports.getLsbD m && m != n.val)
      let up := br.filter (fun m => decide ((port s m).st = .up))
      let s1 := cntAdd cRof n.val 7 (br.length - up.length) s
      let s1 := when (!up.isEmpty) (bump cRof n.val 19) s1
      forwardFrame n.val p up.length (forEach up (fun m => sendBy (n.val / 16) m p (some n.val)) s1)))

end Sys2Proof.Machine
end

