-- ==== Sys2Proof/Machine/FenceOps.lean ====
section
/-! DEFINITION. Fences and islands, shared operations (chapters 1 and 16): fencing a unit (R407 to R410), the island
decision (R414 to R418), lines lost while their home was out of reach (R412). -/

namespace Sys2Proof.Machine

/-- Enters a fence in the repair record, as unit kind and number (R407). -/
def repairNote (k n : Nat) (s : State) : State :=
  if s.fen.repair.contains (k, n) then s else { s with fen := { s.fen with repair := s.fen.repair ++ [(k, n)] } }

/-- Marks a core fenced with a cause of Table 16.9 and stops its job there (R206). A core that its island's fence has stopped
takes the cause of its quadrant's own fence, which outlasts the island's (R407). -/
def markCore (n cause : Nat) (s : State) : State :=
  if tget 0 s.fen.coreCause n = 7 ∧ cause = 6 then { s with fen := { s.fen with coreCause := tput 0 s.fen.coreCause n 6 } }
  else if tget 0 s.fen.coreCause n ≠ 0 then s
  else
    let s := fenceJob n { s with fen := { s.fen with
      coreCause := tput 0 s.fen.coreCause n cause, coreTime := tput 0 s.fen.coreTime n s.time } }
    setCore n { coreOf s n with stateTime := s.time } s

/-- A core is fenced for a fault of its own or by command (R408): counted, recorded, and kept in the repair record. A
fenced core stays as it is. -/
def fenceCore (n cause : Nat) (s : State) : State :=
  if tget 0 s.fen.coreCause n ≠ 0 then s
  else markCore n cause (repairNote 0 n (event 0x1C [0, n, cause] (bump cFen 0 0 s)))

/-- Cores of a quadrant. -/
def coresOf (q : Nat) : List Nat := (List.range 40).map (40 * q + ·)

/-- Lines whose home is in a quadrant. -/
def linesOf (s : State) (q : Nat) : List Nat := (s.dir.lines.filter (fun c => homeOf s (64 * c.1) == q)).map (·.1)

/-- What a directory entry returns to when its transaction is undone and only its recalls go on: those asked for S keep
their copies; of one that is given up, what nobody was asked for remains. -/
def restTarget (x : Line) : DirEntry :=
  if x.recalls.any (·.share) then { st := .s, ptrs := x.recalls.map (·.holder) }
  else if x.dir.coarse then { x.dir with st := .s }
  else
    let left := x.dir.ptrs.filter (fun h => !(x.recalls.any (fun r => r.holder == h)))
    if left.isEmpty then {} else { st := .s, ptrs := left }

/-- The home of a quadrant has just become unreachable: the lines it holds in O are noted (R412), and what other quadrants
have waiting there is answered under Table 16.2; the directory keeps its entries and recalls, and a recall answered
meanwhile leaves what its holder keeps. -/
def homeLost (q : Nat) (s : State) : State :=
  let ls := linesOf s q
  let owned := ls.filter (fun l => decide ((line s l).dir.st = .o))
  let s := setQuad q { quad s q with owned := owned } s
  let s := forEach ls (fun l s =>
    let x := line s l
    let rs := (match x.cur with | some r => [r] | none => []) ++ x.queue
    let s := setLine l { x with target := restTarget x, cur := none, queue := [] } s
    forEach rs (fun r s => answerUnreachable r false s) s) s
  let there (w : Nat × Nat × LineReq) : Bool := homeOf s (64 * w.1) == q
  let ws := s.dir.waitIn.filter there
  let s := { s with dir := { s.dir with waitIn := s.dir.waitIn.filter (fun w => !(there w)) } }
  settleOrder (forEach ws (fun w s => answerUnreachable w.2.2 false s) s)

/-- A quadrant is fenced by its position (R414, R415, R418): its cores stop and its homes are out of reach; memory, links
and transit traffic stay. -/
def fencePosition (island : List Nat) (q : Nat) (s : State) : State :=
  if qFenced s q then s
  else
    let s := event 0x1C [3, q, 7] (setQuad q { quad s q with positionFenced := true, island := island } s)
    let s := forEach (coresOf q) (fun n s => markCore n 7 s) s
    let s := homeLost q s
    if q = 2 then { s with fen := { s.fen with spareLost := true } } else s

/-- Every quadrant is fenced and the management sessions are dropped (R418). -/
def selfFence (s : State) : State :=
  let s := { s with fen := { s.fen with anchor := none } }
  let s := forEach (List.range 4) (fencePosition []) s
  { s with sec := { s.sec with sessions := [] } }

/-- Quadrants that are not fenced and lie outside the anchor's island. -/
def outside (s : State) : List Nat :=
  (List.range 4).filter (fun q => !(qFenced s q) && !((anchorIsland s).contains q))

/-- The islands are evaluated again (R16, R414): every quadrant outside the anchor's island fences its island; without an
anchor the device fences itself. -/
def evaluateIslands (s : State) : State :=
  match s.fen.anchor with
  | none => selfFence s
  | some _ =>
    forEach (outside s) (fun q s =>
      if qFenced s q then s
      else
        let isl := islandOf s q
        forEach isl (fencePosition isl) (bump cFen 0 4 s)) s

/-- A CXL port is held down (R409, R410). -/
def holdCxlDown (p : Nat) (s : State) : State :=
  if (cxlPort s p).linkState = 2 then linkDown p 0 s
  else if (cxlPort s p).linkState = 3 then s else setLink p 0 s

/-- A quadrant is fenced for a fault or by command (R410): cores stop, stacks enter self-refresh, optical ports go dark,
the CXL port is held down; a fenced Q0 leaves the anchor role to the spare, and without one to nobody (R417, R419). -/
def fenceQuadrant (q cause : Nat) (s : State) : State :=
  if (quad s q).faultFenced then s
  else
    let spare := spareReady s
    let s := repairNote 3 q (event 0x1C [3, q, cause] (bump cFen 0 2 s))
    let s := setQuad q { quad s q with faultFenced := true } s
    let s := forEach (coresOf q) (fun n s => markCore n 6 s) s
    let s := forEach ((List.range 8).map (8 * q + ·)) (fun k s => setStack k { stack s k with selfRefresh := true } s) s
    let s := forEach ((List.range 16).map (16 * q + ·)) (fun n s => portDown n .disabled s) s
    let s := holdCxlDown q s
    let s := homeLost q s
    let s := if q = 2 then { s with fen := { s.fen with spareLost := true } } else s
    let s := if s.fen.anchor = some q && !(q == 0 && spare) then { s with fen := { s.fen with anchor := none } } else s
    evaluateIslands s

/-- An optical engine is fenced: its four ports go DISABLED and dark (R409). -/
def fenceOe (e cause : Nat) (s : State) : State :=
  if tget false s.fen.fencedOe e then s
  else
    let s := repairNote 1 e (event 0x1C [1, e, cause] { s with fen := { s.fen with fencedOe := tput false s.fen.fencedOe e true } })
    forEach ((List.range 4).map (4 * e + ·)) (fun n s => portDown n .disabled s) s

/-- A CXL port is fenced and held down (R409). -/
def fenceCxl (p cause : Nat) (s : State) : State :=
  if tget false s.fen.fencedCxl p then s
  else
    holdCxlDown p (repairNote 2 p (event 0x1C [2, p, cause]
      { s with fen := { s.fen with fencedCxl := tput false s.fen.fencedCxl p true } }))

/-- A home that can be reached again writes the poison pattern into every line of the lost-line lists that it homes; if a
list has overflowed, into every line that it held in O when it went out of reach (R412). -/
def poisonLost (q : Nat) (s : State) : State :=
  let here (a : Nat) : Bool := homeOf s a == q
  let listed := (s.fen.lostLines.flatMap (·.2)).filter here
  let owned := if s.fen.lostOverflow.any (·.2) then (quad s q).owned else []
  let lists := tmapAll [] (fun _ l => l.filter (fun a => !(here a))) s.fen.lostLines
  let full := s.fen.lostOverflow.filter (fun c => tget [] lists c.1 ≠ [])
  let s := { s with fen := { s.fen with lostLines := lists, lostOverflow := full } }
  let s := setQuad q { quad s q with owned := [] } s
  forEach (listed.map (· / 64) ++ owned) poisonLine s

end Sys2Proof.Machine
end

