-- ==== Sys2Proof/Machine/Fences.lean ====
section
/-! DEFINITION. Straits, the anchor role, fences and islands (chapters 1 and 16; opcode-table rows STRAIT_LOST to
FENCE_STATUS_SAMPLE, CORE_FENCE, FENCE_CORE to ISLAND_REJOIN). -/

namespace Sys2Proof.Machine

/-- STRAIT_LOST: a strait has not completed a retry within 1 µs; traffic is relayed, or islands form (R14 to R16, R414). -/
def execStraitLost (i : Fin 6) (now : Nat) (s : State) : Ans :=
  let s1 := advance now s
  .next (live s (
    if tget false s1.fen.straitLost i.val then s1
    else
      let s2 := { s1 with fen := { s1.fen with straitLost := tput false s1.fen.straitLost i.val true } }
      evaluateIslands (event 0x1E [i.val, 1] (bump cFen 0 3 s2))))

/-- STRAIT_RESTORED: a fenced island stays fenced until it rejoins (R416). -/
def execStraitRestored (i : Fin 6) (now : Nat) (s : State) : Ans :=
  let s1 := advance now s
  .next (live s (
    if tget false s1.fen.straitLost i.val then
      event 0x1E [i.val, 0] { s1 with fen := { s1.fen with straitLost := tput false s1.fen.straitLost i.val false } }
    else s1))

/-- The spare may take the anchor role: Q0 held it and is fenced, and Q2 was a spare (R19). -/
def mayFailOver (s : State) : Bool :=
  decide (s.fen.anchor = some 0) && (quad s 0).faultFenced && !s.fen.spareLost && !(qFenced s 2)

/-- FENCE_STATUS_SAMPLE: each quadrant samples the other three lines (R413); when none shows ANCHOR and no spare can take
the role, the device fences itself (R418). -/
def execFenceStatusSample (now : Nat) (s : State) : Ans :=
  let s1 := advance now s
  let codes := fun (q : Nat) => (List.range 4).foldl (fun (t : Tbl FenceCode) p =>
    if p = q then t else tput .inService t p (fenceCode s1 p)) []
  .next (live s (
    let s2 := forEach (List.range 4) (fun q s => setQuad q { quad s q with sampled := codes q } s) s1
    if (List.range 4).any (fun q => decide (fenceCode s1 q = .anchor)) || mayFailOver s1 then s2 else selfFence s2))

/-- ANCHOR_FAILOVER: Q2 takes the anchor role; admission pauses for at most 5 ms, sessions on MGMT0 are lost (R419). -/
def execAnchorFailover (now : Nat) (s : State) : Ans :=
  let s1 := advance now s
  .next (live s (
    if !(mayFailOver s1) then s1
    else
      let s2 := event 0x1D [2] (bump cFen 0 5 s1)
      let s3 := { s2 with fen := { s2.fen with anchor := some 2, anchorMoveUntil := some (s2.time + 5000000) } }
      evaluateIslands { s3 with sec := { s3.sec with
        sessions := s3.sec.sessions.filter (fun c => match c.2 with | some x => x.port != 0 | none => false) } }))

/-- CORE_FENCE: a core is fenced for a cause of Table 16.9 and stops at once (R206). -/
def execCoreFence (n : Fin 160) (cause : Fin 8) (now : Nat) (s : State) : Ans :=
  .next (live s (if cause.val = 0 then advance now s else fenceCore n.val cause.val (advance now s)))

/-- FENCE_CORE: by command (cause 4) it completes with OK; cause 0 is a corrected word of a store, counted without other
effect (R408). -/
def execFenceCore (n : Fin 160) (cause : Fin 6) (now : Nat) (s : State) : Ans :=
  let s1 := advance now s
  .next (live s (
    if cause.val = 0 then bump cFen 0 1 s1
    else if cause.val = 4 then managed s (fmDone .ok [] (fenceCore n.val 4 s1))
    else fenceCore n.val cause.val s1))

/-- ENGINE_HOLD_EXPIRY: an engine has held one operation for 1 ms (R408). -/
def execEngineHoldExpiry (n : Fin 160) (e : Fin 5) (now : Nat) (s : State) : Ans :=
  let s1 := advance now s
  let c := coreOf s1 n.val
  .next (live s (
    if (tget [] c.engines e.val).isEmpty || decide (s1.time < tget 0 c.busyAt e.val + 1000000) then s1
    else fenceCore n.val 2 s1))

/-- FENCE_QUADRANT: core rail, root clock, a self-check, or the command (cause 4), within 10 µs (R410). -/
def execFenceQuadrant (q : Fin 4) (cause : Fin 5) (now : Nat) (s : State) : Ans :=
  let s1 := fenceQuadrant q.val cause.val (advance now s)
  .next (live s (if cause.val = 4 then managed s (fmDone .ok [] s1) else s1))

/-- FENCE_OPTICAL_ENGINE (R409). -/
def execFenceOpticalEngine (e : Fin 16) (cause : Fin 5) (now : Nat) (s : State) : Ans :=
  let s1 := fenceOe e.val cause.val (advance now s)
  .next (live s (if cause.val = 4 then managed s (fmDone .ok [] s1) else s1))

/-- FENCE_CXL_PORT (R409). -/
def execFenceCxlPort (p : Fin 4) (cause : Fin 5) (now : Nat) (s : State) : Ans :=
  let s1 := fenceCxl p.val cause.val (advance now s)
  .next (live s (if cause.val = 4 then managed s (fmDone .ok [] s1) else s1))

/-- UNFENCE: a unit of the repair record (0 core, 1 optical engine, 2 CXL port, 3 quadrant) may return to service at the
next cold reset, if it passes its self-test then (R407). -/
def execUnfence (k : Fin 4) (n : Nat) (s : State) : Ans :=
  .next (served s (
    if !(s.fen.repair.contains (k.val, n)) then fmDone .conflict [] s
    else if s.fen.unfenced.contains (k.val, n) then fmDone .ok [] s
    else fmDone .ok [] { s with fen := { s.fen with unfenced := s.fen.unfenced ++ [(k.val, n)] } }))

/-- ISLAND_REJOIN: every quadrant of the island can reach the anchor's again: lines lost are poisoned, every entry is
recalled, Q2 takes the anchor's state, and the quadrants serve again (R416). -/
def execIslandRejoin (q : Fin 4) (now : Nat) (s : State) : Ans :=
  let s1 := advance now s
  let x := quad s1 q.val
  .next (live s (
    if !x.positionFenced || s1.fen.anchor.isNone || x.island.isEmpty ||
        !(x.island.all (fun p => (straitReach s1 ((anchorSeat s1).getD 0)).contains p)) then fmDone .conflict [] s1
    else
      let back (p : Nat) (s : State) : State :=
        let s := setQuad p { quad s p with positionFenced := false, island := [] } s
        forEach (coresOf p) (fun n s =>
          if tget 0 s.fen.coreCause n = 7 then
            setCore n { coreOf s n with stateTime := s.time } { s with fen := { s.fen with
              coreCause := tput 0 s.fen.coreCause n 0, coreTime := tput 0 s.fen.coreTime n 0 } }
          else s) s
      let s2 := forEach x.island poisonLost s1
      let s2 := if x.island.contains 2 then { s2 with fen := { s2.fen with spareLost := false } } else s2
      let s2 := forEach x.island back s2
      fmDone .ok [] (forEach (x.island.flatMap (linesOf s2)) recallAll s2)))

end Sys2Proof.Machine
end

