-- ==== Sys2Proof/Machine/Jobs.lean ====
section
/-! DEFINITION. Jobs (chapters 5 and 7; opcode-table rows JOB to JOB_COMPLETE, HELD_EFFECTS_ISSUE, COMMIT_COMPLETE,
CORE_FENCE_TEST, SET_SR_CONTROLS): the admission steps of R149, handles (R137), commits and held effects (R200, R201). -/

namespace Sys2Proof.Machine

/-- The job that the descriptor in a slot runs. -/
def jobAt (s : State) (n slot : Nat) : Option (Nat × Job) :=
  match descAt s n slot with
  | some d =>
    match d.job with
    | some jid => (job s jid).map (fun j => (jid, j))
    | none => none
  | none => none

/-- Alignment of a JOB descriptor (R149 step 1); a descriptor that passes becomes a job whose header is to be read. -/
def startJob (n slot : Nat) (d : Desc) (s : State) : State :=
  let img := leAt d.bytes 16 8
  let arg := leAt d.bytes 24 8
  if img % 4096 ≠ 0 ∨ arg % 8 ≠ 0 then complete { complOf n d .policed with detail := 8 } s
  else
    let jid := s.que.nextJob
    let j : Job := { group := n / 8, queue := n, slot := slot, tag := dTag d, notify := dNotify d, waitVerified := dWait d
                     imagePva := img, argPva := arg, width := leAt d.bytes 32 2, quadrant := (group s (n / 8)).quadrant
                     readySince := d.stamp }
    setDesc n { d with job := some jid } (setJob jid (some j) { s with que := { s.que with nextJob := jid + 1 } })

/-- JOB (R136, R149 step 1). -/
def execJob (n : Fin 8192) (slot : Nat) (s : State) : Ans :=
  .next (live s (startOp 0x10 n.val slot (startJob n.val slot) s))

/-- A failed read of the image or argument block: a refusal is TILE_FAULT with AT_ADMISSION, an uncorrectable line
POISON (R149 steps 1 and 3). -/
def admitFail (jid : Nat) (a : Actor) (f : EngFail) (s : State) : State :=
  let (_, ext, s) := noteFail a f s
  match f with
  | .poison => endJob jid .poison 0 [] s
  | .refused _ _ => endJob jid .tileFault 1 ext s

/-- A section lies within the image at an offset aligned to 256 B (R147). -/
def sectionOk (img off n : Nat) : Bool := off % 256 == 0 && decide (off + n ≤ img)

/-- The header's own checks (R147, R149 step 2, Table 5.12). -/
def headerOkJob (h : List Byte) : Bool :=
  let f (o n : Nat) : Nat := leAt h o n
  let img := f 8 4
  decide (f 0 4 = 0x424F4A44) && decide (f 4 2 = 1) && decide (f 6 2 = 0) && decide (256 ≤ img) &&
  decide (img ≤ 67108864) && decide (f 12 4 < 2) && decide (f 20 4 ≠ 0) && sectionOk img (f 16 4) (f 20 4) &&
  sectionOk img (f 24 4) (f 28 4) && decide (1 ≤ f 36 2) && decide (f 36 2 ≤ 256) &&
  sectionOk img (f 32 4) (16 * f 36 2) && decide (f 38 1 ≤ 15) && decide (1 ≤ f 39 1) && decide (f 39 1 ≤ 8) &&
  decide (f 40 4 ≤ 8388608) && decide (1 ≤ f 44 2) && decide (f 44 2 ≤ f 46 2) && decide (f 46 2 ≤ 160) &&
  allZero (slice h 56 8) && allZero (slice h 112 144)

/-- Steps 1 and 2 of R149 on the header that was read. -/
def checkHeader (jid : Nat) (j : Job) (h : List Byte) (s : State) : State :=
  if !(headerOkJob h) then endJob jid .policed 3 [] s
  else if j.width < leAt h 44 2 ∨ leAt h 46 2 < j.width ∨ coresInService s < j.width then endJob jid .policed 4 [] s
  else
    setJob jid (some { j with phase := .image, header := h, nonIdem := bitOf (leAt h 12 4) 0
                              energyClass := leAt h 38 1, contexts := leAt h 39 1, coreStoreBytes := leAt h 40 4
                              tilesEst := leAt h 48 8 }) s

/-- JOB_HEADER_READ: the image header is read with the group's tenant, and checked. -/
def execJobHeaderRead (n : Fin 8192) (slot : Nat) (s : State) : Ans :=
  .next (live s (match jobAt s n.val slot with
    | none => s
    | some (jid, j) =>
      if j.phase ≠ .header then s
      else
        let a := queueActor s n.val (some slot)
        match engRead a j.imagePva 256 s with
        | (.wait, s) => s
        | (.got _ (some f), s) => admitFail jid a f s
        | (.got h none, s) => checkHeader jid j h s))

/-- The kite version that the whole of an image lies in, while it is CURRENT or SUPERSEDED: the key of its kept digest
(R150). -/
def digestKey (s : State) (j : Job) : Option (Nat × Nat × Nat) :=
  match extentAt s (group s j.group).tenant j.imagePva with
  | none => none
  | some e =>
    let x := extent s e
    if extentHi x < j.imagePva + leAt j.header 8 4 then none
    else
    match x.st, x.kite with
    | .current, some k => some (k, x.version, j.imagePva)
    | .superseded, some k => some (k, x.version, j.imagePva)
    | _, _ => none

/-- The job joins the ready list of its group's quadrant (R149 step 5). A quiesce has it paused at once (R155); in a
group that is being released it is dropped. -/
def joinReady (jid : Nat) (s : State) : State :=
  match job s jid with
  | none => s
  | some j =>
    let s := setJob jid (some { j with phase := .ready }) s
    match (group s j.group).st with
    | .active => s
    | .releasing => dropJob jid s
    | .unbound => dropJob jid s
    | _ => quiescePause jid s

/-- The digest is compared with the header's (R149 step 4). -/
def testDigest (jid : Nat) (s : State) : State :=
  match job s jid with
  | none => s
  | some j => if j.digest.toNat = leAt j.header 64 48 then joinReady jid s else endJob jid .policed 3 [] s

/-- The image with its DIGEST field set to zero. -/
def undigested (img : List Byte) : List Byte := slice img 0 64 ++ List.replicate 48 0 ++ img.drop 112

/-- Binding entries with a reserved KIND, ALIGN_LOG2 or reserved byte (R149 step 3, R148). -/
def bindsOk (b : List Byte) : Bool :=
  (List.range (b.length / 16)).all (fun i =>
    decide (leAt b (16 * i) 1 ≤ 5) && decide (6 ≤ leAt b (16 * i + 1) 1) && decide (leAt b (16 * i + 1) 1 ≤ 16) &&
    allZero (slice b (16 * i + 2) 6))

/-- The program section as entries and operations, when its length fits (R191). -/
def programOf (p : List Byte) : List Nat × List TWord :=
  ((List.range 8).map (fun c => leAt p (8 * c) 8), (List.range ((p.length - 64) / 16)).map (fun i =>
    BitVec.ofNat 128 (leAt p (64 + 16 * i) 16)))

/-- Step 3 of R149 on the image and arguments that were read, and the start of step 4. -/
def checkImage (jid : Nat) (j : Job) (img args : List Byte) (s : State) : State :=
  let h := j.header
  let prog := slice img (leAt h 16 4) (leAt h 20 4)
  let binds := slice img (leAt h 32 4) (16 * leAt h 36 2)
  let (entries, ops) := programOf prog
  let info : ImgInfo := { n := ops.length, storeBytes := j.coreStoreBytes, bindCount := leAt h 36 2, contexts := j.contexts
                          nonIdem := j.nonIdem, kinds := (List.range (leAt h 36 2)).map (fun i => leAt binds (16 * i) 1) }
  let pvas := (List.range (leAt h 36 2)).map (fun i => leAt args (8 * i) 8)
  if prog.length < 80 ∨ prog.length % 16 ≠ 0 ∨ !(bindsOk binds) ∨ !(programOk info entries ops) then
    endJob jid .policed 3 [] s
  else if (List.range pvas.length).any (fun i => pvas.getD i 0 % 2 ^ leAt binds (16 * i + 1) 1 != 0) then
    endJob jid .policed 8 [] s
  else
    let j := { j with entries := entries, program := ops, consts := slice img (leAt h 24 4) (leAt h 28 4)
                      binds := binds, args := pvas }
    match (digestKey s j).bind (fun k => afind s.que.digests k) with
    | some d => testDigest jid (setJob jid (some { j with digest := d }) s)
    | none => setJob jid (some { j with phase := .digest, digest := sha384 (undigested img) }) s

/-- JOB_IMAGE_READ: the whole image and the argument block are read and decoded. -/
def execJobImageRead (n : Fin 8192) (slot : Nat) (s : State) : Ans :=
  .next (live s (match jobAt s n.val slot with
    | none => s
    | some (jid, j) =>
      if j.phase ≠ .image then s
      else
        let a := queueActor s n.val (some slot)
        let size := leAt j.header 8 4
        let alen := 8 * leAt j.header 36 2
        match engReady a [(j.imagePva, size), (j.argPva, alen)] s with
        | (false, s) => s
        | (true, s) =>
          match engRead a j.imagePva size s with
          | (.wait, s) => s
          | (.got _ (some f), s) => admitFail jid a f s
          | (.got img none, s) =>
            match engRead a j.argPva alen s with
            | (.wait, s) => s
            | (.got _ (some f), s) => admitFail jid a f s
            | (.got args none, s) => checkImage jid j img args s))

/-- JOB_DIGEST_COMPUTED: the SHA-384 of the image is known; it is kept for an image in a kite version (R150). -/
def execJobDigestComputed (n : Fin 8192) (slot : Nat) (s : State) : Ans :=
  .next (live s (match jobAt s n.val slot with
    | none => s
    | some (jid, j) =>
      if j.phase ≠ .digest then s
      else
        let s := bump cQue 0 7 s
        let s := match digestKey s j with
          | some k => { s with que := { s.que with digests := aset k j.digest s.que.digests } }
          | none => s
        testDigest jid s))

/-! Handles (R137). -/

/-- The paused job that a handle names in a queue of the group that submitted it. -/
def handleJob (s : State) (n h : Nat) : Option (Nat × Job) :=
  match tget none s.que.recordJob (h % 4096) with
  | none => none
  | some jid =>
    match job s jid with
    | none => none
    | some j =>
      if j.group = n / 8 ∧ j.phase = .paused ∧ !j.quiesced ∧ tget 0 s.que.recordGen (h % 4096) = h / 4096 then some (jid, j)
      else none

/-- RESUME: the job goes back to a ready list with its own age; the RESUME's completion reports its next outcome. -/
def execResume (n : Fin 8192) (slot : Nat) (s : State) : Ans :=
  .next (live s (startOp 0x11 n.val slot (fun d s =>
    let h := leAt d.bytes 16 4
    match handleJob s n.val h with
    | none => complete { complOf n.val d .policed with detail := 5 } s
    | some (jid, j) =>
      let j := { j with queue := n.val, slot := slot, tag := dTag d, notify := dNotify d, waitVerified := dWait d
                        phase := .ready, record := none, ext := [] }
      freeRecord (h % 4096) (setDesc n.val { d with job := some jid } (setJob jid (some j) s))) s))

/-- DISCARD: the paused record is freed. -/
def execDiscard (n : Fin 8192) (slot : Nat) (s : State) : Ans :=
  .next (live s (startOp 0x12 n.val slot (fun d s =>
    let h := leAt d.bytes 16 4
    match handleJob s n.val h with
    | none => complete { complOf n.val d .policed with detail := 5 } s
    | some (jid, _) => complete (complOf n.val d .ok) (dropJob jid s)) s))

/-! Running jobs. -/

/-- JOB_PREEMPT: the cores stop at their next tile boundary and the job returns to a ready list (R151). -/
def execJobPreempt (n : Fin 8192) (slot : Nat) (s : State) : Ans :=
  .next (live s (match jobAt s n.val slot with
    | none => s
    | some (jid, j) => if j.phase = .running then beginStop jid .preempt (bump cQue 0 3 s) else s))

/-- Every context of every core of the job has ended. -/
def allEnded (s : State) (j : Job) : Bool := j.cores.all (fun n => (liveCtxs (coreOf s n)).isEmpty)

/-- JOB_COMPLETE: every context has ended and every effect is ordered (R199). -/
def execJobComplete (n : Fin 8192) (slot : Nat) (s : State) : Ans :=
  .next (live s (match jobAt s n.val slot with
    | none => s
    | some (jid, _) =>
      let s := collect jid s
      match job s jid with
      | none => s
      | some j =>
        if j.phase = .running && allEnded s j && j.newSnaps.isEmpty && j.waits.isEmpty &&
            j.effects.all (fun e => decide (e.rows.length ≤ e.issued) && e.answers.isEmpty) &&
            j.cores.all (fun m => (coreOf s m).engines.isEmpty) && !(beatsLeft s j (2 ^ 32)) then
          endJob jid .ok 0 [] s
        else s))

/-- The job's next commit completes once the four conditions of R200 hold; on a standby once the active's has, too
(R426). -/
def commitStep (jid : Nat) (s : State) : State :=
  let s := collect jid s
  match job s jid with
  | none => s
  | some j =>
    let k := j.commits + 1
    if (decide (j.phase = .running) || (decide (j.phase = .stopping) && decide (k ≤ j.target))) &&
        j.fences.isEmpty && j.cores.all (fun m => arrivedAt (coreOf s m) k) &&
        (List.range j.cores.length).any (fun r => decide (tget [] j.newSnaps (k * 256 + r) ≠ [])) &&
        !(beatsLeft s j k) && nothingWaits s j k && !(j.waits.any (fun w => decide (w.2 ≤ k))) && effectsDone j k &&
        (!(follows s) || s.pair.commitsDue.contains (jid, k)) then
      let s := orderRec (.commit jid k) s
      let s := { s with pair := { s.pair with commitsDue := s.pair.commitsDue.filter (fun c => c != (jid, k)) } }
      settleStop jid (commitDone jid k s)
    else s

/-- COMMIT_COMPLETE. -/
def execCommitComplete (n : Fin 8192) (slot : Nat) (s : State) : Ans :=
  .next (live s (match jobAt s n.val slot with
    | none => s
    | some (jid, _) => commitStep jid s))

/-! Held effects (R201). -/

/-- A turn that stands for a held effect at its core. -/
def effTurn (jid : Nat) (j : Job) (e : HeldEff) : Turn :=
  { n := j.cores.getD e.rank 0, i := e.ctx, jid := jid, j := j, x := { commits := e.commit - 1 }, w := 0 }

def effAccess (e : HeldEff) : Access := if e.isAtomic then .atomic else .reduce

/-- The pages of a held effect, in order. -/
def effPages (e : HeldEff) : List Nat := e.rows.flatMap (fun p => [p, p + (effBytes e - 1)])

/-- Pre-checks every page of the commit's held effects (R78, R201). -/
def checkEffects (jid : Nat) (j : Job) : List HeldEff → State → Option (HeldEff × Refuse × Nat) × State
  | [], s => (none, s)
  | e :: r, s =>
    match checkPages (effTurn jid j e) (effAccess e) (e.rows.headD 0) (effPages e) [] s with
    | (some (f, p), _, s) => (some (e, f, p), s)
    | (none, _, s) => checkEffects jid j r s

/-- The commit's held effects of one core in order: contexts by number, within a context by dispatch (R201). -/
def effOrder (j : Job) (k rank : Nat) : List HeldEff :=
  (List.range j.contexts).flatMap (fun i => j.effects.filter (fun e => e.commit == k && e.rank == rank && e.ctx == i))

/-- Writes back an effect of the job. -/
def setEffect (jid : Nat) (e e' : HeldEff) (s : State) : State :=
  match job s jid with
  | some j => setJob jid (some { j with effects := j.effects.map (fun x => if x = e then e' else x) }) s
  | none => s

/-- A held-effect list that has emptied lets the contexts that found it full go on (R201, R236). -/
def wakeHeld (n : Nat) (s : State) : State :=
  match jobOn s n with
  | none => s
  | some (_, j) =>
    let c := coreOf s n
    if heldCount j c.rank = 0 then
      wake n ((rotation c).filter (fun i => (ctxOf c i).waitSince.isSome && (ctxOf c i).waitCause == 2)) s
    else s

/-- Issues the next row of a held effect: an unwindowed contribution or an atomic, whose source is read now. A mapping
withdrawn since the pre-check is a tile fault while nothing of the commit has been issued, and ends the job after that (R80):
the effect counts as issued, so that its commit can complete (R202). -/
def issueRow (jid : Nat) (j : Job) (e : HeldEff) (s : State) : State :=
  let t := effTurn jid j e
  let p := e.rows.getD e.issued 0
  let a := moveActor s t p
  match translate a.q a.tenant p a.who a.via (effAccess e) s with
  | (.error r, s) =>
    let (_, ext, s) := noteFail a (.refused (lateRefuse true r) p) s
    if j.effects.all (fun x => x.commit != e.commit || x.issued == 0) then
      tileFault jid ext (setJob jid (some { j with issuing := none }) s)
    else endJob jid .mappingWithdrawn 0 ext (setEffect jid e { e with issued := e.rows.length } s)
  | (.ok (ppa, _), s) =>
    let len := effBytes e
    let ps := pieces p len
    let (id, s) := openPend .kept (if e.isAtomic then .atomic else .reduce) ps.length false s
    let base (x : Nat × Nat × Nat × Nat) : LineReq :=
      { kind := if e.isAtomic then .atomic else .reduce, who := a.who, tenant := a.tenant, pva := p, entryQ := a.q
        off := x.2.1, len := x.2.2.1, pend := id, pos := x.2.2.2, op := e.op, owner := a.owner, tile := e.commit }
    let e' := { e with issued := e.issued + 1, answers := e.answers ++ [id] }
    let s := wakeHeld t.n (setEffect jid e e' s)
    let last := decide (e.rows.length ≤ e.issued + 1)
    let s := if last then signalOpt t.n e.signal s else s
    if e.isAtomic then
      let len := atomBytes e.op
      bump cOps (t.n / 40) 13 (deliverPieces ppa ps (fun x =>
        { base x with opA := leBytes len e.opA, opC := leBytes len e.opC }) 2 s)
    else
      let sb := redSrcBytes e.op
      let db := redDstBytes e.op
      let (d, s) := csRead t.n 3 e.ctx (e.src + e.issued * 128 * sb) (128 * sb) (meterOp t.n (19200 * sb) s)
      let s := markContribution id 0 ps.length e.op (homeOf s ppa) s
      let s := deliverPieces ppa ps (fun x =>
        { base x with data := slice d (x.2.2.2 / db * sb) (x.2.2.1 / db * sb) }) 2 s
      if last then bump cOps (t.n / 40) 12 s else s

/-- Issues up to `rows` rows of a core's held effects of commit `k`. -/
def issueRows : Nat → Nat → Nat → Nat → State → State
  | 0, _, _, _, s => s
  | rows + 1, jid, k, rank, s =>
    match job s jid with
    | none => s
    | some j =>
      match (effOrder j k rank).find? (fun e => decide (e.issued < e.rows.length)) with
      | none => s
      | some e => issueRows rows jid k rank (issueRow jid j e s)

/-- HELD_EFFECTS_ISSUE: every core has arrived at the next commit; all pages of all its held effects pass the pre-check,
or the job pauses; then this core issues its next rows (R201). A fenced core issues nothing, and a commit whose effects
have begun to issue goes on at the live cores (R206). -/
def execHeldEffectsIssue (n : Fin 160) (rows : Nat) (s : State) : Ans :=
  .next (live s (match jobOn s n.val with
    | none => s
    | some (jid, j) =>
      let k := j.commits + 1
      let rank := (coreOf s n.val).rank
      if coreFenced s n.val || j.fences.any (fun f => f.rank == rank) then s
      else if j.issuing = some k then collect jid (issueRows rows jid k rank s)
      else if !(decide (j.phase = .running) || (decide (j.phase = .stopping) && decide (k ≤ j.target))) ||
          !j.fences.isEmpty || !(j.cores.all (fun m => arrivedAt (coreOf s m) k)) then s
      else
        let es := (List.range j.cores.length).flatMap (effOrder j k)
        if es.isEmpty then s
        else
          match checkEffects jid j es s with
          | (some (e, r, p), s) => moveFault (effTurn jid j e) r p s
          | (none, s) => collect jid (issueRows rows jid k rank (setJob jid (some { j with issuing := some k }) s))))

/-- CORE_FENCE_TEST: the beats of the fenced core's job are ordered, and its held effects are tested (R206). -/
def execCoreFenceTest (n : Fin 8192) (slot : Nat) (s : State) : Ans :=
  .next (live s (match jobAt s n.val slot with
    | none => s
    | some (jid, _) => fenceTest jid (collect jid s)))

/-- SET_SR_CONTROLS: SR_FIXED and SEED for jobs admitted afterwards (R232). -/
def execSetSrControls (fixed : Bool) (seed : BitVec 64) (s : State) : Ans :=
  .next (served s (fmDone .ok [] { s with core := { s.core with srFixed := fixed, srSeed := seed } }))

end Sys2Proof.Machine
end

