-- ==== Sys2Proof/Machine/Mailbox.lean ====
section
/-! DEFINITION. Mailbox commands of a host (R342, Table 13.3) and the fabric manager's CXL FM API commands (R344, Table
13.5). Return codes are those of CXL (PRESUMED): 0 success, 2 invalid input, 3 unsupported, 14 invalid handle. Payloads are
lists of values in the order that each docstring gives (DESIGN CHOICE). -/

namespace Sys2Proof.Machine

/-- A mailbox command is served on a logical device of a link that is up at CXL 2.0 or 3.1 (R342); a CXL 1.1 port reports
only through AER. -/
def mailbox (d : Nat) (f : State → State) (s : State) : State := if ldUp s d && decide (2 ≤ versionOf s d) then f s else s

/-- A mailbox response. -/
def mailDone (d code : Nat) (vals : List Nat) (s : State) : State := emit (.mailbox d code vals) s

/-- End of the highest granted DPA range, in bytes. -/
def dpaEnd (s : State) (d : Nat) : Nat :=
  (grantsOf s d).foldl (fun (a : Nat) w => max a ((w.2.dpaBase + w.2.size) * blockBytes)) 0

/-- IDENTIFY_MEMORY_DEVICE: the capacity. -/
def execIdentifyMemoryDevice (d : Fin 64) (s : State) : Ans :=
  .next (live s (mailbox d.val (fun s => mailDone d.val 0 [dpaEnd s d.val] s) s))

/-- GET_EVENT_RECORDS: the records of a log (0 informational, 1 warning, 2 failure, 3 fatal), each as handle, type, number
of values, values. -/
def execGetEventRecords (d : Fin 64) (log : Fin 4) (s : State) : Ans :=
  .next (live s (mailbox d.val (fun s =>
    mailDone d.val 0 ((eventLog s d.val log.val).flatMap (fun r => r.1 :: r.2.1 :: r.2.2.length :: r.2.2)) s) s))

/-- CLEAR_EVENT_RECORDS: every record of a log, or the records of the handles given; a handle that the log does not hold
clears nothing. -/
def execClearEventRecords (d : Fin 64) (log : Fin 4) (all : Bool) (handles : List Nat) (s : State) : Ans :=
  .next (live s (mailbox d.val (fun s =>
    let l := eventLog s d.val log.val
    if !all && !(handles.all (fun h => l.any (fun r => r.1 == h))) then mailDone d.val 14 [] s
    else
      let left := if all then [] else l.filter (fun r => !(handles.contains r.1))
      let events := tput [] s.cxl.events (d.val * 4 + log.val) left
      mailDone d.val 0 [] { s with cxl := { s.cxl with events := events } }) s))

/-- GET_EVENT_INTERRUPT_POLICY: the policy byte of each log. -/
def execGetEventInterruptPolicy (d : Fin 64) (s : State) : Ans :=
  .next (live s (mailbox d.val (fun s =>
    mailDone d.val 0 ((List.range 4).map (fun k => field (logDev s d.val).eventPolicy (8 * k) 8)) s) s))

/-- SET_EVENT_INTERRUPT_POLICY: one byte for each log, MSI-X or no interrupt only. -/
def execSetEventInterruptPolicy (d : Fin 64) (policy : BitVec 32) (s : State) : Ans :=
  .next (live s (mailbox d.val (fun s =>
    if (List.range 4).all (fun k => decide (field policy.toNat (8 * k) 2 ≤ 1)) then
      mailDone d.val 0 [] (setLogDev d.val { logDev s d.val with eventPolicy := policy.toNat } s)
    else mailDone d.val 2 [] s) s))

/-- Stacks that are retired. -/
def retiredStacks (s : State) : Nat := ((List.range 32).filter (fun n => decide ((stack s n).st = .retired))).length

/-- GET_HEALTH_INFO: health (1 when a stack is not IN_SERVICE, DESIGN CHOICE), the highest stack temperature, the count of
retired stacks. -/
def execGetHealthInfo (d : Fin 64) (s : State) : Ans :=
  .next (live s (mailbox d.val (fun s =>
    mailDone d.val 0 [b2n ((List.range 32).any (fun n => decide ((stack s n).st ≠ .inService))),
      (List.range 32).foldl (fun (a : Nat) n => max a (stack s n).tempC) 0, retiredStacks s] s) s))

/-- The DPA of a line in a grant, when the grant's extent holds the line. -/
def dpaOfLine (s : State) (w : Wdw) (l : Nat) : Option Nat :=
  match (extent s w.extent).blocks.findIdx? (fun b => b == 64 * l / blockBytes) with
  | some i => some ((w.dpaBase + i) * blockBytes + 64 * l % blockBytes)
  | none => none

/-- GET_POISON_LIST: up to 1,024 poisoned lines of the grants, as DPA. -/
def execGetPoisonList (d : Fin 64) (s : State) : Ans :=
  .next (live s (mailbox d.val (fun s =>
    let ls := (s.mem.poison.filter (·.2)).map (·.1)
    mailDone d.val 0 (((grantsOf s d.val).flatMap (fun w => ls.filterMap (dpaOfLine s w.2))).take 1024) s) s))

/-- The 8 dynamic capacity regions of a logical device (R336): base and length in blocks of each. Region 0 holds every
grant but the balloons. -/
def dcRegions (s : State) (d : Nat) : List Nat :=
  (List.range 8).flatMap (fun r =>
    let ws := (grantsOf s d).filter (fun w => w.2.region == r)
    match ws with
    | [] => [0, 0]
    | w :: _ =>
      let lo := ws.foldl (fun (a : Nat) x => min a x.2.dpaBase) w.2.dpaBase
      let hi := ws.foldl (fun (a : Nat) x => max a (x.2.dpaBase + x.2.size)) 0
      [lo, hi - lo])

/-- The dynamic capacity extents that the host has accepted: region, DPA base and length in blocks of each. -/
def dcExtents (s : State) (d : Nat) : List Nat :=
  ((grantsOf s d).filter (fun w => !w.2.offered)).flatMap (fun w =>
    [w.2.region, w.2.dpaBase, (extent s w.2.extent).blocks.length])

/-- A mailbox command of CXL 3.1 alone; unsupported below. -/
def mailbox31 (d : Nat) (f : State → State) (s : State) : State :=
  mailbox d (fun s => if versionOf s d = 3 then f s else mailDone d 3 [] s) s

/-- GET_DYNAMIC_CAPACITY_CONFIGURATION: the block size and the regions. -/
def execGetDynamicCapacityConfiguration (d : Fin 64) (s : State) : Ans :=
  .next (live s (mailbox31 d.val (fun s => mailDone d.val 0 (blockBytes :: dcRegions s d.val) s) s))

/-- GET_DYNAMIC_CAPACITY_EXTENT_LIST: the extents that the host has accepted. -/
def execGetDynamicCapacityExtentList (d : Fin 64) (s : State) : Ans :=
  .next (live s (mailbox31 d.val (fun s => mailDone d.val 0 (dcExtents s d.val) s) s))

/-- UNSUPPORTED_MAILBOX_COMMAND. -/
def execUnsupportedMailboxCommand (d : Fin 64) (s : State) : Ans :=
  .next (live s (mailbox d.val (fun s => mailDone d.val 3 [] s) s))

/-! FM API (R344). -/

/-- A FM API response. -/
def apiDone (code : Nat) (vals : List Nat) (s : State) : State := emit (.fmApi code vals) s

/-- Logical devices of a port that exist. -/
def ldsPresent (s : State) (p : Nat) : List Nat := (List.range (cxlPort s p).ldCount).map (16 * p + ·)

/-- GET_LD_INFO: LD_COUNT and the capacity of each logical device. -/
def execGetLdInfo (p : Fin 4) (s : State) : Ans :=
  .next (served s (apiDone 0 ((cxlPort s p.val).ldCount :: (ldsPresent s p.val).map (dpaEnd s)) s))

/-- GET_LD_ALLOCATIONS: for each logical device of the port, the number of its grants, and the extent, DPA base and size of
each. -/
def execGetLdAllocations (p : Fin 4) (s : State) : Ans :=
  .next (served s (apiDone 0 ((ldsPresent s p.val).flatMap (fun d =>
    let ws := grantsOf s d
    ws.length :: ws.flatMap (fun w => [w.2.extent, w.2.dpaBase, w.2.size]))) s))

/-- SET_LD_ALLOCATIONS: unsupported; allocation is by grants. -/
def execSetLdAllocations (s : State) : Ans := .next (served s (apiDone 3 [] s))

/-- GET_QOS_CONTROL: the DevLoad thresholds, in percent of occupancy. -/
def execGetQosControl (s : State) : Ans := .next (served s (apiDone 0 [s.cxl.qosHigh, s.cxl.qosLow] s))

/-- SET_QOS_CONTROL: percentages with the low one not above the high one. -/
def execSetQosControl (high low : Nat) (s : State) : Ans :=
  .next (served s (
    if low ≤ high ∧ high ≤ 100 then apiDone 0 [] { s with cxl := { s.cxl with qosHigh := high, qosLow := low } }
    else apiDone 2 [] s))

/-- Occupancy of the fullest home's line queues (R88), in percent of its 16,384 entries. -/
def queueOccupancy (s : State) : Nat :=
  ((List.range 4).foldl (fun (a : Nat) q => max a (queuedReqs s q)) 0) * 100 / 16384

/-- GET_QOS_STATUS: the DevLoad of CXL (0 light, 1 optimal, 2 moderate overload, 3 severe overload) by the thresholds, and
the occupancy; severe when the queues are full (DESIGN CHOICE). -/
def execGetQosStatus (s : State) : Ans :=
  .next (served s (
    let o := queueOccupancy s
    let load := if 100 ≤ o then 3 else if s.cxl.qosHigh ≤ o then 2 else if s.cxl.qosLow ≤ o then 1 else 0
    apiDone 0 [load, o] s))

/-- GET_QOS_ALLOCATED_BW: the share of each logical device of a port, in 1/256. -/
def execGetQosAllocatedBw (p : Fin 4) (s : State) : Ans :=
  .next (served s (apiDone 0 ((ldsPresent s p.val).map (fun d => (logDev s d).bwShare)) s))

/-- A run of 1/256 values for the logical devices of a port from an LD-ID on is acceptable. -/
def bwRun (s : State) (p start : Nat) (vals : List Nat) : Bool :=
  decide (start + vals.length ≤ (cxlPort s p).ldCount) && vals.all (fun v => decide (v ≤ 255))

/-- SET_QOS_ALLOCATED_BW: the shares of the logical devices from an LD-ID on. -/
def execSetQosAllocatedBw (p : Fin 4) (start : Nat) (vals : List Nat) (s : State) : Ans :=
  .next (served s (
    if bwRun s p.val start vals then
      apiDone 0 [] (forEach (List.range vals.length) (fun i s =>
        let d := 16 * p.val + start + i
        setLogDev d { logDev s d with bwShare := vals.getD i 0 } s) s)
    else apiDone 2 [] s))

/-- GET_QOS_BW_LIMIT: the limit of each logical device of a port, in 1/256. -/
def execGetQosBwLimit (p : Fin 4) (s : State) : Ans :=
  .next (served s (apiDone 0 ((ldsPresent s p.val).map (fun d => (logDev s d).bwLimit)) s))

/-- SET_QOS_BW_LIMIT: the limits of the logical devices from an LD-ID on. -/
def execSetQosBwLimit (p : Fin 4) (start : Nat) (vals : List Nat) (s : State) : Ans :=
  .next (served s (
    if bwRun s p.val start vals then
      apiDone 0 [] (forEach (List.range vals.length) (fun i s =>
        let d := 16 * p.val + start + i
        setLogDev d { logDev s d with bwLimit := vals.getD i 0 } s) s)
    else apiDone 2 [] s))

/-- GET_DCD_INFO: the logical devices at CXL 3.1, the regions of each, the block size. -/
def execGetDcdInfo (s : State) : Ans :=
  .next (served s (apiDone 0 [((List.range 64).filter (fun d => (logDev s d).dcd)).length, 8, blockBytes] s))

/-- GET_HOST_DC_REGION_CONFIGURATION: the regions of a CXL 3.1 logical device. -/
def execGetHostDcRegionConfiguration (d : Fin 64) (s : State) : Ans :=
  .next (served s (if (logDev s d.val).dcd then apiDone 0 (dcRegions s d.val) s else apiDone 2 [] s))

/-- GET_DC_REGION_EXTENT_LISTS: the extents of a CXL 3.1 logical device, by region. -/
def execGetDcRegionExtentLists (d : Fin 64) (s : State) : Ans :=
  .next (served s (if (logDev s d.val).dcd then apiDone 0 (dcExtents s d.val) s else apiDone 2 [] s))

/-- SET_DC_REGION_CONFIGURATION: unsupported; regions are set by R336. -/
def execSetDcRegionConfiguration (s : State) : Ans := .next (served s (apiDone 3 [] s))

end Sys2Proof.Machine
end

