-- ==== Sys2Proof/Machine/ObsOps.lean ====
section
/-! DEFINITION. The event recorder's metrics, periods and bytes (R463 to R471), and the zeroising of the key store (R399). -/

namespace Sys2Proof.Machine

/-! Metrics (Table 18.5). -/

/-- The recorded extreme of a metric; before there is one, 0, and 0xFFFF for metric 23, which keeps a minimum (DESIGN
CHOICE). -/
def extremeOf (s : State) (m : Nat) : Nat :=
  match tget 0 s.obs.extremes m with
  | 0 => if m = 23 then 0xFFFF else 0
  | k + 1 => k

/-- Bit length of a value: 0 for 0. -/
def bitLength (v : Nat) : Nat := if v = 0 then 0 else Nat.log2 v + 1

/-- Bucket of a LINEAR metric. -/
def linearBucket (low step v : Nat) : Nat := if v < low then 0 else min 13 ((v - low) / step)

/-- Bucket of a LOG2 metric. -/
def log2Bucket (shift v : Nat) : Nat := min 13 (bitLength (v / 2 ^ shift))

/-- Bucket that a sample falls in. -/
def bucketOf (m v : Nat) : Nat :=
  if m < 4 then linearBucket 40 5 v
  else if m < 8 then linearBucket 0 50 v
  else if m = 8 then linearBucket 40 5 v
  else if m < 13 then log2Bucket 0 v
  else if m = 13 then linearBucket 0 4 v
  else if m < 16 then log2Bucket 4 v
  else if m = 16 then log2Bucket 0 v
  else if m = 23 then linearBucket 108 4 v
  else linearBucket 0 8 v

/-- Sum of a counter over instances. -/
def cntSum (s : State) (f i : Nat) (ns : List Nat) : Nat := (ns.map (fun n => cntGet s f n i)).foldl (· + ·) 0

/-- The counters whose increase a rate metric is: row, index and instances. -/
def rateCounters (m : Nat) : List (Nat × Nat × List Nat) :=
  match m with
  | 9 => [(cUtil, 10, List.range 4)]
  | 10 => [(cUtil, 11, List.range 4)]
  | 11 => [(cUtil, 12, List.range 4)]
  | 12 => [(cRof, 4, List.range 64), (cRof, 5, List.range 64)]
  | 14 => [(cE2e, 7, List.range 4)]
  | _ => []

/-- Present total of a rate metric's counters; metric 15 sums the drops of every contract. -/
def rateTotal (s : State) (m : Nat) : Nat :=
  if m = 15 then
    (s.cnt.map (fun c => if c.1 / 65536 = cOne * 64 + 6 then c.2 else 0)).foldl (· + ·) 0
  else ((rateCounters m).map (fun c => cntSum s c.1 c.2.1 c.2.2)).foldl (· + ·) 0

/-- Metrics that are rates. -/
def rateMetrics : List Nat := [9, 10, 11, 12, 14, 15]

/-- The present value of a metric before saturation. `use` gives the utilisations 17 to 20 and 22 in percent. -/
def metricNow (s : State) (use : List Nat) (m : Nat) : Nat :=
  if m < 4 then (tget {} s.sch.q m).tj / 4
  else if m < 8 then (tget {} s.sch.q (m - 4)).railW
  else if m = 8 then ((List.range 32).map (fun n => (tget {} s.mem.stk n).tempC)).foldl max 0
  else if rateMetrics.contains m then ((rateTotal s m : Int) - tget 0 s.obs.prev m).toNat
  else if m = 13 then
    ((List.range 64).map (fun p => ((List.range 16).filter (fun l => (port s p).laneFault.getLsbD l)).length)).foldl (· + ·) 0
  else if m = 16 then (s.sch.qDelay.map (·.2)).foldl max 0
  else if m = 21 then
    (s.dir.lines.filter (fun c => decide (c.2.dir.st ≠ .i))).length * 100 / (4 * 16777216)
  else if m = 23 then coresInService s
  else use.getD (if m = 22 then 4 else m - 17) 0

/-- One sample of one metric: bucket, smallest and largest of the period, extreme (R464, R465, R467). -/
def sampleMetric (m v : Nat) (s : State) : State :=
  let v := min v 0xFFFF
  let o := s.obs
  let old := extremeOf s m
  let s := { s with obs := { o with
    buckets := tmod 0 o.buckets (m * 16 + bucketOf m v) (fun a => min 0xFFFF (a + 1))
    mins := tput none o.mins m (some (match tget none o.mins m with | some x => min x v | none => v))
    maxs := tput none o.maxs m (some (match tget none o.maxs m with | some x => max x v | none => v)) } }
  if (if m = 23 then decide (v < old) else decide (old < v)) then
    let s := record 2 m [old, v] s
    { s with obs := { s.obs with extremes := tput 0 s.obs.extremes m (v + 1) } }
  else s

/-- The entry of one metric in a PERIOD record: 32 bytes. -/
def periodEntry (s : State) (m : Nat) : List Byte :=
  leBytes 2 ((tget none s.obs.mins m).getD 0) ++ leBytes 2 ((tget none s.obs.maxs m).getD 0) ++
  (List.range 14).flatMap (fun k => leBytes 2 (tget 0 s.obs.buckets (m * 16 + k)))

/-- Bytes as 8-byte fields. -/
def fields8 (b : List Byte) : List Nat := (List.range (b.length / 8)).map (fun i => leAt b (8 * i) 8)

/-- Writes the PERIOD record and begins the next period (R465, R466). -/
def endPeriod (short : Bool) (s : State) : State :=
  let s := recordAs short 1 0xFFFFFFFF (fields8 ((List.range 24).flatMap (periodEntry s))) s
  { s with obs := { s.obs with buckets := [], mins := [], maxs := [], periodAt := s.time } }

/-- Length of the period: PERIOD_MIN within its range (Table 18.11). -/
def periodNs (s : State) : Nat := 60000000000 * clampN 1 1440 s.obs.periodMin

/-! The log as bytes (Table 18.4). -/

/-- The bytes of a record: header, CRC-32C over the record with its field 0, body in whole 32-byte units. -/
def recBytesOf (r : LogRec) : List Byte :=
  let n := recBytes r.body
  let b := r.body.flatMap (leBytes 8)
  let body := b ++ List.replicate (n - 32 - b.length) 0
  let h := [BitVec.ofNat 8 r.kind, BitVec.ofNat 8 r.flags] ++ leBytes 2 n ++ leBytes 4 r.seq ++ leBytes 8 r.time ++
    leBytes 4 r.hours ++ leBytes 4 r.cycles ++ leBytes 4 r.subject
  h ++ leBytes 4 (crc32c (h ++ [0, 0, 0, 0] ++ body)).toNat ++ body

/-- The committed bytes of the log. -/
def logBytes (s : State) : List Byte := s.obs.log.flatMap recBytesOf

/-- Any key slot is ACTIVE or REVOKING (R399). -/
def keysLive (s : State) : Bool :=
  s.sec.tenants.any (fun c => decide (c.2.slotEven ≠ .empty) || decide (c.2.slotOdd ≠ .empty))

/-- The whole key store is zeroised, and KEYS_ZEROISED set (R399). -/
def zeroiseKeys (s : State) : State :=
  { s with sec := { s.sec with
    keysZeroised := true
    systemKey := none
    tenants := tmapAll {} (fun _ (t : Tenant) => { t with
      slotEven := .empty, slotOdd := .empty, contentKey := false, dataEven := none, dataOdd := none, tagKey := none })
      s.sec.tenants
    sealeds := tmapAll {} (fun _ (y : Sealed) => { y with contentKey := none, releaseKey := none }) s.sec.sealeds } }

end Sys2Proof.Machine
end

