-- ==== Sys2Proof/Machine/Sched.lean ====
section
/-! DEFINITION. The scheduler (chapter 10; opcode-table rows SCHEDULER_TICK to CLEAR_MAX and the fabric manager's
settings): fit and placement (R258 to R260), the choice of the next job (R261), shaping classes (R262), contracts (R263),
queue samples (R265), membership (R35). -/

namespace Sys2Proof.Machine

/-! Fit (R256, R258). Powers are in units of W / (2·10^13), so that every product is exact. -/

/-- Declared power of one core of a job at an operating point (R256). -/
def declared (cls k : Nat) : Nat := 750000 * (cls + 1) * voltFactor k * opMhz k

/-- Cores of a quadrant that hold no job and are not fenced. -/
def idleCores (s : State) (q : Nat) : List Nat :=
  ((List.range 40).map (40 * q + ·)).filter (fun n => (coreOf s n).job.isNone && !(coreFenced s n))

/-- The sum L of declared powers of the cores of a quadrant that hold a job. -/
def declaredSum (s : State) (q : Nat) : Nat :=
  (((List.range 40).map (40 * q + ·)).map (fun n =>
    match jobOn s n with
    | some (_, j) => declared j.energyClass (pwrq s q).opCur
    | none => 0)).foldl (· + ·) 0

/-- BUDGET_W as it acts (R257). -/
def budgetW (x : PwrQ) : Nat := min x.budgetW 700

/-- The fit horizon as it acts (Table 10.10). -/
def fitHorizon (s : State) : Nat := clampN 100 10000 s.sch.fitHorizonUs

/-- `n` cores of the job fit a quadrant (R258). -/
def fits (s : State) (j : Job) (q n : Nat) : Bool :=
  let x := pwrq s q
  let h := fitHorizon s
  decide (n ≤ (idleCores s q).length) &&
  (((List.range 40).all (fun i => (coreOf s (40 * q + i)).job.isNone)) ||
   decide ((declaredSum s q + n * declared j.energyClass x.opCur) * h ≤
     (budgetW x * h + x.bucketUj.toNat) * 20000000000000))

/-- The largest number of cores up to `n` that fit a quadrant. -/
def largestFit (s : State) (j : Job) (q : Nat) : Nat → Nat
  | 0 => 0
  | n + 1 => if fits s j q (n + 1) then n + 1 else largestFit s j q n

/-! Placement (R259, R260). -/

/-- The read slot with the largest MIN_BYTES, ties to the lower slot. -/
def dataSlot (j : Job) : Option Nat :=
  (List.range (j.binds.length / 16)).foldl (fun b i =>
    let k := leAt j.binds (16 * i) 1
    if k = 0 ∨ k = 2 ∨ k = 5 then
      match b with
      | none => some i
      | some a => if slotBytes j a < slotBytes j i then some i else b
    else b) none

/-- The data quadrant (R259). -/
def dataQuadrant (s : State) (j : Job) : Option Nat :=
  match dataSlot j with
  | none => none
  | some i =>
    match extentAt s (group s j.group).tenant (slotArg j i) with
    | none => none
    | some e => match (extent s e).place with | .localTo q => some q.val | .deviceWide => none

/-- A quadrant may take a share: in service in the anchor's island, and not in emergency. -/
def quadOpen (s : State) (q : Nat) : Bool :=
  let x := pwrq s q
  quadServes s q && !x.emergThermal && !x.emergRail && !x.emergAlert

/-- Inserts an element before the first that it does not follow. -/
def insertBy {α : Type} (le : α → α → Bool) (x : α) : List α → List α
  | [] => [x]
  | y :: r => if le x y then x :: y :: r else y :: insertBy le x r

/-- The list in the order of `le`, equals in their present order. -/
def sortBy {α : Type} (le : α → α → Bool) (l : List α) : List α := l.foldr (insertBy le) []

/-- Quadrants in ascending order of Tj, ties to the lower number. -/
def byTj (s : State) : List Nat :=
  sortBy (fun a b => decide ((pwrq s a).tj < (pwrq s b).tj) ||
    (decide ((pwrq s a).tj = (pwrq s b).tj) && decide (a ≤ b))) (List.range 4)

/-- The order in which quadrants are considered (R260). -/
def quadOrder (s : State) (j : Job) : List Nat :=
  let dq := dataQuadrant s j
  let hot (q : Nat) : Bool := decide (4 * (95 - s.sch.shedMarginC) ≤ (pwrq s q).tj)
  let first := match dq with | some q => if hot q then [] else [q] | none => []
  let last := match dq with | some q => [q] | none => []
  let rest := (byTj s).filter (fun q => decide (dq ≠ some q))
  ((first ++ [j.quadrant].filter (fun q => decide (dq ≠ some q)) ++ rest ++ last).foldl
    (fun l q => if l.contains q then l else l ++ [q]) []).filter (quadOpen s)

/-- Takes shares of the WIDTH cores from quadrants in order, each as large as fits: the cores chosen. -/
def placeFrom (s : State) (j : Job) : List Nat → Nat → List Nat
  | [], _ => []
  | q :: r, n =>
    let k := largestFit s j q n
    (idleCores s q).take k ++ placeFrom s j r (n - k)

/-- Distinct logical channels that the program's BARRIER operations name (R239). -/
def jobChans (j : Job) : List Nat :=
  if j.width = 1 then []
  else j.program.foldl (fun l w =>
    if tKindOf (tOpc w) = some .barrier ∧ !(l.contains (tX w % 16)) then l ++ [tX w % 16] else l) []

/-- Free physical channels. -/
def freeChans (s : State) : List Nat := (List.range 16).filter (fun p => (chanOf s p).job.isNone)

/-- The cores that a job would be admitted to now; none when it does not fit. -/
def placement (s : State) (j : Job) : Option (List Nat) :=
  let cs := placeFrom s j (quadOrder s j) j.width
  if cs.length = j.width ∧ (jobChans j).length ≤ (freeChans s).length then some cs else none

/-! Admission. -/

/-- A context at its start or at the snapshot of the job's commit (R203). -/
def startCtx (j : Job) (rank i : Nat) : Ctx :=
  match (((j.snaps.drop rank).head?.getD []).drop i).head? with
  | some c => if c.ended then { st := .ended, commits := j.commits }
              else { st := .ready, pc := c.pc, regs := c.regs, commits := j.commits }
  | none => { st := .ready, pc := j.entries.getD i 0, commits := j.commits }

/-- A request that reaches a gated core opens its gate, those above it first (R439): root, core domain, core. -/
def openCoreGate (n : Nat) (s : State) : State :=
  let x := tget {} s.clk.q (n / 40)
  { s with clk := { s.clk with q := tput {} s.clk.q (n / 40) { x with
    closed := [0, 1, 8 + n % 40].foldl (fun t g => tput false t g false) x.closed } } }

/-- A core takes its share of a job: core store, accumulators and semaphores zero (R189, R203); its meter and its limit go on
(R255, R256). -/
def startCore (jid : Nat) (j : Job) (n rank : Nat) (s : State) : State :=
  let ctxs := (List.range j.contexts).foldl (fun (t : Tbl Ctx) i => tput {} t i (startCtx j rank i)) []
  setCore n { job := some jid, rank := rank, stateTime := s.time, arrived := j.commits, ctxs := ctxs, meterAt := s.time
              energyFj := (coreOf s n).energyFj, limited := (coreOf s n).limited } (openCoreGate n s)

/-- The job is admitted to its cores: channels bound with every sense at 0 (R239, R242), its serial number assigned at the
first admission, or on a standby taken from the order stream (R217), the stochastic-rounding controls of then taken (R232). -/
def admitJob (jid : Nat) (j : Job) (cs : List Nat) (s : State) (given : Option Nat := none) : State :=
  let s := forEach ((jobChans j).zip (freeChans s)) (fun c s =>
    setChan9 c.2 { job := some jid, logical := c.1, members := j.width } s) s
  let serial := given.getD (if j.firstAdmit.isSome then j.serial else tget 0 s.core.serials j.quadrant)
  let s := if j.firstAdmit.isSome then s
    else { s with core := { s.core with serials := tput 0 s.core.serials j.quadrant (serial + 1) } }
  let j := { j with serial := serial }
  let j := if j.firstAdmit.isSome then { j with phase := .running, cores := cs }
    else { j with phase := .running, cores := cs, firstAdmit := some s.time
                  srFixed := s.core.srFixed, srSeed := s.core.srSeed }
  let s := setJob jid (some j) (orderRec (.admitJob jid serial cs) (orderRec (.seed s.core.srSeed) s))
  let s := forEach (List.range cs.length) (fun r s => startCore jid j (cs.getD r 0) r s) s
  let shed := match dataQuadrant s j with | some q => cs.any (fun n => n / 40 != q) | none => false
  bump cSch 0 0 (when shed (bump cSch 0 2) s)

/-- Class of a job's group, and the class's credit (R262). -/
def classOf (s : State) (g : Nat) : Nat := tget 0 s.sch.groupClass g
def creditOf (s : State) (c : Nat) : Int := tget 0 s.sch.classCredit c

/-- Ready jobs of a quadrant's list whose group is ACTIVE (R155). -/
def readyJobs (s : State) (q : Nat) : List (Nat × Job) :=
  s.que.jobs.filterMap (fun c => match c.2 with
    | some j => if j.phase = .ready ∧ !j.quiesced ∧ j.quadrant = q ∧ (group s j.group).st = .active then some (c.1, j)
                else none
    | none => none)

/-- The order of candidates (R261): credit, highest first; age, oldest first; queue number; then submission order. -/
def before (s : State) (a b : Nat × Job) : Bool :=
  let ca := creditOf s (classOf s a.2.group)
  let cb := creditOf s (classOf s b.2.group)
  if ca ≠ cb then decide (cb < ca)
  else if a.2.readySince ≠ b.2.readySince then decide (a.2.readySince < b.2.readySince)
  else if a.2.queue ≠ b.2.queue then decide (a.2.queue < b.2.queue)
  else decide (a.1 ≤ b.1)

/-- The age limit as it acts, in ns (Table 10.10). -/
def ageLimit (s : State) : Nat := 1000000 * clampN 1 1000 s.sch.ageLimitMs

/-- The oldest ready job beyond the age limit. -/
def agedJob (s : State) (l : List (Nat × Job)) : Option (Nat × Job) :=
  (l.filter (fun c => decide (c.2.readySince + ageLimit s < s.time))).foldl (fun b c => match b with
    | none => some c
    | some a => if c.2.readySince < a.2.readySince ∨
        (c.2.readySince = a.2.readySince ∧ (c.2.queue < a.2.queue ∨ (c.2.queue = a.2.queue ∧ c.1 < a.1))) then some c
                else some a) none

/-- Tries one candidate: a job wider than the cores in service ends with CORE_FENCED (R206 step 6). Answers whether it
found no fit. -/
def tryAdmit (c : Nat × Job) (s : State) : Bool × State :=
  if coresInService s < c.2.width then
    (false, endJob c.1 .coreFenced 0 (fenceBytes { core := 0, rank := 0, time := s.time, commit := none, held := 0
                                                   issued := 0, partialBytes := 0, pva := 0 } 1) s)
  else
    match placement s c.2 with
    | some cs => (false, admitJob c.1 c.2 cs s)
    | none => (true, s)

/-- SCHEDULER_TICK: a 1 µs tick, or a core of the quadrant becoming idle (R261). -/
def execSchedulerTick (q : Fin 4) (now : Nat) (s : State) : Ans :=
  let s1 := advance now s
  .next (live s (
    if !(admissionOpen s1) || !(quadServes s1 q.val) then s1
    else
      let l := readyJobs s1 q.val
      match agedJob s1 l with
      | some c =>
        if creditOf s1 (classOf s1 c.2.group) < 0 then bump cSch 0 4 s1
        else
          match tryAdmit c s1 with
          | (true, s) => bump cSch 0 1 (bump cSch 0 4 s)
          | (false, s) => s
      | none =>
        let cands := sortBy (before s1) (l.filter (fun c => decide (0 ≤ creditOf s1 (classOf s1 c.2.group))))
        let (nofit, s2) := cands.foldl (fun (a : Bool × State) c =>
          let (f, t) := tryAdmit c a.2
          (a.1 || f, t)) (false, s1)
        when nofit (bump cSch 0 1) s2))

/-! Shaping classes (R262). -/

/-- Engines of a class in use: cores that run its jobs, and move engines that run its stripes (`stripes`). -/
def enginesInUse (s : State) (stripes : List (Nat × Nat)) (c : Nat) : Nat :=
  (s.core.cores.filter (fun x => match x.2.job with
    | some jid => (match job s jid with | some j => classOf s j.group == c | none => false)
    | none => false)).length +
  ((stripes.filter (fun x => x.1 == c)).map (·.2)).foldl (· + ·) 0

/-- The class has ready work: a ready job, or a near-memory descriptor in progress. -/
def classReady (s : State) (c : Nat) : Bool :=
  s.que.jobs.any (fun x => match x.2 with
    | some j => decide (j.phase = .ready) && !j.quiesced && classOf s j.group == c
    | none => false) ||
  s.que.queues.any (fun x => classOf s (x.1 / 8) == c && x.2.flight.any (fun d => d.started && !d.ended && d.job.isNone))

/-- Rate and burst of a class in units of 1/64 engine and engine-µs. -/
def classRate (s : State) (c : Nat) : Nat := tget 0x400 s.sch.classRate c
def classBurst (s : State) (c : Nat) : Nat := 64 * tget 0x7D0 s.sch.classBurstUs c

/-- One µs of a class's credit. -/
def creditTick (stripes : List (Nat × Nat)) (c : Nat) (s : State) : State :=
  let u := enginesInUse s stripes c
  if u = 0 && !(classReady s c) then s
  else
    let b : Int := (classBurst s c : Int)
    let v := creditOf s c + (classRate s c : Int) - 64 * (u : Int)
    { s with sch := { s.sch with classCredit := tput 0 s.sch.classCredit c (max (-b) (min b v)) } }

/-- CLASS_CREDIT_TICK: `stripes` names the classes of the move engines that ran a stripe during this µs, with their
number. -/
def execClassCreditTick (stripes : List (Nat × Nat)) (now : Nat) (s : State) : Ans :=
  .next (live s (forEach (List.range 256) (creditTick stripes) (advance now s)))

/-! Queue samples (R265). -/

/-- Doorbell time of the oldest descriptor of a queue that has not started. -/
def oldestStamp (x : Queue) : Option Nat :=
  match x.flight.find? (fun d => !d.started) with
  | some d => some d.stamp
  | none => if 0 < sqHeld x then x.stamps.head? else none

def sampleQueue (n : Nat) (s : State) : State :=
  let x := queue s n
  let m := 2 ^ 32 - 1
  let d := match oldestStamp x with | some t => min m ((s.time - t) / 1000) | none => 0
  { s with sch := { s.sch with
      qDepth := tput 0 s.sch.qDepth n (min m (sqHeld x + inFlight x)), qDelay := tput 0 s.sch.qDelay n d
      qMaxDelay := tput 0 s.sch.qMaxDelay n (max (tget 0 s.sch.qMaxDelay n) d) } }

/-- QUEUE_SAMPLE_TICK. -/
def execQueueSampleTick (now : Nat) (s : State) : Ans :=
  .next (live s (forEach (s.que.queues.map (·.1)) sampleQueue
    (let s := advance now s
     { s with sch := { s.sch with qDepth := [], qDelay := [] } })))

/-- CLEAR_MAX. -/
def execClearMax (n : Fin 8192) (s : State) : Ans :=
  .next (live s (queueWrite n.val (fun s => { s with sch := { s.sch with qMaxDelay := tput 0 s.sch.qMaxDelay n.val 0 } }) s))

/-! Settings of the fabric manager. -/

/-- SET_CLASS. -/
def execSetClass (c : Fin 256) (rate : BitVec 16) (burstUs : BitVec 32) (s : State) : Ans :=
  .next (served s (fmDone .ok [] { s with sch := { s.sch with
    classRate := tput 0x400 s.sch.classRate c.val rate.toNat
    classBurstUs := tput 0x7D0 s.sch.classBurstUs c.val burstUs.toNat } }))

/-- SET_GROUP_CLASS. -/
def execSetGroupClass (g : Fin 1024) (c : Fin 256) (s : State) : Ans :=
  .next (served s (fmDone .ok [] { s with sch := { s.sch with groupClass := tput 0 s.sch.groupClass g.val c.val } }))

/-- SET_SCH_CTRL. -/
def execSetSchCtrl (ageMs fitUs : BitVec 16) (shedC : BitVec 8) (s : State) : Ans :=
  .next (served s (fmDone .ok [] { s with sch := { s.sch with
    ageLimitMs := ageMs.toNat, fitHorizonUs := fitUs.toNat, shedMarginC := shedC.toNat } }))

/-- Two valid contracts name the same tenant and port. -/
def samePair (a b : Contract) : Bool :=
  (a.anyTenant == b.anyTenant) && (a.anyTenant || a.tenant == b.tenant) && (a.anyPort == b.anyPort) &&
  (a.anyPort || a.port == b.port)

/-- SET_CONTRACT: TOKENS is set to BURST_B; a second valid contract of a pair, or a burst below 4,128, is refused (R263,
Table 10.15). -/
def execSetContract (k : Fin 4096) (t : Fin 1024) (anyTenant : Bool) (port : Fin 64) (anyPort valid : Bool)
    (rate burst : BitVec 32) (s : State) : Ans :=
  let c : Contract := { tenant := t.val, anyTenant := anyTenant, port := port.val, anyPort := anyPort, valid := valid
                        rateMbps := rate.toNat, burstB := burst.toNat, milli := 1000 * burst.toNat, tokenTime := s.time }
  .next (served s (
    if valid && decide (burst.toNat < 4128) then fmDone .policed [] s
    else if valid && s.sch.contracts.any (fun x => x.1 != k.val && x.2.valid && samePair x.2 c) then fmDone .conflict [] s
    else fmDone .ok [] { s with sch := { s.sch with contracts := tput {} s.sch.contracts k.val c } }))

/-- SET_MEMBERSHIP: adds or removes an (endpoint, tenant) pair; the table holds 65,536 (R35). -/
def execSetMembership (id : Fin 65536) (t : Fin 1024) (add : Bool) (s : State) : Ans :=
  let m := (id.val, t.val)
  let set (l : List (Nat × Nat)) : State := { s with pool := { s.pool with members := l } }
  .next (served s (
    if add then
      if s.pool.members.contains m then fmDone .ok [] s
      else if 65536 ≤ s.pool.members.length then fmDone .policed [] s
      else fmDone .ok [] (set (s.pool.members ++ [m]))
    else fmDone .ok [] (set (s.pool.members.filter (· != m)))))

end Sys2Proof.Machine
end

