-- ==== Sys2Proof/Machine/Sync.lean ====
section
/-! DEFINITION. Synchronisation (chapter 9; opcode-table rows OBJ_ASSIGN to OBJ_RELEASE, RESETNOTICE,
DECLARE_ENDPOINT_RESET, WAIT_WATCHDOG_EXPIRY). -/

namespace Sys2Proof.Machine

/-- OBJ_ASSIGN: the fabric manager assigns an object to a tenant; only in FREE may DPC_SYN_OBJ be written (R246), and not
while a registration reads its list. -/
def execObjAssign (o : Fin 1024) (t : Fin 1024) (s : State) : Ans :=
  let x := syncObj s o.val
  .next (served s (if x.st ≠ 0 ∨ x.reading then fmDone .conflict [] s else fmDone .ok [] (setObj o.val { x with tenant := t.val } s)))

/-- OBJ_REGISTER: written by a logical device bound to the object's tenant; `none` is the fabric manager, for a tenant that no
logical device is bound to (R245). -/
def objWriter (s : State) (o : Nat) (d : Option (Fin 64)) : Bool :=
  match d with
  | some d => (logDev s d.val).bound && (logDev s d.val).tenant == (syncObj s o).tenant
  | none => !(hasHost s (syncObj s o).tenant)

/-- A write of Word 2 of DPC_SYN_OBJ: outside the writer's scope it sets BAD_WRITE (R482). -/
def objWrite (o : Nat) (d : Option (Fin 64)) (f : State → State) (s : State) : State :=
  match d with
  | some d =>
    if writesIgnored s d.val then s
    else if objWriter s o (some d) then f s
    else badAccess d.val true (0xB0010 + 32 * o) s
  | none => if objWriter s o none then f s else s

/-- OBJ_REGISTER: WORD_PVA, MEMBER_LIST_PVA and MEMBERS stand in DPC_SYN_OBJ; REGISTER is written 1. -/
def execObjRegister (o : Fin 1024) (d : Option (Fin 64)) (s : State) : Ans :=
  .next (live s (objWrite o.val d (registerObj o.val) s))

/-- DEREGISTER written 1: the object is FREE, its word is left as it is. -/
def deregisterObj (o : Nat) (s : State) : State :=
  let x := syncObj s o
  if x.st = 0 then s else setObj o { x with st := 0, list := [], stateTime := s.time } s

/-- OBJ_DEREGISTER. -/
def execObjDeregister (o : Fin 1024) (d : Option (Fin 64)) (s : State) : Ans :=
  .next (live s (objWrite o.val d (deregisterObj o.val) s))

/-! Debug commands (R250, R251). -/

/-- A debug command of an Operator acts, is counted and recorded with who sent it. -/
def debugCmd (r : Role) (who cmd : Nat) (args : List Nat) (f : State → State) (s : State) : State :=
  if r ≠ .operator then fmDone .policed [] s
  else fmDone .ok [] (actionEvent cmd args who (bump cSyn 0 5 (f s)))

/-- SEM_SET: contexts that the count lets go on become ready (R251). -/
def execSemSet (r : Role) (who : Nat) (n : Fin 160) (k : Fin 64) (v : Fin 256) (s : State) : Ans :=
  .next (served s (debugCmd r who 1 [n.val, k.val, v.val] (fun s =>
    let c := coreOf s n.val
    wakeSem n.val k.val (setCore n.val { c with sems := tput 0 c.sems k.val v.val } s)) s))

/-- CHAN_RELEASE: the current episode completes as if every member had arrived. -/
def execChanRelease (r : Role) (who : Nat) (p : Fin 16) (s : State) : Ans :=
  .next (served s (debugCmd r who 2 [p.val] (completeEpisode p.val) s))

/-- OBJ_MARK: the mark of R248; the object's state stays as it is. -/
def execObjMark (r : Role) (who : Nat) (o : Fin 1024) (s : State) : Ans :=
  .next (served s (
    if r = .operator ∧ (syncObj s o.val).st = 0 then fmDone .conflict [] s
    else debugCmd r who 3 [o.val] (fun s => bump cSyn 0 4 (markWord (syncObj s o.val) s)) s))

/-- OBJ_RELEASE: an atomic at the home sets COUNT to 0 and inverts SENSE, keeping STATUS. -/
def execObjRelease (r : Role) (who : Nat) (o : Fin 1024) (s : State) : Ans :=
  .next (served s (
    if r = .operator ∧ (syncObj s o.val).st = 0 then fmDone .conflict [] s
    else debugCmd r who 4 [o.val] (fun s => wordAtomic (syncObj s o.val) 0xF3 0 s) s))

/-! Endpoint resets and the wait watchdog. -/

/-- A ResetNotice declares its source reset (Table 9.5, Table 11.5). -/
def actResetNotice (p : Packet) (s : State) : State :=
  if p.typ.toNat = tResetNotice then memberReset 1 p.src.toNat s else s

/-- RESETNOTICE. -/
def execResetnotice (port : Fin 64) (p : Packet) (s : State) : Ans :=
  .next (live s (terminate port.val p (fun _ s => actResetNotice p s) s))

/-- DECLARE_ENDPOINT_RESET. -/
def execDeclareEndpointReset (id : Fin 65536) (s : State) : Ans :=
  .next (served s (fmDone .ok [] (memberReset 1 id.val s)))

/-- WATCHDOG_MS as it acts (Table 9.8). -/
def watchdogMs (s : State) : Nat := clampN 10 60000 s.core.watchdogMs

/-- Contexts of a job's cores whose watchdogs have run for their period, the lowest core first, and on it the lowest context. -/
def expired (s : State) (j : Job) : List (Nat × Nat) :=
  (List.range 160).flatMap (fun n => if j.cores.contains n then
    ((List.range 8).filter (fun i => match (ctxOf (coreOf s n) i).waitSince with
      | some t => decide (t + 1000000 * watchdogMs s ≤ s.time)
      | none => false)).map (fun i => (n, i)) else [])

/-- WAIT_WATCHDOG_EXPIRY: the watchdog of a context has run for its period: the job ends with WAIT_TIMEOUT, and the record
names the lowest core and context that have expired (R237, R238). -/
def execWaitWatchdogExpiry (n : Fin 160) (c : Fin 8) (now : Nat) (s : State) : Ans :=
  let s1 := advance now s
  .next (live s (match jobOn s1 n.val with
    | none => s1
    | some (jid, j) =>
      let l := expired s1 j
      if !(l.contains (n.val, c.val)) then s1
      else
        let (m, i) := l.headD (n.val, c.val)
        let x := ctxOf (coreOf s1 m) i
        let s2 := { s1 with core := { s1.core with
          wdogTime := s1.time, wdogCore := m, wdogCtx := i, wdogCause := x.waitCause, wdogNumber := x.waitNumber
          wdogGroup := j.group } }
        endJob jid .waitTimeout 0 [] (event 0x12 [m, i, x.waitCause, j.group] (bump cSyn 0 3 s2))))

end Sys2Proof.Machine
end

