-- ==== Sys2Proof/Machine/Transport.lean ====
section
/-! DEFINITION. End-to-end delivery (chapter 12; opcode-table rows TETHERBEAT and UNMATCHED_RESPONSE to SET_E2E_CTRL,
SEQUENCE_QUARANTINE_EXPIRY). -/

namespace Sys2Proof.Machine

/-- The key a flow has in the tables of contexts. -/
def keyOf (f : Flow) : FlowKey :=
  { q := match f.group with | some g => f.q.val + 4 * (1 + g.val) | none => f.q.val
    other := if f.pair then pairBase + f.other.toNat else f.other.toNat, vc := f.vc.val }

/-- The key of the send context that an Ack or ResendReq on port `n` names: the flow from this device to the packet's
source on the channel in ARG0. -/
def ackedFlow (s : State) (n q : Nat) (p : Packet) : FlowKey :=
  { q := q, vc := field p.arg0.toNat 24 3
    other := if (port s n).pair && p.dst.toNat == b2n s.sec.side then pairBase + p.src.toNat else p.src.toNat }

/-- Bit `i` of a packet's payload. -/
def payBit (p : Packet) (i : Nat) : Bool := bitOf (byteAt p.payload (i / 8)).toNat (i % 8)

/-- An Ack covers a SEQ: before its BASE, or its payload bit is set (R310). -/
def covered (p : Packet) (seq : Nat) : Bool :=
  let d := (seq + 2 ^ 24 - p.arg0.toNat % 2 ^ 24) % 2 ^ 24
  decide (2 ^ 23 ≤ d) || (decide (d < 1024) && payBit p d)

/-- Completion writes of this flow and SEQ. -/
def isWrite (k : FlowKey) (seq : Nat) (w : RingWrite) : Bool :=
  w.q == k.q && w.other == k.other && w.seq == some seq

/-- Completion writes that are delivered and answered are forgotten once no earlier one of their queue is outstanding. -/
def pruneWrites (s : State) : State :=
  let ws := s.e2e.ringWrites
  let blocked (w : RingWrite) : Bool :=
    (ws.takeWhile (fun x => !(decide (x = w)))).any (fun x => x.compl.queue == w.compl.queue && !x.acked)
  { s with e2e := { s.e2e with ringWrites := ws.filter (fun w => !(w.acked && w.answered) || blocked w) } }

/-- An Ack acts on its flow (R310, Table 12.1). -/
def applyAck (k : FlowKey) (p : Packet) (s : State) : State :=
  match sendCtx s k with
  | none => s
  | some c =>
    let new := c.pkts.any (fun x => !x.acked && covered p x.pkt.seq.toNat)
    let c' := { c with isOpen := c.isOpen || new, lastAck := s.time
                       pkts := c.pkts.map (fun x => if covered p x.pkt.seq.toNat then { x with acked := true } else x) }
    let s := setSend k c' s
    let s := { s with e2e := { s.e2e with ringWrites := s.e2e.ringWrites.map (fun w =>
      match w.seq with
      | some q => if isWrite k q w && k.vc == 4 && covered p q then { w with acked := true } else w
      | none => w) } }
    flushStalled (k.q % 4) 2 (flushFlow k (settleRings (pruneWrites s)))

/-- ACK. -/
def execAck (port : Fin 64) (p : Packet) (s : State) : Ans :=
  .next (live s (terminate port.val p (fun q s =>
    if p.typ.toNat = tAck then applyAck (ackedFlow s port.val q p) p s else s) s))

/-- An Ack or ResendReq of a receive flow: from the quadrant that terminates it to the flow's source (Table 12.3). -/
def controlPkt (s : State) (k : FlowKey) (typ first : Nat) (bits : List Nat) : Packet :=
  let word := bits.foldl (fun a i => a ||| 2 ^ i) 0
  mkPacket s typ 6 (k.other % pairBase) 0 (BitVec.ofNat 64 (first % 2 ^ 24 + k.vc * 2 ^ 24)) (leBytes 128 word)

/-- ACK_TIMER: the acknowledgement a flow owes is sent, within 1 µs of the first event it covers (R310). -/
def execAckTimer (f : Flow) (now : Nat) (s : State) : Ans :=
  let s1 := advance now s
  let k := keyOf f
  .next (live s (match recvCtx s1 k with
    | none => s1
    | some c =>
      match c.ackDue with
      | none => s1
      | some _ =>
        let bits := c.bits.map (fun q => (q + 2 ^ 24 - c.base) % 2 ^ 24)
        sendPlain k (controlPkt s1 k tAck c.base bits) (setRecv k { c with ackDue := none } s1)))

/-- Re-sends a packet: same SEQ, new BIRTH and CRC, routed afresh (R308, R311). -/
def resend (k : FlowKey) (x : SentPkt) (s : State) : State :=
  match sendCtx s k with
  | none => s
  | some c =>
    let p := stamp s x.pkt
    let c := { c with lastTx := s.time
                      pkts := c.pkts.map (fun y => if y.pkt.seq = x.pkt.seq then { y with pkt := p, lastTx := s.time } else y) }
    sendOut k p (bump cE2e (k.q % 4) 7 (setSend k c s))

/-- The unacknowledged packet of a flow with this SEQ. -/
def heldPkt (s : State) (k : FlowKey) (seq : Nat) : Option SentPkt :=
  match sendCtx s k with
  | some c => c.pkts.find? (fun x => x.pkt.seq.toNat == seq && !x.acked)
  | none => none

/-- RESENDREQ: each named packet is re-sent at once unless it was sent within 5 µs; one not held is ignored and counted
(R311). -/
def execResendreq (port : Fin 64) (p : Packet) (s : State) : Ans :=
  .next (live s (terminate port.val p (fun q s =>
    if p.typ.toNat ≠ tResendReq then s
    else
      let k := ackedFlow s port.val q p
      forEach ((List.range 1024).filter (payBit p)) (fun i s =>
        match heldPkt s k ((p.arg0.toNat % 2 ^ 24 + i) % 2 ^ 24) with
        | none => bump cE2e q 9 s
        | some x => if x.lastTx + 5000 ≤ s.time then resend k x s else s) s) s))

/-- RESEND_TIMER: RESEND_US has passed since the packet's last transmission (R311). -/
def execResendTimer (f : Flow) (seq : BitVec 24) (now : Nat) (s : State) : Ans :=
  let s1 := advance now s
  let k := keyOf f
  .next (live s (match heldPkt s1 k seq.toNat with
    | none => s1
    | some x => if x.lastTx + 1000 * resendUs s1 f.q.val ≤ s1.time then resend k x s1 else s1))

/-! Failure (Tables 12.1 and 12.5). -/

/-- A completion write that transport gives up on: its completion and every later one of the queue are held, to be
written again from its index on, and the queue stops (R153, Table 12.5). -/
def writeFailed (w : RingWrite) (s : State) : State :=
  let n := w.compl.queue
  let tail := (s.e2e.ringWrites.dropWhile (fun x => !(decide (x.idx = w.idx) && x.compl.queue == n))).filter
    (fun x => x.compl.queue == n)
  let x := queue s n
  let cs := (tail.map (fun x => x.compl) ++ x.awaiting).eraseDups
  let s := { s with e2e := { s.e2e with ringWrites := s.e2e.ringWrites.filter (fun x => !(tail.contains x)) } }
  let again := (cs.filter (fun c => c.window && !(x.awaiting.contains c))).length
  forEach cs holdCompl (setQueue n { x with
    cqTail := BitVec.ofNat 32 w.idx, windowsInFlight := x.windowsInFlight + again, awaiting := [], extOut := none
    posts := x.posts.takeWhile (fun p => p.idx != w.idx) } s)

/-- The consequence of one failed packet. -/
def packetFailed (k : FlowKey) (p : Packet) (s : State) : State :=
  let s := bump cE2e (k.q % 4) 10 s
  if p.typ.toNat = tRdOnce then
    match s.e2e.requests.find? (fun r => r.q == k.q && r.other == k.other && r.seq == some p.seq.toNat) with
    | some r => fetchFailed r.queue { s with e2e := { s.e2e with requests := s.e2e.requests.erase r } }
    | none => s
  else if p.typ.toNat = tWrPart then
    match s.e2e.ringWrites.find? (isWrite k p.seq.toNat) with
    | some w => writeFailed w s
    | none => s
  else s

/-- Every unacknowledged packet of a flow fails and its context is OPENING again. -/
def failFlow (k : FlowKey) (s : State) : State :=
  match sendCtx s k with
  | none => s
  | some c =>
    let lost := c.pkts.filter (fun x => !x.acked)
    let s := setSend k { c with isOpen := false, pkts := c.pkts.map (fun x => { x with acked := true }) } s
    flushStalled (k.q % 4) 2 (flushFlow k (forEach lost (fun x s => packetFailed k x.pkt s) s))

/-- RESEND_LIMIT_EXPIRY: RESEND_LIMIT_US has passed since the packet's first transmission (R311). -/
def execResendLimitExpiry (f : Flow) (seq : BitVec 24) (now : Nat) (s : State) : Ans :=
  let s1 := advance now s
  let k := keyOf f
  .next (live s (match heldPkt s1 k seq.toNat with
    | none => s1
    | some x => if x.first + 1000 * resendLimitUs s1 f.q.val ≤ s1.time then failFlow k s1 else s1))

/-- FLOW_SILENCE_EXPIRY: 2 ms have passed with no Ack on an OPEN flow (Table 12.1). -/
def execFlowSilenceExpiry (f : Flow) (now : Nat) (s : State) : Ans :=
  let s1 := advance now s
  let k := keyOf f
  .next (live s (match sendCtx s1 k with
    | none => s1
    | some c => if c.isOpen && decide (c.lastAck + 2000000 ≤ s1.time) then failFlow k s1 else s1))

/-- SEND_CONTEXT_RETIRE: 6 ms after the last transmission, OPENING and nothing unacknowledged (Table 12.1). -/
def execSendContextRetire (f : Flow) (now : Nat) (s : State) : Ans :=
  let s1 := advance now s
  let k := keyOf f
  .next (live s (match sendCtx s1 k with
    | none => s1
    | some c =>
      if !c.isOpen && (oldestUnacked c).isNone && c.waiting.isEmpty && decide (c.lastTx + 6000000 ≤ s1.time) then
        flushStalled (k.q % 4) 3 { s1 with e2e := { s1.e2e with send := adel k s1.e2e.send } }
      else s1))

/-- RECEIVE_CONTEXT_RETIRE: 4 ms after the last arrival (R306); its reassembly records are freed (R316). -/
def execReceiveContextRetire (f : Flow) (now : Nat) (s : State) : Ans :=
  let s1 := advance now s
  let k := keyOf f
  .next (live s (retireDue k s1))

/-- Missing SEQ offsets of a message in groups that one ResendReq can name: within 1,024 of the group's first. -/
def resendGroups : Nat → List Nat → List (Nat × List Nat)
  | 0, _ => []
  | _, [] => []
  | n + 1, x :: r =>
    let near := (x :: r).takeWhile (fun y => decide (y < x + 1024))
    (x, near.map (· - x)) :: resendGroups n ((x :: r).drop near.length)

/-- REASM_TIMEOUT: a message that is not complete REASM_US after its record was taken, or after the last request, has
its missing SEQs named again (R316). -/
def execReasmTimeout (f : Flow) (first : BitVec 24) (now : Nat) (s : State) : Ans :=
  let s1 := advance now s
  let k := keyOf f
  .next (live s (match afind s1.e2e.reasm (k, first.toNat) with
    | none => s1
    | some r =>
      if r.lastReq + 1000 * reasmUs s1 f.q.val ≤ s1.time then
        let miss := (List.range r.pktCount).filter (fun i => !(r.got.contains i))
        let s1 := { s1 with e2e := { s1.e2e with reasm := aset (k, first.toNat) { r with lastReq := s1.time } s1.e2e.reasm } }
        forEach (resendGroups miss.length miss) (fun g s =>
          sendPlain k (controlPkt s k tResendReq (first.toNat + g.1) g.2) (bump cE2e f.q.val 8 s)) s1
      else s1))

/-- ATOMIC_RETENTION_EXPIRY: 2 ms from the atomic's execution (R320). -/
def execAtomicRetentionExpiry (q : Fin 4) (src : BitVec 16) (tag : BitVec 64) (now : Nat) (s : State) : Ans :=
  let s1 := advance now s
  let k := (q.val, src.toNat, tag.toNat)
  .next (live s (match afind s1.e2e.retained k with
    | none => s1
    | some r =>
      if r.result.isSome && decide (r.time + 2000000 ≤ s1.time) then
        { s1 with e2e := { s1.e2e with retained := adel k s1.e2e.retained } }
      else s1))

/-- QUIET_PERIOD_END: 6 ms after release from a reset, sequenced packets flow again (R321). -/
def execQuietPeriodEnd (now : Nat) (s : State) : Ans :=
  let s1 := advance now s
  .next (live s (match s1.e2e.quietUntil with
    | none => s1
    | some t =>
      if t ≤ s1.time then
        let s1 := { s1 with e2e := { s1.e2e with quietUntil := none } }
        forEach (s1.e2e.send.map (·.1)) flushFlow s1
      else s1))

/-- SEQUENCE_QUARANTINE_EXPIRY: a packet's 1.1 ms have passed, and packets that waited for it start (R308 rule 3). -/
def execSequenceQuarantineExpiry (f : Flow) (now : Nat) (s : State) : Ans :=
  .next (live s (flushFlow (keyOf f) (advance now s)))

/-! Responses and recalls the device terminates (R512). -/

/-- A response is matched by flow, SEQ and channel of its request: a ring read takes its data, a completion write is
answered; any other response is discarded and counted in UNMATCHED. -/
def actResponse (q : Nat) (p : Packet) (s : State) : State :=
  let t := p.typ.toNat
  if !(decide (0x10 ≤ t) && decide (t ≤ 0x14)) then s
  else
    let seq := field p.arg0.toNat 8 24
    let vc := field p.arg0.toNat 32 3
    let k : FlowKey := { q := q, other := p.src.toNat, vc := vc }
    match s.e2e.requests.find? (fun r => vc == 0 && r.q == q && r.other == p.src.toNat && r.seq == some seq) with
    | some r =>
      let s := { s with e2e := { s.e2e with requests := s.e2e.requests.erase r } }
      if t = tData ∧ p.arg0.toNat % 256 = 0 ∧ 64 ≤ p.payload.length then descArrive r.queue p.payload s
      else fetchFailed r.queue s
    | none =>
      if vc == 4 && s.e2e.ringWrites.any (isWrite k seq) then
        settleRings (pruneWrites { s with e2e := { s.e2e with ringWrites := s.e2e.ringWrites.map (fun w =>
          if isWrite k seq w then { w with answered := true, acked := true } else w) } })
      else bump cE2e q 15 s

/-- UNMATCHED_RESPONSE. -/
def execUnmatchedResponse (port : Fin 64) (p : Packet) (s : State) : Ans :=
  .next (live s (terminate port.val p (fun q s => actResponse q p s) s))

/-- RESPONSE_RECEIVED. -/
def execResponseReceived (port : Fin 64) (p : Packet) (s : State) : Ans :=
  .next (live s (terminate port.val p (fun q s => actResponse q p s) s))

/-- A recall the device terminates is answered with RecallMiss: it holds no copy of another's line. -/
def actRecall (q : Nat) (p : Packet) (s : State) : State :=
  if p.typ.toNat = tRecallInv ∨ p.typ.toNat = tRecallShare then
    sendPacket q (mkPacket s tRecallMiss 3 p.src.toNat p.tenant.toNat (BitVec.ofNat 64 (argPva p)) []) s
  else s

/-- RECALL_RECEIVED. -/
def execRecallReceived (port : Fin 64) (p : Packet) (s : State) : Ans :=
  .next (live s (terminate port.val p (fun q s => actRecall q p s) s))

/-- A TetherBeat renews the tethers of the endpoint in SRC (R44, Table 11.5). -/
def actTetherBeat (p : Packet) (s : State) : State := if p.typ.toNat = tTetherBeat then renew (.ep p.src.toNat) s else s

/-- TETHERBEAT. -/
def execTetherbeat (port : Fin 64) (p : Packet) (s : State) : Ans :=
  .next (live s (terminate port.val p (fun _ s => actTetherBeat p s) s))

/-! Pool time (R325, R326). -/

/-- TIME_EXCHANGE_TIMER: every UP port sends a Time packet every 10 µs (Table 12.8). -/
def execTimeExchangeTimer (n : Fin 64) (now : Nat) (s : State) : Ans :=
  let s1 := advance now s
  let x := port s1 n.val
  let (t1, t2) := (tget none s1.e2e.timeEcho n.val).getD (0, 0)
  let pay := leBytes 8 t1 ++ leBytes 8 t2 ++ leBytes 1 (b2n s1.e2e.locked + 2 * b2n s1.e2e.root) ++
    leBytes 1 s1.e2e.depth ++ leBytes 6 0
  let p := mkPacket s1 tTime 7 x.partnerId 0 (BitVec.ofNat 64 s1.time) pay
  .next (live s (
    if x.st = .up then
      enqueue n.val (stamp s1 { p with src := BitVec.ofNat 16 (endpointOf s1 (n.val / 16)) }) none s1
    else s1))

/-- The counter is corrected by the parent's exchange: stepped before the first lock, only slewed afterwards; 16
consecutive small offsets lock it. `diff` is twice the offset, in ns. -/
def applyOffset (diff : Int) (parentDepth : Nat) (s : State) : State :=
  let small := decide (diff.natAbs < 4)
  let good := if small then s.e2e.goodExchanges + 1 else 0
  let lockNow := !s.e2e.locked && decide (16 ≤ good)
  let time := if s.e2e.everLocked then s.time else ((s.time : Int) + diff / 2).toNat
  let e := { s.e2e with offsetPs := BitVec.ofInt 32 (500 * diff), goodExchanges := min 16 good
                        depth := min 255 (parentDepth + 1), holdover := false, locked := s.e2e.locked || lockNow
                        everLocked := s.e2e.everLocked || lockNow
                        lockTime := if lockNow then s.time else s.e2e.lockTime }
  { s with time := time, e2e := e }

/-- TIME_PACKET: terminated at the first hop; its timestamps are kept for the next Time packet sent on the port, and on
the parent port the offset is formed once the parent has echoed a Time packet of this device. -/
def execTimePacket (n : Fin 64) (p : Packet) (now : Nat) (s : State) : Ans :=
  let s1 := advance now s
  .next (live s (terminate n.val p (fun _ s =>
    if p.typ.toNat ≠ tTime then s
    else
      let t4 := s.time
      let t3 := p.arg0.toNat
      let t1 := leAt p.payload 0 8
      let t2 := leAt p.payload 8 8
      let s := { s with e2e := { s.e2e with timeEcho := tput none s.e2e.timeEcho n.val (some (t3, t4)) } }
      if parentPort s ≠ some n.val ∨ s.e2e.root ∨ (t1 = 0 ∧ t2 = 0) then s
      else applyOffset (((t2 : Int) - t1) - ((t4 : Int) - t3)) (leAt p.payload 17 1) s) s1))

/-- SET_TIME_TREE: the fabric manager sets the parent, the alternative and the root (Table 12.11). -/
def execSetTimeTree (parent : Fin 64) (parentValid root : Bool) (alt : Fin 64) (altValid : Bool) (s : State) : Ans :=
  .next (served s (fmDone .ok [] (checkParents { s with e2e := { s.e2e with
    parent := parent.val, parentValid := parentValid, root := root, alt := alt.val, altValid := altValid
    depth := if root then 0 else s.e2e.depth } })))

/-- SET_E2E_CTRL (Table 12.9). -/
def execSetE2eCtrl (q : Fin 4) (resendUs resendLimitUs : BitVec 10) (reasmUs : BitVec 8) (s : State) : Ans :=
  .next (served s (fmDone .ok [] { s with e2e := { s.e2e with
    resendUs := tput 0x32 s.e2e.resendUs q.val resendUs.toNat
    resendLimitUs := tput 0x1F4 s.e2e.resendLimitUs q.val resendLimitUs.toNat
    reasmUs := tput 0x14 s.e2e.reasmUs q.val reasmUs.toNat } }))

end Sys2Proof.Machine
end

