-- ==== Sys2Proof/Machine/Pair.lean ====
section
/-! DEFINITION. The redundant pair and re-silvering (chapter 16; opcode-table rows PAIR_ENABLE to RESILVERSTATE). -/

namespace Sys2Proof.Machine

/-! Acting on inputs that the order stream names. -/

/-- What an accepted sequenced packet does, by its type (Table 11.5). -/
def actOn (n q : Nat) (p : Packet) (s : State) : State :=
  let t := p.typ.toNat
  let h := Part.ep p.src.toNat
  if t = tRdOnce then actRdOnce n q p s
  else if t = tRdShared then actCaching n q p .rdShared .read s
  else if t = tRdOwn then actCaching n q p .rdOwn .own s
  else if t = tUpgrade then actCaching n q p .upgrade .own s
  else if t = tWrLine then actWrLine n q p s
  else if t = tWrPart then actWrPart n q p s
  else if t = tWrBack then actWrBack n q p s
  else if t = tAtomic then actAtomic n q p s
  else if t = tReduceWr then actReduceWr n q p s
  else if t = tReduceWrW then actReduceWrW n q p s
  else if t = tDoorbell then actDoorbell p s
  else if t = tTetherBeat then actTetherBeat p s
  else if t = tResetNotice then actResetNotice p s
  else if t = tRecallMiss then actAnswer (n / 16) h (pktAddr p) true s
  else if t = tRecallAck then actAnswer (n / 16) h (pktAddr p) false s
  else if t = tRecallData then actData (n / 16) h (pktAddr p) p.payload false false s
  else if t = tRecallInv ∨ t = tRecallShare then actRecall q p s
  else actResponse q p s

/-- A held input is accepted now: sequence checks, then its effect. -/
def actInput (n : Nat) (p : Packet) (s : State) : State :=
  match termQuadrant s n p with
  | none => s
  | some q =>
    match sequenceIn q n p s with
    | (false, s) => s
    | (true, s) => actOn n q p s

/-- The input of a flow and SEQ. -/
def isInput (src vc seq : Nat) (p : Packet) : Bool := p.src.toNat == src && p.vc.toNat == vc && p.seq.toNat == seq

/-- Asks the active for an input that a record names and the standby lacks, once (R427): flow and SEQ in ARG0. -/
def fetchInput (src vc seq : Nat) (s : State) : State :=
  if s.pair.stalledOn = some (src, vc, seq) then s
  else
    bump cPair 0 8 (sendPair 0x53 6 (seq + src * 2 ^ 24 + vc * 2 ^ 40) 0 1 []
      { s with pair := { s.pair with stalledOn := some (src, vc, seq) } })

/-! The snapshot (R434). -/

def isPairFlow (k : FlowKey) : Bool := decide (pairBase ≤ k.other)

/-- The non-memory state that the standby takes over. -/
def snapshot (s : State) : Snapshot :=
  { pool := s.pool, roots := s.xlt.roots, dir := s.dir, que := s.que, nm := s.nm, objs := s.core.objs
    serials := s.core.serials, cxl := s.cxl, tenants := s.sec.tenants, sealeds := s.sec.sealeds, e2e := s.e2e, sch := s.sch
    srFixed := s.core.srFixed, srSeed := s.core.srSeed }

/-- The standby makes keys of its own for the slots that a snapshot shows in use (R432, R434). -/
def ownKeys (t : Nat) (s : State) : State :=
  let x := tenant s t
  let k := s.sec.nextKey
  setTenant t { x with dataEven := x.dataEven.map (fun _ => k), dataOdd := x.dataOdd.map (fun _ => k + 1)
                       tagKey := x.tagKey.map (fun _ => k + 2), contentKey := false }
    { s with sec := { s.sec with nextKey := k + 3 } }

/-- It computes its own GMAC tags of a sealed region's pages (R386, R432). -/
def ownTags (e : Nat) (s : State) : State :=
  let x := extent s e
  if x.kind ≠ .sealed then s
  else
    let key := (tenant s x.tenant).tagKey.getD 0
    forEach (List.range (x.blocks.length * 65536)) (fun j s =>
      let p := pagePpa x j
      let g := Config.gmac key e j ((List.range 4096).map (fun i => readByte s (p + i)))
      { s with mem := { s.mem with bytes := putBytes (leBytes 16 g.toNat) (tagBase s + 16 * (p / 4096)) s.mem.bytes } }) s

/-- The standby applies a snapshot. Its links, pair flows, pool time, and the measured power state stay its own, and no
key comes with it. -/
def takeSnapshot (x : Snapshot) (s : State) : State :=
  let e : E2eState := { s.e2e with
    resendUs := x.e2e.resendUs, resendLimitUs := x.e2e.resendLimitUs, reasmUs := x.e2e.reasmUs
    send := x.e2e.send.filter (fun c => !(isPairFlow c.1)) ++ s.e2e.send.filter (fun c => isPairFlow c.1)
    recv := x.e2e.recv.filter (fun c => !(isPairFlow c.1)) ++ s.e2e.recv.filter (fun c => isPairFlow c.1)
    reasm := x.e2e.reasm.filter (fun c => !(isPairFlow c.1.1)) ++ s.e2e.reasm.filter (fun c => isPairFlow c.1.1)
    retained := x.e2e.retained, requests := x.e2e.requests, ringWrites := x.e2e.ringWrites
    collDeadline := x.e2e.collDeadline, collQ := x.e2e.collQ, collValid := x.e2e.collValid
    collMissing := x.e2e.collMissing }
  { s with
    pool := x.pool, xlt := { s.xlt with roots := x.roots }, dir := x.dir, que := x.que, nm := x.nm
    core := { s.core with objs := x.objs, serials := x.serials, srFixed := x.srFixed, srSeed := x.srSeed }
    cxl := { x.cxl with ports := s.cxl.ports, dmaReads := [], nextDma := s.cxl.nextDma }
    sec := { s.sec with
      tenants := x.tenants
      sealeds := tmapAll {} (fun _ (y : Sealed) => { y with contentKey := none, releaseKey := none }) x.sealeds }
    e2e := e, sch := { x.sch with q := s.sch.q } }

def applySnapshot (x : Snapshot) (s : State) : State :=
  let s := forEach (x.tenants.map (·.1)) ownKeys (takeSnapshot x s)
  forEach (x.pool.extents.map (·.1)) ownTags s

/-! Order records (R426). -/

/-- A record is applied in STANDBY: false when the standby must wait. -/
def applyInStep (r : OrderRec) (s : State) : Bool × State :=
  match r with
  | .empty => (true, s)
  | .snapshot => (true, s)
  | .blockMap _ => (true, s)
  | .input src vc seq =>
    match s.pair.inputs.find? (fun x => isInput src vc seq x.2) with
    | none => (false, fetchInput src vc seq s)
    | some (n, p) =>
      (true, actInput n p { s with pair := { s.pair with
        inputs := s.pair.inputs.filter (fun x => !(isInput src vc seq x.2)), stalledOn := none } })
  | .beat u l =>
    match s.pair.beats.find? (fun b => decide (b.2.2.who = .grp u) && redirect s b.1 == l) with
    | none => (false, s)
    | some b => (true, settleOrder (accept b.1 b.2.1 b.2.2 { s with pair := { s.pair with beats := s.pair.beats.erase b } }))
  | .desc n d => (true, descArrive n d (setQueue n { queue s n with fetching := true } s))
  | .cxlRead d tag hpa m => (true, cxlRead d tag hpa m s)
  | .cxlWrite d tag hpa mask data poison => (true, cxlWrite d tag hpa mask data poison s)
  | .cxlInv d tag hpa => (true, cxlInv d tag hpa s)
  | .dmaRead _ _ => (true, s)
  | .admitJob jid serial cs =>
    match job s jid with
    | some j => if j.phase = .ready then (true, admitJob jid j cs s (given := some serial)) else (false, s)
    | none => (false, s)
  | .commit jid n => (true, commitStep jid { s with pair := { s.pair with commitsDue := s.pair.commitsDue ++ [(jid, n)] } })
  | .entropy w => (true, { s with pair := { s.pair with entropy := s.pair.entropy ++ [w] } })
  | .seed w => (true, { s with core := { s.core with srSeed := w } })
  | .line l d => (true, storeLine l d s)
  | .poison l => (true, poisonLine l s)
  | .suspect => (true, setPairSt .suspect false s)

/-- A record is applied in STANDBY_SYNC: line values below the mark, the block map, and at its place the snapshot; what
else a record decides comes with the snapshot (R432, R434). -/
def applyInSync (r : OrderRec) (s : State) : Bool × State :=
  match r with
  | .input src vc seq =>
    (true, { s with pair := { s.pair with inputs := s.pair.inputs.filter (fun x => !(isInput src vc seq x.2)) } })
  | .line l d => (true, storeLine l d s)
  | .poison l => (true, poisonLine l s)
  | .blockMap m => (true, { s with mem := { s.mem with blocks := m } })
  | .snapshot =>
    match s.pair.snapIn with
    | none => (false, s)
    | some x =>
      (true, setPairSt .standby false (applySnapshot x { s with pair := { s.pair with
        snapIn := none, streams := [], nextUnit := [] } }))
  | _ => (true, s)

/-- Applies the record after the last one applied, while it is there: up to `n` of them. -/
def drain : Nat → State → State
  | 0, s => s
  | n + 1, s =>
    match s.pair.recs.find? (fun r => r.1 == s.pair.applied + 1) with
    | none => s
    | some (k, t, r) =>
      let s := advance t s
      let go := match s.pair.st with
        | .standby => applyInStep r s
        | .standbySync => applyInSync r s
        | _ => (false, s)
      match go with
      | (false, s) => s
      | (true, s) =>
        drain n (bump cPair 0 0 { s with pair := { s.pair with
          applied := k, recs := s.pair.recs.filter (fun r => r.1 != k) } })

def drainAll (s : State) : State := drain s.pair.recs.length s

/-- The number of the record that carries a block map. -/
def mapAt : Nat → List (Nat × OrderRec) → Option Nat
  | _, [] => none
  | k, (_, .blockMap _) :: _ => some k
  | k, _ :: r => mapAt (k + 1) r

/-- ORDER: records from number `first` on, each with the pool time of its decision; the packet's bytes have no layout in
the manual. The standby applies them in order and acknowledges what is in step. In STANDBY_SYNC the stream begins at
the record that carries the block map. -/
def execOrder (n : Fin 64) (p : Packet) (first : Nat) (recs : List (Nat × OrderRec)) (s : State) : Ans :=
  .next (live s (terminate n.val p (fun _ s =>
    if p.typ.toNat ≠ 0x50 || !(follows s) then s
    else
      let s := match s.pair.st, mapAt first recs with
        | .standbySync, some k => { s with pair := { s.pair with applied := k - 1, recs := s.pair.recs.filter (fun r => decide (k ≤ r.1)) } }
        | _, _ => s
      let new := ((List.range recs.length).map (fun i => (first + i, recs.getD i (0, .empty)))).filter
        (fun r => decide (s.pair.applied < r.1) && !(s.pair.recs.any (fun x => x.1 == r.1)))
      sendMark (drainAll { s with pair := { s.pair with recs := s.pair.recs ++ new, lastRecv := s.time } })) s))

/-- EMPTY_ORDER_RECORD_TIMER: with nothing sent for 10 µs the active sends an empty record. -/
def execEmptyOrderRecordTimer (now : Nat) (s : State) : Ans :=
  let s1 := advance now s
  .next (live s (if s1.pair.lastSent + 10000 ≤ s1.time then orderRec .empty s1 else s1))

/-- INPUTFETCH: the active answers with the input it has named. -/
def execInputfetch (n : Fin 64) (p : Packet) (s : State) : Ans :=
  .next (live s (terminate n.val p (fun _ s =>
    if p.typ.toNat ≠ 0x53 ∨ s.pair.st ≠ .active then s
    else
      let a := p.arg0.toNat
      match s.pair.kept.find? (fun k => isInput (field a 24 16) (field a 40 3) (field a 0 24) k.2) with
      | none => s
      | some k => sendPair 0x54 4 a 0 1 (headerBytes k.2 ++ k.2.payload) s) s))

/-- INPUTDATA: the packet `inp` that was requested; it counts as having come by port `via`. -/
def execInputdata (n : Fin 64) (p : Packet) (inp : Packet) (via : Fin 64) (s : State) : Ans :=
  .next (live s (terminate n.val p (fun _ s =>
    if p.typ.toNat ≠ 0x54 || !(follows s) then s else sendMark (drainAll (holdInput via.val inp s))) s))

/-! Digests (R428 to R430). -/

/-- The device's own error log shows one of these lines uncorrectable. -/
def ownBad (s : State) (ls : List Nat) : Bool :=
  s.mem.errLog.any (fun c => match c.2 with | some e => e.kind == 1 && ls.contains (e.ppa / 64) | none => false)

/-- The standby is told to enter SUSPECT, and no longer verifies. -/
def makeSuspect (s : State) : State := setFollower 3 (orderRec .suspect s)

/-- The partner's digest of a unit of this active. -/
def compareUnit (d own : DigestUnit) (ls : List Nat) (peerBad : Bool) (s : State) : State :=
  let s := { s with pair := { s.pair with
    units := s.pair.units.erase own, digestLagNs := min 0xFFFF (s.time - own.time) } }
  if d.crc = own.crc then deliverVerified (bump cPair 0 1 s)
  else
    let s := { s with pair := { s.pair with failed := s.pair.failed ++ [(own.q, own.unit)] } }
    match ownBad s ls, peerBad with
    | false, true =>
      let fix (l : Nat) (s : State) : State :=
        match readLine l (internalSrc 4) s with
        | (.data b, s) => sendPair 0x57 4 (64 * l) 0 1 b s
        | (.bad, s) => s
      deliverVerified (bump cPair 0 2 (forEach ls fix s))
    | true, false => deliverVerified (bump cPair 0 2 s)
    | _, _ => makeSuspect (alert .pairMismatch [own.q, own.unit] (bump cPair 0 3 s))

/-- DIGEST: quadrant, unit and CRC-64 are in the payload (DESIGN CHOICE). For a unit that differs, `lines` are the lines it
covers and `peerBad` tells that the standby's error log shows one of them. A digest of a unit still open is kept. -/
def execDigest (n : Fin 64) (p : Packet) (lines : List Nat) (peerBad : Bool) (s : State) : Ans :=
  .next (live s (terminate n.val p (fun _ s =>
    if p.typ.toNat ≠ 0x52 ∨ s.pair.st ≠ .active ∨ s.pair.follower ≠ 2 then s
    else
      let d : DigestUnit := { q := leAt p.payload 0 8, unit := leAt p.payload 8 8, crc := leAt p.payload 16 8, time := s.time }
      match s.pair.units.find? (fun u => u.q == d.q && u.unit == d.unit) with
      | some own => compareUnit d own lines peerBad s
      | none =>
        if tget 0 s.pair.nextUnit d.q ≤ d.unit then { s with pair := { s.pair with early := s.pair.early ++ [d] } } else s) s))

/-- Digests that came before their unit had closed are compared once it has. -/
def settleEarly (s : State) : State :=
  forEach s.pair.early (fun d s =>
    match s.pair.units.find? (fun u => u.q == d.q && u.unit == d.unit) with
    | some own => compareUnit d own [] false { s with pair := { s.pair with early := s.pair.early.erase d } }
    | none => s) s

/-- DIGEST_LATE: a unit has waited more than 100 µs for its digest. -/
def execDigestLate (now : Nat) (s : State) : Ans :=
  let s1 := settleEarly (advance now s)
  .next (live s (
    if s1.pair.st = .active ∧ s1.pair.follower = 2 ∧ s1.pair.units.any (fun u => decide (u.time + 100000 < s1.time)) then
      makeSuspect s1
    else s1))

/-- LINEREPAIR: a line from the partner replaces the device's uncorrectable one (R430). -/
def execLinerepair (n : Fin 64) (p : Packet) (s : State) : Ans :=
  .next (live s (terminate n.val p (fun _ s =>
    let l := p.arg0.toNat / 64
    let lim := if isLight s (64 * l) then 1 else 3
    if p.typ.toNat = 0x57 && decide (p.payload.length = 64) && decide (l < gradeBlocks s.grade * 4194304) &&
        (tget false s.mem.poison l || decide (lim < tget 0 s.mem.lineErr l)) then storeLine l p.payload s else s) s))

/-! Re-silvering (R432 to R434, R447, R448). -/

/-- A follower begins: the block map is sent, and the copy goes on from the standby's mark; at mark 0 nothing is left
dirty (R432, R447, Table 17.5). -/
def beginCopy (mark : Nat) (s : State) : State :=
  let s := setFollower 1 s
  orderRec (.blockMap s.mem.blocks) { s with pair := { s.pair with
    copying := true, mark := mark, acked := s.pair.sent, kept := [], pendingLines := [], inTransit := []
    dirty := if mark = 0 then [] else s.pair.dirty, snapshotAt := none, snapshotDue := false, units := [], early := [] } }

/-- ORDERACK: the highest record in step is in ARG0; mark, standing and granule written in the payload. Outputs that depend
on acknowledged records are sent (R427); the acknowledged snapshot brings the standby into step and opens admission
(R434). -/
def execOrderack (n : Fin 64) (p : Packet) (s : State) : Ans :=
  .next (live s (terminate n.val p (fun _ s =>
    if p.typ.toNat ≠ 0x51 ∨ s.pair.st ≠ .active then s
    else
      let a := p.arg0.toNat
      let inStep := leAt p.payload 8 8 != 0
      if a = 0 && !inStep && s.pair.partner = .hz1024 then beginCopy (leAt p.payload 0 8) s
      else
        let g := leAt p.payload 16 8
        let k := min s.pair.sent (max s.pair.acked a)
        let s := { s with pair := { s.pair with
          acked := k, kept := s.pair.kept.filter (fun x => decide (k < x.1))
          pendingLines := s.pair.pendingLines.filter (fun x => decide (k < x.1))
          inTransit := if g = 0 then s.pair.inTransit else s.pair.inTransit.filter (fun x => x != g - 1) } }
        let s := match s.pair.snapshotAt with
          | some r =>
            if r ≤ k && inStep then setFollower 2 { s with pair := { s.pair with snapshotAt := none, copying := false } } else s
          | none => s
        settleEarly (releaseHeld s)) s))

/-- The next granule of a VALID block at or after a granule. -/
def nextGranule (s : State) (g : Nat) : Option Nat :=
  if (block s (g / 16384)).valid then some g
  else ((s.mem.blocks.filter (fun c => c.2.valid && decide (g / 16384 < c.1))).head?).map (fun c => 16384 * c.1)

/-- Sends one granule as plaintext in four packets: ARG0 the PPA, ARG1 the piece; a line that cannot be read is named in a
record as poisoned. -/
def sendGranule (g : Nat) (s : State) : State :=
  forEach (List.range 4) (fun i s =>
    let (d, s) := (List.range 64).foldl (fun (acc : List Byte × State) j =>
      let l := 256 * g + 64 * i + j
      match readLine l (internalSrc 4) acc.2 with
      | (.data b, s) => (acc.1 ++ b, s)
      | (.bad, s) => (acc.1 ++ List.replicate 64 0, orderRec (.poison l) s)) ([], s)
    sendPair 0x55 4 (16384 * g) i 1 d s) { s with pair := { s.pair with inTransit := s.pair.inTransit ++ [g] } }

/-- RESILVER_GRANULE_SEND: dirty granules first, each bit cleared as its granule is sent; then the granule at the mark. -/
def execResilverGranuleSend (now : Nat) (s : State) : Ans :=
  let s1 := advance now s
  .next (live s (
    if s1.pair.st ≠ .active || s1.pair.follower != 1 || !s1.pair.copying || s1.pair.snapshotDue then s1
    else
      match s1.pair.dirty with
      | g :: r => sendGranule g { s1 with pair := { s1.pair with dirty := r } }
      | [] =>
        match nextGranule s1 s1.pair.mark with
        | none => s1
        | some g => sendGranule g { s1 with pair := { s1.pair with mark := g + 1 } }))

/-- RESILVERDATA: a piece of a granule is written under the standby's own keys and tags; the granule is acknowledged, and
the mark passes it, once it is whole (R432, R447). -/
def execResilverdata (n : Fin 64) (p : Packet) (s : State) : Ans :=
  .next (live s (terminate n.val p (fun _ s =>
    let g := p.arg0.toNat / 16384
    let i := p.arg1.toNat % 4
    if p.typ.toNat ≠ 0x55 ∨ s.pair.st ≠ .standbySync ∨ p.payload.length ≠ 4096 ∨ gradeBlocks s.grade * 16384 ≤ g then s
    else
      let s := forEach (List.range 64) (fun j => storeLine (256 * g + 64 * i + j) (slice p.payload (64 * j) 64)) s
      let c := (g, i) :: s.pair.chunks.filter (fun x => x != (g, i))
      if (List.range 4).all (fun k => c.contains (g, k)) then
        ackMark (some g) (drainAll { s with pair := { s.pair with
          chunks := c.filter (fun x => x.1 != g), mark := if s.pair.mark ≤ g then g + 1 else s.pair.mark } })
      else { s with pair := { s.pair with chunks := c } }) s))

/-- A job that runs or is being stopped. -/
def jobRuns (j : Job) : Bool := decide (j.phase = .running) || decide (j.phase = .stopping)

def runningJobs (s : State) : List Nat :=
  (s.que.jobs.filter (fun c => match c.2 with | some j => jobRuns j | none => false)).map (·.1)

/-- RESILVER_COPY_END: the mark has passed the last block and every granule is acknowledged: admission pauses and running
jobs are pre-empted; once none runs, the snapshot is sent (R434). -/
def execResilverCopyEnd (now : Nat) (s : State) : Ans :=
  let s1 := advance now s
  .next (live s (
    if s1.pair.st ≠ .active || s1.pair.follower != 1 || !s1.pair.copying || !s1.pair.dirty.isEmpty ||
        !s1.pair.inTransit.isEmpty || (nextGranule s1 s1.pair.mark).isSome || s1.pair.snapshotAt.isSome then s1
    else
      let s2 := { s1 with pair := { s1.pair with snapshotDue := true } }
      let s2 := forEach (runningJobs s2) (fun j => beginStop j .preempt) s2
      if !(runningJobs s2).isEmpty then s2
      else
        let s3 := orderRec .snapshot { s2 with pair := { s2.pair with streams := [], nextUnit := [], effects := [], failed := [] } }
        let s3 := { s3 with pair := { s3.pair with snapshotAt := some s3.pair.sent, snapshotDue := false, copying := false } }
        emit (.snapshot (snapshot s3)) s3))

/-- RESILVERSTATE: the snapshot is applied at its place in the order stream, and the standby is in step (R434). -/
def execResilverstate (n : Fin 64) (p : Packet) (x : Machine.Snapshot) (s : State) : Ans :=
  .next (live s (terminate n.val p (fun _ s =>
    if p.typ.toNat ≠ 0x56 ∨ s.pair.st ≠ .standbySync then s
    else sendMark (drainAll { s with pair := { s.pair with snapIn := some x } })) s))

/-! Interlock and states (R423 to R425). -/

/-- The device leaves ACTIVE for PASSIVE under R424: its CXL ports are held down. -/
def yieldActive (s : State) : State :=
  if s.pair.st = .active then
    forEach (List.range 4) holdCxlDown (bump cPair 0 6 (setPairSt .passive false s))
  else s

/-- Running jobs return to their latest completed commit and to the ready lists, with their age (Table 17.4, R431). -/
def requeueRunning (s : State) : State :=
  forEach (runningJobs s) (fun jid s =>
    let s := leaveCores jid s
    match job s jid with
    | some j => setJob jid (some { j with phase := .ready }) s
    | none => s) s

/-- Every record that can be applied, in order; one that lacks its input is passed over (R431 step 1). -/
def applyHeld : Nat → State → State
  | 0, s => s
  | n + 1, s =>
    let s := drainAll s
    let ks := s.pair.recs.map (·.1)
    if ks.isEmpty then s
    else
      let k := ks.foldl min (ks.headD 0)
      applyHeld n { s with pair := { s.pair with applied := k, recs := s.pair.recs.filter (fun r => r.1 != k) } }

/-- The device takes the pool over (R431): records applied, inputs, transport contexts and retained results discarded, a
quiet period, jobs back to their commits, withheld completions decided. `stale` when its memory may lack effects. -/
def takeOver (stale : Bool) (s : State) : State :=
  let s := applyHeld s.pair.recs.length s
  let bs := s.pair.beats
  let s := { s with
    pair := { s.pair with inputs := [], recs := [], beats := [], commitsDue := [], stalledOn := none, snapIn := none, chunks := [] }
    e2e := { s.e2e with send := [], recv := [], reasm := [], retained := [], requests := [], ringWrites := []
                        quietUntil := some (s.time + 6000000) } }
  let s := setPairSt .active stale (bump cPair 0 5 s)
  let s := settleOrder (forEach bs (fun b => accept b.1 b.2.1 b.2.2) s)
  deliverVerified (requeueRunning s)

/-- INTERLOCK_CLASSIFY: a line's pattern is classified: the partner's, or the device's own readback (R423 to R425). -/
def execInterlockClassify (pat : Machine.Pattern) (own : Bool) (now : Nat) (s : State) : Ans :=
  let s1 := advance now s
  .next (live s (
    if own then { s1 with pair := { s1.pair with ownOk := decide (pat = drives s1.pair.st) && decide (pat ≠ .absent) } }
    else
      let s2 := { s1 with pair := { s1.pair with
        partner := pat, partnerActiveAt := if pat = .hz4096 then s1.time else s1.pair.partnerActiveAt } }
      match pat with
      | .hz4096 =>
        let s3 := yieldActive s2
        if s3.pair.st = .waiting && pairUp s3 then beginSync s3 else s3
      | .hz1024 => s2
      | _ => if s2.pair.st = .active ∧ s2.pair.follower ≠ 0 then setFollower 0 s2 else s2))

/-- A standby that has received no order record for 10 ms. -/
def streamSilent (s : State) : Bool := decide (s.pair.lastRecv + 10000000 ≤ s.time)

/-- INTERLOCK_ABSENT: the partner's line has had no edge for 10 ms. A standby takes over when the order stream is silent
as well; while records still arrive the interlock itself is at fault. -/
def execInterlockAbsent (now : Nat) (s : State) : Ans :=
  let s1 := advance now s
  let s2 := { s1 with pair := { s1.pair with partner := .absent } }
  .next (live s (match s2.pair.st with
    | .standby =>
      if streamSilent s2 then takeOver false s2 else { s2 with pair := { s2.pair with intlkFault := true } }
    | .active => if s2.pair.follower ≠ 0 then setFollower 0 s2 else s2
    | _ => s2))

/-- The device does not read back the pattern it drives: its outputs are gated, and it leaves ACTIVE (R424). -/
def readbackLost (s : State) : State :=
  if drives s.pair.st = .absent then s
  else yieldActive (bump cPair 0 7 { s with pair := { s.pair with ownOk := false, gateOpen := false } })

/-- OWN_READBACK_ABSENT: the device drives a pattern and does not read it back (R424). -/
def execOwnReadbackAbsent (now : Nat) (s : State) : Ans :=
  let s1 := advance now s
  .next (live s (readbackLost s1))

/-- WAITING_HOLDOFF_EXPIRY: 10 ms on side 0, 20 ms on side 1, with the partner not ACTIVE, and memory current or PAIR_LEAD
issued. -/
def execWaitingHoldoffExpiry (now : Nat) (s : State) : Ans :=
  let s1 := advance now s
  let hold := if s1.sec.side then 20000000 else 10000000
  .next (live s (
    if s1.pair.st = .waiting ∧ s1.pair.partner ≠ .hz4096 ∧ max s1.pair.stateTime s1.pair.partnerActiveAt + hold ≤ s1.time ∧
        (s1.pair.memoryCurrent ∨ s1.pair.lead) then setPairSt .active false s1
    else s1))

/-- Completions that waited for the gate or a translation are tried again. -/
def flushQueues (s : State) : State := forEach (s.que.queues.map (·.1)) flushAwaiting s

/-- OUTPUT_GATE_HOLD_EXPIRY: 1 ms after the device began to drive ACTIVE its gate opens, and its CXL ports train (R424,
R431 step 3). -/
def execOutputGateHoldExpiry (now : Nat) (s : State) : Ans :=
  let s1 := advance now s
  .next (live s (
    if s1.pair.st = .active && !s1.pair.gateOpen && decide (s1.pair.driveActive + 1000000 ≤ s1.time) then
      flushQueues (forEach (List.range 4) trainCxl { s1 with pair := { s1.pair with gateOpen := true } })
    else s1))

/-- ORDER_RECORD_SILENCE: a standby without a record for 10 ms goes PASSIVE while the partner reads ACTIVE, and takes over
when it is ABSENT. -/
def execOrderRecordSilence (now : Nat) (s : State) : Ans :=
  let s1 := advance now s
  .next (live s (
    if s1.pair.st ≠ .standby || !(streamSilent s1) then s1
    else
      match s1.pair.partner with
      | .hz4096 => setPairSt .passive false s1
      | .absent => takeOver false s1
      | _ => s1))

/-- The SERIAL of this device: bytes 0 to 15 of the DIK digest (Table 15.2). -/
def ownSerial : List Byte := (sha384Bytes Config.dikPublic).take 16

/-- The pair ports: two or four, half of them in Q0 and half in Q2 (R420). -/
def pairPortsOk (s : State) : Bool :=
  let ps := (List.range 64).filter (fun p => (port s p).pair)
  let at_ (q : Nat) : Nat := (ps.filter (fun p => p / 16 == q)).length
  (decide (ps.length = 2) || decide (ps.length = 4)) && decide (at_ 0 = at_ 2) && decide (at_ 0 + at_ 2 = ps.length)

/-- PAIR_ENABLE: the groups of R421, and what the fabric manager has read from the partner: the digest of its release
package, whether its BCR matches as R420 asks (DESIGN CHOICE: an operand, since the records themselves differ in SIDE and
PARTNER_SERIAL), its SERIAL, the SERIAL its BCR names and its side. -/
def execPairEnable (g0 g1 g2 g3 : Fin 4096) (release : BitVec 384) (bcrAlike : Bool) (serial names : List Byte) (side : Bool)
    (s : State) : Ans :=
  .next (served s (
    if s.pair.st ≠ .solo then fmDone .conflict [] s
    else if !s.sec.pairCapable || !(pairPortsOk s) || release != s.sec.fwDigest || !bcrAlike ||
        serial != s.sec.partnerSerial || names != ownSerial || side == s.sec.side then fmDone .policed [] s
    else
      let s := { s with pair := { s.pair with
        enable := true, groups := [g0.val, g1.val, g2.val, g3.val].zipIdx.foldl (fun t x => tput 0 t x.2 x.1) [] } }
      fmDone .ok [] (forEach (List.range 4) holdCxlDown (setPairSt .waiting false s))))

/-- PAIR_DISABLE: the device is SOLO, and its CXL ports may train. -/
def execPairDisable (s : State) : Ans :=
  .next (served s (
    let s := setPairSt .solo false s
    let s := { s with pair := { s.pair with
      enable := false, copying := false, dirty := [], inputs := [], recs := [], kept := [], beats := [], commitsDue := []
      snapIn := none, chunks := [], entropy := [], effects := [], failed := [], intlkFault := false } }
    fmDone .ok [] (flushQueues (forEach (List.range 4) trainCxl (deliverVerified s)))))

/-- PAIR_LEAD: a WAITING device may become ACTIVE after its hold-off; a PASSIVE or SUSPECT one takes over with stale memory
while its partner is ABSENT (Table 16.5). -/
def execPairLead (now : Nat) (s : State) : Ans :=
  let s1 := advance now s
  .next (served s (match s1.pair.st with
    | .waiting => fmDone .ok [] { s1 with pair := { s1.pair with lead := true } }
    | .passive => if s1.pair.partner = .absent then fmDone .ok [] (takeOver true s1) else fmDone .conflict [] s1
    | .suspect => if s1.pair.partner = .absent then fmDone .ok [] (takeOver true s1) else fmDone .conflict [] s1
    | _ => fmDone .conflict [] s1))

/-- PAIR_RESILVER: back to STANDBY_SYNC with the mark at 0, while the partner reads ACTIVE. -/
def execPairResilver (now : Nat) (s : State) : Ans :=
  let s1 := advance now s
  let ok := match s1.pair.st with
    | .standbySync => true
    | .suspect => true
    | .passive => true
    | _ => false
  .next (served s (
    if ok && decide (s1.pair.partner = .hz4096) then
      fmDone .ok [] (beginSync { s1 with pair := { s1.pair with mark := 0 } })
    else fmDone .conflict [] s1))

end Sys2Proof.Machine
end

