-- ==== Sys2Proof/Machine/SecOps.lean ====
section
/-! DEFINITION. Tenants and boot records, shared operations (chapter 15): outstanding counters (R395, R396), removal of a
tenant (R395, R397, R398), release packages and board configuration records (R403, R452). -/

namespace Sys2Proof.Machine

/-! Outstanding counters. -/

/-- Work of a tenant that a block holds (R395, R396), by block kind and instance: 0 the move engine of a core, 1 the queue
block, 2 the home agent, 3 the translation unit, 5 the transport block of a quadrant. A translation unit ends a walk and
a stack controller an access (kind 4) within the command that starts it. -/
def outstanding (s : State) (t k i : Nat) : Nat :=
  let ours (g : Nat) : Bool := decide ((group s g).st ≠ .unbound) && (group s g).tenant == t
  if (tenant s t).zeroed.contains (k, i) then 0
  else
    match k with
    | 0 =>
      let near := (s.que.queues.map (fun c => if ours (c.1 / 8) then
        (c.2.flight.filter (fun d => d.running.any (fun r => r.2 == i) && d.started && !d.ended)).length else 0)).foldl (· + ·) 0
      match (coreOf s i).job with
      | some jid =>
        match job s jid with
        | some j => if ours j.group then near + (tget [] (coreOf s i).engines 3).length else near
        | none => near
      | none => near
    | 1 =>
      (s.que.queues.map (fun c =>
        if ours (c.1 / 8) && (group s (c.1 / 8)).quadrant == i then
          (c.2.flight.filter (fun d => d.started && !d.ended && d.running.isEmpty)).length + c.2.awaiting.length
        else 0)).foldl (· + ·) 0
    | 2 =>
      (s.dir.lines.map (fun c =>
        if homeOf s (64 * c.1) == i then
          ((c.2.cur.toList ++ c.2.queue).filter (fun r => r.tenant == t)).length else 0)).foldl (· + ·) 0 +
      (s.dir.waitIn.filter (fun w => homeOf s (64 * w.1) == i && w.2.2.tenant == t)).length
    | 5 =>
      (s.e2e.send.map (fun c =>
        if c.1.q % 4 == i then
          (c.2.pkts.filter (fun x => !x.acked && x.pkt.tenant.toNat == t)).length +
          (c.2.waiting.filter (fun p => p.tenant.toNat == t)).length
        else 0)).foldl (· + ·) 0
    | _ => 0

/-- Every block, by kind and instance. -/
def allBlocks : List (Nat × Nat) :=
  (List.range 160).map (fun n => (0, n)) ++ ([1, 2, 3, 5].flatMap (fun k => (List.range 4).map (fun q => (k, q)))) ++
  (List.range 32).map (fun n => (4, n))

/-- OUTSTANDING of Table 15.10. -/
def outstandingSum (s : State) (t : Nat) : Nat :=
  min (2 ^ 32 - 1) ((allBlocks.map (fun b => outstanding s t b.1 b.2)).foldl (· + ·) 0)

/-- Work of the epoch before the last rekey: requests issued and packets sourced before it (R392). -/
def oldEpochWork (s : State) (t : Nat) : Bool :=
  let x := tenant s t
  let old (r : LineReq) : Bool := r.tenant == t && decide (r.beat < x.rekeyBeat)
  s.dir.lines.any (fun c => (c.2.cur.toList ++ c.2.queue).any old) || s.dir.waitIn.any (fun w => old w.2.2) ||
  s.e2e.send.any (fun c => c.2.pkts.any (fun p => !p.acked && p.pkt.tenant.toNat == t &&
    decide (p.pkt.keyEpoch.toNat ≠ x.epoch % 256)))

/-! Tenant states. -/

def setTenantSt (t : Nat) (st : TenSt) (s : State) : State :=
  setTenant t { tenant s t with st := st, stateTime := s.time } s

/-- Sets the slot of an epoch, even or odd; an EMPTY slot is zeroised (R390). -/
def setSlot (x : Tenant) (e : Nat) (v : SlotSt) : Tenant :=
  if e % 2 = 0 then { x with slotEven := v, dataEven := if v = .empty then none else x.dataEven }
  else { x with slotOdd := v, dataOdd := if v = .empty then none else x.dataOdd }

/-- The slot of an epoch becomes ACTIVE with the new data key number `k`; at a creation the tag key is new too, number
`k + 1` (R390, R394). -/
def newSlot (x : Tenant) (e k : Nat) (withTag : Bool) : Tenant :=
  let y := setSlot x e .active
  let z := if e % 2 = 0 then { y with dataEven := some k } else { y with dataOdd := some k }
  if withTag then { z with tagKey := some (k + 1) } else z

/-- Two key numbers are drawn. -/
def drawKeys (s : State) : State := { s with sec := { s.sec with nextKey := s.sec.nextKey + 2 } }

/-- The extents of a tenant, free ones apart. -/
def extentsOf (s : State) (t : Nat) : List Nat :=
  (s.pool.extents.filter (fun c => decide (c.2.st ≠ .free) && c.2.tenant == t)).map (·.1)

def groupsOf (s : State) (t : Nat) : List Nat :=
  (s.que.groups.filter (fun c => decide (c.2.st ≠ .unbound) && c.2.tenant == t)).map (·.1)

/-- The content key of a sealed region is zeroised (R384). -/
def dropContentKey (e : Nat) (s : State) : State := setSealed e { sealedOf s e with contentKey := none } s

/-! Removal (R395). -/

/-- The transport part at V: what has been sourced for the tenant is discarded, reassembly records and retained results are
freed (R395 step 5). -/
def purgeTransport (t : Nat) (s : State) : State :=
  let mine (p : Packet) : Bool := p.tenant.toNat == t && !(isPairType p.typ.toNat)
  let grp (n : Nat) : Bool := (group s (n / 8)).tenant == t && decide ((group s (n / 8)).st ≠ .unbound)
  let s := forEach (s.e2e.requests.filter (fun r => grp r.queue)) (fun r s =>
    setQueue r.queue { queue s r.queue with fetching := false } s) s
  let s := { s with e2e := { s.e2e with
    send := s.e2e.send.map (fun c => (c.1, { c.2 with
      pkts := c.2.pkts.map (fun x => if mine x.pkt then { x with acked := true } else x)
      waiting := c.2.waiting.filter (fun p => !(mine p)) }))
    reasm := s.e2e.reasm.filter (fun r => r.2.tenant != t)
    retained := s.e2e.retained.filter (fun r => r.2.tenant != t)
    requests := s.e2e.requests.filter (fun r => !(grp r.queue))
    ringWrites := s.e2e.ringWrites.filter (fun w => !(grp w.compl.queue)) } }
  forEach (s.e2e.send.map (·.1)) flushFlow s

/-- A descriptor in flight ends with TENANT_REVOKED: near-memory ones with their bytes-done count (R395 step 4). -/
def revokeDesc (n : Nat) (d : Desc) (s : State) : State :=
  if d.started && decide (2 ≤ dOpcode d) && decide (dOpcode d ≤ 7) then nmFinish n d .tenantRevoked 0 [] s
  else complete (complOf n d .tenantRevoked) s

/-- The work of a group whose tenant is removed ends: jobs, then descriptors without a job. Paused records are freed. -/
def revokeGroup (g : Nat) (s : State) : State :=
  let s := setGroup g { group s g with revoking := true } s
  let s := forEach s.que.jobs (fun c s =>
    match job s c.1 with
    | none => s
    | some j =>
      if j.group ≠ g then s
      else if j.phase = .paused && !j.quiesced then dropJob c.1 s
      else endJob c.1 .tenantRevoked 0 [] s) s
  forEach (queuesOf g) (fun n s =>
    forEach ((queue s n).flight.filter (fun d => !d.ended)) (revokeDesc n) s) s

/-- A window's TENANT_REVOKED completion (R323); no PARTIAL event of this arm follows. -/
def revokeWindow (w : Nat) (s : State) : State :=
  let x := window s w
  match x.st with
  | .arming => winCompl w .tenantRevoked [] (setWindow w { x with partialDone := true } s)
  | .armed => winCompl w .tenantRevoked [] (setWindow w { x with partialDone := true } s)
  | _ => s

/-- Open windows of a tenant's logical devices are handled as CUT. -/
def cutTenant (t : Nat) (s : State) : State :=
  forEach ((List.range 64).filter (fun d => (logDev s d).bound && (logDev s d).tenant == t)) (fun d s =>
    forEach (grantsOf s d) (fun w => startCut d w.1) s) s

/-- Steps 1 to 5 of R395, at V. -/
def revokeTenant (t : Nat) (s : State) : State :=
  let x := tenant s t
  let rev (v : SlotSt) : SlotSt := if v = .active then .revoking else v
  let s := setTenant t { x with
    st := .revoking, stateTime := s.time, removedAt := s.time, alerted := false, zeroed := []
    slotEven := rev x.slotEven, slotOdd := rev x.slotOdd, epoch := (x.epoch + 1) % 256 } (bump cSec 0 4 s)
  let s := { s with pool := { s.pool with members := s.pool.members.filter (fun m => m.2 != t) } }
  let s := { s with mem := { s.mem with merge := s.mem.merge.filter (fun c => match c.2 with
    | some e => e.tenant != t
    | none => true) } }
  let s := purgeTransport t (cutTenant t s)
  let s := forEach (groupsOf s t) revokeGroup s
  forEach ((s.nm.windows.filter (fun c => c.2.tenant == t)).map (·.1)) revokeWindow s

/-- The scrub begins (R397): every extent is released; for a FULL scrub directory entries of the tenant's lines return to
I. -/
def beginScrub (t : Nat) (s : State) : State :=
  let es := extentsOf s t
  let bs := es.flatMap (fun e => (extent s e).blocks)
  let s := if (tenant s t).memoryOnly then s
    else { s with dir := { s.dir with lines := s.dir.lines.filter (fun c => !(bs.contains (64 * c.1 / blockBytes))) } }
  forEach es (fun e s =>
    match (extent s e).st with
    | .releasing => s
    | .scrubbing => s
    | .preparing => setExtent e { extent s e with st := .scrubbing } s
    | _ => beginRelease e s) s

/-- The scrub ends: groups UNBOUND, windows IDLE, objects FREE, tethers dropped; for a FULL scrub what the units keep under
the tenant's tag is gone too (R397, R398). A core store holds nothing of a job that has left it. -/
def endScrub (t : Nat) (s : State) : State :=
  let s := forEach (groupsOf s t) unbindGroup s
  let s := forEach ((s.nm.windows.filter (fun c => c.2.tenant == t)).map (·.1)) (fun w s =>
    setWindow w { window s w with st := .idle, disarming := false } s) s
  let s := forEach ((s.core.objs.filter (fun c => c.2.tenant == t && c.2.st != 0)).map (·.1)) deregisterObj s
  let s := forEach (s.pool.tethers.filter (fun x => x.tenant == t)) (fun x => releaseOne x.holder x.obj) s
  if (tenant s t).memoryOnly then s
  else
    let ld (d : Nat) : Bool := (logDev s d).bound && (logDev s d).tenant == t
    forEach (List.range 4) (fun q s =>
      let u := xunit s q
      setXunit q { u with tlb := u.tlb.filter (fun e => e.tenant != t), atc := u.atc.filter (fun e => !(ld e.ld)) } s) s

/-! Release packages and board configuration records (R403, R452). -/

/-- A release package as it is transferred: its level, digest, whether it targets this device, the digest of the signer's key
and the signature. -/
def pkgOk (s : State) (level : Nat) (digest signer : BitVec 384) (target : Bool) (sig : List Byte) : Bool :=
  let allowed := decide (s.sec.minRelease ≤ level) ||
    (match s.sec.rollback with | some (l, until_) => l == level && decide (s.time < until_) | none => false)
  target && Config.rootOk signer && Config.ecdsaOk signer digest sig && allowed

/-- The layout of Table 17.8: magic, version, reserved fields zero, prefixes, grade, no role digest in two role fields. -/
def bcrForm (b : List Byte) : Bool :=
  let roles := [bcrAnchors b 272 2, bcrAnchors b 368 2, bcrAnchors b 464 2]
  let z (o n : Nat) : Bool := allZero (slice b o n)
  let g := leAt b 15 1
  decide (b.length = 1024) && leAt b 0 4 == 0x52434244 && leAt b 4 2 == 1 && z 6 2 && z 66 14 && z 560 368 &&
  decide (leAt b 14 1 < 4) && leAt b 12 2 % 4 == 0 && (g == 36 || g == 48 || g == 64) &&
  decide (leAt b 64 1 ≤ 128) && decide (leAt b 65 1 ≤ 128) &&
  !((roles.getD 0 []).any (fun d => (roles.getD 1 []).contains d || (roles.getD 2 []).contains d)) &&
  !((roles.getD 1 []).any (fun d => (roles.getD 2 []).contains d))

/-- A record passes R403: signed by a board key that Synielia has certified. -/
def bcrOk (b : List Byte) (signer : BitVec 384) : Bool :=
  bcrForm b && Config.rootOk signer && Config.ecdsaOk signer (sha384 (b.take 928)) (b.drop 928)

/-- MIN_RELEASE of a record. -/
def bcrMin (b : List Byte) : Nat := leAt b 8 4

/-- A role's command: any other role's is refused (R401). -/
def asRole (want r : Role) (f : State → State) (s : State) : State := if r = want then f s else fmDone .policed [] s

/-! Activation (R270, R271, R387, R404). -/

/-- The first sealed region in LOADING or SEALED whose owner has not accepted a package. -/
def refusing (s : State) (digest : BitVec 384) : Option Nat :=
  (s.pool.extents.find? (fun c =>
    (match c.2.st with | .loading => true | .sealed => true | .sealedHeld => true | _ => false) &&
    !((sealedOf s c.1).fwAccepted.contains digest))).map (·.1)

/-- An activation request ends: LAST_STATUS, event, completion. -/
def endActivation (st : Status) (region : Nat) (s : State) : State :=
  let level := match s.sch.actPkg with | some (l, _) => l | none => 0
  let s := event 0x16 [st.code, level, region] { s with sch := { s.sch with
    actState := 0, actLast := if s.sch.actReqTime = s.sch.actSince then st.code else s.sch.actLast
    actPkg := none, actPause := false } }
  fmDone st [] s

/-- Steps 1 and 2 of R404, once no emergency defers them: the check of R387, then the pause. -/
def beginActivation (s : State) : State :=
  match s.sch.actPkg with
  | none => s
  | some (_, d) =>
    match refusing s d with
    | some e => endActivation .policed e s
    | none => { s with sch := { s.sch with actState := 2, actPause := true } }

/-- Any in-service quadrant has an EMERG bit set. -/
def anyEmerg (s : State) : Bool :=
  (List.range 4).any (fun q => !(qFenced s q) && ((pwrq s q).emergThermal || (pwrq s q).emergRail || (pwrq s q).emergAlert))

end Sys2Proof.Machine
end

