-- ==== Sys2Proof/Machine/ResetOps.lean ====
section
/-! DEFINITION. Resets, shared operations (chapter 17): what a warm reset stops and keeps (R445, R446), the state that a cold
reset leaves (R443), the release of the device (R446, R450). -/

namespace Sys2Proof.Machine

/-! The always-on domain (R441). -/

/-- Tick count of the always-on domain: the ticks last read, and those that have passed since at 32.768 kHz. -/
def ticksNow (s : State) : Nat := s.clk.aonTicks + (s.time - s.clk.tickAt) * 32768 / 1000000000

/-- OPERATING_HOURS and POWER_CYCLES are written to boot flash. -/
def saveHours (s : State) : State :=
  { s with clk := { s.clk with flashHours := s.clk.operatingHours, flashCycles := s.clk.powerCycles } }

/-- A watched rail is absent: 0 core, 1 stack, 2 optical; 3 is any other rail, 4 VAON. -/
def railGone (s : State) (r : Nat) : Bool := tget false s.clk.railLost r

/-- CMP_SUPPLY: every watched rail within its window. -/
def settleSupply (s : State) : State :=
  { s with clk := { s.clk with cmpSupply := !(railGone s 0 || railGone s 1 || railGone s 2) } }

/-- LSRC_EN of an engine (R498): a port of it LIGHTING, TRAINING or UP, its connector mated for 1 ms, and the device not
stopped. -/
def lsrcEn (s : State) (e : Nat) : Bool :=
  !(halted s) && tget false s.clk.faPresent e &&
  (List.range 4).any (fun k => match (port s (4 * e + k)).st with
    | .lighting => true
    | .training => true
    | .up => true
    | _ => false)

/-! Quiescing (R445 steps 1 to 4). -/

/-- The commit whose held effects have begun to issue completes first (R445 step 2). -/
def finishIssuing (jid : Nat) (s : State) : State :=
  match job s jid with
  | none => s
  | some j =>
    match j.issuing with
    | none => s
    | some k =>
      let n := (j.effects.map (fun e => e.rows.length)).foldl (· + ·) 0
      let on := (List.range j.cores.length).filter (fun r =>
        !(coreFenced s (j.cores.getD r 0)) && !(j.fences.any (fun f => f.rank == r)))
      commitStep jid (forEach on (fun r => issueRows n jid k r) s)

/-- What becomes of a job on its cores (Table 17.4): back to its commit and to the ready list; one that is being released is
dropped, one that is being quiesced pauses, one with a fenced core whose effects were applied in part ends. -/
def stopAtReset (jid : Nat) (s : State) : State :=
  match job s jid with
  | none => s
  | some j =>
    match j.fences.find? (fun f => decide (f.issued < f.held)) with
    | some f => endJob jid .coreFenced 0 (fenceBytes f 0) s
    | none =>
      match j.why with
      | .release => dropJob jid s
      | .quiesce => quiescePause jid s
      | .ended st detail ext => finishJob jid st detail ext s
      | _ => s

/-- Jobs stopped at a boundary without a paused record leave their cores too, and admissions in progress start again. -/
def backToReady (s : State) : State :=
  forEach s.que.jobs (fun c s =>
    match job s c.1 with
    | none => s
    | some j =>
      match j.phase with
      | .halted =>
        let s := leaveCores c.1 s
        (match job s c.1 with | some j => setJob c.1 (some { j with phase := .ready }) s | none => s)
      | .image => setJob c.1 (some { j with phase := .header }) s
      | .digest => setJob c.1 (some { j with phase := .header }) s
      | _ => s) s

/-- A request could be served at its line without any recall (Table 4.4, R94). -/
def needsNoRecall (s : State) (l : Nat) (r : LineReq) : Bool :=
  let d := (line s l).dir
  let hs := holders s d ((pvaOfLine s l).getD (r.tenant, 0)).1
  let grants := decide (r.kind = .rdShared) || decide (r.kind = .rdOwn) || decide (r.kind = .upgrade)
  let reads := decide (r.kind = .rdOnce) || decide (r.kind = .engRead) || decide (r.kind = .cleanEvict)
  if r.kind = .reduceW ∨ awaitsHandOver s l then false
  else
    match d.st with
    | .u => false
    | .i => !grants || decide ((setMates s l).length < 16)
    | .s => reads || decide (r.kind = .rdShared) || hs.all (fun h => grants && h == r.who)
    | .o => decide (r.kind = .cleanEvict) || (d.ptrs.headD (.grp 0) == r.who && (grants || decide (r.kind = .rdOnce)))

/-- Carries out the requests at the head of a line's queue that need no recall. -/
def carryOut (l : Nat) : Nat → State → State
  | 0, s => s
  | n + 1, s =>
    let x := line s l
    match x.queue with
    | r :: rest =>
      if !(busy x) && needsNoRecall s l r then carryOut l n (serve l r (setLine l { x with queue := rest } s)) else s
    | [] => s

/-- Homes: ordered requests that need no recall are carried out; what waits on a recall is discarded and its acceptance
undone; recalls stay recorded; merge-buffer entries are written back (R445 step 3). -/
def stopHomes (s : State) : State :=
  let s := forEach s.dir.lines (fun c => carryOut c.1 c.2.queue.length) s
  let s := forEach (s.mem.merge.map (·.1)) mergeWriteback s
  { s with
    dir := { s.dir with
      lines := tmapAll {} (fun _ (x : Line) =>
        if x.cur.isNone && x.queue.isEmpty then { x with buf := none }
        else { x with target := if x.cur.isSome then restTarget x else x.target, cur := none, queue := [], buf := none })
        s.dir.lines
      pends := [], answers := [], waitIn := [], cycle := [], due := [] }
    mem := { s.mem with acts := [], openRows := [], chans := [] } }

/-- Completions that were on their way to an accelerator's ring are written again from the first of them on. -/
def rewriteRing (n : Nat) (s : State) : State :=
  let ws := s.e2e.ringWrites.filter (fun w => w.compl.queue == n)
  match ws with
  | [] => s
  | w :: _ =>
    let x := queue s n
    let cs := ((ws.map (fun x => x.compl)).eraseDups).filter (fun c => !(x.awaiting.contains c))
    setQueue n { x with
      cqTail := BitVec.ofNat 32 w.idx, awaiting := cs ++ x.awaiting, extOut := none, posts := []
      windowsInFlight := x.windowsInFlight + (cs.filter (·.window)).length } s

/-- Transport and rings: contexts, replay buffers and reassembly records are empty; reads of rings are made again. -/
def stopTransport (s : State) : State :=
  let s := forEach ((s.e2e.ringWrites.map (fun w => w.compl.queue)).eraseDups) rewriteRing s
  let s := forEach (s.e2e.requests.map (·.queue) ++ s.cxl.dmaReads.map (·.queue)) (fun n s =>
    setQueue n { queue s n with fetching := false } s) s
  { s with
    e2e := { s.e2e with
      send := [], recv := [], reasm := [], requests := [], ringWrites := [], timeEcho := [], locked := false
      everLocked := false, holdover := false, goodExchanges := 0, quietUntil := none }
    cxl := { s.cxl with dmaReads := [] } }

/-- Lasers are dark and every port is stopped; what it held is gone. -/
def stopPorts (s : State) : State :=
  forEach (List.range 64) (fun n s =>
    if (port s n).st = .disabled then s
    else
      let s := resetVcs n (darken n s)
      setPort n { port s n with st := .disabled, stateTime := s.time, txq := [] } s) s

/-- The pair's side: nothing of the order stream outlives the reset; what the follower has not acknowledged is dirty, and
what was not verified has failed (R425, R429, R448). -/
def stopPair (memoryKept : Bool) (s : State) : State :=
  let p := s.pair
  let current := memoryKept && (decide (p.st = .active) || decide (p.st = .standby))
  let bad := (p.effects.map (fun e => e.2.2)).filter (fun u => !(p.failed.contains u))
  let lost := if p.copying then (p.pendingLines.map (·.2) ++ p.inTransit).eraseDups else []
  { s with pair := { p with
    memoryCurrent := current, ownOk := false, gateOpen := false, lead := false, sent := 0, acked := 0, applied := 0
    inputs := [], kept := [], stalledOn := none, beats := [], commitsDue := [], snapIn := none, recs := [], entropy := []
    follower := 0, held := [], streams := [], nextUnit := [], units := [], early := [], failed := p.failed ++ bad
    inTransit := [], pendingLines := [], snapshotAt := none, snapshotDue := false, chunks := []
    dirty := p.dirty ++ lost.filter (fun g => !(p.dirty.contains g)) } }

/-- A deferred activation ends with DEFERRED_EXPIRED; one in progress is over, and the old release boots (R271, R404). -/
def stopActivation (s : State) : State :=
  if s.sch.actState = 1 then endActivation .deferredExpired 0xFFFF (bump cPwr 0 5 s)
  else if s.sch.actState = 2 then { s with sch := { s.sch with actState := 0, actPkg := none, actPause := false } }
  else s

/-- Every CXL link goes down (R445 step 1, R343). -/
def stopLinks (s : State) : State := forEach (List.range 4) holdCxlDown s

/-- Stacks enter self-refresh. -/
def enterSelfRefresh (s : State) : State :=
  forEach (List.range 32) (fun n s =>
    match (stack s n).st with
    | .retired => s
    | _ => setStack n { stack s n with selfRefresh := true } s) s

/-- Steps 1 to 4 of R445, of a warm reset and of a dormant entry: the partial period is recorded, and everything stops with
what Table 17.4 keeps. -/
def quiesce (s : State) : State :=
  let s := endPeriod true (stopActivation s)
  let s := forEach (runningJobs s) finishIssuing s
  let s := forEach (runningJobs s) stopAtReset s
  let s := backToReady (requeueRunning s)
  let s := stopLinks (stopTransport (stopHomes s))
  let s := enterSelfRefresh (stopPair true (stopPorts s))
  let t := ticksNow s
  { s with
    xlt := { s.xlt with units := tmapAll {} (fun _ (u : XltUnit) => { u with tlb := [], atc := [], atsInvals := [] }) s.xlt.units }
    core := { s.core with cores := [], chans := [] }
    sec := { s.sec with sessions := [] }
    obs := { s.obs with obsSel := [], tapDriving := false }
    fen := { s.fen with anchorMoveUntil := none }
    clk := { s.clk with holdTime := s.time, holdTicks := t, aonTicks := t, tickAt := s.time, q := [], firmwareOk := false, bcrOk := false
                        memoryKept := true } }

/-! Reset levels (R443). -/

/-- What boot flash holds of the event recorder; an erase that the reset broke off leaves an empty log (R463). -/
def keptLog (o : RecState) : RecState :=
  if o.clearing then { clears := o.clears, lost := o.lost }
  else { log := o.log, seq := o.seq, full := o.full, clears := o.clears, lost := o.lost, extremes := o.extremes }

/-- Stacks after a cold reset: retired ones stay out, and a retirement is over (R371). -/
def coldStack (x : Stack) : Stack :=
  match x.st with
  | .retired => { x with trained := false, selfRefresh := false, tempC := 0 }
  | .retiring => { st := .retired }
  | _ => {}

/-- Causes of core fences that a reset keeps: faults of the core, and of its quadrant (R407). -/
def keptCauses (s : State) : Tbl Nat :=
  s.fen.coreCause.filter (fun c => s.fen.repair.contains (0, c.1) || (decide (c.2 = 6) && (quad s (c.1 / 40)).faultFenced))

/-- The state that a cold reset leaves: everything at its reset value but what boot flash, the always-on domain and the pins
keep (R441, R443, Table 17.2); fences for a fault stay (R407), and a deferred activation ends (R271). -/
def coldState (cause : RstCause) (s : State) : State :=
  let s := stopActivation s
  let r := State.reset
  { r with
    pending := s.pending, out := s.out, free := s.free, grade := s.grade
    obs := keptLog s.obs
    mem := { r.mem with
      blocks := resetBlocks s.grade, remap := s.mem.remap
      stk := tmapAll {} (fun _ (x : Stack) => coldStack x) s.mem.stk }
    sec := { r.sec with slots := s.sec.slots, selector := s.sec.selector, flashBcr := s.sec.flashBcr
                        systemKey := none, nextKey := s.sec.nextKey }
    fen := { r.fen with
      repair := s.fen.repair, unfenced := s.fen.unfenced, coreCause := keptCauses s
      fencedOe := tmapAll false (fun e b => b && s.fen.repair.contains (1, e)) s.fen.fencedOe
      quads := s.fen.quads.filterMap (fun c =>
        if c.2.faultFenced then some (c.1, { faultFenced := true }) else none) }
    pair := { r.pair with partner := s.pair.partner, partnerActiveAt := 0 }
    clk := { r.clk with
      phase := .inReset, resetCold := true, lastLevel := 0, lastCause := cause
      aonOscOk := s.clk.aonOscOk, operatingHours := s.clk.operatingHours, powerCycles := s.clk.powerCycles
      cmpOvertemp := s.clk.cmpOvertemp, cmpSupply := s.clk.cmpSupply, cmpWake := s.clk.cmpWake, cmpFreeze := s.clk.cmpFreeze
      tripped := s.clk.tripped, supplyLost := s.clk.supplyLost, holdTime := s.time, holdTicks := ticksNow s
      aonTicks := ticksNow s, flashHours := s.clk.flashHours, flashCycles := s.clk.flashCycles
      thermTrip := s.clk.thermTrip, railLost := s.clk.railLost, faPresent := s.clk.faPresent } }

/-- A warm cause: it joins a reset in progress; a device that is fenced under R418 or running stops as R445 says. -/
def beginWarm (cause : RstCause) (s : State) : State :=
  match s.clk.phase with
  | .released =>
    let s := quiesce s
    { s with clk := { s.clk with
      phase := .inReset, resetCold := false, lastLevel := 1, lastCause := cause
      warmResets := satAdd 0xFFFFFFFF s.clk.warmResets 1 } }
  | .starting =>
    if s.clk.resetCold then coldState s.clk.lastCause s
    else { s with clk := { s.clk with phase := .inReset, q := [], firmwareOk := false, bcrOk := false } }
  | _ => s

/-- A cold cause: it makes the reset cold, whatever it joins; a tripped device waits for its rails, and one whose
oscillator has failed stays where it is (R440, R442, R443). -/
def beginCold (cause : RstCause) (s : State) : State :=
  match s.clk.phase with
  | .tripped => s
  | .dead => s
  | _ => coldState cause s

/-! Release (R446, R450). -/

/-- Units whose fence ends at a cold start: UNFENCE was issued and the self-test passed (R407). -/
def unfenceAt (fails : List (Nat × Nat)) (s : State) : State :=
  let ends := s.fen.unfenced.filter (fun u => !(fails.contains u))
  let f := s.fen
  { s with fen := { f with
    repair := f.repair.filter (fun u => !(ends.contains u)), unfenced := []
    coreCause := f.coreCause.filter (fun c => !(ends.contains (0, c.1)))
    fencedOe := f.fencedOe.filter (fun c => !(ends.contains (1, c.1)))
    fencedCxl := f.fencedCxl.filter (fun c => !(ends.contains (2, c.1)))
    quads := f.quads.map (fun c => (c.1, if ends.contains (3, c.1) then { c.2 with faultFenced := false } else c.2)) } }

/-- Fences of position end, with those of CXL ports and blocks; the anchor role is taken up anew, and homes that can be
reached again poison their lost lines (R407, R412, R417). -/
def endPositions (s : State) : State :=
  let f := s.fen
  let s := { s with fen := { f with
    quads := tmapAll {} (fun _ (x : Quad) => { x with positionFenced := false, island := [] }) f.quads
    coreCause := keptCauses s
    fencedCxl := f.fencedCxl.filter (fun c => f.repair.contains (2, c.1) && s.clk.resetCold)
    fencedBlocks := [], spareLost := false } }
  let a := if !(quad s 0).faultFenced then some 0 else if !(quad s 2).faultFenced then some 2 else none
  let s := evaluateIslands { s with fen := { s.fen with anchor := a, spareLost := (quad s 2).faultFenced } }
  forEach ((List.range 4).filter (homeReachable s)) poisonLost s

/-- The self-tests of Table 17.6 have failed for these units (0 core, 1 optical engine, 2 CXL port): they are fenced (R407). -/
def fenceFailed (u : Nat × Nat) (s : State) : State :=
  match u.1 with
  | 0 => fenceCore u.2 3 s
  | 1 => fenceOe u.2 3 s
  | 2 => fenceCxl u.2 3 s
  | _ => fenceQuadrant u.2 3 s

/-- A kite operation that had not written the version record is carried out again from its start (Table 17.4). -/
def restartKites (s : State) : State :=
  let free (y : Kite) : Kite := { y with held := none, waiting := [] }
  let s := { s with pool := { s.pool with kites := s.pool.kites.map (fun (c : Nat × Option Kite) => (c.1, c.2.map free)) } }
  let again (d : Desc) : Desc :=
    if d.started && !d.ended && decide (0x20 ≤ dOpcode d) && decide (dOpcode d ≤ 0x23) then { d with started := false } else d
  let qs := tmapAll {} (fun _ (x : Queue) => { x with flight := x.flight.map again }) s.que.queues
  { s with que := { s.que with queues := qs } }

/-- Near-memory descriptors that ran complete with TIMEOUT and their bytes-done count (Table 17.4). -/
def timeOutNear (s : State) : State :=
  forEach s.que.queues (fun (c : Nat × Queue) s =>
    forEach (c.2.flight.filter (fun (d : Desc) => d.started && !d.ended && decide (2 ≤ dOpcode d) && decide (dOpcode d ≤ 7)))
      (fun d s => nmFinish c.1 d .timeout 0 [] s) s) s

/-- What a warm start restores at release (Table 17.4). -/
def restoreWarm (s : State) : State :=
  let s := forEach (List.range 32) (fun n s =>
    if (stack s n).selfRefresh && !(quad s (n / 8)).faultFenced then setStack n { stack s n with selfRefresh := false } s else s) s
  let s := { s with pool := { s.pool with leases := s.pool.leases.map (fun h =>
    (h.1, { h.2 with renewedAt := s.time, late := none })) } }
  let s := markGroupMembers (restartKites s)
  let s := timeOutNear s
  let s := forEach (s.que.queues.map (·.1)) flushAwaiting (deliverVerified s)
  let s := forEach ((s.dir.lines.filter (fun c => !c.2.recalls.isEmpty)).map (·.1)) (fun l s =>
    let x := line s l
    forEach x.recalls (sendRecall l) (setLine l { x with recallTime := s.time } s)) s
  let probe (n : Nat) (s : State) : State :=
    if (port s n).enable && !(tget false s.fen.fencedOe (n / 4)) && !(quad s (n / 16)).faultFenced then
      setPortSt n .probing s else s
  let s := forEach (List.range 64) probe s
  if s.pair.enable then setPairSt .waiting false s else s

/-- The device may be released: identity checked or not, its board record and a release are accepted, stacks trained and
filled or kept, and the clocks of every quadrant in service locked. -/
def mayRelease (s : State) : Bool :=
  decide (s.clk.phase = .starting) && s.clk.firmwareOk && s.clk.bcrOk && s.clk.trained && s.mem.fillDone &&
  (List.range 4).all (fun q => (quad s q).faultFenced || (tget {} s.clk.q q).pllLock)

/-- LAST_CAUSE (Table 17.10). -/
def causeCode : RstCause → Nat
  | .coreRails => 0 | .coldRstN => 1 | .overTemp => 2 | .stackRail => 3 | .warmRstN => 4 | .watchdog => 5
  | .command => 6 | .selfFence => 7 | .wakeN => 8

/-- The START record; TRIPPED and SUPPLY_LOST are cleared once read (R466, Table 17.2). -/
def startRecord (s : State) : State :=
  let s := record 5 0 [s.clk.lastLevel, causeCode s.clk.lastCause, b2n s.clk.tripped, b2n s.clk.supplyLost, s.sec.releaseLevel] s
  { s with clk := { s.clk with tripped := false, supplyLost := false }, obs := { s.obs with periodAt := s.time } }

/-- The device is released: admission opens, ports train or probe, the quiet period runs. -/
def release (fails : List (Nat × Nat)) (s : State) : State :=
  let cold := s.clk.resetCold
  let s := { s with
    clk := { s.clk with phase := .released, releaseTime := s.time, aonTicks := ticksNow s, tickAt := s.time, watchdogAt := s.time }
    e2e := { s.e2e with quietUntil := some (s.time + 6000000) } }
  let s := startRecord s
  let s := if cold then unfenceAt fails s else s
  let s := forEach fails fenceFailed (endPositions s)
  let s := if cold then s else restoreWarm s
  forEach (List.range 4) trainCxl s

end Sys2Proof.Machine
end

