-- ==== Sys2Proof/Machine/Observe.lean ====
section
/-! DEFINITION. Counters, the event recorder, freeze, the test access port and the observation lands (chapter 18; opcode-table
rows RESET_COUNTERS to CURSOR_WRITE). -/

namespace Sys2Proof.Machine

/-! Counters (R459). -/

/-- Instances of a row of Table 18.9. -/
def rowInstances (f : Nat) : Nat := [4, 1, 1, 1, 1, 1, 64, 4, 4, 1, 1, 1, 1, 4, 4, 8].getD f 0

/-- Counters of one instance: the arrays have up to 32 entries; of row 15, the drops of every contract (6) and the corrected
and uncorrectable lines of every stack (7) are one instance each. -/
def rowCounters (f n : Nat) : Nat := if f = 15 then (if n = 6 then 4096 else if n = 7 then 64 else 1) else 32

/-- A metric's counters have just given up `k` counts: the next increase is taken from what remains. -/
def dropPrev (m k : Nat) (s : State) : State :=
  { s with obs := { s.obs with prev := tput 0 s.obs.prev m (tget 0 s.obs.prev m - (k : Int)) } }

/-- Every counter of an instance is set to 0, and its bit in DPC_OBS_SAT with it; rate metrics are measured on. -/
def clearInstance (f n : Nat) (s : State) : State :=
  let before := fun m => rateTotal s m
  let s1 := { s with cnt := s.cnt.filter (fun c => c.1 / 65536 != f * 64 + n) }
  forEach rateMetrics (fun m s => dropPrev m (before m - rateTotal s1 m) s) s1

/-- RESET_COUNTERS (Operator): the counters of one instance are returned and cleared; an event names command 5, row and
instance. -/
def execResetCounters (r : Role) (f : Fin 16) (n : Fin 64) (who : Nat) (s : State) : Ans :=
  .next (served s (asRole .operator r (fun s =>
    if rowInstances f.val ≤ n.val then fmDone .policed [] s
    else
      let s := if f.val = cUtil then flushQuad n.val s else s
      let vals := (List.range (rowCounters f.val n.val)).map (cntGet s f.val n.val)
      fmDone .ok vals (actionEvent 5 [f.val, n.val] who (clearInstance f.val n.val s))) s))

/-! The recorder (R463 to R471). -/

/-- METRIC_SAMPLE: one sample of the 24 metrics. `use` gives in percent what the state does not hold: cores busy, stack
bandwidth, optical bandwidth, busiest strait, time with THROTTLE set. -/
def execMetricSample (use : List Nat) (now : Nat) (s : State) : Ans :=
  let s1 := advance now s
  let vals := (List.range 24).map (metricNow s1 use)
  .next (live s (
    let s2 := forEach (List.range 24) (fun m => sampleMetric m (vals.getD m 0)) s1
    forEach rateMetrics (fun m s => { s with obs := { s.obs with prev := tput 0 s.obs.prev m (rateTotal s1 m : Int) } }) s2))

/-- PERIOD_END. -/
def execPeriodEnd (now : Nat) (s : State) : Ans :=
  let s1 := advance now s
  .next (live s (if s1.obs.periodAt + periodNs s1 ≤ s1.time then endPeriod false s1 else s1))

/-- The body of a CLEAR record: 128 bytes (R470). -/
def clearBodyOf (digest : BitVec 384) (s : State) : List Nat :=
  (List.range 6).map (fun i => digest.toNat / 2 ^ (64 * i) % 2 ^ 64) ++ [s.obs.seq - 1, s.obs.lost] ++
  fields8 ((List.range 24).flatMap (fun m => leBytes 2 (extremeOf s m))) ++ [0, 0]

/-- CLEAR_RECORDER (Custodian): the erase begins; CONFLICT while one is in progress. -/
def execClearRecorder (r : Role) (digest : BitVec 384) (now : Nat) (s : State) : Ans :=
  .next (served s (asRole .custodian r (fun s =>
    if s.obs.clearing then fmDone .conflict [] s
    else
      let b := clearBodyOf digest s
      fmDone .ok [] { s with obs := { s.obs with clearing := true, clearBody := b, log := [], full := false, lost := 0 } })
    (advance now s)))

/-- CLEAR_ERASE_DONE: the CLEAR record commits as number 0, and the staged records follow it. -/
def execClearEraseDone (now : Nat) (s : State) : Ans :=
  let s1 := advance now s
  let o := s1.obs
  .next (live s (
    if !o.clearing then s1
    else
      let clear : LogRec := { kind := 4, flags := recFlags s1, seq := 0, time := s1.time, hours := s1.clk.operatingHours,
                              cycles := s1.clk.powerCycles, subject := 0, body := o.clearBody }
      forEach o.staging logPush { s1 with obs := { o with
        clearing := false, clearBody := [], staging := [], log := [clear], seq := 1, clears := (o.clears + 1) % 2 ^ 32 } }))

/-- READ_RECORDER (any role): committed bytes from an offset, with CLEARS and WRITE_PTR. -/
def execReadRecorder (off len : Nat) (s : State) : Ans :=
  .next (served s (
    if 65536 < len then fmDone .policed [] s
    else
      let b := ((logBytes s).drop off).take len
      emit (.data b) (fmDone .ok [b.length, s.obs.clears, writePtr s] s)))

/-- REC_WINDOW (Operator): a logical device's bit of WINDOW_LD; an event names command 6, the device and the bit. -/
def execRecWindow (r : Role) (d : Fin 64) (on : Bool) (who : Nat) (s : State) : Ans :=
  .next (served s (asRole .operator r (fun s =>
    let w := s.obs.windowLd
    let bit : BitVec 64 := 1#64 <<< d.val
    fmDone .ok [] (actionEvent 6 [d.val, b2n on] who { s with obs := { s.obs with
      windowLd := if on then w ||| bit else w &&& ~~~bit } })) s))

/-- REC_PERIOD (Operator). -/
def execRecPeriod (r : Role) (minutes : BitVec 11) (s : State) : Ans :=
  .next (served s (asRole .operator r (fun s =>
    fmDone .ok [] { s with obs := { s.obs with periodMin := minutes.toNat } }) s))

/-- CURSOR_WRITE: a logical device whose bit in WINDOW_LD is 1 sets CURSOR. -/
def execCursorWrite (d : Fin 64) (data : BitVec 64) (s : State) : Ans :=
  .next (live s (
    if s.obs.windowLd.getLsbD d.val && !(writesIgnored s d.val) then
      { s with obs := { s.obs with cursor := tput 0 s.obs.cursor d.val (BitVec.ofNat 15 (field data.toNat 5 15)) } }
    else s))

/-! Observation lands (R399, R474). -/

/-- OBS_SELECT (Operator): a data path (group 3) is shown only with no key slot in use, or once the key store has been
zeroised on the operator's confirmation. -/
def execObsSelect (r : Role) (k : Fin 16) (g q : Fin 4) (idx : Fin 4096) (confirm : Bool) (s : State) : Ans :=
  .next (served s (asRole .operator r (fun s =>
    let data := decide (g.val = 3) && keysLive s
    if data && !confirm then fmDone .conflict [] s
    else
      let s := fmDone .ok [] { s with obs := { s.obs with
        obsSel := tput (0, 0, 0) s.obs.obsSel k.val (g.val, q.val, idx.val) } }
      if data then zeroiseKeys s else s) s))

/-- What a land shows: low in group 0, else the selected signal. -/
def obsLand (s : State) (k : Nat) : Bool :=
  let (g, q, i) := tget (0, 0, 0) s.obs.obsSel k
  if g = 0 then false else Config.obsSignal g q i

/-! Freeze (R472). -/

/-- Core stores, accumulators, merge-buffer entries, line buffers and replay buffers are filled with zero. -/
def zeroBuffers (s : State) : State :=
  let blank (e : MergeEnt) : MergeEnt := { e with data := List.replicate 64 0 }
  let empty (x : SentPkt) : SentPkt := { x with pkt := { x.pkt with payload := List.replicate x.pkt.payload.length 0 } }
  { s with
    core := { s.core with cores := tmapAll {} (fun _ (c : Core) => { c with store := [], acc := [] }) s.core.cores }
    mem := { s.mem with merge := s.mem.merge.map (fun (c : Nat × Option MergeEnt) => (c.1, c.2.map blank)) }
    dir := { s.dir with lines := tmapAll {} (fun _ (x : Line) => { x with buf := none }) s.dir.lines }
    e2e := { s.e2e with send := s.e2e.send.map (fun (c : FlowKey × SendCtx) => (c.1, { c.2 with pkts := c.2.pkts.map empty })) } }

/-- FREEZE_N: low for 1 µs: admission stops, outputs are gated, lasers go dark, keys are zeroised under R399, buffers are
zeroed and every clock stops. -/
def execFreezeN (low : Bool) (now : Nat) (s : State) : Ans :=
  let s1 := { s with clk := { s.clk with cmpFreeze := low } }
  .next (
    if !low then s1
    else
      match s.clk.phase with
      | .released | .starting =>
        let s2 := advance now s1
        let s3 := zeroBuffers (stopPorts (if keysLive s2 then zeroiseKeys s2 else s2))
        let s4 := forEach (List.range 4) (fun p s => setLink p 0 s) s3
        { s4 with clk := { s4.clk with phase := .frozen }, sec := { s4.sec with sessions := [] } }
      | _ => s1)

/-! The test access port (R473). It runs from TCK whatever the device does. -/

/-- Selects an instruction; EXTEST drives the lands only while it is the instruction. -/
def tapSelect (code : Nat) (s : State) : State :=
  { s with obs := { s.obs with tapInstr := code, tapDriving := decide (code = 3) } }

/-- The device has been frozen. -/
def isFrozen (s : State) : Bool := decide (s.clk.phase = .frozen)

/-- BYPASS: the one-bit register, which shifts in a 0 first. -/
def execBypass (s : State) : Ans := .next (emit (.tap [0]) (tapSelect 0 s))

/-- IDCODE. -/
def execIdcode (s : State) : Ans := .next (emit (.tap [0xB4032C53]) (tapSelect 1 s))

/-- SAMPLE/PRELOAD: the boundary cells. -/
def execSamplePreload (s : State) : Ans :=
  .next (emit (.tap (Config.boundaryBits.map (fun b => b.toNat))) (tapSelect 2 s))

/-- EXTEST: in cold reset or after a freeze the electrical lands are driven; elsewhere the code selects BYPASS. -/
def execExtest (s : State) : Ans :=
  .next (
    if (decide (s.clk.phase = .inReset) && s.clk.resetCold) || isFrozen s then tapSelect 3 s
    else emit (.tap [0]) (tapSelect 0 s))

/-- SCAN_SELECT: after a freeze. -/
def execScanSelect (q : Fin 4) (s : State) : Ans :=
  .next (
    if isFrozen s then
      let t := tapSelect 4 s
      { t with obs := { t.obs with tapQuadrant := q.val } }
    else emit (.tap [0]) (tapSelect 0 s))

/-- SCAN_DUMP: after a freeze every flip-flop of the selected quadrant is shifted out. -/
def execScanDump (s : State) : Ans :=
  .next (
    if isFrozen s then
      emit (.tap ((Config.scanBits s.obs.tapQuadrant).map (fun b => b.toNat))) (tapSelect 5 s)
    else emit (.tap [0]) (tapSelect 0 s))

end Sys2Proof.Machine
end

