-- ==== Sys2Proof/Machine/Pool.lean ====
section
/-! DEFINITION. Extents, balloons, tethers and kites (chapter 2; opcode-table rows ALLOCATE_EXTENT to KITE_RECLAIM). -/

namespace Sys2Proof.Machine

/-- The attributes an allocation sets meet Table 2.3 and R36: aligned base, whole blocks, a balloon's bounds, a sealed region
strong, of fixed size and of no MEMORY_ONLY tenant (R398), at most 16 overrides, a grain of 256 B to 64 KiB, no overlap in
the tenant's space. -/
def allocOk (s : State) (a : ExtentReq) : Bool :=
  let span := if a.kind = .balloon then a.maxBlocks else a.blocks
  decide (a.pvaBase % blockBytes = 0) && decide (a.pvaBase + span * blockBytes ≤ 2 ^ 48) && decide (1 ≤ a.blocks) &&
  decide (8 ≤ a.grainLog2) && decide (a.grainLog2 ≤ 16) && decide (a.overrides.length ≤ 16) &&
  (!(decide (a.kind = .sealed)) || (!a.light && !(tenant s a.tenant.val).memoryOnly)) &&
  (!(decide (a.kind = .balloon)) || (decide (1 ≤ a.minBlocks) && decide (a.minBlocks ≤ a.blocks) && decide (a.blocks ≤ a.maxBlocks))) &&
  s.pool.extents.all (fun c =>
    let y := c.2
    let yspan := if y.kind = .balloon then y.maxBlocks else y.blocks.length
    decide (y.st = .free) || decide (y.tenant ≠ a.tenant.val) ||
    decide (a.pvaBase + span * blockBytes ≤ y.pvaBase) || decide (y.pvaBase + yspan * blockBytes ≤ a.pvaBase))

/-- ALLOCATE_EXTENT: blocks assigned, attributes set, PREPARING (R36, R37, R40). -/
def execAllocateExtent (e : Fin 16384) (a : ExtentReq) (s : State) : Ans :=
  .next (served s (
    if (extent s e.val).st ≠ .free then fmDone .conflict [] s
    else if !(allocOk s a) || !(tenantLive s a.tenant.val) then fmDone .policed [] s
    else
      match allocBlocks a.blocks e.val a.light a.place a.grainLog2 s with
      | none => fmDone .policed [] s
      | some (bs, s) =>
        let s := if a.kind = .sealed then setSealed e.val { ownerKey := a.ownerKey } s else s
        fmDone .ok [] (setExtent e.val
          { st := .preparing, tenant := a.tenant.val, pvaBase := a.pvaBase, blocks := bs, light := a.light
            place := a.place, grainLog2 := a.grainLog2, kind := a.kind, rights := a.rights, overrides := a.overrides
            minBlocks := a.minBlocks, maxBlocks := a.maxBlocks } s)))

/-- EXTENT_ZERO_FILL_COMPLETE: every line reads zero under the tenant's active slot (R393); the extent becomes ACTIVE, or
SEALED_EMPTY for a sealed region (R41, Tables 2.4 and 2.8); a balloon's new blocks become visible (R39). -/
def execExtentZeroFillComplete (e : Fin 16384) (s : State) : Ans :=
  let x := extent s e.val
  .next (live s (
    match x.st with
    | .preparing =>
      setExtent e.val { x with st := if x.kind = .sealed then .sealedEmpty else .active }
        (fillBlocks x.blocks (some (activeSlot s x.tenant)) s)
    | .releasing => s
    | .scrubbing => s
    | _ =>
      let s := fillBlocks x.growing (some (activeSlot s x.tenant)) s
      if (dcOf s e.val true).isSome then sendDc e.val true s
      else setExtent e.val { x with blocks := x.blocks ++ x.growing, growing := [] } s))

/-- The range that a balloon's withdrawn blocks stood at (R39). -/
def shrinkLo (x : Extent) : Nat := x.pvaBase + x.shrinkAt * blockBytes
def shrinkHi (x : Extent) : Nat := x.pvaBase + (x.shrinkAt + x.shrinking.length) * blockBytes

/-- Every block that an extent holds: mapped, joining, withdrawn, or being scrubbed (R39, R41). -/
def blocksHeld (x : Extent) : List Nat := x.blocks ++ x.growing ++ x.shrinking ++ x.scrubbing

/-- EXTENT_WITHDRAWAL_DRAINED: every withdrawal has drained and the SCRUBBING fill starts (R40, R72). -/
def execExtentWithdrawalDrained (e : Fin 16384) (s : State) : Ans :=
  let x := extent s e.val
  .next (live s (
    match x.st with
    | .releasing =>
      if drainPending s x.tenant (extentLo x) (extentHi x) || drainPending s x.tenant (shrinkLo x) (shrinkHi x) then s
      else setExtent e.val { x with st := .scrubbing } s
    | _ =>
      if drainPending s x.tenant (shrinkLo x) (shrinkHi x) then s
      else setExtent e.val { x with scrubbing := x.scrubbing ++ x.shrinking, shrinking := [] } s))

/-- EXTENT_SCRUB_COMPLETE: zero under the system key, blocks returned, FREE (R41). -/
def execExtentScrubComplete (e : Fin 16384) (s : State) : Ans :=
  let x := extent s e.val
  .next (live s (
    match x.st with
    | .scrubbing => setExtent e.val {} (setSealed e.val {} (freeBlocks (blocksHeld x) (zeroBlocks (blocksHeld x) s)))
    | _ => setExtent e.val { x with scrubbing := [] } (freeBlocks x.scrubbing (zeroBlocks x.scrubbing s))))

/-- The states from which the fabric manager releases (Tables 2.4, 2.10); a sealed region goes from PREPARING as well (Table
2.8). -/
def releasable (x : Extent) : Bool :=
  match x.st with
  | .active | .held | .sealedEmpty | .loading | .sealed | .sealedHeld | .current | .superseded | .retired => true
  | .preparing => decide (x.kind = .sealed)
  | _ => false

/-- A release goes on at once, or, with host windows open, orders their cut and waits for it (R339). -/
def startRelease (e : Nat) (s : State) : State :=
  let s := orderCuts e s
  if (extent s e).st = .releasing then s
  else if cutsOn s e then setExtent e { extent s e with releaseAfterCut := true } s else beginRelease e s

/-- RELEASE_EXTENT: ordinary when no live tether is held or the extent is HELD or RETIRED, otherwise only as a forced
release; a publish that holds the extent completes first (R54). -/
def execReleaseExtent (e : Fin 16384) (forced : Bool) (s : State) : Ans :=
  let x := extent s e.val
  let liveT := (extentTethers s e.val).any (fun t => !(lease s t.holder).lapsed)
  let needsForce := liveT || decide (x.st = .current) || decide (x.st = .superseded)
  .next (served s (
    if !(releasable x) then fmDone .conflict [] s
    else if needsForce && !forced then fmDone .conflict [] s
    else if s.pool.kites.any (fun c => match c.2 with
        | some k => (match k.held with | some (y, _, _) => y == e.val | none => false) | none => false) then
      setExtent e.val { x with releaseWaits := true } s
    else if x.releaseAfterCut then fmDone .conflict [] s
    else fmDone .ok [] (startRelease e.val s)))

/-- A host holds the balloon, so that its size follows the dynamic-capacity exchange (R39). -/
def hostHolds (s : State) (e : Nat) : Bool := !(windowsOn s e).isEmpty

/-- BALLOON_GROW: whole blocks at the upper end, zero-filled before they join (R39). -/
def execBalloonGrow (e : Fin 16384) (n : Nat) (s : State) : Ans :=
  let x := extent s e.val
  .next (served s (
    if x.st ≠ .active ∨ x.kind ≠ .balloon ∨ x.growing ≠ [] ∨ hostHolds s e.val then fmDone .conflict [] s
    else if n = 0 ∨ x.maxBlocks < x.blocks.length + n then fmDone .policed [] s
    else
      match allocBlocks n e.val x.light x.place x.grainLog2 s with
      | none => fmDone .policed [] s
      | some (bs, s) => fmDone .ok [] (setExtent e.val { x with growing := bs } s)))

/-- BALLOON_SHRINK: whole blocks at the upper end, withdrawn and released one rule with extents (R39). -/
def execBalloonShrink (e : Fin 16384) (n : Nat) (s : State) : Ans :=
  let x := extent s e.val
  let keep := x.blocks.length - n
  .next (served s (
    if x.st ≠ .active ∨ x.kind ≠ .balloon ∨ x.shrinking ≠ [] ∨ hostHolds s e.val then fmDone .conflict [] s
    else if n = 0 ∨ x.blocks.length < n ∨ keep < leastBlocks x then fmDone .policed [] s
    else fmDone .ok [] (shrinkTo e.val keep s)))

/-- RIGHTS_CHANGE: default rights and overrides of an ACTIVE extent; a right taken away withdraws mappings (R38, R72),
one only added is invalidated without stopping queues (R75). A sealed region gives no rights (R48). -/
def execRightsChange (e : Fin 16384) (r : Rights) (ov : List (Part × Rights)) (s : State) : Ans :=
  let x := extent s e.val
  .next (served s (
    if x.st ≠ .active then fmDone .conflict [] s
    else if 16 < ov.length then fmDone .policed [] s
    else
      let adds := onlyAdds x.rights x.overrides r ov
      let s := setExtent e.val { x with rights := r, overrides := ov } s
      fmDone .ok [] (orderInval x.tenant (extentLo x) (extentHi x) (!adds) s)))

/-- SET_TETHER_QUOTA: the quotas sum to at most 65,536 (R42). -/
def execSetTetherQuota (t : Fin 1024) (n : Nat) (s : State) : Ans :=
  let q := tput 0 s.pool.quotas t.val n
  .next (served s (
    if 65536 < (q.map (·.2)).foldl (· + ·) 0 then fmDone .policed [] s
    else fmDone .ok [] { s with pool := { s.pool with quotas := q } }))

/-- SET_TETHER_PERIOD: 100 ms to 60,000 ms, otherwise POLICED and unchanged (R43). -/
def execSetTetherPeriod (h : Part) (ms : Nat) (s : State) : Ans :=
  .next (served s (
    if ms < 100 ∨ 60000 < ms then fmDone .policed [] s
    else fmDone .ok [] (setLease h { lease s h with periodMs := ms } s)))

/-- A write of DPC_PMM_BEAT: BEAT_TAG goes to LAST_TAG, and the writer's tethers are renewed. -/
def pmmBeat (d tag : Nat) (s : State) : State :=
  let h := Part.ld d
  renew h (setLease h { lease s h with lastTag := tag % 65536 } s)

/-- PMM_BEAT: a write to DPC_PMM_BEAT renews the writer's tethers and sets LAST_TAG (R44, Table 2.6). -/
def execPmmBeat (d : Fin 64) (tag : BitVec 32) (s : State) : Ans :=
  .next (live s (if writesIgnored s d.val then s else pmmBeat d.val tag.toNat s))

/-- TETHER_DEADLINE_TICK: every deadline is tested; holders past theirs lapse (R45). -/
def execTetherDeadlineTick (now : Nat) (s : State) : Ans :=
  let s1 := advance now s
  .next (live s (forEach (s1.pool.leases.map (·.1)) tickLease s1))

/-- RELEASE_TETHER: ordinary once lapsed, forced before (R47); a host window on the extent is cut (R339). -/
def execReleaseTether (h : Part) (o : TetherObj) (forced : Bool) (s : State) : Ans :=
  .next (served s (
    if !(s.pool.tethers.any (fun t => t.holder == h && t.obj == o)) then fmDone .conflict [] s
    else if !(lease s h).lapsed && !forced then fmDone .conflict [] s
    else
      let ws := match h, o with
        | .ld d, .extent e => (windowsOn s e).filter (fun w => w.1 == d && !(wdw s w.1 w.2).attach)
        | .ld d, .attach e => (windowsOn s e).filter (fun w => w.1 == d && (wdw s w.1 w.2).attach)
        | _, _ => []
      let s := forEach ws (fun w s => orderCut w.1 w.2 (setWdw w.1 w.2 { wdw s w.1 w.2 with revoked := true } s)) s
      fmDone .ok [] (if ws.any (fun w => (wdw s w.1 w.2).ordered || (wdw s w.1 w.2).cutting) then s
        else releaseOne h o s)))

/-- CREATE_KITE: ordinary or sealed, of one tenant, KEEP_RETIRED as given (R51). -/
def execCreateKite (k : Fin 4096) (t : Fin 1024) (sealed keep : Bool) (s : State) : Ans :=
  .next (served s (
    if (kite s k.val).isSome then fmDone .conflict [] s
    else fmDone .ok [] (setKite k.val (some { tenant := t.val, sealed := sealed, keepRetired := keep }) s)))

/-- SET_KITE_ATTRIBUTE: KEEP_RETIRED 1 to 0 releases every RETIRED version at once (R51). -/
def execSetKiteAttribute (k : Fin 4096) (keep : Bool) (s : State) : Ans :=
  .next (served s (match kite s k.val with
    | none => fmDone .policed [] s
    | some y =>
      let s := setKite k.val (some { y with keepRetired := keep }) s
      let vs := (s.pool.extents.filter (fun c => c.2.kite == some k.val && decide (c.2.st = .retired))).map (·.1)
      fmDone .ok [] (if y.keepRetired && !keep then forEach vs beginRelease s else s)))

/-! Kite descriptors (R53 to R57, R138). -/

/-- Fields of a kite descriptor (Table 5.7). -/
def kdKite (d : Desc) : Nat := leAt d.bytes 16 2
def kdCurrent (d : Desc) : Bool := bitOf (leAt d.bytes 18 1) 0
def kdVersion (d : Desc) : Nat := leAt d.bytes 24 8
def kdExtent (d : Desc) : Nat := leAt d.bytes 32 2

/-- Reserved fields of a kite descriptor are zero; ATTACH uses KFLAGS [0] with VERSION 0, PUBLISH uses EXTENT_ID. -/
def kdClean (d : Desc) : Bool :=
  headerClean d && zeroAt d.bytes 19 5 && zeroAt d.bytes 34 30 &&
  (if dOpcode d = 0x21 then decide (leAt d.bytes 18 1 < 2) && (!(kdCurrent d) || kdVersion d == 0)
   else zeroAt d.bytes 18 1) &&
  (dOpcode d == 0x20 || zeroAt d.bytes 32 2)

/-- Completes a kite descriptor. -/
def kiteDone (n : Nat) (d : Desc) (st : Status) (detail r0 r1 : Nat) (s : State) : State :=
  complete { complOf n d st with detail := detail, result0 := r0, result1 := r1 } s

/-- Versions of a kite: the extent of version `v` in one of the given states. -/
def versionExt (s : State) (k v : Nat) (p : ExtState → Bool) : Option Nat :=
  (s.pool.extents.find? (fun c => decide (c.2.kite = some k) && c.2.version == v && p c.2.st)).map (·.1)

def isVersionSt : ExtState → Bool
  | .current | .superseded | .retired => true
  | _ => false

/-- One kite descriptor at the kite's home, when no publish holds the version record (Tables 2.9a, 2.9b). -/
def kiteOp (n k : Nat) (d : Desc) (y : Kite) (s : State) : State :=
  let g := n / 8
  let who := Part.grp g
  match dOpcode d with
  | 0x20 =>
    let x := extent s (kdExtent d)
    let okState := if y.sealed then decide (x.st = .sealed) && decide (x.kind = .sealed) else decide (x.st = .active) && decide (x.kind = .ordinary)
    if !(okState && x.tenant == y.tenant && decide (kdExtent d < 16384)) then
      kiteDone n d .mappingWithdrawn 0 y.version 0 s
    else if y.version ≠ kdVersion d ∨ kdVersion d = 2 ^ 64 - 1 then kiteDone n d .conflict 0 y.version 0 s
    else
      let s := setKite k (some { y with held := some (kdExtent d, n, d.slot) }) s
      if y.sealed then s
      else
        let s := setExtent (kdExtent d) { x with readOnly := true } s
        recallOwned x.blocks (withdrawExtent (kdExtent d) s)
  | 0x21 =>
    let isCur := kdCurrent d || kdVersion d == y.version
    let make (e v : Nat) (s : State) : State :=
      match addTether { holder := who, obj := .attach e, tenant := y.tenant } s with
      | (true, s) => kiteDone n d .ok 0 v (extent s e).pvaBase s
      | (false, s) => kiteDone n d .policed 6 0 0 s
    if (kdCurrent d || kdVersion d == 0) && y.version == 0 then kiteDone n d .ok 0 0 0 s
    else if isCur then
      match y.extent with
      | none => kiteDone n d .conflict 0 y.version 0 s
      | some e => make e y.version s
    else
      match versionExt s k (kdVersion d) (fun st => decide (st = .superseded)) with
      | some e => make e (kdVersion d) s
      | none => kiteDone n d .conflict 0 y.version 0 s
  | 0x22 =>
    match versionExt s k (kdVersion d) isVersionSt with
    | some e =>
      if s.pool.tethers.any (fun t => t.holder == who && t.obj == .attach e) then
        kiteDone n d .ok 0 (kdVersion d) 0 (releaseOne who (.attach e) s)
      else kiteDone n d .policed 7 0 0 s
    | none => kiteDone n d .policed 7 0 0 s
  | _ =>
    match versionExt s k (kdVersion d) (fun st => decide (st = .retired)) with
    | some e =>
      let x := extent s e
      if !y.keepRetired then kiteDone n d .conflict 0 y.version 0 s
      else if y.sealed then kiteDone n d .ok 0 (kdVersion d) 0 (beginRelease e s)
      else
        let s := setExtent e { x with st := .active, readOnly := false, kite := none, version := 0 } s
        kiteDone n d .ok 0 (kdVersion d) x.pvaBase (orderInval x.tenant (extentLo x) (extentHi x) false s)
    | none => kiteDone n d .conflict 0 y.version 0 s

/-- A kite descriptor starts: format and kite tests, then it is ordered at the kite's home, behind a publish that holds
the record (R53, R54). -/
def runKite (op : Nat) (n slot : Nat) (s : State) : State :=
  match descAt s n slot with
  | none => s
  | some d =>
    if dOpcode d ≠ op ∨ !(mayStart s n slot) then s
    else
      let s := startDesc n slot s
      if !(kdClean d) then kiteDone n d .policed 2 0 0 s
      else
        let k := kdKite d
        match (if k < 4096 then kite s k else none) with
        | none => kiteDone n d .policed 9 0 0 s
        | some y =>
          if y.tenant ≠ (group s (n / 8)).tenant then kiteDone n d .policed 9 0 0 s
          else if !(homeReachable s (k % 4)) then kiteDone n d .poison 0 0 0 s
          else
            let s := settleCycle s
            let s := { s with dir := { s.dir with cycle := (k % 4, 2 ^ 40 + k, inputPort s (k % 4)
              (group s (n / 8)).quadrant 3) :: s.dir.cycle } }
            match y.held with
            | some _ => setKite k (some { y with waiting := y.waiting ++ [(n, slot)] }) s
            | none => kiteOp n k d y s

/-- Kite operations that waited behind a publish are taken in order until one of them holds the record again. -/
def kiteDrain : Nat → Nat → State → State
  | 0, _, s => s
  | m + 1, k, s =>
    match kite s k with
    | none => s
    | some y =>
      match y.held, y.waiting with
      | none, (n, slot) :: r =>
        let s := setKite k (some { y with waiting := r }) s
        match descAt s n slot with
        | some d => kiteDrain m k (kiteOp n k d { y with waiting := r } s)
        | none => kiteDrain m k s
      | _, _ => s

/-- KITE_PUBLISH (R54). -/
def execKitePublish (n : Fin 8192) (slot : Nat) (s : State) : Ans := .next (live s (runKite 0x20 n.val slot s))

/-- KITE_PUBLISH_DRAINED: withdrawals and recalls have drained, so the record is written and the publish completes
(R54 steps 3 to 5); a release that waited then acts on the CURRENT version. -/
def execKitePublishDrained (k : Fin 4096) (s : State) : Ans :=
  .next (live s (match kite s k.val with
    | none => s
    | some y =>
      match y.held with
      | none => s
      | some (e, n, slot) =>
        let x := extent s e
        if drainPending s x.tenant (extentLo x) (extentHi x) then s
        else if !(heldLines s x.blocks (fun l => decide (l.dir.st = .o) || decide (l.dir.st = .u) ||
            !l.recalls.isEmpty)).isEmpty && !y.sealed then recallOwned x.blocks s
        else
          let v := y.version + 1
          let s := setExtent e { x with st := .current, kite := some k.val, version := v, releaseWaits := false } s
          let s := setKite k.val (some { y with version := v, extent := some e, held := none }) s
          let s := match y.extent with
            | some o => settleRetire o (setExtent o { extent s o with st := .superseded } s)
            | none => s
          let s := match descAt s n slot with
            | some d => kiteDone n d .ok 0 v 0 s
            | none => s
          let s := if x.releaseWaits then fmDone .ok [] (startRelease e s) else s
          kiteDrain y.waiting.length k.val s))

/-- KITE_ATTACH (R55, Table 2.9b). -/
def execKiteAttach (n : Fin 8192) (slot : Nat) (s : State) : Ans := .next (live s (runKite 0x21 n.val slot s))

/-- KITE_DETACH (R138). -/
def execKiteDetach (n : Fin 8192) (slot : Nat) (s : State) : Ans := .next (live s (runKite 0x22 n.val slot s))

/-- KITE_RECLAIM (R56, R138). -/
def execKiteReclaim (n : Fin 8192) (slot : Nat) (s : State) : Ans := .next (live s (runKite 0x23 n.val slot s))

end Sys2Proof.Machine
end

