-- ==== Sys2Proof/Machine/Power.lean ====
section
/-! DEFINITION. Operating points, energy, hardware limits and emergencies (chapter 10; opcode-table rows VF_STEP to
CLASS_OVERRUN_WINDOW, SENSOR_SAMPLE to OP_CAP_RAISE, SET_OP_REQ, SET_BUDGET). Tj is in quarters of a degree. -/

namespace Sys2Proof.Machine

/-- Divider and voltage in mV of an operating point (Table 10.1). -/
def opDivider (k : Nat) : Nat := [4, 5, 6, 8].getD k 8
def opMv (k : Nat) : Nat := [800, 720, 660, 600].getD k 600

/-- The point that OP_REQ and OP_CAP call for: the higher-numbered (R253). -/
def opTarget (x : PwrQ) : Nat := max x.opReq x.opCap

/-- One µs of the voltage–frequency sequencer (R254): down, the divider first and then the voltage; up, the voltage
first and then the divider. -/
def vfMove (x : PwrQ) : PwrQ :=
  let d := opDivider (opTarget x)
  let v := opMv (opTarget x)
  let y :=
    if x.divider < d then { x with divider := x.divider + 1 }
    else if x.voltMv < v then { x with voltMv := min v (x.voltMv + 10) }
    else if d < x.divider then { x with divider := x.divider - 1 }
    else if v < x.voltMv then { x with voltMv := max v (x.voltMv - 10) }
    else x
  if y.divider = d ∧ y.voltMv = v then { y with opCur := opTarget y } else y

/-- VF_STEP: running-core power is metered at the old point before OP_CUR changes (R255). -/
def execVfStep (q : Fin 4) (now : Nat) (s : State) : Ans :=
  let s1 := advance now s
  let x := pwrq s1 q.val
  let y := vfMove x
  let s2 := if y.opCur = x.opCur then s1 else forEach ((List.range 40).map (40 * q.val + ·)) meterRun s1
  .next (live s (setPwrq q.val { pwrq s2 q.val with divider := y.divider, voltMv := y.voltMv, opCur := y.opCur } s2))

/-- ENERGY_BUCKET_TICK: `uj` is the core-rail energy that the quadrant's monitor measured in this µs (R257, Table 18.2). -/
def execEnergyBucketTick (q : Fin 4) (uj now : Nat) (s : State) : Ans :=
  let s1 := advance now s
  let x := pwrq s1 q.val
  let m : Int := 1000 * (clampN 1 1000 x.bucketMaxMj : Nat)
  let v := x.bucketUj + (min x.budgetW 700 : Nat) - (uj : Int)
  let r := x.energyRemUj + uj
  .next (live s (cntAdd cUtil q.val 9 (r / 1000)
    (setPwrq q.val { x with bucketUj := max (-m) (min m v), energyRemUj := r % 1000 } s1)))

/-- CLASS_OVERRUN_WINDOW: each 10 µs the meter of every core of the quadrant is compared with its job's declared power
(R256). 1 µW over 10 µs is 10^4 fJ. -/
def execClassOverrunWindow (q : Fin 4) (now : Nat) (s : State) : Ans :=
  let s1 := advance now s
  .next (live s (forEach ((List.range 40).map (40 * q.val + ·)) (fun n s =>
    let s := meterRun n s
    let c := coreOf s n
    let k := (pwrq s q.val).opCur
    match jobOn s n with
    | none => if c = {} then s else setCore n { c with energyFj := 0, limited := false } s
    | some (_, j) =>
      let exceeds := decide (750000 * (j.energyClass + 1) * voltFactor k * opMhz k * 10000 < c.energyFj * 20000000)
      when exceeds (bump cSch 0 3) (setCore n { c with energyFj := 0, limited := exceeds } s)) s1))

/-! Limits and emergencies (R267 to R269). -/

/-- Some emergency of a quadrant lasts. -/
def inEmergency (x : PwrQ) : Bool := x.emergThermal || x.emergRail || x.emergAlert

/-- Lowers OP_CAP one step. -/
def capDown (x : PwrQ) : PwrQ := { x with opCap := min 3 (x.opCap + 1), raiseFrom := none }

/-- An emergency of a kind (0 thermal, 1 rail, 2 alert) begins in a quadrant (R268, R269). -/
def beginEmergency (q kind : Nat) (s : State) : State :=
  let x := pwrq s q
  let x := { x with opCap := 3, raiseFrom := none, emergTime := s.time, causeAt := tput 0 x.causeAt kind s.time }
  let x := match kind with
    | 0 => { x with emergThermal := true }
    | 1 => { x with emergRail := true }
    | _ => { x with emergAlert := true }
  alert .emergency [q, kind] (event 0x15 [q, kind, 1] (bump cPwr 0 kind (setPwrq q x s)))

/-- The temperature side of a sample (Table 10.3). -/
def sampleTj (q : Nat) (s : State) : State :=
  let x := pwrq s q
  let x := if 360 ≤ x.tj then { x with causeAt := tput 0 x.causeAt 0 s.time } else x
  let x :=
    if 380 ≤ x.tj ∧ !x.tjThrottle then { capDown x with tjThrottle := true, stepAt := s.time }
    else if x.tj < 360 ∧ x.tjThrottle then { x with tjThrottle := false, raiseFrom := some s.time }
    else x
  let s := setPwrq q x s
  if 420 ≤ x.tj ∧ !x.emergThermal then beginEmergency q 0 s else s

/-- The rail-power side of a sample (Table 10.3). -/
def sampleRail (q : Nat) (s : State) : State :=
  let x := pwrq s q
  let x := if 650 < x.railW then { x with causeAt := tput 0 x.causeAt 1 s.time, railLowSince := none }
    else { x with railLowSince := some (x.railLowSince.getD s.time) }
  let x := if 700 < x.railW then { x with railSince := some (x.railSince.getD s.time) } else { x with railSince := none }
  let x :=
    if 700 < x.railW ∧ !x.railLimited then { capDown x with railLimited := true }
    else
      match x.railLowSince with
      | some t => if x.railLimited ∧ t + 100000 ≤ s.time then { x with railLimited := false, raiseFrom := some s.time }
                  else x
      | none => x
  setPwrq q x s

/-- THROTTLE: a throttle of Table 10.3 holds. -/
def settleThrottle (q : Nat) (s : State) : State :=
  let x := pwrq s q
  let t := x.tjThrottle || x.railLimited
  when t (bump cPwr 0 3) (setPwrq q { x with throttle := t } s)

/-- SENSOR_SAMPLE: Tj and rail power of a quadrant, each µs. -/
def execSensorSample (q : Fin 4) (tj : BitVec 12) (railW : BitVec 10) (now : Nat) (s : State) : Ans :=
  let s1 := advance now s
  .next (live s (settleThrottle q.val (sampleRail q.val (sampleTj q.val
    (setPwrq q.val { pwrq s1 q.val with tj := tj.toNat, railW := railW.toNat } s1)))))

/-- THROTTLE_STEP_TIMER: each 100 µs while Tj is at or above TJ_THROTTLE. -/
def execThrottleStepTimer (q : Fin 4) (now : Nat) (s : State) : Ans :=
  let s1 := advance now s
  let x := pwrq s1 q.val
  .next (live s (
    if x.tjThrottle ∧ 380 ≤ x.tj ∧ x.stepAt + 100000 ≤ s1.time then setPwrq q.val { capDown x with stepAt := s1.time } s1
    else s1))

/-- RAIL_EMERGENCY: rail power has stayed above 700 W for 10 µs. -/
def execRailEmergency (q : Fin 4) (now : Nat) (s : State) : Ans :=
  let s1 := advance now s
  let x := pwrq s1 q.val
  .next (live s (match x.railSince with
    | some t => if t + 10000 ≤ s1.time ∧ !x.emergRail then beginEmergency q.val 1 s1 else s1
    | none => s1))

/-- PWR_ALERT_N: sampled low for 1 µs, a power emergency in every quadrant; deasserted, its cause is absent from now. -/
def execPwrAlertN (low : Bool) (now : Nat) (s : State) : Ans :=
  let s1 := advance now s
  let was := s1.sch.alertN
  let s1 := { s1 with sch := { s1.sch with alertN := low } }
  .next (live s (forEach (List.range 4) (fun q s =>
    let x := pwrq s q
    if low then (if x.emergAlert then s else beginEmergency q 2 s)
    else if was then setPwrq q { x with causeAt := tput 0 x.causeAt 2 s.time } s else s) s1))

/-- The cause of an emergency is absent now. -/
def causeAbsent (s : State) (x : PwrQ) (kind : Nat) : Bool :=
  match kind with
  | 0 => decide (x.tj < 360)
  | 1 => decide (x.railW ≤ 650)
  | _ => !s.sch.alertN

/-- EMERGENCY_CLEAR: the cause has been absent for 10 ms without a break; OP_CAP rises its first step when no emergency
and no throttle is left (Table 10.4). -/
def execEmergencyClear (q : Fin 4) (kind : Fin 3) (now : Nat) (s : State) : Ans :=
  let s1 := advance now s
  let x := pwrq s1 q.val
  let on := match kind.val with | 0 => x.emergThermal | 1 => x.emergRail | _ => x.emergAlert
  .next (live s (
    if !on || !(causeAbsent s1 x kind.val) || decide (s1.time < tget 0 x.causeAt kind.val + 10000000) then s1
    else
      let y := { x with emergTime := s1.time }
      let y := match kind.val with
        | 0 => { y with emergThermal := false }
        | 1 => { y with emergRail := false }
        | _ => { y with emergAlert := false }
      let y := if inEmergency y then y
        else if y.throttle then y else { y with opCap := y.opCap - 1, raiseFrom := some s1.time }
      event 0x15 [q.val, kind.val, 0] (setPwrq q.val y s1)))

/-- OP_CAP_RAISE: each 1 ms after a throttle or emergency has cleared, one step. -/
def execOpCapRaise (q : Fin 4) (now : Nat) (s : State) : Ans :=
  let s1 := advance now s
  let x := pwrq s1 q.val
  .next (live s (match x.raiseFrom with
    | some t =>
      if inEmergency x || x.throttle || decide (s1.time < t + 1000000) then s1
      else setPwrq q.val { x with opCap := x.opCap - 1, raiseFrom := if x.opCap ≤ 1 then none else some s1.time } s1
    | none => s1))

/-- SET_OP_REQ. -/
def execSetOpReq (q : Fin 4) (k : Fin 4) (s : State) : Ans :=
  .next (served s (fmDone .ok [] (setPwrq q.val { pwrq s q.val with opReq := k.val } s)))

/-- SET_BUDGET: BUCKET_MAX_MJ is 1 to 1,000 (Table 10.7). -/
def execSetBudget (q : Fin 4) (w mj : BitVec 10) (s : State) : Ans :=
  .next (served s (
    if mj.toNat = 0 ∨ 1000 < mj.toNat then fmDone .policed [] s
    else fmDone .ok [] (setPwrq q.val { pwrq s q.val with budgetW := w.toNat, bucketMaxMj := mj.toNat } s)))

end Sys2Proof.Machine
end

