-- ==== Sys2Proof/Machine/Security.lean ====
section
/-! DEFINITION. Security and tenancy (chapter 15; opcode-table rows ACTIVATION_REQUEST to DEFERRAL_EXPIRY and GET_EVIDENCE to
AUTHORISE_ROLLBACK). -/

namespace Sys2Proof.Machine

/-! Attestation (R379, R380). -/

/-- SERIAL as two 8-byte fields. -/
def serialBytes : List Byte := (sha384Bytes Config.dikPublic).take 16

/-- REGION_STATE of the evidence. -/
def regionState : ExtState → Nat
  | .sealedEmpty => 1 | .loading => 2 | .sealed => 3 | _ => 0

/-- Bytes 0 to 343 of Table 15.2. -/
def evidence (s : State) (nonce : List Byte) (e : Option Nat) (pub : List Byte) : List Byte :=
  let x : Extent := match e with | some i => extent s i | none => {}
  leBytes 4 0x45564944 ++ leBytes 2 1 ++ [0, 0] ++ slice nonce 0 48 ++ leBytes 8 s.time ++ serialBytes ++
  [0xB0, BitVec.ofNat 8 s.grade, 0, 0] ++ leBytes 4 s.sec.releaseLevel ++ leBytes 48 s.sec.fwDigest.toNat ++
  leBytes 48 s.sec.bcrDigest.toNat ++
  (match e with
   | some i => leBytes 2 i ++ leBytes 2 x.tenant ++ leBytes 4 (regionState x.st) ++ leBytes 48 (sealedOf s i).ownerKey.toNat
   | none => leBytes 2 0xFFFF ++ leBytes 2 0xFFFF ++ leBytes 4 0 ++ List.replicate 48 0) ++
  slice pub 0 97 ++ List.replicate 7 0

/-- GET_EVIDENCE: any role; a region in SEALED_EMPTY gets a new release key, and its older one is destroyed. A device with
an identity fault gives no attestation (R377). The answer carries the certificates of the attestation key and of the DIK
and the intermediate ones. -/
def execGetEvidence (nonce : List Byte) (e : Option (Fin 16384)) (now : Nat) (s : State) : Ans :=
  let s1 := advance now s
  .next (served s (
    if s1.sec.identityFault || s1.sec.ak.isNone then fmDone .policed [] s1
    else
      let fresh : Bool := match e with | some i => decide ((extent s1 i.val).st = .sealedEmpty) | none => false
      let k := s1.sec.nextKey
      let s2 := match e with
        | some i =>
          if fresh then
            setSealed i.val { sealedOf s1 i.val with releaseKey := some k, nonce := slice nonce 0 48, signedAt := s1.time }
              { s1 with sec := { s1.sec with nextKey := k + 1 } }
          else s1
        | none => s1
      let b := evidence s2 nonce (e.map (·.val)) (if fresh then Config.publicKey k else [])
      emit (.data (b ++ akSigned s2 (sha384 b) ++ ownChain s2)) (fmDone .ok [] s2)))

/-- RELEASE_KEY_EXPIRY: 60 s after signing (R380). -/
def execReleaseKeyExpiry (e : Fin 16384) (now : Nat) (s : State) : Ans :=
  let s1 := advance now s
  let x := sealedOf s1 e.val
  .next (live s (
    if x.releaseKey.isSome && decide (x.signedAt + 60000000000 ≤ s1.time) then
      setSealed e.val { x with releaseKey := none, nonce := [] } s1
    else s1))

/-! Key release and loading (R381 to R384). -/

/-- Digests of 48 bytes at an offset of a blob. -/
def blobDigests (b : List Byte) (o n : Nat) : List (BitVec 384) :=
  (List.range n).map (fun i => BitVec.ofNat 384 (leAt b (o + 48 * i) 48))

/-- Step 2 of R382: MAGIC, VERSION, counts, reserved fields. -/
def blobForm (b : List Byte) : Bool :=
  decide (b.length = 1384) && leAt b 0 4 == 0x4B454C42 && leAt b 4 2 == 1 &&
  decide (1 ≤ leAt b 56 1) && decide (leAt b 56 1 ≤ 16) && decide (1 ≤ leAt b 57 1) && decide (leAt b 57 1 ≤ 4) &&
  allZero (slice b 58 6) && allZero (slice b 161 7) && allZero (slice b 1281 7)

/-- The tests of R382 in their order: the first that fails, or the content key. -/
def testBlob (s : State) (e : Nat) (b : List Byte) : Status × Option (List Byte) :=
  let x := extent s e
  let y := sealedOf s e
  if (tenant s x.tenant).st = .revoking ∧ x.st ≠ .free then (.tenantRevoked, none)
  else if x.st ≠ .sealedEmpty ∨ (tenant s x.tenant).st ≠ .active then (.conflict, none)
  else if !(blobForm b) then (.policed, none)
  else
    match y.releaseKey with
    | none => (.conflict, none)
    | some k =>
      if slice b 8 48 ≠ y.nonce ∨ y.signedAt + 60000000000 ≤ s.time then (.conflict, none)
      else if sha384 (slice b 1184 97) ≠ y.ownerKey ||
          !(Config.ecdsaOk y.ownerKey (sha384 (slice b 0 1288)) (slice b 1288 96)) then (.policed, none)
      else if !((blobDigests b 992 (leAt b 57 1)).contains s.sec.fwDigest) then (.policed, none)
      else
        match Config.unwrap k b with
        | none => (.policed, none)
        | some key => (.ok, some key)

/-- RELEASE_KEY (Operator, Table 15.8): the region is the one the blob names. -/
def execReleaseKey (r : Role) (b : List Byte) (now : Nat) (s : State) : Ans :=
  let s1 := advance now s
  let e := leAt b 6 2
  .next (served s (asRole .operator r (fun s =>
    let (st, key) := testBlob s e b
    let s := event 0x1A [e, st.code, leAt serialBytes 0 8, leAt serialBytes 8 8] s
    match key with
    | none => fmDone st [] (bump cSec 0 2 s)
    | some k =>
      let y := sealedOf s e
      let s := setSealed e { y with
        releaseKey := none, nonce := [], admitted := blobDigests b 224 (leAt b 56 1)
        fwAccepted := blobDigests b 992 (leAt b 57 1), contentKey := some k, packageNonce := slice b 216 8 } s
      let t := (extent s e).tenant
      fmDone .ok [] (setTenant t { tenant s t with contentKey := true } (bump cSec 0 1 s))) s1))

/-- Who the load engines read a package as: the tenant, under default rights. Every quadrant has one, and the manual does not
say which reads which page: the translation unit of Q0 serves them (DESIGN CHOICE). -/
def loadActor (e t : Nat) : Actor :=
  { q := 0, tenant := t, who := .grp (2048 + e), via := .inPool false, src := { source := 2, sourceId := 0, tenant := t }
    owner := none }

/-- Writes one page of a region and its GMAC tag (R383, R386). -/
def writePage (e j : Nat) (b : List Byte) (s : State) : State :=
  let p := pagePpa (extent s e) j
  let s := forEach (List.range 64) (fun i => storeLine (p / 64 + i) (slice b (64 * i) 64)) s
  let g := leBytes 16 (Config.gmac ((tenant s (extent s e).tenant).tagKey.getD 0) e j b).toNat
  { s with mem := { s.mem with bytes := putBytes g (tagBase s + 16 * (p / 4096)) s.mem.bytes } }

/-- Loads pages from `j` on while all goes well: true when the load has failed. -/
def loadPages (e pva n : Nat) (key : List Byte) : Nat → Nat → State → Bool × State
  | 0, _, s => (false, s)
  | k + 1, j, s =>
    let a := loadActor e (extent s e).tenant
    match engRead a (pva + 4096 * j) 4096 s with
    | (.got c none, s) =>
      match engRead a (pva + 4096 * n + 16 * j) 16 s with
      | (.got g none, s) =>
        match Config.openPage key (sealedOf s e).packageNonce j c g with
        | some b => loadPages e pva n key k (j + 1) (writePage e j b s)
        | none => (true, s)
      | (.got _ (some f), s) => (true, (noteFail a f s).2.2)
      | (.wait, s) => (true, s)
    | (.got _ (some f), s) => (true, (noteFail a f s).2.2)
    | (.wait, s) => (true, s)

/-- LOAD_SEALED (Operator): the region enters LOADING and its pages are decrypted, tested and written; a page count out of
range, a failed tag or a failed read fails the load (R383). While lines of the package are being recalled the command
changes nothing else, and is to be given again. -/
def execLoadSealed (r : Role) (e : Fin 16384) (pva n : Nat) (s : State) : Ans :=
  .next (served s (asRole .operator r (fun s =>
    let x := extent s e.val
    match x.st, (sealedOf s e.val).contentKey with
    | .sealedEmpty, some key =>
      let size := x.blocks.length * blockBytes / 4096
      let go (s : State) : State := setExtent e.val { extent s e.val with st := .loading } s
      if size < n then setSealed e.val { sealedOf s e.val with loadFailed := true, pages := n } (go s)
      else
        match engReady (loadActor e.val x.tenant) [(pva, 4096 * n + 16 * n)] s with
        | (false, s) => s
        | (true, s) =>
          let (bad, s) := loadPages e.val pva n key n 0 (go s)
          setSealed e.val { sealedOf s e.val with loadFailed := bad, pages := n } s
    | _, _ => fmDone .conflict [] s) s))

/-- LOAD_COMPLETE: the content key is zeroised; the region is SEALED, or released (R383, R384, Table 2.8). -/
def execLoadComplete (e : Fin 16384) (s : State) : Ans :=
  let x := extent s e.val
  .next (live s (
    if x.st ≠ .loading then s
    else
      let y := sealedOf s e.val
      let s := setSealed e.val { y with contentKey := none, loadFailed := false } s
      let s := setTenant x.tenant { tenant s x.tenant with
        contentKey := (extentsOf s x.tenant).any (fun i => (sealedOf s i).contentKey.isSome) } s
      if y.loadFailed then fmDone .policed [] (beginRelease e.val (bump cSec 0 3 s))
      else fmDone .ok [] (setExtent e.val { x with st := .sealed } s)))

/-! Tenants (Table 15.5). -/

/-- CREATE_TENANT: the epoch advances, the active slot gets new keys, SCRUB_MODE is set (R392, R398). -/
def execCreateTenant (t : Fin 1024) (memoryOnly : Bool) (now : Nat) (s : State) : Ans :=
  let s1 := advance now s
  let x := tenant s1 t.val
  let e := (x.epoch + 1) % 256
  .next (served s (
    if x.st ≠ .free then fmDone .policed [] s1
    else
      let y : Tenant := { x with
        st := .active, epoch := e, memoryOnly := memoryOnly, stateTime := s1.time, zeroed := [], alerted := false }
      fmDone .ok [] (giveRoot t.val (drawKeys (setTenant t.val (newSlot y e s1.sec.nextKey true) s1)))))

/-- The blocks of an extent that hold its lines now, those of a running re-interleave's copy among them. -/
def sweepBlocks (s : State) (e : Nat) : List Nat :=
  let x := extent s e
  x.blocks ++ x.shrinking ++ (if (reint s).st ≠ 0 ∧ (reint s).extent = e then
    (if (reint s).switched then (reint s).old else (reint s).targets) else [])

/-- REKEY_TENANT: a new data key in the other slot, and every extent is to be swept; refused with CONFLICT while that slot is
REVOKING (R394). An extent in PREPARING is filled under the new key. -/
def execRekeyTenant (t : Fin 1024) (now : Nat) (s : State) : Ans :=
  let s1 := advance now s
  let x := tenant s1 t.val
  let e := (x.epoch + 1) % 256
  .next (served s (
    if x.st ≠ .active then fmDone .policed [] s1
    else if slotOf x e ≠ .empty then fmDone .conflict [] s1
    else
      let y : Tenant := { x with
        st := .rekeying, epoch := e, stateTime := s1.time, rekeyBeat := s1.dir.nextBeat, rekeyTime := s1.time }
      let s2 := drawKeys (setTenant t.val (newSlot y e s1.sec.nextKey false) s1)
      fmDone .ok [] (forEach (extentsOf s2 t.val) (fun i s =>
        let l := if (extent s i).st = .preparing then [] else sweepBlocks s i
        setExtent i { extent s i with sweep := l, swept := 0 } s) s2)))

/-- Granules of an extent that a sweep passes. -/
def sweepEnd (x : Extent) : Nat := x.sweep.length * 16384

/-- REKEY_SWEEP_GRANULE: the granule at the extent's sweep pointer is under the new slot (R394). -/
def execRekeySweepGranule (e : Fin 16384) (s : State) : Ans :=
  let x := extent s e.val
  .next (live s (
    if decide ((tenant s x.tenant).st = .rekeying) && decide (x.st ≠ .free) && decide (x.swept < sweepEnd x) then
      setExtent e.val { x with swept := x.swept + 1 } s
    else s))

/-- A swept extent's blocks are under the active slot (R394). -/
def endSweep (e : Nat) (s : State) : State :=
  let x := extent s e
  setExtent e { x with sweep := [], swept := 0 }
    (markSlot (x.sweep.filter (fun b => (block s b).valid)) (some (activeSlot s x.tenant)) s)

/-- REKEY_SWEEP_COMPLETE: every extent is swept; the old slot is REVOKING and the tenant ACTIVE. -/
def execRekeySweepComplete (t : Fin 1024) (now : Nat) (s : State) : Ans :=
  let s1 := advance now s
  let x := tenant s1 t.val
  .next (live s (
    if x.st = .rekeying && (extentsOf s1 t.val).all (fun e => decide (sweepEnd (extent s1 e) ≤ (extent s1 e).swept)) then
      setTenant t.val (setSlot { x with st := .active, stateTime := s1.time } (x.epoch + 1) .revoking)
        (forEach (extentsOf s1 t.val) endSweep s1)
    else s1))

/-- REVOKED_SLOT_EMPTY: no work of the old epoch is left; its slot is zeroised (R392). -/
def execRevokedSlotEmpty (t : Fin 1024) (s : State) : Ans :=
  let x := tenant s t.val
  .next (live s (
    if tenantLive s t.val && decide (slotOf x (x.epoch + 1) = .revoking) && !(oldEpochWork s t.val) then
      setTenant t.val (setSlot x (x.epoch + 1) .empty) s
    else s))

/-- REMOVE_TENANT (R395). -/
def execRemoveTenant (t : Fin 1024) (now : Nat) (s : State) : Ans :=
  let s1 := advance now s
  .next (served s (if tenantLive s1 t.val then fmDone .ok [] (revokeTenant t.val s1) else fmDone .policed [] s1))

/-- OUTSTANDING_COUNTERS_ZERO: every slot is zeroised and the tenant is SCRUBBING (R395 step 6). -/
def execOutstandingCountersZero (t : Fin 1024) (now : Nat) (s : State) : Ans :=
  let s1 := advance now s
  let x := tenant s1 t.val
  .next (live s (
    if x.st = .revoking ∧ outstandingSum s1 t.val = 0 then
      let s2 := forEach (extentsOf s1 t.val) dropContentKey s1
      beginScrub t.val (setTenant t.val { x with
        st := .scrubbing, stateTime := s1.time, slotEven := .empty, slotOdd := .empty, contentKey := false
        dataEven := none, dataOdd := none, tagKey := none } s2)
    else s1))

/-- The fence of a block under R396; it sets the block's counters to zero. -/
def fenceBlock (t k i : Nat) (s : State) : State :=
  let x := tenant s t
  let s := setTenant t { x with zeroed := x.zeroed ++ [(k, i)] } s
  match k with
  | 0 => fenceCore i 5 s
  | _ =>
    event 0x1C [if k = 4 then 5 else 4, 256 * k + i, 5]
      (if s.fen.fencedBlocks.contains (k, i) then s
       else { s with fen := { s.fen with fencedBlocks := s.fen.fencedBlocks ++ [(k, i)] } })

/-- DRAIN_ALERT_EXPIRY: at V + 10 ms each block with a counter above zero is alerted, recorded and fenced (R396). -/
def execDrainAlertExpiry (t : Fin 1024) (now : Nat) (s : State) : Ans :=
  let s1 := advance now s
  let x := tenant s1 t.val
  .next (live s (
    if x.st ≠ .revoking ∨ x.alerted ∨ s1.time < x.removedAt + 10000000 then s1
    else
      let bs := allBlocks.filter (fun b => decide (outstanding s1 t.val b.1 b.2 ≠ 0))
      let s2 := setTenant t.val { x with alerted := true } s1
      forEach bs (fun b s =>
        fenceBlock t.val b.1 b.2 (alert .drain [t.val, b.1, b.2] (event 0x1F [t.val, b.1, b.2] (bump cSec 0 5 s)))) s2))

/-- TENANT_SCRUB_COMPLETE: every extent is FREE, and the rest of the scrub is done (R397, R398). -/
def execTenantScrubComplete (t : Fin 1024) (now : Nat) (s : State) : Ans :=
  let s1 := advance now s
  let x := tenant s1 t.val
  .next (live s (
    if x.st = .scrubbing ∧ (extentsOf s1 t.val).isEmpty then
      setTenantSt t.val .free (event 0x1B [t.val, b2n x.memoryOnly] (endScrub t.val s1))
    else s1))

/-! Management sessions (R400, R401). -/

/-- Open sessions. -/
def sessionCount (s : State) : Nat := s.sec.sessions.length

/-- The roles that the device serves now: Auditor alone with an identity fault (R377), or when it stays in reset; Custodian
too when its BCR has failed (R451, R452). -/
def servesRole (s : State) (r : Role) : Bool :=
  if s.sec.identityFault then decide (r = .auditor)
  else if s.clk.phase = .released then true
  else decide (r = .auditor) || (decide (r = .custodian) && !s.clk.bcrOk)

/-- The anchor serves this management port (R17, R20): MGMT0 stands on Q0 and MGMT1 on Q2, and the anchor reaches the port of
the other quadrant while that quadrant is in service and joined to its own. -/
def servesPort (s : State) (p : Nat) : Bool := anchorServes s && quadServes s (2 * p)

def setSession (k : Nat) (x : Option Session) (s : State) : State :=
  { s with sec := { s.sec with sessions := tput none s.sec.sessions k x } }

/-- TLS_CONNECT: a connection on MGMT0 or MGMT1, or the completion of a handshake that session `k` began. `profileOk`: it
offers the profile of Table 15.7; `roles`: the role anchors its certificate chain ends at; `whole`: its handshake is
complete. -/
def execTlsConnect (p : Fin 2) (k : Nat) (profileOk : Bool) (roles : List Role) (digest : BitVec 384) (whole : Bool)
    (now : Nat) (s : State) : Ans :=
  let s1 := advance now s
  let refused (s : State) : State := fmDone .policed [] (bump cSec 0 6 s)
  let begun := match tget none s1.sec.sessions k with | some x => x.role.isNone | none => false
  let n := if begun then k else s1.sec.nextSession
  let s2 := if begun then setSession k none s1 else s1
  .next (live s (
    if !(servesPort s1 p.val) then s1
    else if !profileOk || decide (16 ≤ sessionCount s2) then refused s2
    else if !whole then
      fmDone .ok [n] (setSession n (some { role := none, start := s1.time, last := s1.time, port := p.val })
        { s2 with sec := { s2.sec with nextSession := if begun then s2.sec.nextSession else n + 1 } })
    else
      match roles with
      | [r] =>
        if servesRole s1 r then
          fmDone .ok [n] (setSession n (some { role := some r, digest := digest, start := s1.time, last := s1.time, port := p.val })
            { s2 with sec := { s2.sec with nextSession := if begun then s2.sec.nextSession else n + 1 } })
        else refused s2
      | _ => refused s2))

/-- TLS_HANDSHAKE_TIMEOUT: 10 s without a complete handshake. -/
def execTlsHandshakeTimeout (k now : Nat) (s : State) : Ans :=
  let s1 := advance now s
  .next (live s (match tget none s1.sec.sessions k with
    | some x => if x.role.isNone && decide (x.start + 10000000000 ≤ s1.time) then setSession k none s1 else s1
    | none => s1))

/-- TLS_IDLE_TIMEOUT: the session was last used at `last`; 600 s have passed. -/
def execTlsIdleTimeout (k last now : Nat) (s : State) : Ans :=
  let s1 := advance now s
  .next (live s (match tget none s1.sec.sessions k with
    | some x => if max x.last last + 600000000000 ≤ s1.time then setSession k none s1 else s1
    | none => s1))

/-! Firmware (R270, R271, R387, R403, R404). -/

/-- FIRMWARE_TRANSFER (Operator): a verified package goes to the inactive slot of both flash devices. -/
def execFirmwareTransfer (r : Role) (level : BitVec 32) (digest signer : BitVec 384) (target : Bool) (sig : List Byte)
    (now : Nat) (s : State) : Ans :=
  .next (served s (asRole .operator r (fun s =>
    if pkgOk s level.toNat digest signer target sig then
      fmDone .ok [] { s with sec := { s.sec with
        slots := tput none s.sec.slots (1 - s.sec.selector) (some (level.toNat, digest)) } }
    else fmDone .policed [] s) (advance now s)))

/-- ACTIVATION_REQUEST (Operator) of the package in the inactive slot: deferred while any EMERG bit is set, CONFLICT while
another is deferred or in progress. The spec names no status for the event of a deferral: one of Table 5.10's, left free. -/
def execActivationRequest (r : Role) (now : Nat) (s : State) : Ans :=
  .next (served s (asRole .operator r (fun s =>
    if s.sch.actState ≠ 0 then
      fmDone .conflict [] { s with sch := { s.sch with actLast := Status.conflict.code, actReqTime := s.time } }
    else
      match tget none s.sec.slots (1 - s.sec.selector) with
      | none => fmDone .policed [] { s with sch := { s.sch with actLast := Status.policed.code, actReqTime := s.time } }
      | some pkg =>
        let s := { s with sch := { s.sch with actPkg := some pkg, actReqTime := s.time, actSince := s.time } }
        if anyEmerg s then
          let (w, s) := drawWord s
          event 0x16 [w.toNat % 15, pkg.1, 0xFFFF] (bump cPwr 0 4 { s with sch := { s.sch with actState := 1 } })
        else beginActivation s) (advance now s)))

/-- DEFERRAL_TICK: at the first 1 ms tick with every EMERG bit clear the activation begins. -/
def execDeferralTick (now : Nat) (s : State) : Ans :=
  let s1 := advance now s
  .next (live s (if s1.sch.actState = 1 ∧ !(anyEmerg s1) then beginActivation s1 else s1))

/-- DEFERRAL_EXPIRY: 60 s after the request. -/
def execDeferralExpiry (now : Nat) (s : State) : Ans :=
  let s1 := advance now s
  .next (live s (
    if s1.sch.actState = 1 ∧ s1.sch.actSince + 60000000000 ≤ s1.time then
      endActivation .deferredExpired 0xFFFF (bump cPwr 0 5 s1)
    else s1))

/-- FIRMWARE_ACTIVATE: the controllers and schedulers have loaded the new image and run its self-check; when it passes the
new attestation key is derived and the boot selector switched, otherwise the old image is restored (R404 steps 3 and 4). -/
def execFirmwareActivate (selfOk : Bool) (now : Nat) (s : State) : Ans :=
  let s1 := advance now s
  .next (live s (
    if s1.sch.actState ≠ 2 then s1
    else
      match s1.sch.actPkg with
      | none => s1
      | some (l, d) =>
        if !selfOk then endActivation .policed 0xFFFF s1
        else
          let n := 1 - s1.sec.selector
          endActivation .ok 0xFFFF (deriveAk { s1 with sec := { s1.sec with
            selector := n, bootSlot := n, releaseLevel := l, fwDigest := d } })))

/-- INSTALL_BCR (Custodian): a record signed by a certified board key, its MIN_RELEASE not below the present record's; it is
in force from the next start. -/
def execInstallBcr (r : Role) (b : List Byte) (signer : BitVec 384) (s : State) : Ans :=
  .next (managed s (asRole .custodian r (fun s =>
    if bcrOk b signer && decide (bcrMin s.sec.flashBcr ≤ bcrMin b) then
      fmDone .ok [] { s with sec := { s.sec with flashBcr := b } }
    else fmDone .policed [] s) s))

/-- AUTHORISE_ROLLBACK (Custodian): an exact release level, for 600 s. -/
def execAuthoriseRollback (r : Role) (level : BitVec 32) (now : Nat) (s : State) : Ans :=
  .next (served s (asRole .custodian r (fun s =>
    fmDone .ok [] { s with sec := { s.sec with rollback := some (level.toNat, s.time + 600000000000) } }) (advance now s)))

end Sys2Proof.Machine
end

