-- ==== Sys2Proof/Machine/Stacks.lean ====
section
/-! DEFINITION. Memory stacks (chapter 14; opcode-table rows STACK_REFRESH to ERR_TAIL_WRITE, PARITY_ALERT_CLEAR,
STACK_TRAINING_DONE and POWER_ON_FILL_DONE). -/

namespace Sys2Proof.Machine

/-! Refresh, temperature, parity (R353 to R355). -/

/-- Refresh window of a stack in ns (R353). -/
def refreshWindow (s : State) (n : Nat) : Nat := if 85 < (stack s n).tempC then 16000000 else 32000000

/-- STACK_REFRESH: the bank's row is closed (R352); at the start of a refresh window the bank's activation entries are
freed (R354). -/
def execStackRefresh (pc : Fin 2048) (bank : Fin 16) (now : Nat) (s : State) : Ans :=
  let s1 := advance now s
  let b := pc.val * 16 + bank.val
  let w := refreshWindow s1 (pc.val / 64)
  let start := tget 0 s1.mem.refreshStart b
  let s2 := { s1 with mem := { s1.mem with openRows := tput none s1.mem.openRows b none } }
  .next (live s (
    if start + w ≤ s1.time then
      { s2 with mem := { s2.mem with acts := tput [] s2.mem.acts b []
                                     refreshStart := tput 0 s2.mem.refreshStart b (start + (s1.time - start) / w * w) } }
    else s2))

/-- STACK_TEMP_READ: the stack's temperature is read; the refresh window follows from it (R353). -/
def execStackTempRead (n : Fin 32) (tempC : BitVec 8) (s : State) : Ans :=
  .next (live s (setStack n.val { stack s n.val with tempC := tempC.toNat } s))

def chan (s : State) (c : Nat) : Chan := tget {} s.mem.chans c
def setChan (c : Nat) (x : Chan) (s : State) : State :=
  { s with mem := { s.mem with chans := tput {} s.mem.chans c x } }

/-- PARITY_ALERT: the channel halts; the failing command is the one that stands `i` places back in the retry buffer
(R355 steps 1 and 2). An alert on a replay of the same command counts towards the third in a row. -/
def execParityAlert (c : Fin 1024) (i : Fin 64) (now : Nat) (s : State) : Ans :=
  let s1 := advance now s
  let x := chan s1 c.val
  let f := (x.retry.drop i.val).head?
  .next (live s (setChan c.val { x with
    alert := some s1.time, failing := f
    repeats := if f.isSome && decide (f = x.failing) then x.repeats + 1 else 0 } s1))

/-- An error record that names no line (Table 14.11). -/
def chanErr (kind pc : Nat) (s : State) : State :=
  if s.mem.errHead + 1 = s.mem.errTail then bump cOne 4 0 { s with mem := { s.mem with errOverflow := true } }
  else
    let r : MemErr := { time := s.time, ppa := 0x1FFFFFFFFFF, kind := kind, pc := pc, row := 0, bank := 0, symbols := 15,
                        tenant := 0x3FF, source := 0, sourceId := 0 }
    { s with mem := { s.mem with errLog := tput none s.mem.errLog s.mem.errHead.toNat (some r)
                                 errHead := s.mem.errHead + 1 } }

/-- Every bank of a channel is precharged. -/
def precharge (c : Nat) (s : State) : State :=
  { s with mem := { s.mem with openRows := tclear s.mem.openRows (32 * c) (32 * c + 32) } }

/-- The replayed commands, failing command first: rows reopen as they need (R355 step 3). -/
def replay (x : Chan) (s : State) : State :=
  let cmds := match x.failing with
    | some f => (x.retry.takeWhile (fun k => decide (k ≠ f))).reverse.map (·.2) |> (fun l => f.2 :: l)
    | none => []
  forEach cmds (fun k s => let (pc, a) := storedAt s (64 * (k / 2)); openRow pc a s) s

/-- PARITY_ALERT_CLEAR: every bank is precharged and the channel replays from the failing command; after the third alert
in a row on one command's replay it is retrained first (R355 steps 3 and 4). -/
def execParityAlertClear (c : Fin 1024) (now : Nat) (s : State) : Ans :=
  let s1 := advance now s
  let x := chan s1 c.val
  .next (live s (
    if x.alert.isNone then s1
    else
      let s1 := if 3 ≤ x.repeats then chanErr 6 (2 * c.val) (bump cMem 0 6 s1) else s1
      let s1 := setChan c.val { x with alert := none, repeats := if 3 ≤ x.repeats then 0 else x.repeats } s1
      bump cMem 0 5 (replay x (precharge c.val s1))))

/-! Patrol scrub (R365). -/

/-- A stack holds lines in service: STACK_MASK (Table 14.6). -/
def stackServes (s : State) (n : Nat) : Bool :=
  match (stack s n).st with | .inService => true | .degraded => true | .retiring => true | _ => false

/-- Reads a line for the device itself (scrub or migration, `src` 3 or 4): corrected, or rewritten with the poison
pattern. -/
def scrubLine (l src : Nat) (s : State) : State :=
  let (pc, a) := storedAt s (64 * l)
  let w := internalSrc src
  let s := noteCmd pc (2 * l) (openRow pc a (bump cUtil (pc / 512) 4 s))
  let e := tget 0 s.mem.lineErr l
  let lim := if isLight s (64 * l) then 1 else 3
  let det := if isLight s (64 * l) then 3 else 5
  if (stack s (pc / 64)).failedPcs.contains (pc % 64) then poisonLine l s
  else if tget false s.mem.poison l then bump cMem 0 0 s
  else if e = 0 then s
  else if e ≤ lim then noteCorrected l w s
  else if e ≤ det then poisonLine l (noteUncorrectable l w s)
  else
    let (bad, s) := drawBool s
    if bad then poisonLine l (noteUncorrectable l w s)
    else
      let (d, s) := drawBytes 64 s
      noteCorrected l w { s with mem := { s.mem with bytes := putBytes d (64 * l) s.mem.bytes } }

/-- What the patrol finds a stored line to have come to: byte errors, and under the light code an owner tag whose copies
name other tenants (R356, R358). They stay until the line is corrected, rewritten or poisoned. -/
def takeDamage (l errs : Nat) (stray : Option (BitVec 10 × BitVec 10)) (s : State) : State :=
  { s with mem := { s.mem with
    lineErr := tput 0 s.mem.lineErr l (tget 0 s.mem.lineErr l + errs)
    tags := match stray with
      | some g => if isLight s (64 * l) then
          tput none s.mem.tags l (some { t1 := g.1.toNat, s1 := false, t2 := g.2.toNat, s2 := false }) else s.mem.tags
      | none => s.mem.tags } }

/-- PATROL_SCRUB_READ: one line of an in-service stack, with the damage it has taken since it was written; a line with a
pending merge entry is skipped (R365). -/
def execPatrolScrubRead (r : ScrubRead) (s : State) : Ans :=
  if capacity s ≤ r.ppa then .fault (.noSuchAddress r.ppa)
  else
    let l := r.ppa / 64
    .next (live s (
      let s := takeDamage l r.errs r.stray s
      let k := (storedAt s (64 * l)).1 / 64
      if (tget none s.mem.merge l).isSome || !(stackServes s k) || (stack s k).selfRefresh then s
      else scrubLine l 3 s))

/-- PATROL_PERIOD_END: SCRUB_PASSES counts the period, and the corrections counted against rows start anew (R364). -/
def execPatrolPeriodEnd (now : Nat) (s : State) : Ans :=
  let s1 := advance now s
  .next (live s (bump cMem 0 8 { s1 with mem := { s1.mem with rowCe := [] } }))

/-! Stack states and retirement (R368 to R371). -/

def setMig (k : Nat) (m : Mig) (s : State) : State := { s with mem := { s.mem with migs := tput {} s.mem.migs k m } }
def mig (s : State) (k : Nat) : Mig := tget {} s.mem.migs k

def setStackSt (n : Nat) (st : StackSt) (s : State) : State :=
  alert .stack [n] (setStack n { stack s n with st := st, stateTime := s.time } s)

/-- Pseudo-channels of a stack with full remap tables (REMAP_FULL_PCS) and remap entries in use (REMAP_USED). -/
def remapFullPcs (s : State) (n : Nat) : Nat :=
  ((List.range 64).filter (fun i => decide (16 ≤ (tget [] s.mem.remap (64 * n + i)).length))).length
def remapUsed (s : State) (n : Nat) : Nat :=
  ((List.range 64).map (fun i => (tget [] s.mem.remap (64 * n + i)).length)).foldl (· + ·) 0

/-- The block has frames on stacks of the quadrant. -/
def onQuadrant (b : BlockEnt) (q : Nat) : Bool :=
  b.valid && (match b.place with | .deviceWide => true | .localTo k => k.val == q)

/-- Frames a block takes in a pseudo-channel: 1 device-wide, 4 local (R350). -/
def blockFrames (b : BlockEnt) : Nat := match b.place with | .deviceWide => 1 | .localTo _ => 4

/-- Frames `f` to `f + n − 1` of a stack are free: no block of its quadrant and no retirement substitute uses them, nor
the substitutes already chosen. -/
def framesFree (s : State) (stk f n : Nat) (chosen : Tbl (Option (Nat × Nat))) : Bool :=
  (List.range n).all (fun i => s.mem.blocks.all (fun c => frameClear c.2 (stk / 8) (f + i))) &&
  (List.range 4).all (fun k =>
    let m := mig s k
    decide (m.st = 0) || decide (m.stack / 8 ≠ stk / 8) ||
    m.map.all (fun c => match c.2 with | some (u, g) => decide (u ≠ stk % 8) || decide (f + n ≤ g) || decide (g + 4 ≤ f)
                                       | none => true)) &&
  chosen.all (fun c => match c.2 with | some (u, g) => decide (u ≠ stk % 8) || decide (f + n ≤ g) || decide (g + 4 ≤ f)
                                      | none => true)

/-- A substitute for one block: the lowest other in-service stack of the quadrant with free frames. -/
def substitute (s : State) (n : Nat) (b : BlockEnt) (chosen : Tbl (Option (Nat × Nat))) : Option (Nat × Nat) :=
  ((List.range 8).filterMap (fun u =>
    let stk := n / 8 * 8 + u
    if stk = n ∨ (stack s stk).st ≠ .inService then none
    else (lowest (gradeBlocks s.grade + 1 - blockFrames b)
      (fun f => framesFree s stk f (blockFrames b) chosen)).map (fun f => (u, f)))).head?

/-- The retirement map of a stack, if every block with frames on it can be received elsewhere (R369). -/
def retMap (s : State) (n : Nat) : Option (Tbl (Option (Nat × Nat))) :=
  (s.mem.blocks.filter (fun c => onQuadrant c.2 (n / 8))).foldl (fun acc c =>
    match acc with
    | none => none
    | some m =>
      match substitute s n c.2 m with
      | some x => some (tput none m c.1 (some x))
      | none => none) (some [])

/-- A free retirement slot: at most 4 per device and 2 per quadrant. -/
def retSlot (s : State) (n : Nat) : Option Nat :=
  if 2 ≤ ((List.range 4).filter (fun k => decide ((mig s k).st ≠ 0) && (mig s k).stack / 8 == n / 8)).length then none
  else (List.range 4).find? (fun k => decide ((mig s k).st = 0))

/-- 16 KiB granules of a stack's frames that a map moves. -/
def granulesOf (s : State) (m : Tbl (Option (Nat × Nat))) : Nat :=
  (m.map (fun c => 64 * 8 * blockFrames (block s c.1))).foldl (· + ·) 0

/-- A retirement begins if R369 allows: the slot's map is written and the stack is RETIRING. -/
def tryRetire (n : Nat) (s : State) : Option State :=
  match retSlot s n, retMap s n with
  | some k, some m =>
    let g : Mig := { st := 1, stack := n, total := granulesOf s m, startTime := s.time, map := m }
    some (setStackSt n .retiring (setMig k g s))
  | _, _ => none

/-- RETIRE_STACK: on the fabric manager's command, or when 8 pseudo-channels have full remap tables; RETIRING if R369
allows, otherwise DEGRADED (Table 14.4). -/
def execRetireStack (n : Fin 32) (byFm : Bool) (s : State) : Ans :=
  .next (live s (
    if byFm && !(anchorServes s) then s
    else if (stack s n.val).st ≠ .inService then (if byFm then fmDone .conflict [] s else s)
    else if !byFm && decide (remapFullPcs s n.val < 8) then s
    else
      let s := when byFm (fmDone .ok []) s
      match tryRetire n.val s with
      | some s => s
      | none => setStackSt n.val .degraded s))

/-- STACK_FAILURE: a failed retrain, or channels that stop answering: their pseudo-channels return poison; the stack is
FAILED, and a stack already FAILED or RETIRING stays so (Table 14.4). -/
def execStackFailure (n : Fin 32) (pcs : List (Fin 64)) (s : State) : Ans :=
  let x := stack s n.val
  let failed := (x.failedPcs ++ pcs.map (·.val)).dedup
  let s1 := forEach pcs (fun i s => chanErr 7 (64 * n.val + i.val) s)
    (setStack n.val { x with failedPcs := failed } s)
  .next (live s (match x.st with
    | .inService => setStackSt n.val .failed s1
    | .degraded => setStackSt n.val .failed s1
    | .retired => s
    | _ => s1))

/-- RETIREMENT_START: a DEGRADED or FAILED stack begins migration once R369 allows (Table 14.4). -/
def execRetirementStart (n : Fin 32) (s : State) : Ans :=
  .next (live s (match (stack s n.val).st with
    | .degraded => (tryRetire n.val s).getD s
    | .failed => (tryRetire n.val s).getD s
    | _ => s))

/-- The lines of granule `g` of a block in one pseudo-channel of stack `n`: the inverse of R350. -/
def granuleLines (s : State) (n b i g : Nat) : List Nat :=
  let x := block s b
  let gr := 2 ^ x.grainLog2
  (List.range 256).map (fun k =>
    let o := 16384 * g + 64 * k
    let u := match x.place with
      | .deviceWide => o / gr * 2048 + i * 32 + n % 8 * 4 + n / 8
      | .localTo _ => o / gr * 512 + i * 8 + n % 8
    (b * blockBytes + u * gr + o % gr) / 64)

/-- A line passes to its new place: its pending merge entry is written back, then it is corrected, or poisoned when
uncorrectable (R370 steps 1 and 2). Lines without a finding need no change: memory is held by pool-physical address. -/
def migrateLine (l : Nat) (s : State) : State :=
  let s := mergeWriteback l s
  let pc := (storedAt s (64 * l)).1
  if tget 0 s.mem.lineErr l = 0 && !((stack s (pc / 64)).failedPcs.contains (pc % 64)) then s else scrubLine l 4 s

/-- Every granule of the slot has moved: RETIRED, a loss that the event recorder reports as the fence of a stack, unit kind 5
and cause 0 (R27, R407), and that the memory repair record keeps; a paused re-interleave resumes (R368, R372). -/
def retireDone (k : Nat) (s : State) : State :=
  let m := mig s k
  let s := setStackSt m.stack .retired (setMig k { m with st := 3 } s)
  let s := event 0x1C [5, m.stack, 0] { s with fen := { s.fen with repair := s.fen.repair ++ [(5, m.stack)] } }
  let r := mig s 4
  if r.st = 2 ∧ (List.range 4).all (fun j => decide ((mig s j).st ≠ 1)) then setMig 4 { r with st := 1 } s else s

/-- MIGRATION_GRANULE: granule `g` (of 8 or 32) of a block in pseudo-channel `i` of the slot's stack moves to its
substitute (R370). -/
def execMigrationGranule (k : Fin 4) (b : Nat) (i : Fin 64) (g : Nat) (s : State) : Ans :=
  let m := mig s k.val
  let x := block s b
  let key := i.val * 65536 + 8 * x.frame + g
  .next (live s (
    if m.st ≠ 1 ∨ (tget none m.map b).isNone ∨ 8 * blockFrames x ≤ g ∨ m.movedSet.contains key then s
    else
      let s := forEach (granuleLines s m.stack b i.val g) migrateLine s
      let m' : Mig := { m with movedSet := key :: m.movedSet, moved := m.moved + 1 }
      let s := setMig k.val m' s
      if m.total ≤ m.moved + 1 then retireDone k.val s else s))

/-! Re-interleave (R372, R373). -/

/-- A reduction window that is ARMING or ARMED has its destination in the extent. -/
def windowIn (s : State) (x : Extent) : Bool :=
  s.nm.windows.any (fun c => (decide (c.2.st = .arming) || decide (c.2.st = .armed)) && c.2.tenant == x.tenant &&
    decide (c.2.dstPva < extentHi x) && decide (extentLo x < c.2.dstPva + max 1 c.2.length))

/-- REINTERLEAVE (R372); the copy is encrypted anew on its way, under the tenant's active slot (R385). -/
def execReinterleave (e : Fin 16384) (pl : Placement) (g : Nat) (s : State) : Ans :=
  let x := extent s e.val
  .next (served s (
    if (mig s 4).st ≠ 0 then fmDone .conflict [] s
    else if (x.st ≠ .active ∧ x.st ≠ .sealed) ∨ windowIn s x ∨ g < 8 ∨ 16 < g then fmDone .policed [] s
    else
      match allocBlocks x.blocks.length e.val x.light pl g s with
      | none => fmDone .policed [] s
      | some (bs, s) =>
        let run := (List.range 4).any (fun j => decide ((mig s j).st = 1))
        let m : Mig := { st := if run then 2 else 1, extent := e.val, total := 16384 * x.blocks.length
                         startTime := s.time, targets := bs, place := pl, grainLog2 := g }
        fmDone .ok [] (setMig 4 m (markSlot bs (some (activeSlot s x.tenant)) s))))

/-- Copies one line to its target: bytes corrected, or the poison pattern (R370 steps 1 to 3). -/
def copyLine (l t : Nat) (s : State) : State :=
  let s := mergeWriteback l s
  if (storedLine s l).all (· == 0) && !(tget false s.mem.poison l) && decide (tget 0 s.mem.lineErr l = 0) &&
      (storedLine s t).all (· == 0) && !(tget false s.mem.poison t) then s
  else
    let s := scrubLine l 4 s
    if tget false s.mem.poison l then poisonRaw t (storeRaw t (storedLine s l) s) else storeRaw t (storedLine s l) s

/-- REINTERLEAVE_GRANULE: the next granule, in ascending order, is copied to the target; while a retirement runs the
re-interleave is paused (R372, R373 step 2). -/
def execReinterleaveGranule (s : State) : Ans :=
  let m := mig s 4
  .next (live s (
    if m.st = 0 ∨ m.switched ∨ m.total ≤ m.moved then s
    else if (List.range 4).any (fun j => decide ((mig s j).st = 1)) then setMig 4 { m with st := 2 } s
    else
      let from_ := reintFrom s
      let base := from_.getD (m.moved / 16384) 0 * 4194304 + m.moved % 16384 * 256
      let to_ := m.targets.getD (m.moved / 16384) 0 * 4194304 + m.moved % 16384 * 256
      let s := forEach (List.range 256) (fun i => copyLine (base + i) (to_ + i)) s
      setMig 4 { m with st := 1, moved := m.moved + 1 } s))

/-- REINTERLEAVE_SWITCH: every granule has moved; the shadow table with the target addresses is built and the switch
ordered (R373 step 3). -/
def execReinterleaveSwitch (root : BitVec 26) (now : Nat) (s : State) : Ans :=
  let s1 := advance now s
  let m := mig s1 4
  let x := extent s1 m.extent
  .next (live s (
    if m.st ≠ 1 ∨ m.switched ∨ m.moved < m.total ∨ (roots s1 x.tenant).switchPending then s1
    else
      let s1 := setMig 4 { m with switched := true, old := x.blocks } s1
      let s1 := setExtent m.extent { x with blocks := m.targets, place := m.place, grainLog2 := m.grainLog2 } s1
      orderSwitch x.tenant root s1))

/-- DIRECTORY_HANDOVER: an old home hands a line's entry to the target home once it is not busy (R373 step 4). -/
def execDirectoryHandover (l : Nat) (s : State) : Ans := .next (live s (handOver l s))

/-- REINTERLEAVE_COMPLETE: the switch has drained and every entry is handed over; the old blocks are scrubbed and freed
(R373 step 5). -/
def execReinterleaveComplete (s : State) : Ans :=
  let m := mig s 4
  let x := extent s m.extent
  .next (live s (
    if m.st = 0 ∨ !m.switched ∨ (roots s x.tenant).switchPending ∨
        !(heldLines s m.old (fun y => !(decide (y.dir = {})) || !(quietLine y))).isEmpty then s
    else setMig 4 {} (freeBlocks m.old (zeroBlocks m.old s))))

/-! Controls and logs (R374). -/

/-- SET_MEM_CTRL (Table 14.5): the values as written; they act within their ranges. -/
def execSetMemCtrl (patrolHours : BitVec 8) (actThreshold : BitVec 16) (ceRemap migratePct : BitVec 8) (s : State) : Ans :=
  .next (served s (fmDone .ok [] { s with mem := { s.mem with
    patrolHours := patrolHours.toNat, actThreshold := actThreshold.toNat, ceRemap := ceRemap.toNat
    migratePct := migratePct.toNat } }))

/-- ERR_TAIL_WRITE: a write of DPC_MEM_ERR_CTRL (Table 14.7). -/
def execErrTailWrite (data : BitVec 64) (s : State) : Ans :=
  .next (live s { s with mem := { s.mem with
    errTail := BitVec.ofNat 8 (field data.toNat 8 8), errOverflow := s.mem.errOverflow && !(bitOf data.toNat 16) } })

/-! Start-up (R347, R366). -/

/-- STACK_TRAINING_DONE: each stack's slowest code passed (0 8.0, 1 7.2, 2 6.4 Gb/s; 3 none). All stacks run at the
highest rate every trained stack passes; a stack that passes none is FAILED; a retired stack is not trained. -/
def execStackTrainingDone (codes : List (Fin 4)) (s : State) : Ans :=
  let code (n : Nat) : Nat := ((codes.drop n).head?.map (·.val)).getD 0
  let live_ := (List.range 32).filter (fun n => decide ((stack s n).st ≠ .retired))
  let rate := (live_.filter (fun n => decide (code n ≠ 3))).foldl (fun a n => max a (code n)) 0
  let s1 := forEach live_ (fun n s =>
    if code n = 3 then setStackSt n .failed (setStack n { stack s n with failedPcs := List.range 64 } s)
    else setStack n { stack s n with trained := true } s) s
  .next (if s.clk.phase = .starting ∧ !s.clk.trained then
      { s1 with mem := { s1.mem with rate := rate }, clk := { s1.clk with trained := true } }
    else s)

/-- POWER_ON_FILL_DONE: every line of the pool reads zero under valid check bytes, and FILL_DONE is set (R366). -/
def execPowerOnFillDone (s : State) : Ans :=
  .next (if s.clk.phase = .starting ∧ s.clk.trained ∧ !s.mem.fillDone then
      { s with mem := { s.mem with bytes := [], poison := [], lineErr := [], tags := [], merge := [], fillDone := true } }
    else s)

end Sys2Proof.Machine
end

