-- ==== Sys2Proof/Machine/Xlt.lean ====
section
/-! DEFINITION. Events of the translation units (chapter 3; opcode-table rows WALK_RESULT to FAULT_TAIL_WRITE). -/

namespace Sys2Proof.Machine

/-! Walks (R63 to R69). -/

/-- The TLB entry a leaf gives: the page, or the aligned run of 2^RUN pages (R69). -/
def runEntry (s : State) (t pva level : Nat) (e : Pte) : TlbEntry :=
  let size := 2 ^ (pageLog2 level + e.run)
  { tenant := t, pva := pva / size * size, size := size, sel := (roots s t).activeSel, draining := false
    leaf := { rights := e.rights, sealed := e.sealed, light := e.light, run := e.run, level := level
              ppa := e.ppa / size * size, extent := e.extent, overrides := (extent s e.extent).overrides } }

/-- WALK_RESULT: the words that a walk's table lines return are tested in the order of Table 3.3; a leaf fills the TLB, and the
participant that the walk was for is tested on it. The words may be any: the anchor's own are those of `walkTable`. -/
def execWalkResult (q : Fin 4) (t : Fin 1024) (pva : BitVec 48) (who : Part) (port admitted : Bool) (acc : Access)
    (ents : List (BitVec 64 × Bool)) (s : State) : Ans :=
  let via : Via := if port then .port else .inPool admitted
  let w := srcOf who t.val
  .next (live s (match walkEntries s 0 ents with
    | .more => s
    | .fault r level =>
      refuse q.val t.val pva.toNat { reason := r, access := accCode acc, level := level, extent := none }
        w.source w.sourceId s
    | .leaf level e =>
      let ent := runEntry s t.val pva.toNat level e
      let s := tlbFill q.val ent s
      match leafCheck ent.leaf who via acc with
      | some r => refuse q.val t.val pva.toNat r w.source w.sourceId s
      | none => s))

/-! Invalidations (R72 to R75). -/

/-- The invalidation is in progress at a unit: it has reached it and is not complete there. -/
def atUnit (q : Nat) (v : Inval) : Bool := (tget none v.reached q).isSome && !(v.done.contains q)

/-- INV_PENDING. -/
def invPending (s : State) (q : Nat) : Nat := (s.xlt.invals.filter (atUnit q)).length

/-- The entry overlaps the invalidation's range. -/
def overlapsEntry (t lo hi : Nat) (e : TlbEntry) : Bool :=
  decide (e.tenant = t) && decide (e.pva < hi) && decide (lo < e.pva + e.size)

/-- Applies `f` to the first element that meets `p`. -/
def modFirst {α : Type} (p : α → Bool) (f : α → α) : List α → List α
  | [] => []
  | x :: r => if p x then f x :: r else x :: modFirst p f r

/-- An invalidation of the anchor that names this range and has not reached this unit. -/
def awaits (q t lo hi : Nat) (v : Inval) : Bool :=
  decide (v.tenant = t) && decide (v.lo = lo) && decide (v.hi = hi) && (tget none v.reached q).isNone &&
  !(v.done.contains q)

/-- INVALIDATION: it reaches a unit, which drains the overlapping entries; a unit with 16 in progress lets it wait
(R72). -/
def execInvalidation (q : Fin 4) (t : Fin 1024) (lo hi now : Nat) (s : State) : Ans :=
  let s1 := advance now s
  .next (live s (
    if 16 ≤ invPending s1 q.val then s1
    else
      let l := s1.xlt.invals
      let l := if l.any (awaits q.val t.val lo hi) then l
        else l ++ [{ tenant := t.val, lo := lo, hi := hi, withdraws := true, ordered := false }]
      nextTurn q.val (cutMessages q.val t.val lo hi
        (drainEntries q.val (overlapsEntry t.val lo hi) (overlapsWalk t.val lo hi)
          (setInvals (modFirst (awaits q.val t.val lo hi) (reach s1 q.val) l) s1)))))

/-- A beat of a range issued by a unit before beat number `lim`, still outstanding at a home or at its port. -/
def isBeat (q t lo hi lim : Nat) (r : LineReq) : Bool :=
  decide (r.entryQ = q) && decide (r.tenant = t) && decide (lo ≤ r.pva + r.pos) && decide (r.pva + r.pos < hi) &&
  decide (r.beat < lim) && !(decide (r.kind = .victim)) && !(decide (r.kind = .resolve))

/-- Beats a home has ordered: in service or in a line queue. -/
def orderedBeats (s : State) (p : LineReq → Bool) : List LineReq :=
  (s.dir.lines.flatMap (fun c => match c.2.cur with | some r => r :: c.2.queue | none => c.2.queue)).filter p

/-- Beats no home has ordered yet. -/
def waitingBeats (s : State) (p : LineReq → Bool) : List LineReq :=
  (s.dir.waitIn.map (fun w => w.2.2)).filter p

/-- The beats an invalidation drains at a unit. -/
def drainBeat (q : Nat) (v : Inval) : LineReq → Bool := isBeat q v.tenant v.lo v.hi (tget 0 v.beats q)

/-- The invalidation in progress at a unit that names this range. -/
def inProgress (q t lo hi : Nat) (v : Inval) : Bool :=
  atUnit q v && decide (v.tenant = t) && decide (v.lo = lo) && decide (v.hi = hi)

/-- An overlapping invalidation that the unit received earlier is still in progress (R72: they complete in order). -/
def earlierOpen (s : State) (q : Nat) (v : Inval) : Bool :=
  s.xlt.invals.any (fun w => atUnit q w && decide (w.tenant = v.tenant) && decide (w.lo < v.hi) && decide (v.lo < w.hi) &&
    decide (tget 0 w.turn q < tget 0 v.turn q))

/-- A table switch has drained: TABLE_EPOCH advances and the old slot is the shadow (R77 step 4). -/
def switchDone (t : Nat) (s : State) : State :=
  let r := roots s t
  setRoots t { r with switchPending := false, tableEpoch := (r.tableEpoch + 1) % 65536, drainLeft := [] } s

/-- The unit frees its draining entries and reports: step 4 of R72. -/
def reportInval (q : Nat) (v : Inval) (s : State) : State :=
  let u := xunit s q
  let s := setXunit q { u with
    tlb := u.tlb.filter (fun e => !(e.draining && overlapsEntry v.tenant v.lo v.hi e))
    walkCache := u.walkCache.filter (fun e => !(e.draining && overlapsWalk v.tenant v.lo v.hi e)) } s
  let l := modFirst (inProgress q v.tenant v.lo v.hi) (fun w => { w with done := q :: w.done }) s.xlt.invals
  let fin := l.filter (fun w => decide (w.tenant = v.tenant) && w.isSwitch && invalDone s w)
  let s := setInvals (l.filter (fun w => !(invalDone s w))) s
  settleOpenings (if fin.isEmpty then s else switchDone v.tenant s)

/-- INVALIDATION_COMPLETE: every beat issued under the draining entries has completed, so the unit frees them and
reports (R72 step 4). -/
def execInvalidationComplete (q : Fin 4) (t : Fin 1024) (lo hi : Nat) (s : State) : Ans :=
  .next (live s (match s.xlt.invals.find? (inProgress q.val t.val lo hi) with
    | none => s
    | some v =>
      if !(orderedBeats s (drainBeat q.val v)).isEmpty || !(waitingBeats s (drainBeat q.val v)).isEmpty ||
          earlierOpen s q.val v then s
      else reportInval q.val v s))

/-- A queue that owns a beat beyond the drain bound is stopped, and its descriptor completes with MAPPING_WITHDRAWN and
the bytes done (R74 step 1); a job stops at once, and its completion carries the record of its beat (R84). -/
def boundOwner (o : Nat × Nat) (ext : List Byte) (s : State) : State :=
  let s := queueFault o.1 6 s
  match descAt s o.1 o.2 with
  | none => s
  | some d =>
    match d.job with
    | some j => endJob j .mappingWithdrawn 0 ext s
    | none => nmFinish o.1 d .mappingWithdrawn 0 [] s

/-- The record of a beat that is cancelled at a line (R74, Table 3.7). -/
def cancelRec (s : State) (l : Nat) (r : LineReq) : FaultRec :=
  let w := srcOf r.who r.tenant
  let acc := match r.kind with | .wrLine => 1 | .wrPart => 1 | .engWrite => 1 | .reduce => 2 | .reduceW => 2 | .atomic => 3
                               | .rdOwn => 1 | .upgrade => 1 | _ => 0
  faultRec s r.entryQ r.tenant (r.pva + r.pos)
    { reason := .drainBound, access := acc, level := 3, extent := some (block s (64 * l / blockBytes)).extent } w.source
    (match r.owner with | some o => o.1 | none => w.sourceId)

/-- A beat at a line is cancelled: a read answers poison, a write is discarded, and a record says so (R74 step 2). A ROF write
that is discarded answers POISON as well (DESIGN CHOICE). -/
def cancelBeat (l : Nat) (r : LineReq) (s : State) : State :=
  respond l r .poison r.pos [] (logFault r.entryQ (cancelRec s l r) s)

/-- Cancels the beats that wait at their homes, and gives the queues that own one the record of their last. -/
def cancelAll (late : List (Nat × Nat × LineReq)) (s : State) : List ((Nat × Nat) × List Byte) × State :=
  late.foldl (fun c w =>
    let m := match w.2.2.owner with
      | some o => aset o (faultBytes (cancelRec c.2 w.1 w.2.2)) c.1
      | none => c.1
    (m, cancelBeat w.1 w.2.2 c.2)) ([], s)

/-- DRAIN_BOUND_EXPIRY: the bound has passed since the invalidation reached the unit (R74). A change that takes no right
away stops no queue and cancels nothing (R75). -/
def execDrainBoundExpiry (q : Fin 4) (t : Fin 1024) (lo hi now : Nat) (s : State) : Ans :=
  let s1 := advance now s
  .next (live s (match s1.xlt.invals.find? (inProgress q.val t.val lo hi) with
    | none => s1
    | some v =>
      let i := (tget none v.reached q.val).getD 0
      if s1.time < i + 1000 * drainBoundUs s1 q.val ∨ v.bounded.contains q.val then s1
      else
        let s1 := setInvals (modFirst (inProgress q.val t.val lo hi) (fun w => { w with bounded := q.val :: w.bounded })
          s1.xlt.invals) s1
        if !v.withdraws then s1
        else
          let p := drainBeat q.val v
          let late := s1.dir.waitIn.filter (fun w => p w.2.2)
          let owners := ((orderedBeats s1 p ++ late.map (·.2.2)).filterMap (fun r => r.owner)).dedup
          let s1 := { s1 with dir := { s1.dir with waitIn := s1.dir.waitIn.filter (fun w => !(p w.2.2)) } }
          let (m, s1) := cancelAll late s1
          settleOrder (forEach owners (fun o => boundOwner o ((afind m o).getD [])) s1)))

/-- TABLE_SWITCH: the anchor writes the shadow root and orders the switch (R77); none while one is pending. -/
def execTableSwitch (t : Fin 1024) (root : BitVec 26) (now : Nat) (s : State) : Ans :=
  let s1 := advance now s
  .next (live s (if (roots s1 t.val).switchPending then s1 else orderSwitch t.val root s1))

/-! Host addresses (R81 to R83). -/

/-- A fault record of a queue block's DMA (SOURCE 3): a descriptor fetch, or a completion write. -/
def dmaFault (q n : Nat) (va : Nat) (write : Bool) (r : Reason) (s : State) : State :=
  refuse q (group s (n / 8)).tenant (va % 2 ^ 48) { reason := r, access := b2n write, level := 3, extent := none } 3 n s

/-- ATS_TRANSLATION_COMPLETION: fills the cache, where the oldest entry gives way when all 4,096 are in use (DESIGN CHOICE),
and the DMA that waited for it goes on; a host that denies the access stops the queue, and the descriptor it was fetching or
completing is left unconsumed (R81, R83). -/
def execAtsTranslationCompletion (d : Fin 64) (pasid page size hpa : Nat) (granted : Bool) (n : Fin 8192)
    (s : State) : Ans :=
  let q := d.val / 16
  let u := xunit s q
  let e : AtcEntry := { ld := d.val, pasid := pasid, page := page, size := size, hpa := hpa, draining := false }
  .next (live s (
    if granted then
      issueFetch n.val (flushAwaiting n.val
        (setXunit q { u with atc := e :: (if u.atc.length < 4096 then u.atc else u.atc.dropLast) } s))
    else
      let x := queue s n.val
      denyAwaiting n.val
        (dmaFault q n.val page (!x.fetching) .hostNoTranslation (queueFault n.val 4 (setQueue n.val { x with fetching := false } s)))))

/-- An ATC entry or DMA address lies in the named pages of a requester and PASID. -/
def atsOverlap (d pasid page size d' pasid' a n : Nat) : Bool :=
  decide (d = d') && decide (pasid = pasid') && decide (a < page + size) && decide (page < a + n)

/-- ATS_INVALIDATE_REQUEST: matching entries drain at once (R82). -/
def execAtsInvalidateRequest (d : Fin 64) (pasid page size itag now : Nat) (s : State) : Ans :=
  let s1 := advance now s
  let q := d.val / 16
  let u := xunit s1 q
  let hit (e : AtcEntry) : Bool := atsOverlap d.val pasid page size e.ld e.pasid e.page e.size
  let reads := (s1.cxl.dmaReads.filter (fun r => atsOverlap d.val pasid page size r.ld r.pasid r.addr 64)).map (·.id)
  .next (live s (setXunit q { u with
    atc := u.atc.map (fun e => if hit e then { e with draining := true } else e)
    atsInvals := u.atsInvals ++ [{ ld := d.val, pasid := pasid, page := page, size := size, itag := itag,
                                   time := s1.time, reads := reads }] } s1))

/-- An ATS invalidation ends: its entries are freed and the Invalidate Completion is sent. -/
def finishAts (q : Nat) (v : AtsInval) (s : State) : State :=
  let u := xunit s q
  emit (.atsInvalComplete v.ld v.itag) (setXunit q { u with
    atc := u.atc.filter (fun e => !(e.draining && atsOverlap v.ld v.pasid v.page v.size e.ld e.pasid e.page e.size))
    atsInvals := u.atsInvals.erase v } s)

def atsFind (s : State) (d itag : Nat) : Option AtsInval :=
  (xunit s (d / 16)).atsInvals.find? (fun v => v.ld == d && v.itag == itag)

/-- ATS_INVALIDATE_COMPLETE: every DMA read issued under the drained entries has completed (R82). -/
def execAtsInvalidateComplete (d : Fin 64) (itag : Nat) (s : State) : Ans :=
  .next (live s (match atsFind s d.val itag with
    | none => s
    | some v =>
      if s.cxl.dmaReads.any (fun r => v.reads.contains r.id) then s else finishAts (d.val / 16) v s))

/-- ATS_INVAL_BOUND_EXPIRY: queues that own an outstanding read stop with HOST_INVAL_BOUND, the read's data will be
discarded, and the completion is sent at the bound (R82). -/
def execAtsInvalBoundExpiry (d : Fin 64) (itag now : Nat) (s : State) : Ans :=
  let s1 := advance now s
  let q := d.val / 16
  .next (live s (match atsFind s1 d.val itag with
    | none => s1
    | some v =>
      if s1.time < v.time + 1000 * drainBoundUs s1 q then s1
      else
        let open_ := s1.cxl.dmaReads.filter (fun r => v.reads.contains r.id)
        let s1 := { s1 with cxl := { s1.cxl with dmaReads := s1.cxl.dmaReads.map (fun r =>
          if v.reads.contains r.id then { r with discard := true } else r) } }
        finishAts q v (forEach open_ (fun r s => dmaFault q r.queue r.addr false .hostInvalBound (queueFault r.queue 5 s)) s1)))

/-- FAULT_TAIL_WRITE: a write of DPC_XLT_FAULT_CTRL (Table 3.11): FAULT_TAIL is taken, OVERFLOW is cleared by a 1. -/
def execFaultTailWrite (q : Fin 4) (data : BitVec 64) (s : State) : Ans :=
  let u := xunit s q.val
  .next (live s (setXunit q.val { u with faultTail := BitVec.ofNat 6 (field data.toNat 8 6)
                                         overflow := u.overflow && !(bitOf data.toNat 16) } s))

end Sys2Proof.Machine
end

