-- ==== Sys2Proof/Machine/RegViews.lean ====
section
/-! DEFINITION. The register map, reading side (chapter 19): the scope and the 64-bit value of every register of Table 19.8
at its BAR0 offset, from the field maps of the owning chapters. -/

namespace Sys2Proof.Machine

/-- Who may access a register (Table 19.3): the entry's own number, group or tenant with the last three. -/
inductive Scope where
  | all | ctrl | priv
  | self (d : Nat)
  | owner (g : Nat)
  | tenant (t : Nat)
  deriving DecidableEq, Repr

/-- A register word from its fields, each (value, lowest bit, width). -/
def pk (l : List (Nat × Nat × Nat)) : Nat := l.foldl (fun (a : Nat) f => a + f.1 % 2 ^ f.2.2 * 2 ^ f.2.1) 0

/-- Index and word of an offset in an array of `n` registers of `stride` bytes that begins at `base`. -/
def arrAt (base stride n o : Nat) : Option (Nat × Nat) :=
  if base ≤ o ∧ o < base + stride * n then some ((o - base) / stride, (o - base) % stride / 8) else none

/-- A counter array of 32 words at `base` (row `f`, unit `n`). -/
def cntAt (s : State) (base f n o : Nat) : Option (Scope × Nat) :=
  (arrAt base 8 32 o).map (fun p => (.all, cntGet s f n p.1))

/-- The first region that answers. -/
def firstOf (l : List (Option (Scope × Nat))) : Option (Scope × Nat) := (l.find? Option.isSome).join

/-- A counter of Table 11.9; a wait for credits that is under way counts in STALL_CYCLES (R301). -/
def pcntWord (s : State) (n i : Nat) : Nat :=
  let run := if 20 ≤ i then (match (vcOf s n (i - 20)).stallAt with | some t => s.time - t | none => 0) else 0
  satAdd (2 ^ 64 - 1) (cntGet s cRof n i) run

/-- A mask of the numbers below `n` that meet `p`. -/
def maskBy (n : Nat) (p : Nat → Bool) : Nat := maskOf ((List.range n).map p)

/-- A two's complement value in `w` bits. -/
def twos (w : Nat) (x : Int) : Nat := (BitVec.ofInt w x).toNat

/-- DPC_CAP (Table 7.9). -/
def capWord (s : State) (i : Nat) : Nat :=
  match i with
  | 0 => pk [(1, 0, 16), (0xA0, 16, 16), (coresInService s, 32, 16), (maskBy 4 (fun q => !(qFenced s q)), 48, 4)]
  | 1 => pk [(2, 0, 4), (0x80, 4, 8), (0x80, 12, 8), (4, 20, 4), (8, 24, 4), (0x40, 28, 7), (4, 35, 4), (0x40, 39, 8),
             (0x10, 47, 6), (8, 53, 4)]
  | 2 => pk [(0x800000, 0, 32), (0x1000, 32, 16), (0x1000, 48, 16)]
  | 3 => pk [(0x40, 0, 16), (0x80, 16, 16), (0x100, 32, 16), (0x10, 48, 16)]
  | 4 => pk [(0x400, 0, 16), (0x800, 16, 16), (0x100, 32, 16), (0x100, 48, 16)]
  | 5 => pk [(0x10000, 0, 32), (0x100, 32, 16), (0x100, 48, 16)]
  | 6 => pk [(0x100, 0, 16), (0xA0, 16, 16), (0x3FE, 32, 16)]
  | 7 => pk [(0x7D0, 0, 16), (0x640, 16, 16), (0x535, 32, 16), (0x3E8, 48, 16)]
  | 8 => pk [(0x4000000, 0, 32), (0x1000, 32, 16)]
  | _ => 0

/-- Whole milliseconds until a time. -/
def msUntil (s : State) (t : Nat) : Nat := (t - s.time) / 1000000

/-- REMAINING_MS of a holder: 0 after a lapse and while it holds no tether (Table 2.7). -/
def remainingMs (s : State) (h : Part) : Nat :=
  if (lease s h).lapsed || tethersOf s h == 0 then 0 else msUntil s (leaseEnd (lease s h))

/-- DPC_PMM (Tables 2.6, 2.7): BEAT_TAG is write-only. -/
def pmmWord (s : State) (d o : Nat) : Option (Scope × Nat) :=
  let h := Part.ld d
  match o with
  | 0 => some (.self d, 0)
  | 8 => some (.self d, pk [(b2n (lease s h).lapsed, 0, 1), (min 65535 (tethersOf s h), 16, 16), (remainingMs s h, 32, 16),
                            ((lease s h).lastTag, 48, 16)])
  | _ => none

/-- DPC_CORE_STATUS (Table 7.12). -/
def coreWord (s : State) (n w : Nat) : Nat :=
  let c := coreOf s n
  if w = 1 then c.stateTime
  else
    let j := c.job.bind (job s)
    let st : Nat := if coreFenced s n then 3 else
      match j with
      | some j => if j.phase = .stopping then 2 else 1
      | none => 0
    let left : Nat := maskBy 8 (fun i => match (tget ({} : Ctx) c.ctxs i).st with
      | .idle => false | .ended => false | _ => true)
    pk [(st, 0, 2), (left, 8, 8), ((j.map (·.group)).getD 0, 16, 10),
        (min (2 ^ 32 - 1) ((j.map (fun x => tget 0 x.rankCommits c.rank)).getD 0), 32, 32)]

/-- DPC_PWR_Q (Table 10.7). DIVIDER shows 8 while the start sequence still steps down to it. -/
def pwrQWord (s : State) (q w : Nat) : Nat :=
  let x := pwrq s q
  match w with
  | 0 => pk [(x.budgetW, 0, 10), (x.bucketMaxMj, 16, 10), (x.opReq, 48, 2)]
  | 1 => pk [(x.opCur, 0, 2), (x.opCap, 2, 2), (min 8 x.divider, 4, 4), (b2n x.emergThermal, 8, 1), (b2n x.emergRail, 9, 1),
             (b2n x.emergAlert, 10, 1), (b2n x.throttle, 11, 1), (x.tj, 16, 12), (x.railW, 32, 10)]
  | 2 => twos 64 x.bucketUj
  | _ => x.emergTime

/-- DPC_PWR (Tables 10.6 to 10.9). -/
def pwrWord (s : State) (o : Nat) : Option (Scope × Nat) :=
  firstOf [
    (arrAt 0 32 4 o).map (fun p => (.all, pwrQWord s p.1 p.2)),
    (if o = 0x100 then some (.all, pk [(0x5F, 0, 8), (0x69, 8, 8), (0x73, 16, 8), (0x5A, 24, 8), (0x2BC, 32, 10),
      (0x28A, 42, 10)]) else none),
    (if o = 0x200 then some (.all, pk [(s.sch.actState, 0, 2),
      (if s.sch.actState = 1 then msUntil s (s.sch.actSince + 60000000000) else 0, 16, 16), (s.sch.actLast, 32, 8)])
     else none),
    (if o = 0x208 then some (.all, s.sch.actReqTime) else none),
    cntAt s 0x300 cPwr 0 o]

/-- Number of the anchor quadrant; 0 while there is none (Table 16.7). -/
def anchorNo (s : State) : Nat := s.fen.anchor.getD 0

/-- CAUSE of a fenced core (Table 16.9): its own, else its quadrant's or its island's fence. -/
def causeOf (s : State) (n : Nat) : Nat :=
  let own := tget 0 s.fen.coreCause n
  if own ≠ 0 then own
  else if (quad s (n / 40)).faultFenced then 6
  else if (quad s (n / 40)).positionFenced then 7
  else 0

/-- DPC_FEN (Tables 16.7 to 16.10). -/
def fenWord (s : State) (o : Nat) : Option (Scope × Nat) :=
  firstOf [
    (if o = 0 then some (.all, pk [(maskBy 4 (fun q => !(qFenced s q)), 0, 4), (maskBy 4 (qFenced s), 4, 4),
      (maskBy 6 (fun i => !(tget false s.fen.straitLost i)), 8, 6), (anchorNo s, 16, 2), (b2n (spareReady s), 18, 1),
      (maskBy 4 (fun q => (anchorIsland s).contains q), 20, 4), (maskBy 16 (tget false s.fen.fencedOe), 24, 16),
      (maskBy 4 (tget false s.fen.fencedCxl), 40, 4)]) else none),
    (arrAt 0x10 8 3 o).map (fun p => (.all, maskBy 64 (fun j => decide (64 * p.1 + j < 160) && coreFenced s (64 * p.1 + j)))),
    (arrAt 0x100 16 160 o).map (fun p => (.all, if p.2 = 0 then causeOf s p.1 else tget 0 s.fen.coreTime p.1)),
    cntAt s 0xC00 cFen 0 o]

/-- Code of the partner's pattern (Table 16.11). -/
def patternCode : Pattern → Nat
  | .absent => 0 | .hz256 => 1 | .hz1024 => 2 | .hz4096 => 3

/-- DPC_PAIR (Tables 16.11, 16.12). RESILVER_MARK is a byte address: the mark counts granules of 16 KiB. -/
def pairWord (s : State) (o : Nat) : Option (Scope × Nat) :=
  let p := s.pair
  firstOf [
    (if o = 0 then some (.all, pk [(b2n p.enable, 0, 1), (b2n s.sec.side, 1, 1)]) else none),
    (if o = 8 then some (.all, pk ((List.range 4).map (fun q => (tget 0 p.groups q, 16 * q, 12)))) else none),
    (if o = 0x20 then some (.all, pk [(pairCode p.st, 0, 3), (patternCode p.partner, 3, 2), (b2n p.ownOk, 5, 1),
      (b2n (pairUp s), 6, 1), (b2n p.intlkFault, 7, 1), (b2n p.memoryCurrent, 8, 1), (min 0xFFFF p.digestLagNs, 16, 16)])
     else none),
    (if o = 0x28 then some (.all, p.stateTime) else none),
    (if o = 0x30 then some (.all, pk [(16384 * p.mark, 0, 41)]) else none),
    cntAt s 0x100 cPair 0 o]

/-- DPC_CLK_STATUS, DPC_RST_STATUS, DPC_AON (Tables 17.9 to 17.11). -/
def clkWord (s : State) (o : Nat) : Option (Scope × Nat) :=
  let c := s.clk
  let v : Option Nat := match o with
    | 0 => some (pk [(maskBy 4 (fun q => (tget {} c.q q).pllLock), 0, 4), (b2n c.refPresent, 4, 1), (b2n c.aonOscOk, 5, 1),
        (b2n c.aonClkLost, 6, 1), (min (2 ^ 32 - 1) c.gateRefused, 32, 32)])
    | 0x100 => some (pk [(c.lastLevel, 0, 2), (causeCode c.lastCause, 2, 4), (b2n c.memoryKept, 6, 1),
        (min (2 ^ 32 - 1) c.warmResets, 32, 32)])
    | 0x108 => some c.releaseTime
    | 0x200 => some (pk [(min (2 ^ 32 - 1) c.operatingHours, 0, 32), (min (2 ^ 32 - 1) c.powerCycles, 32, 32)])
    | 0x208 => some (pk [(b2n c.cmpOvertemp, 0, 1), (b2n c.cmpSupply, 1, 1), (b2n c.cmpWake, 2, 1), (b2n c.cmpFreeze, 3, 1),
        (b2n c.tripped, 4, 1), (b2n c.supplyLost, 5, 1)])
    | 0x210 => some (ticksNow s)
    | _ => none
  v.map (fun x => (.all, x))

/-- DPC_OBS, device instance (Tables 18.8, 18.10). -/
def obsWord (s : State) (o : Nat) : Option (Scope × Nat) :=
  firstOf [
    (arrAt 0 8 32 o).map (fun p => (.all, obsSat s p.1)),
    (arrAt 0x100 8 16 o).map (fun p =>
      let x := tget (0, 0, 0) s.obs.obsSel p.1
      (.all, pk [(x.1, 0, 2), (x.2.1, 2, 2), (x.2.2, 4, 12)]))]

/-- DPC_REC (Table 18.11). -/
def recWord (s : State) (o : Nat) : Option (Scope × Nat) :=
  match o with
  | 0 => some (.all, pk [(s.obs.periodMin, 0, 11)])
  | 8 => some (.all, s.obs.windowLd.toNat)
  | 0x10 => some (.all, pk [(writePtr s, 0, 21), (b2n s.obs.full, 21, 1), (b2n s.obs.clearing, 22, 1), (s.obs.clears, 32, 32)])
  | 0x18 => some (.all, s.obs.lost)
  | _ => none

/-- DPC_MAP (Tables 19.4 to 19.6). -/
def mapWord (s : State) (d o : Nat) : Option (Scope × Nat) :=
  match o with
  | 0 => some (.self d, pk [(1, 0, 16), (b2n (s.map.priv.getLsbD d), 16, 1), (d, 17, 6)])
  | 8 => some (.all, s.map.priv.toNat)
  | 0x10 => some (.self d, pk [(b2n (tget false s.map.badWrite d), 0, 1), (b2n (tget false s.map.badRead d), 1, 1),
      (tget 0 s.map.lastOffset d, 8, 24)])
  | _ => none

/-- Back-invalidate snoops outstanding on a CXL port (BISNP_OUT). -/
def bisnpOut (s : State) (p : Nat) : Nat :=
  (s.dir.lines.map (fun (c : Nat × Line) =>
    (c.2.recalls.filter (fun r => match r.holder with | .ld d => d / 16 == p | _ => false)).length)).foldl (· + ·) 0

/-- DPC_CXL_PORT (Table 13.6). -/
def cxlPortWord (s : State) (p w : Nat) : Nat :=
  let x := cxlPort s p
  match w with
  | 0 => pk [(x.linkState, 0, 3), (x.version, 3, 2), (x.width, 5, 5), (x.rateGts, 16, 7), (b2n x.mld, 23, 1),
             (b2n x.enable, 24, 1), (b2n x.mldAllow, 25, 1), (x.ldCount, 32, 5)]
  | 1 => pk [(x.dcResponseMs, 0, 16), (min 512 (bisnpOut s p), 16, 10)]
  | 2 => x.stateTime
  | _ => 0

/-- DPC_CXL_LD (Table 13.7). -/
def cxlLdWord (s : State) (d w : Nat) : Nat :=
  let x := logDev s d
  if w = 0 then
    pk [(x.tenant, 0, 10), (b2n x.bound, 10, 1), (b2n x.biEnabled, 11, 1), (b2n x.dcd, 12, 1),
        (((List.range 32).filter (fun g => decide ((wdw s d g).st = .open_))).length, 16, 6)]
  else x.resetTime

/-- DPC_CXL_WIN (Table 13.8). -/
def cxlWinWord (s : State) (d g w : Nat) : Nat :=
  let x := wdw s d g
  let st : Nat := match x.st with | .empty => 0 | .granted => 1 | .open_ => 2 | .cut => 3
  if w = 0 then pk [(x.extent, 0, 14), (x.mode, 14, 2), (st, 16, 3), (b2n x.balloon, 19, 1), (x.region, 20, 3)]
  else pk [(x.dpaBase, 0, 13), (x.size, 13, 13)]

/-- DPC_CXL (Tables 13.6 to 13.9). -/
def cxlWord (s : State) (o : Nat) : Option (Scope × Nat) :=
  firstOf [
    (arrAt 0 32 4 o).map (fun p => (.all, cxlPortWord s p.1 p.2)),
    (arrAt 0x100 16 64 o).map (fun p => (.self p.1, cxlLdWord s p.1 p.2)),
    (arrAt 0x1000 16 2048 o).map (fun p => (.self (p.1 / 32), cxlWinWord s (p.1 / 32) (p.1 % 32) p.2)),
    (arrAt 0x9000 256 4 o).map (fun p => (.all, cntGet s cCxl p.1 p.2))]

/-- DPC_SCH (Tables 10.10 to 10.14). CLEAR_MAX reads 0. -/
def schWord (s : State) (o : Nat) : Option (Scope × Nat) :=
  firstOf [
    (if o = 0 then some (.all, pk [(s.sch.ageLimitMs, 0, 16), (s.sch.fitHorizonUs, 16, 16), (s.sch.shedMarginC, 32, 8)])
     else none),
    (arrAt 0x1000 16 256 o).map (fun p => (.all, if p.2 = 0 then
      pk [(tget 0x400 s.sch.classRate p.1, 0, 16), (tget 0x7D0 s.sch.classBurstUs p.1, 32, 32)]
      else twos 32 (tget 0 s.sch.classCredit p.1))),
    (arrAt 0x2000 8 1024 o).map (fun p => (.owner p.1, pk [(tget 0 s.sch.groupClass p.1, 0, 8)])),
    (arrAt 0x4000 16 8192 o).map (fun p => (.owner (p.1 / 8), if p.2 = 0 then
      pk [(tget 0 s.sch.qDepth p.1, 0, 32), (min (2 ^ 32 - 1) (tget 0 s.sch.qDelay p.1), 32, 32)]
      else min (2 ^ 32 - 1) (tget 0 s.sch.qMaxDelay p.1))),
    cntAt s 0x30000 cSch 0 o]

/-- DPC_NMO_RWIN_CFG (Table 6.13): ARM and DISARM read 0. -/
def rwinCfgWord (x : Window) (w : Nat) : Nat :=
  match w with
  | 0 => pk [(x.dstPva, 0, 48), (x.tenant, 48, 10)]
  | 1 => pk [(x.length, 0, 41), (x.chunkLog2, 41, 4), (x.red, 48, 8), (b2n x.init, 56, 1)]
  | 2 => pk [(x.contributors, 0, 13), (x.armFault, 18, 2)]
  | _ => pk [(x.notifyPva, 0, 48)]

/-- DPC_NMO_RWIN_STATUS (Table 6.14). -/
def rwinStatusWord (x : Window) (w : Nat) : Nat :=
  let st : Nat := match x.st with | .idle => 0 | .arming => 1 | .armed => 2 | .complete => 3 | .disarmed => 4
  match w with
  | 0 => pk [(st, 0, 3), (x.generation.toNat, 32, 32)]
  | 1 => pk [(x.chunksDone, 0, 32), (x.chunksFailed, 32, 32)]
  | 2 => x.duplicates
  | _ => x.armTime

/-- DPC_NMO (Tables 6.13 to 6.15). -/
def nmoWord (s : State) (o : Nat) : Option (Scope × Nat) :=
  firstOf [
    (arrAt 0 32 1024 o).map (fun p => (.tenant (window s p.1).tenant, rwinCfgWord (window s p.1) p.2)),
    (arrAt 0x8000 32 1024 o).map (fun p => (.tenant (window s p.1).tenant, rwinStatusWord (window s p.1) p.2)),
    cntAt s 0x10000 cNmo 0 o]

/-- DPC_SYN_CHAN (Table 9.10). -/
def chanWord (s : State) (c : Nat) : Nat :=
  let x := chanOf s c
  pk [(b2n x.job.isSome, 0, 1), (b2n x.sense, 1, 1), (x.members, 8, 8), (x.arrived.length, 16, 8),
      (((x.job.bind (job s)).map (·.group)).getD 0, 24, 10), (x.logical, 34, 4)]

/-- DPC_SYN_OBJ (Table 9.11): REGISTER and DEREGISTER read 0. -/
def objWord (x : SyncObj) (w : Nat) : Nat :=
  match w with
  | 0 => pk [(x.wordPva, 0, 48), (x.tenant, 48, 10)]
  | 1 => pk [(x.memListPva, 0, 48), (x.members, 48, 9)]
  | 2 => pk [(x.st, 2, 2), (x.regFault, 4, 2)]
  | _ => x.stateTime

/-- DPC_SYN (Tables 9.8 to 9.12). -/
def synWord (s : State) (o : Nat) : Option (Scope × Nat) :=
  firstOf [
    (if o = 0 then some (.ctrl, pk [(s.core.watchdogMs, 0, 16)]) else none),
    (if o = 0x10 then some (.priv, s.core.wdogTime) else none),
    (if o = 0x18 then some (.priv, pk [(s.core.wdogCore, 0, 8), (s.core.wdogCtx, 8, 3), (s.core.wdogCause, 11, 2),
      (s.core.wdogNumber, 13, 6), (s.core.wdogGroup, 19, 10)]) else none),
    (arrAt 0x100 8 16 o).map (fun p => (.priv, chanWord s p.1)),
    cntAt s 0x200 cSyn 0 o,
    (arrAt 0x10000 32 1024 o).map (fun p => (.tenant (syncObj s p.1).tenant, objWord (syncObj s p.1) p.2))]

/-- DPC_POL (Table 10.15). -/
def polWord (s : State) (o : Nat) : Option (Scope × Nat) :=
  firstOf [
    (arrAt 0 16 4096 o).map (fun p =>
      let x : Contract := tget {} s.sch.contracts p.1
      (.priv, if p.2 = 0 then pk [(x.tenant, 0, 10), (b2n x.anyTenant, 10, 1), (x.port, 11, 6), (b2n x.anyPort, 17, 1),
          (b2n x.valid, 18, 1), (x.rateMbps, 32, 32)]
        else pk [(x.burstB, 0, 32), (tokensNow s x / 1000, 32, 32)])),
    (arrAt 0x10000 8 4096 o).map (fun p => (.priv, cntGet s cOne 6 p.1)),
    (if o = 0x18000 then some (.priv, cntGet s cOne 5 0) else none)]

/-- DPC_SEC_TENANT (Table 15.10). -/
def secTenantWord (s : State) (t w : Nat) : Nat :=
  let x := tenant s t
  let st : Nat := match x.st with | .free => 0 | .active => 1 | .rekeying => 2 | .revoking => 3 | .scrubbing => 4
  let slot (y : SlotSt) : Nat := match y with | .empty => 0 | .active => 1 | .revoking => 2
  if w = 0 then
    pk [(st, 0, 3), (x.epoch, 8, 8), (slot x.slotEven, 16, 2), (slot x.slotOdd, 18, 2), (b2n x.contentKey, 20, 1),
        (b2n x.memoryOnly, 21, 1), (outstandingSum s t, 32, 32)]
  else x.stateTime

/-- DPC_SEC (Tables 15.9 to 15.11). -/
def secWord (s : State) (o : Nat) : Option (Scope × Nat) :=
  firstOf [
    (if o = 0 then some (.all, pk [(s.sec.releaseLevel, 0, 32), (s.sec.bootSlot, 32, 1), (b2n s.sec.identityFault, 33, 1),
      (b2n s.sec.keysZeroised, 34, 1), (sessionCount s, 40, 5)]) else none),
    cntAt s 0x100 cSec 0 o,
    (arrAt 0x10000 16 1024 o).map (fun p => (.tenant p.1, secTenantWord s p.1 p.2))]

/-- DPC_QUE_GROUP_CFG and DPC_QUE_GROUP_STATUS (Tables 5.17, 5.18). -/
def groupCfgWord (x : Group) (w : Nat) : Nat :=
  let o : Nat × Nat := match x.owner with | .host d => (0, d) | .endpoint i => (1, i) | .pool => (2, 0)
  if w = 0 then pk [(x.tenant, 0, 10), (x.quadrant, 10, 2), (o.1, 12, 2), (o.2, 16, 16)] else pk [(x.dbPva, 0, 48)]

def groupStatusWord (s : State) (g w : Nat) : Nat :=
  let x := group s g
  let st : Nat := match x.st with
    | .unbound => 0 | .active => 1 | .quiescing => 2 | .lapsed => 3 | .orphaned => 4 | .releasing => 5
  let paused := (s.que.jobs.filter (fun c => match c.2 with
    | some j => j.group == g && j.record.isSome | none => false)).length
  if w = 0 then
    pk [(st, 0, 3), (b2n x.renewSeen, 3, 1), (x.held.length, 16, 10), (remainingMs s (.grp g), 32, 16), (paused, 48, 16)]
  else x.stateTime

/-- DPC_QUE_Q (Table 5.20): RESTART reads 0. -/
def queueWord (x : Queue) (w : Nat) : Nat :=
  let st : Nat := match x.st with | .disabled => 0 | .running => 1 | .stopped => 2 | .disabling => 3
  match w with
  | 0 => x.sqBase
  | 1 => x.cqBase
  | 2 => pk [(x.sqLog, 0, 5), (x.cqLog, 5, 5), (x.placement, 10, 2), (x.ringEndpoint, 16, 16), (x.pasid, 32, 20)]
  | 3 => pk [(x.notifyKind, 0, 2), (x.msixVector, 2, 11), (x.notifyEndpoint, 16, 16), (x.coalesceCount, 32, 8),
             (x.coalesceUs, 40, 12)]
  | 4 => pk [(x.notifyPva, 0, 48)]
  | 5 => pk [(b2n x.enable, 0, 1), (x.defaultLimitMs, 16, 16), (x.cqHead.toNat, 32, 32)]
  | 6 => pk [(st, 0, 3), (x.fault, 8, 8), (inFlight x, 16, 7), (x.sqHead.toNat, 32, 32)]
  | _ => pk [(x.sqTail.toNat, 0, 32), (x.cqTail.toNat, 32, 32)]

/-- DPC_QUE (Tables 5.17 to 5.21). -/
def queWord (s : State) (o : Nat) : Option (Scope × Nat) :=
  firstOf [
    (arrAt 0 16 1024 o).map (fun p => (.owner p.1, groupCfgWord (group s p.1) p.2)),
    (arrAt 0x4000 16 1024 o).map (fun p => (.owner p.1, groupStatusWord s p.1 p.2)),
    (arrAt 0x10000 64 8192 o).map (fun p => (.owner (p.1 / 8), queueWord (queue s p.1) p.2)),
    cntAt s 0x90000 cQue 0 o]

/-- DPC_ROF_PORT (Table 11.7). -/
def portWord (s : State) (n w : Nat) : Nat :=
  let x := port s n
  match w with
  | 0 => pk [(b2n x.enable, 0, 1), (b2n x.pair, 1, 1), (x.widthPolicy, 2, 2), (x.minWidthLog2, 4, 3), (b2n x.srcCheck, 7, 1),
             (x.srcBase.toNat, 16, 16), (x.srcMask.toNat, 32, 16)]
  | 1 => pk [(x.laneDisable.toNat, 0, 16), (x.parkHoldUs, 16, 16)]
  | 2 => pk [(portCode x.st, 0, 3), ((lanesOf x.txMask).length, 8, 5), (x.txMask.toNat, 16, 16), (x.rxReady.toNat, 32, 16),
             (x.laneFault.toNat, 48, 16)]
  | 3 => pk [(x.partnerId, 0, 16), (b2n x.partnerPair, 16, 1)]
  | 4 => x.stateTime
  | 5 => pk ((List.range 4).map (fun v => (qdepth s n v, 16 * v, 16)))
  | 6 => pk ((List.range 4).map (fun v => (qdepth s n (4 + v), 16 * v, 16)))
  | _ => 0

/-- DPC_ROF (Tables 11.6 to 11.11). -/
def rofWord (s : State) (o : Nat) : Option (Scope × Nat) :=
  let r := s.rof
  firstOf [
    (if o = 0 then some (.all, pk [(r.adaptBiasW, 0, 16), (r.auditUs, 16, 16), (r.retrainDrainUs, 32, 10),
      (r.trainLimitMs, 48, 16)]) else none),
    (if o = 8 then some (.all, pk [(s.sec.endpointBase, 0, 16)]) else none),
    (arrAt 0x10000 64 64 o).map (fun p => (.all, portWord s p.1 p.2)),
    (arrAt 0x20000 64 64 o).map (fun p =>
      let v := vcOf s p.1 p.2
      (.all, pk [(rxWords s p.1 p.2, 0, 16), (v.txWindow, 16, 16), (v.txAvail, 32, 16), (v.txLeaked, 48, 16)])),
    (arrAt 0x40000 256 64 o).map (fun p => (.all, pcntWord s p.1 p.2)),
    (arrAt 0x100000 8 65536 o).map (fun p => (.all, (tget 0 r.route p.1).toNat)),
    (arrAt 0x180000 16 4096 o).map (fun p =>
      let x : BitVec 64 × Bool × Bool := tget (0, false, false) r.mcast p.1
      (.all, if p.2 = 0 then x.1.toNat else pk [(b2n x.2.1, 0, 1), (b2n x.2.2, 1, 1)]))]

/-- DPC_MEM_STACK (Table 14.8). -/
def stackWord (s : State) (n w : Nat) : Nat :=
  let x := stack s n
  let st : Nat := match x.st with | .inService => 0 | .degraded => 1 | .retiring => 2 | .retired => 3 | .failed => 4
  match w with
  | 0 => pk [(st, 0, 3), (x.tempC, 8, 8), (remapFullPcs s n, 16, 7), (remapUsed s n, 32, 11)]
  | 1 => cntGet s cOne 7 (2 * n)
  | 2 => cntGet s cOne 7 (2 * n + 1)
  | _ => x.stateTime

/-- DPC_MEM_MIG (Table 14.9): an idle slot holds no map. -/
def migWord (s : State) (k w : Nat) : Nat :=
  let m := mig s k
  match w with
  | 0 => if k < 4 then pk [(m.st, 0, 2), (m.stack, 2, 5), (k, 8, 2)] else pk [(m.st, 0, 2), (m.extent, 16, 14)]
  | 1 => pk [(m.total, 0, 32), (m.moved, 32, 32)]
  | 2 => m.startTime
  | _ => 0

/-- The 32 bytes of a memory error record (Table 14.11). -/
def errBytes (e : MemErr) : List Byte :=
  leBytes 8 e.time ++ leBytes 8 (e.ppa % 2 ^ 41 + e.kind % 256 * 2 ^ 48) ++ leBytes 2 (e.pc % 2048) ++ leBytes 2 e.row ++
  leBytes 1 (e.bank % 16 + e.symbols % 16 * 16) ++ leBytes 1 0 ++ leBytes 2 (e.tenant % 1024) ++ leBytes 1 (e.source % 8) ++
  leBytes 3 0 ++ leBytes 4 e.sourceId

/-- DPC_MEM_BLOCK (Table 14.12). -/
def blockWord (b : BlockEnt) : Nat :=
  let pl : Nat × Nat := match b.place with | .deviceWide => (0, 0) | .localTo q => (1, q.val)
  if !b.valid then 0
  else pk [(1, 0, 1), (b2n b.system, 1, 1), (b2n b.tag, 2, 1), (b2n b.light, 3, 1), (pl.1, 4, 1), (pl.2, 5, 2),
           (b.grainLog2, 8, 4), (b.frame, 16, 13), (b.extent, 32, 14)]

/-- DPC_MEM (Tables 14.5 to 14.13). -/
def memWord (s : State) (o : Nat) : Option (Scope × Nat) :=
  let m := s.mem
  let ret (k b : Nat) : Nat := match tget none (mig s k).map b with
    | some x => pk [(x.1 % 8, 0, 3), (x.2, 3, 13), (1, 16, 1)]
    | none => 0
  let active (n : Nat) : Bool := (stack s n).trained && (match (stack s n).st with | .retired => false | .failed => false | _ => true)
  firstOf [
    (if o = 0 then some (.all, pk [(m.patrolHours, 0, 8), (m.actThreshold, 8, 16), (m.ceRemap, 24, 8), (m.migratePct, 32, 8)])
     else none),
    (if o = 8 then some (.all, pk [(m.rate, 0, 2), (b2n m.fillDone, 2, 1),
      (((List.range 32).filter (fun n => decide ((stack s n).st = .retired))).length, 8, 3), (maskBy 32 active, 32, 32)])
     else none),
    (if o = 0x10 then some (.priv, pk [(m.errHead.toNat, 0, 8), (m.errTail.toNat, 8, 8), (b2n m.errOverflow, 16, 1)]) else none),
    (if o = 0x18 then some (.priv, cntGet s cOne 4 0) else none),
    (arrAt 0x100 32 32 o).map (fun p => (.all, stackWord s p.1 p.2)),
    (arrAt 0x600 32 5 o).map (fun p => (.all, migWord s p.1 p.2)),
    cntAt s 0x700 cMem 0 o,
    (arrAt 0x2000 32 256 o).map (fun p => (.priv, match tget none m.errLog p.1 with
      | some e => leAt (errBytes e) (8 * p.2) 8
      | none => 0)),
    (arrAt 0x10000 8 8192 o).map (fun p => (.priv, blockWord (block s p.1))),
    (arrAt 0x20000 65536 4 o).map (fun p => (.priv, ret p.1 p.2))]

/-- DPC_XLT (Tables 3.9 to 3.13). -/
def xltWord (s : State) (q o : Nat) : Option (Scope × Nat) :=
  let u := xunit s q
  let count {α : Type} (l : List α) (p : α → Bool) : Nat := (l.filter p).length
  firstOf [
    (if o = 0 then some (.ctrl, u.drainBoundUs.toNat) else none),
    (if o = 8 then some (.all, pk [(count u.tlb (fun e => !e.draining), 0, 14), (invPending s q, 24, 5),
      (count u.tlb (·.draining), 32, 14), (count u.atc (fun e => !e.draining), 48, 13)]) else none),
    (if o = 0x10 then some (.priv, pk [(u.faultHead.toNat, 0, 6), (u.faultTail.toNat, 8, 6), (b2n u.overflow, 16, 1)]) else none),
    (if o = 0x18 then some (.priv, cntGet s cOne q 0) else none),
    (arrAt 0x100 32 64 o).map (fun p => (.priv, match tget none u.faultLog p.1 with
      | some f => leAt (faultBytes f) (8 * p.2) 8
      | none => 0)),
    (arrAt 0x10000 16 1024 o).map (fun p =>
      let r := roots s p.1
      (.tenant p.1, if p.2 = 0 then pk [(b2n r.activeSel, 0, 1), (b2n r.switchPending, 1, 1), (r.rootA, 16, 26)]
        else pk [(r.tableEpoch, 0, 16), (r.rootB, 16, 26)]))]

/-- DPC_DIR (Tables 4.10 to 4.12). -/
def dirWord (s : State) (q o : Nat) : Option (Scope × Nat) :=
  let held (p : Line → Bool) : Nat := (s.dir.lines.filter (fun (c : Nat × Line) => p c.2 && homeOf s (64 * c.1) == q)).length
  firstOf [
    (if o = 0 then some (.ctrl, pk [(tget 0xC8 s.dir.recallTimeoutUs q, 0, 13)]) else none),
    (if o = 8 then some (.all, pk [(held (fun x => decide (x.dir.st ≠ .i)), 0, 25), (min 4096 (busyLines s q), 32, 13),
      (prioPtr s q, 48, 3), (held (fun x => decide (x.dir.st = .u)), 51, 13)]) else none),
    cntAt s 0x100 cDir q o]

/-- DPC_E2E (Tables 12.9 to 12.12): the collective table stands in Q0's block alone. -/
def e2eWord (s : State) (q o : Nat) : Option (Scope × Nat) :=
  let e := s.e2e
  firstOf [
    (if o = 0 then some (.all, pk [(tget 0x32 e.resendUs q, 0, 10), (tget 0x1F4 e.resendLimitUs q, 16, 10),
      (tget 0x14 e.reasmUs q, 32, 8)]) else none),
    (if o = 0x10 then some (.all, pk [(e.parent, 0, 6), (b2n e.parentValid, 6, 1), (b2n e.root, 7, 1), (e.alt, 8, 6),
      (b2n e.altValid, 14, 1), (b2n e.locked, 16, 1), (b2n e.holdover, 17, 1), (e.depth, 24, 8), (e.offsetPs.toNat, 32, 32)])
     else none),
    (if o = 0x18 then some (.all, e.lockTime) else none),
    cntAt s 0x100 cE2e q o,
    (if q = 0 then (arrAt 0x1000 16 1024 o).map (fun p => (.tenant (window s p.1).tenant, if p.2 = 0 then
      pk [(tget 0 e.collDeadline p.1, 0, 32), (tget 0 e.collQ p.1, 32, 13), (b2n (tget false e.collValid p.1), 45, 1)]
      else pk [(tget 0 e.collMissing p.1, 0, 48)])) else none)]

/-- A counter of Table 18.2; what a core or an engine holds now counts in the busy counters up to the reading (R458, R460). -/
def utilWord (s : State) (q i : Nat) : Nat :=
  satAdd (2 ^ 64 - 1) (cntGet s cUtil q i) (if i < 4 then busyNow s q i else 0)

/-- A quadrant window (Table 19.2). -/
def quadWord (s : State) (q o : Nat) : Option (Scope × Nat) :=
  if o < 0x20000 then xltWord s q o
  else if o < 0x21000 then dirWord s q (o - 0x20000)
  else if o < 0x30000 then none
  else if o < 0x38000 then e2eWord s q (o - 0x30000)
  else if o < 0x40000 then none
  else firstOf [(arrAt 0x40000 8 32 o).map (fun p => (.all, utilWord s q p.1)), cntAt s 0x40100 cOps q o]

/-- DPC_ARI (Table 8.7). -/
def ariWord (s : State) (o : Nat) : Option (Scope × Nat) :=
  match o with
  | 0 => some (.priv, b2n s.core.srFixed)
  | 8 => some (.priv, s.core.srSeed.toNat)
  | _ => none

/-- The register of Table 19.8 at a BAR0 offset that is a multiple of 8, as logical device `d` names its SELF copies: scope
and value; none where no register lies. MSI-X and component registers are apart. -/
def regAt (s : State) (d o : Nat) : Option (Scope × Nat) :=
  if o < 0x80 then some (.all, capWord s (o / 8))
  else if o < 0x1000 then none
  else if o < 0x2000 then pmmWord s d (o - 0x1000)
  else if o < 0x3000 then (arrAt 0x2000 16 160 o).map (fun p => (.all, coreWord s p.1 p.2))
  else if o < 0x4000 then ariWord s (o - 0x3000)
  else if o < 0x5000 then pwrWord s (o - 0x4000)
  else if o < 0x6000 then fenWord s (o - 0x5000)
  else if o < 0x7000 then pairWord s (o - 0x6000)
  else if o < 0x8000 then clkWord s (o - 0x7000)
  else if o < 0x9000 then obsWord s (o - 0x8000)
  else if o < 0xA000 then recWord s (o - 0x9000)
  else if o < 0xB000 then mapWord s d (o - 0xA000)
  else if o < 0x20000 then none
  else if o < 0x30000 then cxlWord s (o - 0x20000)
  else if o < 0x40000 then none
  else if o < 0x80000 then schWord s (o - 0x40000)
  else if o < 0xA0000 then nmoWord s (o - 0x80000)
  else if o < 0xC0000 then synWord s (o - 0xA0000)
  else if o < 0xE0000 then polWord s (o - 0xC0000)
  else if o < 0x100000 then secWord s (o - 0xE0000)
  else if o < 0x200000 then queWord s (o - 0x100000)
  else if o < 0x400000 then rofWord s (o - 0x200000)
  else if o < 0x480000 then memWord s (o - 0x400000)
  else if o < 0x800000 then none
  else if o < 0xC00000 then quadWord s ((o - 0x800000) / 0x100000) ((o - 0x800000) % 0x100000)
  else none

end Sys2Proof.Machine
end

