-- ==== Sys2Proof/Machine/Registers.lean ====
section
/-! DEFINITION. Register accesses (chapter 19; opcode-table rows SET_PRIV and REGISTER_WRITE): who may read and write what
(R477 to R484), and what a write of each writable field does. -/

namespace Sys2Proof.Machine

/-- SET_PRIV: the fabric manager sets or clears a logical device's bit in DPC_MAP_PRIV (R483). -/
def execSetPriv (d : Fin 64) (on : Bool) (s : State) : Ans :=
  let bit : BitVec 64 := 1#64 <<< d.val
  .next (served s (fmDone .ok [] { s with map := { s.map with
    priv := if on then s.map.priv ||| bit else s.map.priv &&& ~~~bit } }))

/-! Scopes (R482, R483). -/

/-- A logical device owns a group's entries. -/
def ownsGroup (s : State) (d g : Nat) : Bool := decide ((group s g).st ≠ .unbound) && decide ((group s g).owner = .host d)

/-- A read within the reader's scope; the management network reads every register. -/
def mayRead (s : State) (a : RegAccess) (sc : Scope) : Bool :=
  a.mgmt ||
  match sc with
  | .all => true
  | .ctrl => true
  | .priv => s.map.priv.getLsbD a.ld.val
  | .self k => k == a.ld.val
  | .owner g => ownsGroup s a.ld.val g
  | .tenant t => (logDev s a.ld.val).bound && (logDev s a.ld.val).tenant == t

/-- Entries of TENANT scope that a host may write: windows, their collectives, objects (R180, R245, R327). -/
def tenantWritable (o : Nat) : Bool :=
  (decide (0x80000 ≤ o) && decide (o < 0x88000)) || (decide (0xB0000 ≤ o) && decide (o < 0xB8000)) ||
  (decide (0x831000 ≤ o) && decide (o < 0x835000))

/-- A write within the writer's scope; the management network writes the queue registers of bound groups that no host owns
(Table 5.1), windows, collectives and objects of tenants that no logical device is bound to (R180, R245, R327), and every other
register. -/
def mayWrite (s : State) (a : RegAccess) (sc : Scope) (o : Nat) : Bool :=
  if a.mgmt then
    match sc with
    | .owner g => decide ((group s g).st ≠ .unbound) && (match (group s g).owner with | .host _ => false | _ => true)
    | .tenant t => !(tenantWritable o) || !(hasHost s t)
    | _ => true
  else
    match sc with
    | .all => false
    | .ctrl => s.map.priv.getLsbD a.ld.val
    | .tenant _ => mayRead s a sc && tenantWritable o
    | _ => mayRead s a sc

/-! Effects of writes, by register. -/

/-- DPC_QUE_Q: the ring and notification words are written while the queue is DISABLED (R153); Word 5 enables, disables,
restarts. A write that carries ENABLE and RESTART enables first and then restarts; one with ENABLE 0 restarts nothing (DESIGN
CHOICE: the manual gives the two no order). -/
def writeQueue (n w v : Nat) (s : State) : State :=
  let x := queue s n
  let cfg (y : Queue) : State := if x.st = .disabled then setQueue n y s else s
  match w with
  | 0 => cfg { x with sqBase := v }
  | 1 => cfg { x with cqBase := v }
  | 2 => cfg { x with sqLog := field v 0 5, cqLog := field v 5 5, placement := field v 10 2, ringEndpoint := field v 16 16
                      pasid := field v 32 20 }
  | 3 => cfg { x with notifyKind := field v 0 2, msixVector := field v 2 11, notifyEndpoint := field v 16 16
                      coalesceCount := field v 32 8, coalesceUs := field v 40 12 }
  | 4 => cfg { x with notifyPva := field v 0 48 }
  | 5 =>
    let s := setQueue n { x with defaultLimitMs := field v 16 16 } s
    let s := if bitOf v 0 then enableQueue n s else disableQueue n s
    if bitOf v 1 && bitOf v 0 then restartQueue n s else s
  | _ => s

/-- DPC_NMO_RWIN_CFG: written in IDLE, COMPLETE or DISARMED; in ARMING and ARMED only a disarm is taken (R181). -/
def writeWindow (w i v : Nat) (s : State) : State :=
  let x := window s w
  if !(winFree x) then (if i = 2 ∧ bitOf v 17 then disarmWindow w s else s)
  else
    match i with
    | 0 => setWindow w { x with dstPva := field v 0 48 } s
    | 1 => setWindow w { x with length := field v 0 41, chunkLog2 := field v 41 4, red := field v 48 8, init := bitOf v 56 } s
    | 2 =>
      let s := setWindow w { x with contributors := field v 0 13 } s
      if bitOf v 16 then armWindow w s else s
    | _ => setWindow w { x with notifyPva := field v 0 48 } s

/-- DPC_SYN_OBJ: written in FREE; a registered object takes only DEREGISTER (R246), one whose list is being read nothing. -/
def writeObj (o i v : Nat) (s : State) : State :=
  let x := syncObj s o
  if x.reading then s
  else if x.st ≠ 0 then (if i = 2 ∧ bitOf v 1 then deregisterObj o s else s)
  else
    match i with
    | 0 => setObj o { x with wordPva := field v 0 48 } s
    | 1 => setObj o { x with memListPva := field v 0 48, members := field v 48 9 } s
    | 2 => if bitOf v 0 then registerObj o s else s
    | _ => s

/-- DPC_E2E_COLL: written while its window is IDLE, COMPLETE or DISARMED (R327). -/
def writeColl (w i v : Nat) (s : State) : State :=
  let e := s.e2e
  if !(winFree (window s w)) then s
  else if i = 0 then
    { s with e2e := { e with collDeadline := tput 0 e.collDeadline w (field v 0 32), collQ := tput 0 e.collQ w (field v 32 13)
                             collValid := tput false e.collValid w (bitOf v 45) } }
  else { s with e2e := { e with collMissing := tput 0 e.collMissing w (field v 0 48) } }

/-- DPC_XLT_CTRL, DPC_XLT_FAULT_CTRL (Tables 3.9, 3.11) and DPC_DIR_CTRL (Table 4.10) of a quadrant. -/
def writeQuad (q o v : Nat) (s : State) : State :=
  let u := xunit s q
  if o = 0 then setXunit q { u with drainBoundUs := BitVec.ofNat 8 v } s
  else if o = 0x10 then
    setXunit q { u with faultTail := BitVec.ofNat 6 (field v 8 6), overflow := u.overflow && !(bitOf v 16) } s
  else if o = 0x20000 then
    { s with dir := { s.dir with recallTimeoutUs := tput 0xC8 s.dir.recallTimeoutUs q (field v 0 13) } }
  else s

/-- DPC_MEM_ERR_CTRL (Table 14.7). -/
def writeErrCtrl (v : Nat) (s : State) : State :=
  { s with mem := { s.mem with errTail := BitVec.ofNat 8 (field v 8 8), errOverflow := s.mem.errOverflow && !(bitOf v 16) } }

/-- DPC_MAP_ERR: both flags are cleared by a 1 (Table 19.6). -/
def writeMapErr (d v : Nat) (s : State) : State :=
  let m := s.map
  { s with map := { m with badWrite := tput false m.badWrite d (tget false m.badWrite d && !(bitOf v 0))
                           badRead := tput false m.badRead d (tget false m.badRead d && !(bitOf v 1)) } }

/-- A write that is within scope: only writable fields take it (R478, R482). -/
def writeReg (d o v : Nat) (s : State) : State :=
  if o = 0x1000 then pmmBeat d (v % 2 ^ 32) s
  else if o = 0xA010 then writeMapErr d v s
  else if o = 0xA0000 then { s with core := { s.core with watchdogMs := v % 65536 } }
  else if o = 0x400010 then writeErrCtrl v s
  else if 0x800000 ≤ o ∧ (o - 0x800000) % 0x100000 < 0x21000 then writeQuad ((o - 0x800000) / 0x100000) ((o - 0x800000) % 0x100000) v s
  else
    match arrAt 0x44000 16 8192 o, arrAt 0x80000 32 1024 o, arrAt 0xB0000 32 1024 o, arrAt 0x110000 64 8192 o,
          arrAt 0x831000 16 1024 o with
    | some p, _, _, _, _ =>
      if p.2 = 1 ∧ bitOf v 32 then { s with sch := { s.sch with qMaxDelay := tput 0 s.sch.qMaxDelay p.1 0 } } else s
    | _, some p, _, _, _ => writeWindow p.1 p.2 v s
    | _, _, some p, _, _ => writeObj p.1 p.2 v s
    | _, _, _, some p, _ => writeQueue p.1 p.2 v s
    | _, _, _, _, some p => writeColl p.1 p.2 v s
    | _, _, _, _, _ => s

/-! BAR0. -/

/-- Regions whose layout is the CXL or PCIe specification's, one copy per logical device: component registers, MSI-X table,
pending bits. -/
def isComp (o : Nat) : Bool := decide (0x10000 ≤ o) && decide (o < 0x20000)
def isMsix (o : Nat) : Bool := decide (0x30000 ≤ o) && decide (o < 0x38000)
def isPba (o : Nat) : Bool := decide (0x38000 ≤ o) && decide (o < 0x38100)

/-- A value that the CXL or PCIe specification settles and this manual leaves open. -/
def viewOpen (o raw : Nat) (s : State) : Nat × State := ((Config.cxlView s.free o raw).toNat, { s with free := s.free + 1 })

/-- The 64-bit word at a multiple of 8 in BAR0, as the reader sees it. -/
def bar0Word (a : RegAccess) (o : Nat) (s : State) : Nat × State :=
  let d := a.ld.val
  if isComp o then viewOpen o (tget 0 s.map.comp (8192 * d + (o - 0x10000) / 8)) s
  else if isMsix o then (tget 0 s.map.msix (8192 * d + (o - 0x30000) / 8), s)
  else if isPba o then viewOpen o 0 s
  else
    match regAt s d o with
    | some (sc, v) => (if mayRead s a sc then v else 0, s)
    | none => (0, s)

/-- An access that breaks R477 is ignored, and flagged for a logical device. -/
def flagBad (a : RegAccess) (write : Bool) (off : Nat) (s : State) : State :=
  if a.mgmt then s else badAccess a.ld.val write off s

/-- Size and alignment of a read (R477). -/
def readFits (off size : Nat) : Bool := (size == 4 || size == 8) && off % size == 0

/-- The part of a word that a read of 4 or 8 bytes returns. -/
def partOf (off size v : Nat) : Nat := if size = 8 then v else field v (8 * (off % 8)) 32

def readBar0 (a : RegAccess) (off : Nat) (s : State) : State :=
  if readFits off a.size then
    let r := bar0Word a (off / 8 * 8) s
    emit (.data (leBytes a.size (partOf off a.size r.1))) r.2
  else emit (.data (List.replicate a.size 0)) (flagBad a false off s)

/-- A write to BAR0 (R477, R478, R482, R484). -/
def writeBar0 (a : RegAccess) (off v : Nat) (s : State) : State :=
  let d := a.ld.val
  if !a.mgmt && writesIgnored s d then s
  else if !(a.size == 8 && off % 8 == 0) then flagBad a true off s
  else if isComp off then
    { s with map := { s.map with comp := tput 0 s.map.comp (8192 * d + (off - 0x10000) / 8) v } }
  else if isMsix off then
    { s with map := { s.map with msix := tput 0 s.map.msix (8192 * d + (off - 0x30000) / 8) v } }
  else
    match regAt s d off with
    | none => s
    | some (sc, _) =>
      if mayWrite s a sc off then writeReg d off v s
      else
        match sc with
        | .owner _ => bump cQue 0 2 s
        | _ => flagBad a true off s

/-! BAR2 (R480, R126). -/

def writeBar2 (a : RegAccess) (off v : Nat) (s : State) : State :=
  let n := off / 8
  if a.size = 8 ∧ off % 8 = 0 ∧ n < 8192 ∧ !a.mgmt ∧ ownsGroup s a.ld.val (n / 8) then doorbell n (BitVec.ofNat 64 v) s
  else bump cQue 0 2 s

/-! BAR4 (R489). -/

/-- The memory-device region's registers (Table 19.7). -/
def isDevice (o : Nat) : Bool :=
  (decide (0x800 ≤ o) && decide (o < 0x850)) || (decide (0x900 ≤ o) && decide (o < 0xD20)) ||
  (decide (0xD80 ≤ o) && decide (o < 0xD88))

/-- The cursor window (Table 18.12): all zeros while the logical device's bit in WINDOW_LD is 0 (R471). -/
def cursorWord (s : State) (d o : Nat) : Nat :=
  let c := (tget 0 s.obs.cursor d).toNat
  if !(s.obs.windowLd.getLsbD d) then 0
  else if o = 0 then c * 32
  else if o = 8 then pk [(writePtr s, 0, 21), (s.obs.clears, 32, 32)]
  else if 0x100 ≤ o ∧ o < 0x500 then leAt (logBytes s) (c * 32 + (o - 0x100)) 8
  else 0

/-- At CXL 1.1 the memory-device region reads 0 and takes no write. -/
def hasDevice (s : State) (d o : Nat) : Bool := isDevice o && decide (2 ≤ versionOf s d)

def readBar4 (a : RegAccess) (off : Nat) (s : State) : State :=
  let d := a.ld.val
  let o := off / 8 * 8
  if !(readFits off a.size) then emit (.data (List.replicate a.size 0)) s
  else
    let r := if hasDevice s d o then viewOpen (0x1000000 + o) (tget 0 s.map.mbox (512 * d + o / 8)) s
      else (cursorWord s d o, s)
    emit (.data (leBytes a.size (partOf off a.size r.1))) r.2

/-- Puts `size` bytes of a value into a word. -/
def putPart (old off size v : Nat) : Nat :=
  if size = 8 then v
  else if off % 8 = 0 then old / 2 ^ 32 * 2 ^ 32 + v % 2 ^ 32
  else old % 2 ^ 32 + v % 2 ^ 32 * 2 ^ 32

def writeBar4 (a : RegAccess) (off v : Nat) (s : State) : State :=
  let d := a.ld.val
  let o := off / 8 * 8
  if !(readFits off a.size) || (!a.mgmt && writesIgnored s d) then s
  else if off = 0 then
    if s.obs.windowLd.getLsbD d then
      { s with obs := { s.obs with cursor := tput 0 s.obs.cursor d (BitVec.ofNat 15 (field v 5 15)) } }
    else s
  else if hasDevice s d o then
    let k := 512 * d + o / 8
    { s with map := { s.map with mbox := tput 0 s.map.mbox k (putPart (tget 0 s.map.mbox k) off a.size v) } }
  else s

/-- A host's back-invalidate enable is taken at CXL 3.1 (Table 13.1). -/
def writeBi (a : RegAccess) (v : Nat) (s : State) : State :=
  let d := a.ld.val
  if !a.mgmt ∧ versionOf s d = 3 then setLogDev d { logDev s d with biEnabled := bitOf v 0 } s else s

/-- A read: data are returned, and no device state changes (R478). -/
def regRead (a : RegAccess) (s : State) : State :=
  match a.place with
  | .bar0 off => readBar0 a off s
  | .bar2 _ => emit (.data (List.replicate a.size 0)) s
  | .bar4 off => readBar4 a off s
  | .biEnable => emit (.data (leBytes a.size (b2n (logDev s a.ld.val).biEnabled))) s

/-- A write of a value. -/
def regWrite (a : RegAccess) (v : Nat) (s : State) : State :=
  match a.place with
  | .bar0 off => writeBar0 a off v s
  | .bar2 off => writeBar2 a off v s
  | .bar4 off => writeBar4 a off v s
  | .biEnable => writeBi a v s

/-- REGISTER_WRITE: a register access, a write or a read; over the management network the anchor carries it out (R17). Every
role reads registers; Table 15.8 names no role that writes them but under the Operator's commands (DEDUCED), and the
others are refused (R401, R483). -/
def execRegisterWrite (a : RegAccess) (s : State) : Ans :=
  .next (live s (
    if a.mgmt && !(anchorServes s) then s
    else if a.mgmt && a.write.isSome && decide (a.role ≠ .operator) then fmDone .policed [] s
    else
      match a.write with
      | some v => regWrite a v.toNat s
      | none => regRead a s))

end Sys2Proof.Machine
end

