-- ==== Sys2Proof/Machine/Reset.lean ====
section
/-! DEFINITION. Clocks, the always-on domain, resets, start-up, dormancy, package pins (chapters 17 and 20; opcode-table rows
PLL_LOCK to ENTER_DORMANT, FA_PRESENCE_CHANGE to SUPPLY_RETURN). -/

namespace Sys2Proof.Machine

/-! Clock domains (R436 to R439). -/

def qclock (s : State) (q : Nat) : QClock := tget {} s.clk.q q
def setQclock (q : Nat) (x : QClock) (s : State) : State := { s with clk := { s.clk with q := tput {} s.clk.q q x } }

/-- PLL_LOCK: the reference is present, and the dividers start at ÷32; the core voltage has been raised by now (R437, R438,
Table 17.6). -/
def execPllLock (q : Fin 4) (now : Nat) (s : State) : Ans :=
  let s1 := advance now s
  .next (live s (
    let s2 := setQclock q.val { qclock s1 q.val with pllLock := true, divUncore := 32, divControl := 32 } s1
    let x := pwrq s2 q.val
    let s3 := setPwrq q.val { x with divider := 32, voltMv := opMv (opTarget x) } s2
    { s3 with clk := { s3.clk with refPresent := true } }))

/-- PLL_LOCK_LOSS: the quadrant is fenced for its root clock (R410, R437). -/
def execPllLockLoss (q : Fin 4) (now : Nat) (s : State) : Ans :=
  let s1 := advance now s
  .next (live s (fenceQuadrant q.val 0 (setQclock q.val { qclock s1 q.val with pllLock := false } s1)))

/-- REFCLK_LOSS: every PLL loses lock and every quadrant is fenced as in R418. -/
def execRefclkLoss (now : Nat) (s : State) : Ans :=
  let s1 := advance now s
  .next (live s (
    let s2 := forEach (List.range 4) (fun q s => setQclock q { qclock s q with pllLock := false } s) s1
    selfFence { s2 with clk := { s2.clk with refPresent := false } }))

/-- DIVIDER_STEP: one integer step of each divider of a locked PLL towards its target: uncore ÷8, control ÷16, core as R254
moves it (R438). -/
def execDividerStep (q : Fin 4) (now : Nat) (s : State) : Ans :=
  let s1 := advance now s
  let c := qclock s1 q.val
  .next (live s (
    if !c.pllLock then s1
    else
      let s2 := setQclock q.val { c with divUncore := max 8 (c.divUncore - 1), divControl := max 16 (c.divControl - 1) } s1
      let x := pwrq s2 q.val
      if opDivider (opTarget x) < x.divider then setPwrq q.val (vfMove x) s2 else s2))

/-- The gate above a gate: 0 root; 1 core, 2 uncore, 3 control, 4 maintenance domain; 8 to 47 the cores; 48 to 54 router
slice, home agent, directory, translation unit, queue block, straits, stack controllers; 55 to 57 management controller,
scheduler, load engine; the rest maintenance. -/
def gateParent (g : Nat) : Option Nat :=
  if g = 0 then none
  else if g < 8 then some 0
  else if g < 48 then some 1
  else if g < 55 then some 2
  else if g < 58 then some 3
  else some 4

/-- Gates of a quadrant's tree. -/
def allGates : List Nat := (List.range 64).filter (fun g => g < 5 || 8 ≤ g)

def gateClosed (s : State) (q g : Nat) : Bool := tget false (qclock s q).closed g

/-- A gate's own block is idle: a core holds no job; a domain gate has no block; the other blocks report it (`idle`). -/
def gateIdle (s : State) (q g : Nat) (idle : Bool) : Bool :=
  if g < 5 then true
  else if 8 ≤ g ∧ g < 48 then (coreOf s (40 * q + (g - 8))).job.isNone
  else idle

/-- GATE_CLOSE_REQUEST: refused, and counted in GATE_REFUSED, with a gate below it open or its block in use (R439). -/
def execGateCloseRequest (q : Fin 4) (g : Fin 64) (idle : Bool) (s : State) : Ans :=
  .next (live s (
    if allGates.all (fun h => decide (gateParent h ≠ some g.val) || gateClosed s q.val h) && gateIdle s q.val g.val idle then
      setQclock q.val { qclock s q.val with closed := tput false (qclock s q.val).closed g.val true } s
    else { s with clk := { s.clk with gateRefused := satAdd 0xFFFFFFFF s.clk.gateRefused 1 } }))

/-- A gate and every gate above it, from the root downwards. -/
def gatePath (g : Nat) : List Nat :=
  match gateParent g with
  | none => [0]
  | some p => if p = 0 then [0, g] else [0, p, g]

/-- GATE_OPEN: every closed gate above it opens first, from the root down, then the gate (R439). -/
def execGateOpen (q : Fin 4) (g : Fin 64) (s : State) : Ans :=
  .next (live s (setQclock q.val { qclock s q.val with
    closed := (gatePath g.val).foldl (fun t h => tput false t h false) (qclock s q.val).closed } s))

/-! The always-on domain (R440 to R442). It acts whatever the phase of the device. -/

/-- AON_OSCILLATOR_STABLE: at the domain's start its counts come back from flash and the tick count begins. -/
def execAonOscillatorStable (s : State) : Ans :=
  .next (
    if s.clk.aonOscOk ∨ s.clk.phase = .dead then s
    else if s.clk.aonClkLost then { s with clk := { s.clk with aonOscOk := true } }
    else { s with clk := { s.clk with
      aonOscOk := true, operatingHours := s.clk.flashHours, powerCycles := s.clk.flashCycles, aonTicks := 0, tickAt := s.time } })

/-- AON_OSCILLATOR_TIMEOUT: not stable 2 s after its supply, the device stays in cold reset. -/
def execAonOscillatorTimeout (s : State) : Ans :=
  .next (match s.clk.phase with
    | .inReset => if s.clk.aonOscOk then s else { s with clk := { s.clk with phase := .dead } }
    | .starting => if s.clk.aonOscOk then s else { s with clk := { s.clk with phase := .dead } }
    | _ => s)

/-- AON_CLK_LOST: the pattern stops, so a paired device gates its outputs (R424, R440). -/
def execAonClkLost (now : Nat) (s : State) : Ans :=
  let s1 := advance now s
  .next (live s (
    if !s1.clk.aonOscOk then s1
    else readbackLost { s1 with clk := { s1.clk with aonClkLost := true, aonOscOk := false } }))

/-- OPERATING_HOUR_TICK: an hour with the core rails present and the oscillator running; both counts go to flash. -/
def execOperatingHourTick (s : State) : Ans :=
  .next (
    if s.clk.aonOscOk && !(railGone s 0) then
      saveHours { s with clk := { s.clk with operatingHours := satAdd 0xFFFFFFFF s.clk.operatingHours 1 } }
    else s)

/-- Drops the partial period, which a trip or supply loss loses (R466). -/
def losePeriod (s : State) : State :=
  { s with obs := { s.obs with buckets := [], mins := [], maxs := [], periodAt := s.time } }

/-- OVER_TEMPERATURE_TRIP: a junction sensor has reached TJ_TRIP: clocks stop, lasers are dark, THERM_TRIP_N asserts; the
next start is cold (R442). -/
def execOverTemperatureTrip (now : Nat) (s : State) : Ans :=
  let s1 := advance now s
  let trip (s : State) : State :=
    let s := saveHours (losePeriod (stopPorts s))
    emit (.pin 1 true) { s with
      clk := { s.clk with phase := .tripped, thermTrip := true, tripped := true, cmpOvertemp := true, coldNext := true }
      sec := { s.sec with sessions := [] } }
  .next (match s.clk.phase with
    | .dormant => s
    | .tripped => s
    | .dead => s
    | _ => trip s1)

/-- The ticks that the always-on domain has counted set pool time after a reset or dormancy (Table 17.4). -/
def resumeTime (ticks : Nat) (s : State) : State :=
  let t := s.clk.holdTime + (max ticks s.clk.holdTicks - s.clk.holdTicks) * 1000000000 / 32768
  { s with time := t, clk := { s.clk with aonTicks := max ticks s.clk.holdTicks, tickAt := t } }

/-- The start sequence begins from the PLL-lock step: warm, or cold, with SEED drawn (R232), when the stack rail was lost while
dormant (R454). -/
def startWake (ticks : Nat) (s : State) : State :=
  if s.clk.coldNext then
    let s := coldState .stackRail s
    { s with free := s.free + 1, core := { s.core with srSeed := Config.freeWord s.free }
             clk := { s.clk with phase := .starting } }
  else
    let s := resumeTime ticks s
    { s with clk := { s.clk with
      phase := .starting, resetCold := false, wakePending := false, lastLevel := 2
      warmResets := satAdd 0xFFFFFFFF s.clk.warmResets 1 } }

/-- A wake of a dormant device: DORMANT_N is deasserted, and the start waits for the core and optical rails (R454, R503). -/
def beginWake (cause : RstCause) (ticks : Nat) (s : State) : State :=
  if s.clk.phase ≠ .dormant then s
  else
    let s := emit (.pin 2 false) { s with clk := { s.clk with dormantN := false, lastCause := cause } }
    if railGone s 0 || railGone s 2 then { s with clk := { s.clk with wakePending := true } } else startWake ticks s

/-- SUPPLY_LOSS: a rail (0 core, 1 stack, 2 optical, 3 another, 4 VAON) leaves its presence window (R442, R502). Without a
dormant entry a watched rail sets SUPPLY_LOST; the stack rail makes the next start cold; without its core rails the device
is off. -/
def execSupplyLoss (rail : Fin 5) (now : Nat) (s : State) : Ans :=
  let s1 := advance now s
  let r := rail.val
  let s2 := settleSupply { s1 with clk := { s1.clk with railLost := tput false s1.clk.railLost r true } }
  let s3 := if s1.clk.phase = .dormant ∨ 3 ≤ r then s2
    else saveHours (losePeriod { s2 with clk := { s2.clk with supplyLost := true } })
  .next (match r with
    | 0 =>
      (match s3.clk.phase with
       | .dormant => s3
       | .tripped => { s3 with clk := { s3.clk with thermTrip := false } }
       | .dead => s3
       | _ => coldState .coreRails s3)
    | 1 =>
      (match s3.clk.phase with
       | .dormant => { s3 with clk := { s3.clk with coldNext := true, memoryKept := false } }
       | _ => beginCold .stackRail s3)
    | 4 =>
      let s4 := coldState .coreRails s3
      { s4 with clk := { s4.clk with
        aonOscOk := false, operatingHours := 0, powerCycles := 0, aonTicks := 0, holdTicks := 0, holdTime := 0
        tripped := false, supplyLost := false } }
    | _ => s3)

/-- SUPPLY_RETURN: a rail is back in its window. The core rails' rise is counted, and starts a wake or a cold reset; a wake
that waits goes on when every rail it waits for is there. -/
def execSupplyReturn (rail : Fin 5) (ticks : Nat) (s : State) : Ans :=
  let r := rail.val
  let was := railGone s r
  let s1 := settleSupply { s with clk := { s.clk with railLost := tput false s.clk.railLost r false } }
  let s2 := if r = 0 && was then
      { s1 with clk := { s1.clk with powerCycles := satAdd 0xFFFFFFFF s1.clk.powerCycles 1 } } else s1
  .next (
    if !was then s
    else if s2.clk.wakePending then
      (if railGone s2 0 || railGone s2 2 then s2 else startWake ticks s2)
    else if r = 0 then
      match s2.clk.phase with
      | .dormant => beginWake .coreRails ticks s2
      | .tripped => coldState .overTemp { s2 with clk := { s2.clk with cmpOvertemp := false } }
      | .dead => s2
      | _ => coldState .coreRails s2
    else s2)

/-- WAKE_N: asserted for 30 µs it wakes a dormant device (R442, R454). -/
def execWakeN (low : Bool) (ticks : Nat) (s : State) : Ans :=
  let s1 := { s with clk := { s.clk with cmpWake := low } }
  .next (if low then beginWake .wakeN ticks s1 else s1)

/-! Resets (R443 to R446). -/

/-- Cold causes of Table 17.10. -/
def coldCause : Nat → RstCause
  | 0 => .coreRails | 1 => .coldRstN | 2 => .overTemp | _ => .stackRail

/-- COLD_RESET: a cold cause is asserted. -/
def execColdReset (cause : Fin 4) (now : Nat) (s : State) : Ans :=
  .next (beginCold (coldCause cause.val) (advance now s))

/-- RESET_COLD (Custodian); with the key store zeroised a cold reset is all that is accepted (R399). -/
def execResetCold (r : Role) (now : Nat) (s : State) : Ans :=
  let s1 := advance now s
  .next (
    if halted s && !(s.sec.keysZeroised && decide (s.clk.phase = .released)) then s
    else managed s (asRole .custodian r (fun s => beginCold .command (fmDone .ok [] s)) s1))

/-- WARM_RESET: WARM_RST_N is asserted, or the device has fenced itself under R418. -/
def execWarmReset (selfFenced : Bool) (now : Nat) (s : State) : Ans :=
  .next (live s (beginWarm (if selfFenced then .selfFence else .warmRstN) (advance now s)))

/-- RESET_WARM (Operator). -/
def execResetWarm (r : Role) (now : Nat) (s : State) : Ans :=
  .next (served s (asRole .operator r (fun s => beginWarm .command (fmDone .ok [] s)) (advance now s)))

/-- DEVICE_WATCHDOG_REFRESH. -/
def execDeviceWatchdogRefresh (now : Nat) (s : State) : Ans :=
  let s1 := advance now s
  .next (live s { s1 with clk := { s1.clk with watchdogAt := s1.time } })

/-- DEVICE_WATCHDOG_EXPIRY: 10 s without a refresh (R444). -/
def execDeviceWatchdogExpiry (now : Nat) (s : State) : Ans :=
  let s1 := advance now s
  .next (live s (
    if s1.clk.phase = .released ∧ s1.clk.watchdogAt + 10000000000 ≤ s1.time then beginWarm .watchdog s1 else s1))

/-- RESET_RELEASE: the cause is gone. A cold start needs a stable oscillator and every rail, and draws the system key and
SEED anew; a warm one takes pool time from the hold and the ticks since (R440, R443, R445, R502). -/
def execResetRelease (ticks : Nat) (s : State) : Ans :=
  .next (
    if s.clk.phase ≠ .inReset then s
    else if s.clk.resetCold then
      if !s.clk.aonOscOk || (List.range 5).any (railGone s) then s
      else
        let (w, s1) := drawWord s
        { s1 with core := { s1.core with srSeed := w }
                  sec := { s1.sec with systemKey := some s1.sec.nextKey, nextKey := s1.sec.nextKey + 1 }
                  clk := { s1.clk with phase := .starting, aonTicks := max ticks s.clk.aonTicks, tickAt := s1.time } }
    else
      let s1 := resumeTime ticks s
      { s1 with clk := { s1.clk with phase := .starting } })

/-! Start-up (R450 to R452). -/

/-- The slot that boots: the selected one, else the other; a slot is skipped when no flash device holds a package in it that
passes R403. -/
def bootSlot (s : State) (ok : Nat → Bool) : Option Nat :=
  let good (n : Nat) : Bool :=
    match tget none s.sec.slots n with
    | some (l, _) => ok n && (decide (s.sec.minRelease ≤ l) ||
        (match s.sec.rollback with | some (x, t) => x == l && decide (s.time < t) | none => false))
    | none => false
  if good s.sec.selector then some s.sec.selector
  else if good (1 - s.sec.selector) then some (1 - s.sec.selector)
  else none

/-- The fields of a board configuration record come into force (Table 17.8). -/
def applyBcr (b : List Byte) (s : State) : State :=
  { s with
    sec := { s.sec with
      bcr := b, bcrDigest := sha384 b, minRelease := bcrMin b, endpointBase := leAt b 12 2
      side := bitOf (leAt b 14 1) 0, pairCapable := bitOf (leAt b 14 1) 1, partnerSerial := slice b 16 16 }
    clk := { s.clk with bcrOk := true } }

/-- The digest and level of the release that boots; its attestation key is derived (R378). -/
def bootRelease (s : State) (n : Nat) : State :=
  match tget none s.sec.slots n with
  | some (l, d) => deriveAk { s with sec := { s.sec with releaseLevel := l, fwDigest := d, bootSlot := n }
                                     clk := { s.clk with firmwareOk := true } }
  | none => s

/-- The flash devices in reach, bit 0 FL0 on Q0 and bit 1 FL2 on Q2: the quadrant that holds one is in service and joined to
the anchor's (R20). -/
def flashReached (s : State) : BitVec 2 := BitVec.ofNat 2 (maskOf [quadServes s 0, quadServes s 2])

/-- BOOT_FLASH_READ: the boot ROMs on Q0 and Q2 read FL0 and FL2, as far as they are in reach. `okA`, `okB`, `okBcr`: which
copies (bit 0 on FL0, bit 1 on FL2) pass their check; a copy that fails is rewritten from the other. `a`, `b`, `bcr`: what
the board's maker programmed where the device itself has written nothing yet. `identityOk`: the derived key matches the DIK
certificate (R377). -/
def execBootFlashRead (okA okB okBcr : BitVec 2) (a b : Option (Nat × BitVec 384)) (bcr : List Byte) (identityOk : Bool)
    (now : Nat) (s : State) : Ans :=
  let s1 := advance now s
  .next (live s (
    if s1.clk.phase ≠ .starting then s1
    else
      let fill (n : Nat) (x : Option (Nat × BitVec 384)) (t : Tbl (Option (Nat × BitVec 384))) :=
        if (tget none t n).isNone then tput none t n x else t
      let s2 := { s1 with sec := { s1.sec with
        identityFault := !identityOk, slots := fill 0 a (fill 1 b s1.sec.slots)
        flashBcr := if s1.sec.flashBcr.isEmpty then bcr else s1.sec.flashBcr } }
      let r := s2.sec.flashBcr
      let m := flashReached s2
      let s3 := if okBcr &&& m ≠ 0 && bcrForm r && leAt r 15 1 == s2.grade then applyBcr r s2
        else { s2 with clk := { s2.clk with bcrOk := false } }
      let ok (n : Nat) : Bool := if n = 0 then decide (okA &&& m ≠ 0) else decide (okB &&& m ≠ 0)
      let skip (s : State) : State := event 0x20 [0, s.sec.selector] s
      match bootSlot s3 ok with
      | none => { s3 with sec := { s3.sec with releaseLevel := 0 }, clk := { s3.clk with firmwareOk := false } }
      | some n => bootRelease (if n = s3.sec.selector then s3 else skip s3) n))

/-- DEVICE_RELEASE: the start-up work has ended; `fails` are the units whose self-test failed, as kind (0 core, 1 optical
engine, 2 CXL port, 3 quadrant) and number. -/
def execDeviceRelease (fails : List (Nat × Nat)) (now : Nat) (s : State) : Ans :=
  let s1 := advance now s
  .next (live s (if mayRelease s1 then release fails s1 else s1))

/-! Dormancy (R453). -/

/-- Nothing is in progress that a dormant entry would interrupt. -/
def mayRest (s : State) : Bool :=
  decide (s.pair.st = .solo) &&
  s.que.jobs.all (fun c => match c.2 with | some j => decide (j.phase = .paused) | none => true) &&
  s.que.queues.all (fun c => inFlight c.2 == 0 && c.2.awaiting.isEmpty) &&
  s.que.groups.all (fun c => match c.2.st with | .unbound => true | .lapsed => true | .active => true | _ => false) &&
  s.nm.windows.all (fun c => decide (c.2.st ≠ .arming)) &&
  s.mem.migs.all (fun c => c.2.st != 1 && c.2.st != 2)

/-- ENTER_DORMANT (Operator). -/
def execEnterDormant (r : Role) (now : Nat) (s : State) : Ans :=
  .next (served s (asRole .operator r (fun s =>
    if s.clk.phase ≠ .released || !(mayRest s) then fmDone .conflict [] s
    else
      let s := quiesce (fmDone .ok [] s)
      emit (.pin 2 true) { s with clk := { s.clk with phase := .dormant, dormantN := true } }) (advance now s)))

/-! Package pins (R498, R501). -/

/-- FA_PRESENCE_CHANGE: the connector of an engine has been mated for 1 ms, or is no longer. -/
def execFaPresenceChange (e : Fin 16) (mated : Bool) (s : State) : Ans :=
  let s1 := { s with clk := { s.clk with faPresent := tput false s.clk.faPresent e.val mated } }
  .next (if lsrcEn s1 e.val = lsrcEn s e.val then s1 else emit (.pin (16 + e.val) (lsrcEn s1 e.val)) s1)

/-- AVS_TIMEOUT: the core regulator has not answered within 5 µs, or reports a fault: its quadrant is fenced. -/
def execAvsTimeout (q : Fin 4) (now : Nat) (s : State) : Ans :=
  .next (live s (fenceQuadrant q.val 0 (advance now s)))

end Sys2Proof.Machine
end

