-- ==== Sys2Proof/Machine/Dispatch.lean ====
section
/-! DEFINITION. One arm per command: the dispatch of a command to its meaning. -/

namespace Sys2Proof.Machine

/-- The effect of a command on everything but the queue of waiting commands. -/
def exec (i : Instr) (s : State) : Host.Outcome State Fault Refusal :=
  match i with
  | .straitLost ix now => Sys2Proof.Machine.execStraitLost ix now s
  | .straitRestored ix now => Sys2Proof.Machine.execStraitRestored ix now s
  | .anchorFailover now => Sys2Proof.Machine.execAnchorFailover now s
  | .fenceStatusSample now => Sys2Proof.Machine.execFenceStatusSample now s
  | .allocateExtent e a => Sys2Proof.Machine.execAllocateExtent e a s
  | .extentZeroFillComplete e => Sys2Proof.Machine.execExtentZeroFillComplete e s
  | .extentWithdrawalDrained e => Sys2Proof.Machine.execExtentWithdrawalDrained e s
  | .extentScrubComplete e => Sys2Proof.Machine.execExtentScrubComplete e s
  | .releaseExtent e forced => Sys2Proof.Machine.execReleaseExtent e forced s
  | .balloonGrow e n => Sys2Proof.Machine.execBalloonGrow e n s
  | .balloonShrink e n => Sys2Proof.Machine.execBalloonShrink e n s
  | .rightsChange e r ov => Sys2Proof.Machine.execRightsChange e r ov s
  | .setTetherQuota t n => Sys2Proof.Machine.execSetTetherQuota t n s
  | .setTetherPeriod h ms => Sys2Proof.Machine.execSetTetherPeriod h ms s
  | .pmmBeat d tag => Sys2Proof.Machine.execPmmBeat d tag s
  | .tetherDeadlineTick now => Sys2Proof.Machine.execTetherDeadlineTick now s
  | .releaseTether h o forced => Sys2Proof.Machine.execReleaseTether h o forced s
  | .createKite k t sealed keep => Sys2Proof.Machine.execCreateKite k t sealed keep s
  | .setKiteAttribute k keep => Sys2Proof.Machine.execSetKiteAttribute k keep s
  | .kitePublish n slot => Sys2Proof.Machine.execKitePublish n slot s
  | .kitePublishDrained k => Sys2Proof.Machine.execKitePublishDrained k s
  | .kiteAttach n slot => Sys2Proof.Machine.execKiteAttach n slot s
  | .kiteDetach n slot => Sys2Proof.Machine.execKiteDetach n slot s
  | .kiteReclaim n slot => Sys2Proof.Machine.execKiteReclaim n slot s
  | .walkResult q t pva who port admitted acc ents => Sys2Proof.Machine.execWalkResult q t pva who port admitted acc ents s
  | .invalidation q t lo hi now => Sys2Proof.Machine.execInvalidation q t lo hi now s
  | .invalidationComplete q t lo hi => Sys2Proof.Machine.execInvalidationComplete q t lo hi s
  | .drainBoundExpiry q t lo hi now => Sys2Proof.Machine.execDrainBoundExpiry q t lo hi now s
  | .tableSwitch t root now => Sys2Proof.Machine.execTableSwitch t root now s
  | .atsTranslationCompletion d pasid page size hpa granted n => Sys2Proof.Machine.execAtsTranslationCompletion d pasid page size hpa granted n s
  | .atsInvalidateRequest d pasid page size itag now => Sys2Proof.Machine.execAtsInvalidateRequest d pasid page size itag now s
  | .atsInvalidateComplete d itag => Sys2Proof.Machine.execAtsInvalidateComplete d itag s
  | .atsInvalBoundExpiry d itag now => Sys2Proof.Machine.execAtsInvalBoundExpiry d itag now s
  | .faultTailWrite q data => Sys2Proof.Machine.execFaultTailWrite q data s
  | .rdonce n p => Sys2Proof.Machine.execRdonce n p s
  | .rdshared n p => Sys2Proof.Machine.execRdshared n p s
  | .rdown n p => Sys2Proof.Machine.execRdown n p s
  | .upgrade n p => Sys2Proof.Machine.execUpgrade n p s
  | .wrline n p => Sys2Proof.Machine.execWrline n p s
  | .wrpart n p => Sys2Proof.Machine.execWrpart n p s
  | .wrback n p => Sys2Proof.Machine.execWrback n p s
  | .cleanEvict d tag hpa => Sys2Proof.Machine.execCleanEvict d tag hpa s
  | .atomic n p => Sys2Proof.Machine.execAtomic n p s
  | .recallMiss a => Sys2Proof.Machine.execRecallMiss a s
  | .recallAck a => Sys2Proof.Machine.execRecallAck a s
  | .recallData a => Sys2Proof.Machine.execRecallData a s
  | .lineQueueServe l => Sys2Proof.Machine.execLineQueueServe l s
  | .recallTimeoutFirst l now => Sys2Proof.Machine.execRecallTimeoutFirst l now s
  | .recallTimeoutSecond l now => Sys2Proof.Machine.execRecallTimeoutSecond l now s
  | .biconflict d tag => Sys2Proof.Machine.execBiconflict d tag s
  | .cxlMemRead d tag hpa m => Sys2Proof.Machine.execCxlMemRead d tag hpa m s
  | .cxlMemWrite d tag hpa mask data poison => Sys2Proof.Machine.execCxlMemWrite d tag hpa mask data poison s
  | .cxlMemInv d tag hpa => Sys2Proof.Machine.execCxlMemInv d tag hpa s
  | .mergeHoldExpiry l now => Sys2Proof.Machine.execMergeHoldExpiry l now s
  | .sqTailDoorbell n value rsvd => Sys2Proof.Machine.execSqTailDoorbell n value rsvd s
  | .cqHeadDoorbell n value rsvd => Sys2Proof.Machine.execCqHeadDoorbell n value rsvd s
  | .heartbeatDoorbell n value rsvd => Sys2Proof.Machine.execHeartbeatDoorbell n value rsvd s
  | .reservedKindDoorbell n value rsvd => Sys2Proof.Machine.execReservedKindDoorbell n value rsvd s
  | .foreignDoorbell n => Sys2Proof.Machine.execForeignDoorbell n s
  | .doorbellPacket port p => Sys2Proof.Machine.execDoorbellPacket port p s
  | .poolDoorbellRead g => Sys2Proof.Machine.execPoolDoorbellRead g s
  | .descriptorFetch n => Sys2Proof.Machine.execDescriptorFetch n s
  | .ringReadFailed n => Sys2Proof.Machine.execRingReadFailed n s
  | .nop n slot => Sys2Proof.Machine.execNop n slot s
  | .reservedOpcode n slot => Sys2Proof.Machine.execReservedOpcode n slot s
  | .fill n slot => Sys2Proof.Machine.execFill n slot s
  | .copy n slot => Sys2Proof.Machine.execCopy n slot s
  | .compare n slot => Sys2Proof.Machine.execCompare n slot s
  | .gather n slot => Sys2Proof.Machine.execGather n slot s
  | .scatter n slot => Sys2Proof.Machine.execScatter n slot s
  | .reduce n slot => Sys2Proof.Machine.execReduce n slot s
  | .stripeStart n slot ix c => Sys2Proof.Machine.execStripeStart n slot ix c s
  | .nmDescriptorComplete n slot => Sys2Proof.Machine.execNmDescriptorComplete n slot s
  | .nmFirstFailureKnown n slot => Sys2Proof.Machine.execNmFirstFailureKnown n slot s
  | .coalesceTimerExpiry n now => Sys2Proof.Machine.execCoalesceTimerExpiry n now s
  | .descriptorTimeLimitExpiry n slot now => Sys2Proof.Machine.execDescriptorTimeLimitExpiry n slot now s
  | .job n slot => Sys2Proof.Machine.execJob n slot s
  | .jobHeaderRead n slot => Sys2Proof.Machine.execJobHeaderRead n slot s
  | .jobImageRead n slot => Sys2Proof.Machine.execJobImageRead n slot s
  | .jobDigestComputed n slot => Sys2Proof.Machine.execJobDigestComputed n slot s
  | .resume n slot => Sys2Proof.Machine.execResume n slot s
  | .discard n slot => Sys2Proof.Machine.execDiscard n slot s
  | .jobPreempt n slot => Sys2Proof.Machine.execJobPreempt n slot s
  | .jobComplete n slot => Sys2Proof.Machine.execJobComplete n slot s
  | .queueEnable n => Sys2Proof.Machine.execQueueEnable n s
  | .queueDisable n => Sys2Proof.Machine.execQueueDisable n s
  | .queueRestart n => Sys2Proof.Machine.execQueueRestart n s
  | .groupBind g t o q dbPva => Sys2Proof.Machine.execGroupBind g t o q dbPva s
  | .groupRelease g => Sys2Proof.Machine.execGroupRelease g s
  | .groupQuiesceDrained g => Sys2Proof.Machine.execGroupQuiesceDrained g s
  | .groupRearm g => Sys2Proof.Machine.execGroupRearm g s
  | .groupReleaseDrained g => Sys2Proof.Machine.execGroupReleaseDrained g s
  | .reduceWr port p => Sys2Proof.Machine.execReduceWr port p s
  | .reduceWrW port p => Sys2Proof.Machine.execReduceWrW port p s
  | .rwinAssign w t => Sys2Proof.Machine.execRwinAssign w t s
  | .rwinArm w contributors => Sys2Proof.Machine.execRwinArm w contributors s
  | .rwinArmFillDone w now => Sys2Proof.Machine.execRwinArmFillDone w now s
  | .rwinDisarm w => Sys2Proof.Machine.execRwinDisarm w s
  | .rwinDisarmDone w => Sys2Proof.Machine.execRwinDisarmDone w s
  | .collectiveDeadlineExpiry w now => Sys2Proof.Machine.execCollectiveDeadlineExpiry w now s
  | .salu n c => Sys2Proof.Machine.execSalu n c s
  | .branch n c => Sys2Proof.Machine.execBranch n c s
  | .sync n c => Sys2Proof.Machine.execSync n c s
  | .barrier n c => Sys2Proof.Machine.execBarrier n c s
  | .barrierRelease p now => Sys2Proof.Machine.execBarrierRelease p now s
  | .commit n c => Sys2Proof.Machine.execCommit n c s
  | .heldEffectsIssue n rows => Sys2Proof.Machine.execHeldEffectsIssue n rows s
  | .commitComplete n slot => Sys2Proof.Machine.execCommitComplete n slot s
  | .endOp n c => Sys2Proof.Machine.execEndOp n c s
  | .tload n c => Sys2Proof.Machine.execTload n c s
  | .tstore n c => Sys2Proof.Machine.execTstore n c s
  | .treduce n c => Sys2Proof.Machine.execTreduce n c s
  | .treducew n c => Sys2Proof.Machine.execTreducew n c s
  | .tatomic n c => Sys2Proof.Machine.execTatomic n c s
  | .tcopy n c => Sys2Proof.Machine.execTcopy n c s
  | .mma n c => Sys2Proof.Machine.execMma n c s
  | .accrd n c => Sys2Proof.Machine.execAccrd n c s
  | .accwr n c => Sys2Proof.Machine.execAccwr n c s
  | .vbin n c => Sys2Proof.Machine.execVbin n c s
  | .vfma n c => Sys2Proof.Machine.execVfma n c s
  | .vfunc n c => Sys2Proof.Machine.execVfunc n c s
  | .vrowred n c => Sys2Proof.Machine.execVrowred n c s
  | .vbcast n c => Sys2Proof.Machine.execVbcast n c s
  | .vcvt n c => Sys2Proof.Machine.execVcvt n c s
  | .racc n c => Sys2Proof.Machine.execRacc n c s
  | .tileOpComplete n e now => Sys2Proof.Machine.execTileOpComplete n e now s
  | .coreFence n cause now => Sys2Proof.Machine.execCoreFence n cause now s
  | .coreFenceTest n slot => Sys2Proof.Machine.execCoreFenceTest n slot s
  | .setSrControls fixed seed => Sys2Proof.Machine.execSetSrControls fixed seed s
  | .waitWatchdogExpiry n c now => Sys2Proof.Machine.execWaitWatchdogExpiry n c now s
  | .objAssign o t => Sys2Proof.Machine.execObjAssign o t s
  | .objRegister o d => Sys2Proof.Machine.execObjRegister o d s
  | .objDeregister o d => Sys2Proof.Machine.execObjDeregister o d s
  | .semSet r who n k v => Sys2Proof.Machine.execSemSet r who n k v s
  | .chanRelease r who p => Sys2Proof.Machine.execChanRelease r who p s
  | .objMark r who o => Sys2Proof.Machine.execObjMark r who o s
  | .objRelease r who o => Sys2Proof.Machine.execObjRelease r who o s
  | .vfStep q now => Sys2Proof.Machine.execVfStep q now s
  | .energyBucketTick q uj now => Sys2Proof.Machine.execEnergyBucketTick q uj now s
  | .classOverrunWindow q now => Sys2Proof.Machine.execClassOverrunWindow q now s
  | .schedulerTick q now => Sys2Proof.Machine.execSchedulerTick q now s
  | .classCreditTick stripes now => Sys2Proof.Machine.execClassCreditTick stripes now s
  | .queueSampleTick now => Sys2Proof.Machine.execQueueSampleTick now s
  | .clearMax n => Sys2Proof.Machine.execClearMax n s
  | .sensorSample q tj railW now => Sys2Proof.Machine.execSensorSample q tj railW now s
  | .throttleStepTimer q now => Sys2Proof.Machine.execThrottleStepTimer q now s
  | .railEmergency q now => Sys2Proof.Machine.execRailEmergency q now s
  | .pwrAlertN low now => Sys2Proof.Machine.execPwrAlertN low now s
  | .emergencyClear q kind now => Sys2Proof.Machine.execEmergencyClear q kind now s
  | .opCapRaise q now => Sys2Proof.Machine.execOpCapRaise q now s
  | .activationRequest r now => Sys2Proof.Machine.execActivationRequest r now s
  | .deferralTick now => Sys2Proof.Machine.execDeferralTick now s
  | .deferralExpiry now => Sys2Proof.Machine.execDeferralExpiry now s
  | .setOpReq q k => Sys2Proof.Machine.execSetOpReq q k s
  | .setBudget q w mj => Sys2Proof.Machine.execSetBudget q w mj s
  | .setClass c rate burstUs => Sys2Proof.Machine.execSetClass c rate burstUs s
  | .setGroupClass g c => Sys2Proof.Machine.execSetGroupClass g c s
  | .setSchCtrl ageMs fitUs shedC => Sys2Proof.Machine.execSetSchCtrl ageMs fitUs shedC s
  | .setContract k t anyTenant port anyPort valid rate burst => Sys2Proof.Machine.execSetContract k t anyTenant port anyPort valid rate burst s
  | .setMembership id t add => Sys2Proof.Machine.execSetMembership id t add s
  | .rofPortEnable n => Sys2Proof.Machine.execRofPortEnable n s
  | .rofPortDisable n => Sys2Proof.Machine.execRofPortDisable n s
  | .setPortConfig n c => Sys2Proof.Machine.execSetPortConfig n c s
  | .setVcPartition n v words => Sys2Proof.Machine.execSetVcPartition n v words s
  | .setRoute d ports => Sys2Proof.Machine.execSetRoute d ports s
  | .setMcast g ports valid loc => Sys2Proof.Machine.execSetMcast g ports valid loc s
  | .setRofCtrl adaptBiasW auditUs retrainDrainUs trainLimitMs => Sys2Proof.Machine.execSetRofCtrl adaptBiasW auditUs retrainDrainUs trainLimitMs s
  | .probeEmit n now => Sys2Proof.Machine.execProbeEmit n now s
  | .partnerDetected n now => Sys2Proof.Machine.execPartnerDetected n now s
  | .receiveLock n lane now => Sys2Proof.Machine.execReceiveLock n lane now s
  | .trainingComplete n now => Sys2Proof.Machine.execTrainingComplete n now s
  | .trainLimitExpiry n now => Sys2Proof.Machine.execTrainLimitExpiry n now s
  | .lossOfSignal n now => Sys2Proof.Machine.execLossOfSignal n now s
  | .fullRetrain n byFm => Sys2Proof.Machine.execFullRetrain n byFm s
  | .frameReceive n p blocks lcrcOk tagOk fctr now => Sys2Proof.Machine.execFrameReceive n p blocks lcrcOk tagOk fctr now s
  | .frameTransmit n v now => Sys2Proof.Machine.execFrameTransmit n v now s
  | .credit n counts => Sys2Proof.Machine.execCredit n counts s
  | .creditReturnTimer n now => Sys2Proof.Machine.execCreditReturnTimer n now s
  | .laneSet n mask => Sys2Proof.Machine.execLaneSet n mask s
  | .laneReady n mask => Sys2Proof.Machine.execLaneReady n mask s
  | .laneFault n mask => Sys2Proof.Machine.execLaneFault n mask s
  | .auditTimer n now => Sys2Proof.Machine.execAuditTimer n now s
  | .audit n counts => Sys2Proof.Machine.execAudit n counts s
  | .auditAck n counts => Sys2Proof.Machine.execAuditAck n counts s
  | .retrain n byte2 now => Sys2Proof.Machine.execRetrain n byte2 now s
  | .retrainAck n counts => Sys2Proof.Machine.execRetrainAck n counts s
  | .retrainDrainExpiry n now => Sys2Proof.Machine.execRetrainDrainExpiry n now s
  | .train n id pair side ready => Sys2Proof.Machine.execTrain n id pair side ready s
  | .keyx n part index total data => Sys2Proof.Machine.execKeyx n part index total data s
  | .controlWordDiscard w => Sys2Proof.Machine.execControlWordDiscard w s
  | .widthNarrow n => Sys2Proof.Machine.execWidthNarrow n s
  | .widthWiden n => Sys2Proof.Machine.execWidthWiden n s
  | .laneParkExpiry n lane now => Sys2Proof.Machine.execLaneParkExpiry n lane now s
  | .forward n p => Sys2Proof.Machine.execForward n p s
  | .multicast n p => Sys2Proof.Machine.execMulticast n p s
  | .tetherbeat port p => Sys2Proof.Machine.execTetherbeat port p s
  | .resetnotice port p => Sys2Proof.Machine.execResetnotice port p s
  | .declareEndpointReset id => Sys2Proof.Machine.execDeclareEndpointReset id s
  | .unmatchedResponse port p => Sys2Proof.Machine.execUnmatchedResponse port p s
  | .responseReceived port p => Sys2Proof.Machine.execResponseReceived port p s
  | .recallReceived port p => Sys2Proof.Machine.execRecallReceived port p s
  | .ack port p => Sys2Proof.Machine.execAck port p s
  | .ackTimer f now => Sys2Proof.Machine.execAckTimer f now s
  | .resendreq port p => Sys2Proof.Machine.execResendreq port p s
  | .resendTimer f seq now => Sys2Proof.Machine.execResendTimer f seq now s
  | .resendLimitExpiry f seq now => Sys2Proof.Machine.execResendLimitExpiry f seq now s
  | .flowSilenceExpiry f now => Sys2Proof.Machine.execFlowSilenceExpiry f now s
  | .sendContextRetire f now => Sys2Proof.Machine.execSendContextRetire f now s
  | .receiveContextRetire f now => Sys2Proof.Machine.execReceiveContextRetire f now s
  | .reasmTimeout f first now => Sys2Proof.Machine.execReasmTimeout f first now s
  | .atomicRetentionExpiry q src tag now => Sys2Proof.Machine.execAtomicRetentionExpiry q src tag now s
  | .quietPeriodEnd now => Sys2Proof.Machine.execQuietPeriodEnd now s
  | .timeExchangeTimer n now => Sys2Proof.Machine.execTimeExchangeTimer n now s
  | .timePacket n p now => Sys2Proof.Machine.execTimePacket n p now s
  | .setTimeTree parent parentValid root alt altValid => Sys2Proof.Machine.execSetTimeTree parent parentValid root alt altValid s
  | .setE2eCtrl q resendUs resendLimitUs reasmUs => Sys2Proof.Machine.execSetE2eCtrl q resendUs resendLimitUs reasmUs s
  | .cxlLinkTrained p version width rate mldSwitch lds now => Sys2Proof.Machine.execCxlLinkTrained p version width rate mldSwitch lds now s
  | .linkDown p now => Sys2Proof.Machine.execLinkDown p now s
  | .linkDownScanComplete p now => Sys2Proof.Machine.execLinkDownScanComplete p now s
  | .conventionalReset p now => Sys2Proof.Machine.execConventionalReset p now s
  | .resetLd d => Sys2Proof.Machine.execResetLd d s
  | .bindLd d t => Sys2Proof.Machine.execBindLd d t s
  | .portEnable p enable ctl now => Sys2Proof.Machine.execPortEnable p enable ctl now s
  | .grantExtent d e mode => Sys2Proof.Machine.execGrantExtent d e mode s
  | .revokeGrant d g => Sys2Proof.Machine.execRevokeGrant d g s
  | .hdmDecoderCommit d k dpa size hpa ways => Sys2Proof.Machine.execHdmDecoderCommit d k dpa size hpa ways s
  | .hdmDecoderDecommit d k => Sys2Proof.Machine.execHdmDecoderDecommit d k s
  | .initiateDynamicCapacityAdd e n => Sys2Proof.Machine.execInitiateDynamicCapacityAdd e n s
  | .addDynamicCapacityResponse d e accept => Sys2Proof.Machine.execAddDynamicCapacityResponse d e accept s
  | .dcResponseTimeout e add now => Sys2Proof.Machine.execDcResponseTimeout e add now s
  | .initiateDynamicCapacityRelease e n forced => Sys2Proof.Machine.execInitiateDynamicCapacityRelease e n forced s
  | .releaseDynamicCapacity d e => Sys2Proof.Machine.execReleaseDynamicCapacity d e s
  | .cut e p => Sys2Proof.Machine.execCut e p s
  | .cutComplete d g => Sys2Proof.Machine.execCutComplete d g s
  | .dmaReadComplete id data poison => Sys2Proof.Machine.execDmaReadComplete id data poison s
  | .identifyMemoryDevice d => Sys2Proof.Machine.execIdentifyMemoryDevice d s
  | .getEventRecords d log => Sys2Proof.Machine.execGetEventRecords d log s
  | .clearEventRecords d log all handles => Sys2Proof.Machine.execClearEventRecords d log all handles s
  | .getEventInterruptPolicy d => Sys2Proof.Machine.execGetEventInterruptPolicy d s
  | .setEventInterruptPolicy d policy => Sys2Proof.Machine.execSetEventInterruptPolicy d policy s
  | .getHealthInfo d => Sys2Proof.Machine.execGetHealthInfo d s
  | .getPoisonList d => Sys2Proof.Machine.execGetPoisonList d s
  | .getDynamicCapacityConfiguration d => Sys2Proof.Machine.execGetDynamicCapacityConfiguration d s
  | .getDynamicCapacityExtentList d => Sys2Proof.Machine.execGetDynamicCapacityExtentList d s
  | .unsupportedMailboxCommand d => Sys2Proof.Machine.execUnsupportedMailboxCommand d s
  | .getLdInfo p => Sys2Proof.Machine.execGetLdInfo p s
  | .getLdAllocations p => Sys2Proof.Machine.execGetLdAllocations p s
  | .setLdAllocations => Sys2Proof.Machine.execSetLdAllocations s
  | .getQosControl => Sys2Proof.Machine.execGetQosControl s
  | .setQosControl high low => Sys2Proof.Machine.execSetQosControl high low s
  | .getQosStatus => Sys2Proof.Machine.execGetQosStatus s
  | .getQosAllocatedBw p => Sys2Proof.Machine.execGetQosAllocatedBw p s
  | .setQosAllocatedBw p start vals => Sys2Proof.Machine.execSetQosAllocatedBw p start vals s
  | .getQosBwLimit p => Sys2Proof.Machine.execGetQosBwLimit p s
  | .setQosBwLimit p start vals => Sys2Proof.Machine.execSetQosBwLimit p start vals s
  | .getDcdInfo => Sys2Proof.Machine.execGetDcdInfo s
  | .getHostDcRegionConfiguration d => Sys2Proof.Machine.execGetHostDcRegionConfiguration d s
  | .getDcRegionExtentLists d => Sys2Proof.Machine.execGetDcRegionExtentLists d s
  | .setDcRegionConfiguration => Sys2Proof.Machine.execSetDcRegionConfiguration s
  | .stackRefresh pc bank now => Sys2Proof.Machine.execStackRefresh pc bank now s
  | .stackTempRead n tempC => Sys2Proof.Machine.execStackTempRead n tempC s
  | .parityAlert c ix now => Sys2Proof.Machine.execParityAlert c ix now s
  | .patrolScrubRead r => Sys2Proof.Machine.execPatrolScrubRead r s
  | .patrolPeriodEnd now => Sys2Proof.Machine.execPatrolPeriodEnd now s
  | .retireStack n byFm => Sys2Proof.Machine.execRetireStack n byFm s
  | .stackFailure n pcs => Sys2Proof.Machine.execStackFailure n pcs s
  | .retirementStart n => Sys2Proof.Machine.execRetirementStart n s
  | .migrationGranule k b ix g => Sys2Proof.Machine.execMigrationGranule k b ix g s
  | .reinterleave e pl g => Sys2Proof.Machine.execReinterleave e pl g s
  | .reinterleaveGranule => Sys2Proof.Machine.execReinterleaveGranule s
  | .reinterleaveSwitch root now => Sys2Proof.Machine.execReinterleaveSwitch root now s
  | .directoryHandover l => Sys2Proof.Machine.execDirectoryHandover l s
  | .reinterleaveComplete => Sys2Proof.Machine.execReinterleaveComplete s
  | .setMemCtrl patrolHours actThreshold ceRemap migratePct => Sys2Proof.Machine.execSetMemCtrl patrolHours actThreshold ceRemap migratePct s
  | .errTailWrite data => Sys2Proof.Machine.execErrTailWrite data s
  | .getEvidence nonce e now => Sys2Proof.Machine.execGetEvidence nonce e now s
  | .releaseKeyExpiry e now => Sys2Proof.Machine.execReleaseKeyExpiry e now s
  | .releaseKey r blob now => Sys2Proof.Machine.execReleaseKey r blob now s
  | .loadSealed r e pva n => Sys2Proof.Machine.execLoadSealed r e pva n s
  | .loadComplete e => Sys2Proof.Machine.execLoadComplete e s
  | .createTenant t memoryOnly now => Sys2Proof.Machine.execCreateTenant t memoryOnly now s
  | .rekeyTenant t now => Sys2Proof.Machine.execRekeyTenant t now s
  | .rekeySweepGranule e => Sys2Proof.Machine.execRekeySweepGranule e s
  | .rekeySweepComplete t now => Sys2Proof.Machine.execRekeySweepComplete t now s
  | .removeTenant t now => Sys2Proof.Machine.execRemoveTenant t now s
  | .outstandingCountersZero t now => Sys2Proof.Machine.execOutstandingCountersZero t now s
  | .revokedSlotEmpty t => Sys2Proof.Machine.execRevokedSlotEmpty t s
  | .drainAlertExpiry t now => Sys2Proof.Machine.execDrainAlertExpiry t now s
  | .tenantScrubComplete t now => Sys2Proof.Machine.execTenantScrubComplete t now s
  | .tlsConnect p k profileOk roles digest whole now => Sys2Proof.Machine.execTlsConnect p k profileOk roles digest whole now s
  | .tlsHandshakeTimeout k now => Sys2Proof.Machine.execTlsHandshakeTimeout k now s
  | .tlsIdleTimeout k last now => Sys2Proof.Machine.execTlsIdleTimeout k last now s
  | .firmwareTransfer r level digest signer target sig now => Sys2Proof.Machine.execFirmwareTransfer r level digest signer target sig now s
  | .firmwareActivate selfOk now => Sys2Proof.Machine.execFirmwareActivate selfOk now s
  | .installBcr r bytes signer => Sys2Proof.Machine.execInstallBcr r bytes signer s
  | .authoriseRollback r level now => Sys2Proof.Machine.execAuthoriseRollback r level now s
  | .fenceCore n cause now => Sys2Proof.Machine.execFenceCore n cause now s
  | .engineHoldExpiry n e now => Sys2Proof.Machine.execEngineHoldExpiry n e now s
  | .fenceQuadrant q cause now => Sys2Proof.Machine.execFenceQuadrant q cause now s
  | .fenceOpticalEngine e cause now => Sys2Proof.Machine.execFenceOpticalEngine e cause now s
  | .fenceCxlPort p cause now => Sys2Proof.Machine.execFenceCxlPort p cause now s
  | .unfence k n => Sys2Proof.Machine.execUnfence k n s
  | .islandRejoin q now => Sys2Proof.Machine.execIslandRejoin q now s
  | .pairEnable g0 g1 g2 g3 release bcrAlike serial names side => Sys2Proof.Machine.execPairEnable g0 g1 g2 g3 release bcrAlike serial names side s
  | .pairDisable => Sys2Proof.Machine.execPairDisable s
  | .pairLead now => Sys2Proof.Machine.execPairLead now s
  | .pairResilver now => Sys2Proof.Machine.execPairResilver now s
  | .interlockClassify pat own now => Sys2Proof.Machine.execInterlockClassify pat own now s
  | .interlockAbsent now => Sys2Proof.Machine.execInterlockAbsent now s
  | .ownReadbackAbsent now => Sys2Proof.Machine.execOwnReadbackAbsent now s
  | .waitingHoldoffExpiry now => Sys2Proof.Machine.execWaitingHoldoffExpiry now s
  | .outputGateHoldExpiry now => Sys2Proof.Machine.execOutputGateHoldExpiry now s
  | .orderRecordSilence now => Sys2Proof.Machine.execOrderRecordSilence now s
  | .emptyOrderRecordTimer now => Sys2Proof.Machine.execEmptyOrderRecordTimer now s
  | .order port p first recs => Sys2Proof.Machine.execOrder port p first recs s
  | .orderack port p => Sys2Proof.Machine.execOrderack port p s
  | .digest port p lines peerBad => Sys2Proof.Machine.execDigest port p lines peerBad s
  | .digestLate now => Sys2Proof.Machine.execDigestLate now s
  | .inputfetch port p => Sys2Proof.Machine.execInputfetch port p s
  | .inputdata port p inp via => Sys2Proof.Machine.execInputdata port p inp via s
  | .linerepair port p => Sys2Proof.Machine.execLinerepair port p s
  | .resilverdata port p => Sys2Proof.Machine.execResilverdata port p s
  | .resilverGranuleSend now => Sys2Proof.Machine.execResilverGranuleSend now s
  | .resilverCopyEnd now => Sys2Proof.Machine.execResilverCopyEnd now s
  | .resilverstate port p x => Sys2Proof.Machine.execResilverstate port p x s
  | .pllLock q now => Sys2Proof.Machine.execPllLock q now s
  | .pllLockLoss q now => Sys2Proof.Machine.execPllLockLoss q now s
  | .refclkLoss now => Sys2Proof.Machine.execRefclkLoss now s
  | .dividerStep q now => Sys2Proof.Machine.execDividerStep q now s
  | .gateCloseRequest q g idle => Sys2Proof.Machine.execGateCloseRequest q g idle s
  | .gateOpen q g => Sys2Proof.Machine.execGateOpen q g s
  | .aonOscillatorStable => Sys2Proof.Machine.execAonOscillatorStable s
  | .aonOscillatorTimeout => Sys2Proof.Machine.execAonOscillatorTimeout s
  | .aonClkLost now => Sys2Proof.Machine.execAonClkLost now s
  | .operatingHourTick => Sys2Proof.Machine.execOperatingHourTick s
  | .overTemperatureTrip now => Sys2Proof.Machine.execOverTemperatureTrip now s
  | .supplyLoss rail now => Sys2Proof.Machine.execSupplyLoss rail now s
  | .wakeN low ticks => Sys2Proof.Machine.execWakeN low ticks s
  | .coldReset cause now => Sys2Proof.Machine.execColdReset cause now s
  | .resetCold r now => Sys2Proof.Machine.execResetCold r now s
  | .warmReset selfFenced now => Sys2Proof.Machine.execWarmReset selfFenced now s
  | .resetWarm r now => Sys2Proof.Machine.execResetWarm r now s
  | .deviceWatchdogRefresh now => Sys2Proof.Machine.execDeviceWatchdogRefresh now s
  | .deviceWatchdogExpiry now => Sys2Proof.Machine.execDeviceWatchdogExpiry now s
  | .resetRelease ticks => Sys2Proof.Machine.execResetRelease ticks s
  | .stackTrainingDone codes => Sys2Proof.Machine.execStackTrainingDone codes s
  | .powerOnFillDone => Sys2Proof.Machine.execPowerOnFillDone s
  | .bootFlashRead okA okB okBcr a b bcr identityOk now => Sys2Proof.Machine.execBootFlashRead okA okB okBcr a b bcr identityOk now s
  | .deviceRelease fails now => Sys2Proof.Machine.execDeviceRelease fails now s
  | .enterDormant r now => Sys2Proof.Machine.execEnterDormant r now s
  | .resetCounters r f n who => Sys2Proof.Machine.execResetCounters r f n who s
  | .metricSample use now => Sys2Proof.Machine.execMetricSample use now s
  | .periodEnd now => Sys2Proof.Machine.execPeriodEnd now s
  | .clearRecorder r digest now => Sys2Proof.Machine.execClearRecorder r digest now s
  | .clearEraseDone now => Sys2Proof.Machine.execClearEraseDone now s
  | .readRecorder off len => Sys2Proof.Machine.execReadRecorder off len s
  | .recWindow r d on who => Sys2Proof.Machine.execRecWindow r d on who s
  | .recPeriod r minutes => Sys2Proof.Machine.execRecPeriod r minutes s
  | .obsSelect r k g q idx confirm => Sys2Proof.Machine.execObsSelect r k g q idx confirm s
  | .freezeN low now => Sys2Proof.Machine.execFreezeN low now s
  | .bypass => Sys2Proof.Machine.execBypass s
  | .idcode => Sys2Proof.Machine.execIdcode s
  | .samplePreload => Sys2Proof.Machine.execSamplePreload s
  | .extest => Sys2Proof.Machine.execExtest s
  | .scanSelect q => Sys2Proof.Machine.execScanSelect q s
  | .scanDump => Sys2Proof.Machine.execScanDump s
  | .cursorWrite d data => Sys2Proof.Machine.execCursorWrite d data s
  | .setPriv d on => Sys2Proof.Machine.execSetPriv d on s
  | .registerWrite a => Sys2Proof.Machine.execRegisterWrite a s
  | .faPresenceChange e mated => Sys2Proof.Machine.execFaPresenceChange e mated s
  | .avsTimeout q now => Sys2Proof.Machine.execAvsTimeout q now s
  | .supplyReturn rail ticks => Sys2Proof.Machine.execSupplyReturn rail ticks s
  | .laneLockLoss n lane now => Sys2Proof.Machine.execLaneLockLoss n lane now s
  | .sequenceQuarantineExpiry f now => Sys2Proof.Machine.execSequenceQuarantineExpiry f now s
  | .parityAlertClear c now => Sys2Proof.Machine.execParityAlertClear c now s
  | .directoryScan l => Sys2Proof.Machine.execDirectoryScan l s

end Sys2Proof.Machine
end

