-- ==== Sys2Proof/Machine/Step.lean ====
section
/-! DEFINITION. One step: the command at the front of the queue, and what the block does when none waits. -/

namespace Sys2Proof.Machine

/-- With no command waiting the block idles for one nanosecond of pool time (DESIGN CHOICE): pool time counts
nanoseconds (R9) and wraps with its 64 bits. -/
def idle (s : State) : State := { s with time := (s.time + 1) % 2 ^ 64 }

/-- Takes the command at the front of the queue and runs it with the rest of the queue waiting. -/
def step (s : State) : Host.Outcome State Fault Refusal :=
  match s.pending with
  | [] => .next (idle s)
  | c :: rest => exec c { s with pending := rest }

/-- No row of the table gives bits, so no word spells a command and the state is left as it is. -/
def State.withFetchWord (s : State) (_nbits _w : Nat) : State := s

end Sys2Proof.Machine
end

