-- ==== Sys2Proof/Safety.lean ====
section
/-! DEFINITION. What the claims call a safe state, and what they say a command leaves as it was. -/

namespace Sys2Proof.Safety

open Sys2Proof.Machine

/-- Pool memory is held in its canonical form. -/
abbrev MemoryCanonical (s : State) : Prop := Memory.wf s.mem.bytes = true

/-- The anchor role lies with Q0, with Q2, or with no quadrant (R417, Table 16.7). -/
abbrev AnchorLegal (s : State) : Prop := s.fen.anchor = none ∨ s.fen.anchor = some 0 ∨ s.fen.anchor = some 2

/-- The grade is one of Table 0.1. -/
abbrev GradeLegal (s : State) : Prop := s.grade = 36 ∨ s.grade = 48 ∨ s.grade = 64

/-- The state with one more output. -/
def said (o : Out) (s : State) : State := { s with out := o :: s.out }

/-- Every byte of pool memory reads as before. -/
def SameMemory (s t : State) : Prop := ∀ a, readByte t a = readByte s a

/-- The device is not stopped: commands take effect. -/
abbrev Running (s : State) : Prop := halted s = false

/-- The device is not stopped, and its anchor serves: commands of the management network take effect (R17). -/
abbrev Managed (s : State) : Prop := halted s = false ∧ anchorServes s = true

/-- A register access reaches the device: a host's while the device is not stopped, one of the management network while the
anchor serves as well, and a write of it from the Operator's role. -/
abbrev Reached (a : RegAccess) (s : State) : Prop :=
  halted s = false ∧ (a.mgmt = true → anchorServes s = true ∧ (a.write ≠ none → a.role = .operator))

/-- The parts of the state that frames speak of. The queue of waiting commands and the grade are no part: no command
changes them. -/
inductive Area where
  /-- Outputs, pool time, the counter of open values, the counters of Table 18.9, the event recorder. -/
  | out | time | free | cnt | obs
  /-- Tables of chapter 2. -/
  | extents | members | tethers | leases | quotas | kites
  /-- Translation units, table roots, invalidations. -/
  | xunits | roots | invals
  /-- Home agents and directories. -/
  | dir
  /-- Memory contents, poisoned lines, merge buffers, the block map, stacks, the rest of chapter 14. -/
  | bytes | poison | merge | blocks | stacks | memRest
  /-- Ports, virtual channels, routing and multicast tables, controls of chapter 11. -/
  | ports | vcs | routes | rofRest
  /-- End-to-end transport. -/
  | e2e
  /-- Groups, queues, jobs, and paused records, digests, completions awaiting verification. -/
  | groups | queues | jobs | queRest
  /-- Reduction windows. -/
  | windows
  /-- Cores, and synchronisation objects, channels, watchdog and rounding controls. -/
  | cores | coreRest
  /-- Power states of the quadrants; scheduler, shaping and activation. -/
  | power | schRest
  /-- CXL ports, logical devices, windows, and exchanges and event logs. -/
  | cxlPorts | lds | wins | cxlRest
  /-- Tenants, sealed regions, and sessions, boot flash, board record. -/
  | tenants | sealeds | secRest
  /-- Fences, pair, clocks and reset, register map. -/
  | fen | pair | clk | map
  deriving DecidableEq, Repr

/-- The part reads the same in both states. -/
def agree (s t : State) : Area → Prop
  | .out => t.out = s.out
  | .time => t.time = s.time
  | .free => t.free = s.free
  | .cnt => t.cnt = s.cnt
  | .obs => t.obs = s.obs
  | .extents => t.pool.extents = s.pool.extents
  | .members => t.pool.members = s.pool.members
  | .tethers => t.pool.tethers = s.pool.tethers
  | .leases => t.pool.leases = s.pool.leases
  | .quotas => t.pool.quotas = s.pool.quotas
  | .kites => t.pool.kites = s.pool.kites
  | .xunits => t.xlt.units = s.xlt.units
  | .roots => t.xlt.roots = s.xlt.roots
  | .invals => t.xlt.invals = s.xlt.invals
  | .dir => t.dir = s.dir
  | .bytes => t.mem.bytes = s.mem.bytes
  | .poison => t.mem.poison = s.mem.poison
  | .merge => t.mem.merge = s.mem.merge
  | .blocks => t.mem.blocks = s.mem.blocks
  | .stacks => t.mem.stk = s.mem.stk
  | .memRest => { t.mem with bytes := [], poison := [], merge := [], blocks := [], stk := [] } =
                { s.mem with bytes := [], poison := [], merge := [], blocks := [], stk := [] }
  | .ports => t.rof.ports = s.rof.ports
  | .vcs => t.rof.vcs = s.rof.vcs
  | .routes => t.rof.route = s.rof.route ∧ t.rof.mcast = s.rof.mcast
  | .rofRest => { t.rof with ports := [], vcs := [], route := [], mcast := [] } =
                { s.rof with ports := [], vcs := [], route := [], mcast := [] }
  | .e2e => t.e2e = s.e2e
  | .groups => t.que.groups = s.que.groups
  | .queues => t.que.queues = s.que.queues
  | .jobs => t.que.jobs = s.que.jobs
  | .queRest => { t.que with groups := [], queues := [], jobs := [] } =
                { s.que with groups := [], queues := [], jobs := [] }
  | .windows => t.nm = s.nm
  | .cores => t.core.cores = s.core.cores
  | .coreRest => { t.core with cores := [] } = { s.core with cores := [] }
  | .power => t.sch.q = s.sch.q
  | .schRest => { t.sch with q := [] } = { s.sch with q := [] }
  | .cxlPorts => t.cxl.ports = s.cxl.ports
  | .lds => t.cxl.lds = s.cxl.lds
  | .wins => t.cxl.wins = s.cxl.wins
  | .cxlRest => { t.cxl with ports := [], lds := [], wins := [] } = { s.cxl with ports := [], lds := [], wins := [] }
  | .tenants => t.sec.tenants = s.sec.tenants
  | .sealeds => t.sec.sealeds = s.sec.sealeds
  | .secRest => { t.sec with tenants := [], sealeds := [] } = { s.sec with tenants := [], sealeds := [] }
  | .fen => t.fen = s.fen
  | .pair => t.pair = s.pair
  | .clk => t.clk = s.clk
  | .map => t.map = s.map

/-- Every part but those listed reads the same in both states, and so do the queue of waiting commands and the grade. -/
def Only (l : List Area) (s t : State) : Prop :=
  t.pending = s.pending ∧ t.grade = s.grade ∧ ∀ a, l.contains a = false → agree s t a

/-! Rules over every command. -/

/-- The commands that are served whatever the device does: resets, rails and the always-on domain, steps of the start-up,
the freeze and the test access port, the board record, and a scrub of an address that no block has. -/
def actsWhileHalted : Instr → Bool
  | .installBcr .. => true
  | .aonOscillatorStable .. => true
  | .aonOscillatorTimeout .. => true
  | .operatingHourTick .. => true
  | .overTemperatureTrip .. => true
  | .supplyLoss .. => true
  | .supplyReturn .. => true
  | .wakeN .. => true
  | .coldReset .. => true
  | .resetCold .. => true
  | .resetRelease .. => true
  | .stackTrainingDone .. => true
  | .powerOnFillDone .. => true
  | .freezeN .. => true
  | .bypass .. => true
  | .idcode .. => true
  | .samplePreload .. => true
  | .extest .. => true
  | .scanSelect .. => true
  | .scanDump .. => true
  | .faPresenceChange .. => true
  | .patrolScrubRead .. => true
  | _ => false

/-- The commands that may write the membership table: the fabric manager's, a removal, the resets, and what makes a device
of a pair take its partner's state over. -/
def mayWriteMembers : Instr → Bool
  | .setMembership .. => true
  | .order .. => true
  | .inputdata .. => true
  | .resilverdata .. => true
  | .resilverstate .. => true
  | .interlockAbsent .. => true
  | .orderRecordSilence .. => true
  | .pairLead .. => true
  | .removeTenant .. => true
  | .drainAlertExpiry .. => true
  | .supplyLoss .. => true
  | .supplyReturn .. => true
  | .wakeN .. => true
  | .coldReset .. => true
  | .resetCold .. => true
  | .warmReset .. => true
  | .resetWarm .. => true
  | .deviceWatchdogExpiry .. => true
  | _ => false

/-- A bit enters a CRC register that shifts to the left over the polynomial as R314 writes it. -/
def polyBit (c : BitVec 32) (b : Bool) : BitVec 32 :=
  if c.getLsbD 31 != b then (c <<< 1) ^^^ 0x1EDC6F41#32 else c <<< 1

/-- CRC-32C with input and output reflected: the bits of each byte enter from the lowest up, and the register is read
from its other end. -/
def polyCrc (l : List Byte) : BitVec 32 :=
  ((l.flatMap (fun b => (List.range 8).map b.getLsbD)).foldl polyBit 0xFFFFFFFF#32).reverse ^^^ 0xFFFFFFFF#32

/-- The magnitude of a finite value as a rational number. -/
def magnitude : Fp → ℚ
  | .fin _ m e => (m : ℚ) * (2 : ℚ) ^ e
  | _ => 0

/-- Every other entry of a table reads the same in both states. -/
def Others {κ α : Type} (v : State → κ → α) (n : κ) (s t : State) : Prop := ∀ k, k ≠ n → v t k = v s k

/-- A packet that enters by port `n` passes every check of R297 and R313 in quadrant `q` of a device without a partner,
is sequenced, and is for a tenant that is not being removed: it is accepted. -/
def Passes (n : Nat) (p : Packet) (q : Nat) (s : State) : Bool :=
  let u := takeFrame n p s
  decide (termQuadrant s n p = some q) && srcOk (port u n) p && crcOk p && decide (ageOf u p ≤ 976) &&
  headerOk p (port u n).pair && sequenced p && decide (s.pair.st = .solo) && !(tenantGone s p.tenant.toNat) &&
  (sequenceIn q n p u).1

/-- An Ack, a ResendReq or a Time packet that enters by port `n` passes the checks that unsequenced packets meet, in
quadrant `q` (R303, R313). -/
def PassesPlain (n : Nat) (p : Packet) (q : Nat) (s : State) : Bool :=
  let u := takeFrame n p s
  decide (termQuadrant s n p = some q) && srcOk (port u n) p && crcOk p && decide (ageOf u p ≤ 976) &&
  headerOk p (port u n).pair && !(sequenced p)

/-- A packet of the pair's own type `typ` that enters by the pair port `n` passes every check and is accepted (R422). -/
def PairPasses (n : Nat) (p : Packet) (typ : Nat) (s : State) : Bool :=
  let u := takeFrame n p s
  decide (p.typ.toNat = typ) && isPairType typ && (port s n).pair && srcOk (port u n) p && crcOk p &&
  decide (ageOf u p ≤ 976) && headerOk p (port u n).pair && (sequenceIn (n / 16) n p u).1

/-- The tenant's key that a block is encrypted under is held, and both of its keys while a rekey sweeps the block's extent (R385,
R390, R394): nothing of the block is lost with a key. -/
def keyHeld (s : State) (a : Nat) : Bool :=
  let b := block s (a / blockBytes)
  match b.slot with
  | none => true
  | some n =>
    decide (slotOf (tenant s (n / 2)) n ≠ .empty) &&
    (!((extent s b.extent).sweep.contains (a / blockBytes)) || decide (slotOf (tenant s (n / 2)) (n + 1) ≠ .empty))

/-- Nothing that an ordering at a home would set in motion waits: no completion of a window, no completion that is kept, no
ring write to be seen, no registration. -/
abbrev NothingDue (s : State) : Prop :=
  (∀ c ∈ s.nm.windows, c.2.due = false) ∧ s.que.unverified = [] ∧
  (∀ c ∈ s.que.queues, c.2.extOut = none ∧ c.2.posts = []) ∧ ∀ c ∈ s.core.objs, c.2.reading = false

/-- Nothing is in progress on a line and nobody holds it; its home and the entry quadrant are reachable, no granule or
directory entry is moving, and its stored bytes are sound under the strong code and a key that is held. -/
abbrev IdleLine (s : State) (e l : Nat) : Prop :=
  line s l = {} ∧ s.dir.lines.length < 16 ∧ s.dir.scans = [] ∧ s.dir.waitIn = [] ∧ s.mem.migs = [] ∧ s.mem.merge = [] ∧
  homeReachable s (homeOf s (64 * l)) = true ∧ entryServes s e = true ∧
  (stack s (pcOf s (64 * l) / 64)).failedPcs = [] ∧ tget false s.mem.poison l = false ∧ tget 0 s.mem.lineErr l = 0 ∧
  isLight s (64 * l) = false ∧ keyHeld s (64 * l) = true

/-- The packets a flow holds: type, ARG0, payload. -/
def flowPackets (s : State) (q other vc : Nat) : Option (List (Nat × BitVec 64 × List Byte)) :=
  (sendCtx s { q := q, other := other, vc := vc }).map (fun c =>
    c.pkts.map (fun x => (x.pkt.typ.toNat, x.pkt.arg0, x.pkt.payload)))

/-- The bytes of `n` addresses from `a`. -/
def bytesAt (s : State) (a n : Nat) : List Byte := (List.range n).map (fun i => readByte s (a + i))

/-- Every byte outside `[a, a + n)` reads as before. -/
def SameOutside (a n : Nat) (s t : State) : Prop := ∀ b, b < a ∨ a + n ≤ b → readByte t b = readByte s b

/-- The ring slot of queue `n`'s next completion can be written: a device without a partner, an ACTIVE group of host
`ld` whose link is up, nothing held back, the slot's address translated to `h`, and no directory scan under way. -/
abbrev RingOpen (s : State) (n ld h : Nat) : Prop :=
  s.pair.st = .solo ∧ (group s (n / 8)).st = .active ∧ (group s (n / 8)).owner = .host ld ∧
  (group s (n / 8)).revoking = false ∧ (group s (n / 8)).held = [] ∧ (queue s n).awaiting = [] ∧
  (queue s n).placement = 0 ∧ hostLinkUp s ld = true ∧ s.dir.scans = [] ∧
  hostXlat s ld (queue s n).pasid ((queue s n).cqBase + 32 * ((queue s n).cqTail.toNat % cqSize (queue s n))) = some h

/-- A completion without an extension record has been written to its ring slot: its 32 bytes went to the host at `h`,
the completion index moved on by one, and its descriptor is no longer in flight. -/
def Delivered (c : Compl) (ld h : Nat) (s t : State) : Prop :=
  .dmaWrite ld (queue s c.queue).pasid h
    (complBytes s c (queue s c.queue).cqTail.toNat (cqSize (queue s c.queue)) true) ∈ t.out ∧
  (queue t c.queue).cqTail = (queue s c.queue).cqTail + 1 ∧
  ∀ d ∈ (queue t c.queue).flight, d.slot ≠ c.slot

/-! Memory an engine can use at once. -/

/-- No line is held, busy or awaited, nothing moves, no byte is lost, no unit is fenced, and the
device has no partner. -/
abbrev OpenMemory (s : State) : Prop :=
  s.dir.lines = [] ∧ s.dir.scans = [] ∧ s.dir.waitIn = [] ∧ s.mem.migs = [] ∧ s.mem.merge = [] ∧ s.mem.poison = [] ∧
  s.mem.lineErr = [] ∧ s.mem.stk = [] ∧ s.fen.quads = [] ∧ s.fen.anchor = some 0 ∧ s.fen.straitLost = [] ∧
  s.fen.fencedBlocks = [] ∧ s.pair.st = .solo

/-- Quadrant `q`, whose TLB is empty, lets a participant access `n` bytes of a tenant, one that is not being removed, from
address `a`, and they lie from pool-physical address `b` on, under the strong code and a key that is held. -/
abbrev Maps (s : State) (q ten a n : Nat) (who : Part) (via : Via) (acc : Access) (b : Nat) : Prop :=
  (xunit s q).tlb = [] ∧ walkOk s q ten a = true ∧ tenantGone s ten = false ∧
  (leafAt s ten a).any (fun c => decide (a + n ≤ c.1 + blockBytes) && decide (c.1 ≤ a) && c.2.ppa + (a - c.1) == b &&
    (leafCheck c.2 who via acc).isNone) = true ∧
  b % 64 = a % 64 ∧ isLight s b = false ∧ keyHeld s b = true ∧ b / blockBytes = (b + (n - 1)) / blockBytes

/-! Cores. -/

/-- It is the turn of context `c` of core `n`, its next operation is of this kind, and its semaphore, the held-effect list and
its engine's queue let it go on. -/
abbrev Dispatches (s : State) (n c : Nat) (r : Turn) (k : TKind) : Prop :=
  turnOf s n c = some r ∧ tKindOf (tOpc r.w) = some k ∧ (tWe r.w = false ∨ semOpen s r = true) ∧ heldFull s r = false ∧
  queueFull s r = false

/-- Bytes of a core store. -/
def storeAt (s : State) (n a k : Nat) : List Byte := (List.range k).map (fun i => tget 0 (coreOf s n).store (a + i))

/-- Elements of a format in a core store. -/
def elemsAt (s : State) (n a k code : Nat) : List Nat :=
  (List.range k).map (fun i => leNat (storeAt s n (a + i * (elemBits code / 8)) (elemBits code / 8)))

/-- The context's program counter has moved on by one, its registers are as before, and so is every other core. -/
def Advances (n c : Nat) (s t : State) : Prop :=
  (ctxOf (coreOf t n) c).pc = (ctxOf (coreOf s n) c).pc + 1 ∧
  (ctxOf (coreOf t n) c).regs = (ctxOf (coreOf s n) c).regs ∧ Others coreOf n s t

/-- The core store holds the bytes `d` from address `a` on, and every other byte as before. -/
def Stores (n a : Nat) (d : List Byte) (s t : State) : Prop :=
  storeAt t n a d.length = d ∧
  ∀ b, b < a ∨ a + d.length ≤ b → tget 0 (coreOf t n).store b = tget 0 (coreOf s n).store b

/-- An operation of engine `e` has written `d` to the core store from `a` on, and stands in its engine's queue. -/
def Operates (n c e a : Nat) (d : List Byte) (s t : State) : Prop :=
  Stores n a d s t ∧ Advances n c s t ∧ (tget [] (coreOf t n).engines e).length = 1

end Sys2Proof.Safety
end

