-- ==== Sys2Proof/Certificates/Slice0/Obligations.lean ====
section
/-! DEFINITION. The statements for the provers. Those named …CommandsComplete say of every command of a family what the next
state is, under hypotheses on the state and the operands alone; the others are rules over every command, or over a shared
operation. -/

open Sys2Proof Sys2Proof.Machine Sys2Proof.Safety

/-- EXTENT COMMANDS COMPLETE (R36 to R41, Table 2.4): what each command of an extent's life does to the extent, its
blocks and its bytes. Where the manual leaves a choice the statement rests on the model's, named in log entries 5, 6,
7, 9, 11, 16, 34, 35, 186. -/
def Obligations.ExtentCommandsComplete : Prop :=
  -- ALLOCATE_EXTENT
  (∀ (e : Fin 16384) (a : ExtentReq) (s s1 : State) (bs : List Nat), Managed s → (extent s e.val).st = .free →
    allocOk s a = true → tenantLive s a.tenant.val = true →
    allocBlocks a.blocks e.val a.light a.place a.grainLog2 s = some (bs, s1) →
    ∃ t, exec (.allocateExtent e a) s = .next t ∧ t.out = .fm .ok [] :: s.out ∧
      (extent t e.val).st = .preparing ∧ (extent t e.val).tenant = a.tenant.val ∧
      (extent t e.val).pvaBase = a.pvaBase ∧ (extent t e.val).blocks = bs ∧ (extent t e.val).rights = a.rights ∧
      (extent t e.val).overrides = a.overrides ∧ (extent t e.val).kind = a.kind ∧ bs.length = a.blocks ∧
      (∀ b ∈ bs, (block s b).valid = false ∧ (block t b).valid = true ∧ (block t b).extent = e.val) ∧
      (∀ b, b ∉ bs → block t b = block s b) ∧ Others extent e.val s t) ∧
  -- EXTENT_ZERO_FILL_COMPLETE
  (∀ (e : Fin 16384) (s : State), Running s → (extent s e.val).st = .preparing →
    ∃ t, exec (.extentZeroFillComplete e) s = .next t ∧
      (extent t e.val).st = (if (extent s e.val).kind = .sealed then .sealedEmpty else .active) ∧
      (∀ b ∈ (extent s e.val).blocks, ∀ i, i < blockBytes → readByte t (b * blockBytes + i) = 0) ∧
      (∀ a, a / blockBytes ∉ (extent s e.val).blocks → readByte t a = readByte s a) ∧
      Others extent e.val s t) ∧
  -- EXTENT_WITHDRAWAL_DRAINED
  (∀ (e : Fin 16384) (s : State), Running s → (extent s e.val).st = .releasing →
    drainPending s (extent s e.val).tenant (extentLo (extent s e.val)) (extentHi (extent s e.val)) = false →
    drainPending s (extent s e.val).tenant (shrinkLo (extent s e.val)) (shrinkHi (extent s e.val)) = false →
    ∃ t, exec (.extentWithdrawalDrained e) s = .next t ∧ extent t e.val = { extent s e.val with st := .scrubbing } ∧
      Others extent e.val s t ∧ Only [.extents] s t) ∧
  -- EXTENT_SCRUB_COMPLETE
  (∀ (e : Fin 16384) (s : State), Running s → (extent s e.val).st = .scrubbing →
    ∃ t, exec (.extentScrubComplete e) s = .next t ∧ (extent t e.val).st = .free ∧
      (∀ b ∈ blocksHeld (extent s e.val), (block t b).valid = false ∧
        ∀ i, i < blockBytes → readByte t (b * blockBytes + i) = 0) ∧
      (∀ b, b ∉ blocksHeld (extent s e.val) → block t b = block s b) ∧
      (∀ a, a / blockBytes ∉ blocksHeld (extent s e.val) → readByte t a = readByte s a) ∧
      Others extent e.val s t) ∧
  -- RELEASE_EXTENT
  (∀ (e : Fin 16384) (forced : Bool) (s : State), Managed s → releasable (extent s e.val) = true →
    (forced = true ∨ (extent s e.val).st ≠ .current ∧ (extent s e.val).st ≠ .superseded) →
    extentTethers s e.val = [] → windowsOn s e.val = [] → (extent s e.val).releaseAfterCut = false →
    (∀ c ∈ s.pool.kites, ∀ y, c.2 = some y → y.held = none) → (∀ o ∈ s.cxl.dcOps, o.extent ≠ e.val) →
    ∃ t, exec (.releaseExtent e forced) s = .next t ∧ t.out = .fm .ok [] :: s.out ∧
      (extent t e.val).st = .releasing ∧ (extent t e.val).blocks = (extent s e.val).blocks ∧
      ((extent s e.val).blocks ≠ [] → ∃ v ∈ t.xlt.invals, v.withdraws = true ∧ v.tenant = (extent s e.val).tenant ∧
        v.lo = extentLo (extent s e.val) ∧ v.hi = extentHi (extent s e.val)) ∧
      Others extent e.val s t) ∧
  -- BALLOON_GROW
  (∀ (e : Fin 16384) (n : Nat) (s s1 : State) (bs : List Nat), Managed s → (extent s e.val).st = .active →
    (extent s e.val).kind = .balloon → (extent s e.val).growing = [] → hostHolds s e.val = false → n ≠ 0 →
    (extent s e.val).blocks.length + n ≤ (extent s e.val).maxBlocks →
    allocBlocks n e.val (extent s e.val).light (extent s e.val).place (extent s e.val).grainLog2 s = some (bs, s1) →
    ∃ t, exec (.balloonGrow e n) s = .next t ∧ t.out = .fm .ok [] :: s.out ∧
      extent t e.val = { extent s e.val with growing := bs } ∧ bs.length = n ∧
      Others extent e.val s t ∧ Only [.out, .extents, .blocks] s t) ∧
  -- BALLOON_SHRINK
  (∀ (e : Fin 16384) (n : Nat) (s : State), Managed s → (extent s e.val).st = .active →
    (extent s e.val).kind = .balloon → (extent s e.val).shrinking = [] → hostHolds s e.val = false → n ≠ 0 →
    n ≤ (extent s e.val).blocks.length → leastBlocks (extent s e.val) ≤ (extent s e.val).blocks.length - n →
    ∃ t, exec (.balloonShrink e n) s = .next t ∧ t.out = .fm .ok [] :: s.out ∧
      (extent t e.val).blocks = (extent s e.val).blocks.take ((extent s e.val).blocks.length - n) ∧
      (extent t e.val).shrinking = (extent s e.val).blocks.drop ((extent s e.val).blocks.length - n) ∧
      (∃ v ∈ t.xlt.invals, v.withdraws = true ∧ v.tenant = (extent s e.val).tenant ∧
        v.lo = (extent s e.val).pvaBase + ((extent s e.val).blocks.length - n) * blockBytes ∧
        v.hi = extentHi (extent s e.val)) ∧
      Others extent e.val s t) ∧
  -- RIGHTS_CHANGE
  (∀ (e : Fin 16384) (r : Rights) (ov : List (Part × Rights)) (s : State), Managed s → (extent s e.val).st = .active →
    ov.length ≤ 16 →
    ∃ t, exec (.rightsChange e r ov) s = .next t ∧ t.out = .fm .ok [] :: s.out ∧
      extent t e.val = { extent s e.val with rights := r, overrides := ov } ∧
      ((extent s e.val).blocks ≠ [] → ∃ v ∈ t.xlt.invals, v.tenant = (extent s e.val).tenant ∧
        v.lo = extentLo (extent s e.val) ∧ v.hi = extentHi (extent s e.val) ∧
        v.withdraws = !(onlyAdds (extent s e.val).rights (extent s e.val).overrides r ov)) ∧
      Others extent e.val s t ∧ Only [.out, .extents, .invals, .coreRest] s t ∧
      (onlyAdds (extent s e.val).rights (extent s e.val).overrides r ov = true → Only [.out, .extents, .invals] s t))

/-- TETHER AND KITE COMMANDS COMPLETE (R42 to R47, R51): quotas, periods, renewals, lapses, releases; kites created
and their KEEP_RETIRED set. Where the manual leaves a choice the statement rests on the model's, named in log entries
5, 6, 7, 9, 11, 24, 26, 186. -/
def Obligations.TetherCommandsComplete : Prop :=
  -- SET_TETHER_QUOTA
  (∀ (k : Fin 1024) (n : Nat) (s : State), Managed s →
    ((tput 0 s.pool.quotas k.val n).map (·.2)).foldl (· + ·) 0 ≤ 65536 →
    ∃ t, exec (.setTetherQuota k n) s = .next t ∧ t.out = .fm .ok [] :: s.out ∧ tget 0 t.pool.quotas k.val = n ∧
      (∀ j, j ≠ k.val → tget 0 t.pool.quotas j = tget 0 s.pool.quotas j) ∧ Only [.out, .quotas] s t) ∧
  -- SET_TETHER_PERIOD
  (∀ (h : Part) (ms : Nat) (s : State), Managed s → 100 ≤ ms → ms ≤ 60000 →
    ∃ t, exec (.setTetherPeriod h ms) s = .next t ∧ t.out = .fm .ok [] :: s.out ∧
      lease t h = { lease s h with periodMs := ms } ∧
      leaseEnd (lease t h) = (lease s h).renewedAt + 1000000 * ms ∧ Others lease h s t ∧ Only [.out, .leases] s t) ∧
  (∀ (h : Part) (ms : Nat) (s : State), Managed s → ms < 100 ∨ 60000 < ms →
    exec (.setTetherPeriod h ms) s = .next { s with out := .fm .policed [] :: s.out }) ∧
  -- PMM_BEAT
  (∀ (d : Fin 64) (tag : BitVec 32) (s : State), Running s → writesIgnored s d.val = false →
    ∃ t, exec (.pmmBeat d tag) s = .next t ∧ (lease t (.ld d.val)).lastTag = tag.toNat % 65536 ∧
      (tethersOf s (.ld d.val) ≠ 0 → s.time ≤ leaseEnd (lease s (.ld d.val)) ∨ (lease s (.ld d.val)).lapsed = true →
        (lease t (.ld d.val)).lapsed = false ∧
        leaseEnd (lease t (.ld d.val)) = s.time + 1000000 * (lease s (.ld d.val)).periodMs) ∧
      (tethersOf s (.ld d.val) ≠ 0 → leaseEnd (lease s (.ld d.val)) < s.time → (lease s (.ld d.val)).lapsed = false →
        lease t (.ld d.val) = { lease s (.ld d.val) with lastTag := tag.toNat % 65536, late := some s.time })) ∧
  -- TETHER_DEADLINE_TICK
  (∀ (now : Nat) (s : State), Running s →
    (∀ g, tethersOf s (.grp g) ≠ 0 → (lease s (.grp g)).late = none ∧
      ((lease s (.grp g)).lapsed = false → max s.time now ≤ leaseEnd (lease s (.grp g)))) →
    ∃ t, exec (.tetherDeadlineTick now) s = .next t ∧ t.time = max s.time now ∧ t.pool.tethers = s.pool.tethers ∧
      (∀ h ∈ s.pool.leases.map (·.1), tethersOf s h ≠ 0 → leaseEnd (lease s h) < max s.time now →
        (lease s h).late = none → (lease t h).lapsed = true) ∧
      (∀ h, tethersOf s h = 0 ∨ (max s.time now ≤ leaseEnd (lease s h) ∧ (lease s h).late = none) →
        lease t h = lease s h)) ∧
  (∀ (now g : Nat) (l : Lease) (s : State), Running s → s.pool.leases = [(.grp g, l)] → l.lapsed = false → l.late = none →
    tethersOf s (.grp g) ≠ 0 → leaseEnd l < max s.time now → (group s g).st = .active → s.que.jobs = [] →
    (group s g).held = [] →
    ∃ t, exec (.tetherDeadlineTick now) s = .next t ∧ (lease t (.grp g)).lapsed = true ∧
      (group t g).st = .quiescing) ∧
  (∀ (now d a : Nat) (l : Lease) (s : State), Running s → s.pool.leases = [(.ld d, l)] → l.lapsed = false →
    l.late = some a → tethersOf s (.ld d) ≠ 0 → leaseEnd l < max s.time now →
    ∃ t, exec (.tetherDeadlineTick now) s = .next t ∧
      lease t (.ld d) = { l with renewedAt := a, late := none } ∧ .alert .tetherLapse [0, d] ∈ t.out) ∧
  -- RELEASE_TETHER
  (∀ (h : Part) (o : TetherObj) (forced : Bool) (s : State), Managed s →
    (∃ x ∈ s.pool.tethers, x.holder = h ∧ x.obj = o) → (lease s h).lapsed = true ∨ forced = true →
    (∀ d e, h = .ld d → o = .extent e ∨ o = .attach e → windowsOn s e = []) →
    ∃ t, exec (.releaseTether h o forced) s = .next t ∧ t.out.head? = some (.fm .ok []) ∧
      (t.pool.tethers.filter (fun x => x.holder == h && x.obj == o)).length + 1 =
        (s.pool.tethers.filter (fun x => x.holder == h && x.obj == o)).length) ∧
  -- CREATE_KITE
  (∀ (k : Fin 4096) (c : Fin 1024) (sl keep : Bool) (s : State), Managed s → kite s k.val = none →
    ∃ t, exec (.createKite k c sl keep) s = .next t ∧ t.out = .fm .ok [] :: s.out ∧
      kite t k.val = some { tenant := c.val, sealed := sl, keepRetired := keep } ∧
      Others kite k.val s t ∧ Only [.out, .kites] s t) ∧
  -- SET_KITE_ATTRIBUTE
  (∀ (k : Fin 4096) (keep : Bool) (s : State) (y : Kite), Managed s → kite s k.val = some y →
    ∃ t, exec (.setKiteAttribute k keep) s = .next t ∧ t.out.head? = some (.fm .ok []) ∧
      (∃ z, kite t k.val = some z ∧ z.keepRetired = keep ∧ z.version = y.version ∧ z.tenant = y.tenant) ∧
      (keep = true ∨ y.keepRetired = false → Only [.out, .kites] s t)) ∧
  -- SET_MEMBERSHIP
  (∀ (i : Fin 65536) (c : Fin 1024) (s : State), Managed s → (i.val, c.val) ∉ s.pool.members →
    s.pool.members.length < 65536 →
    ∃ t, exec (.setMembership i c true) s = .next t ∧ t.out = .fm .ok [] :: s.out ∧
      (i.val, c.val) ∈ t.pool.members ∧ (∀ x ∈ s.pool.members, x ∈ t.pool.members) ∧ Only [.out, .members] s t)

/-- FABRIC SETTINGS AND LINK STATES COMPLETE (R279 to R282, R286, Tables 11.2, 11.6 to 11.11): what each
fabric-manager setting writes, and how a port that is no pair port moves between its states. Where the manual leaves a
choice the statement rests on the model's, named in log entries 5, 6, 7, 9, 11, 110, 111, 112, 186, 218, 219. -/
def Obligations.PortCommandsComplete : Prop :=
  -- ROF_PORT_ENABLE
  (∀ (n : Fin 64) (s : State), Managed s → (port s n.val).st = .disabled → portFenced s n.val = false →
    ∃ t, exec (.rofPortEnable n) s = .next t ∧ t.out = .fm .ok [] :: s.out ∧
      port t n.val = { port s n.val with enable := true, st := .probing, stateTime := s.time } ∧
      Others port n.val s t ∧ Only [.out, .obs, .ports, .e2e] s t) ∧
  -- ROF_PORT_DISABLE
  (∀ (n : Fin 64) (s : State), Managed s → (port s n.val).pair = false → (port s n.val).txq = [] →
    ∃ t, exec (.rofPortDisable n) s = .next t ∧ t.out = .fm .ok [] :: s.out ∧ (port t n.val).enable = false ∧
      (port t n.val).st = .disabled ∧ (port t n.val).lit = 0 ∧ (port t n.val).rxq = [] ∧
      (∀ v, v < 8 → (vcOf t n.val v).txAvail = 0 ∧ (vcOf t n.val v).held = 0) ∧ Others port n.val s t) ∧
  -- SET_PORT_CONFIG
  (∀ (n : Fin 64) (c : PortConfig) (s : State), Managed s → (port s n.val).st ≠ .up →
    ∃ t, exec (.setPortConfig n c) s = .next t ∧ t.out = .fm .ok [] :: s.out ∧
      port t n.val = { port s n.val with
        pair := c.pair, widthPolicy := c.widthPolicy.val, minWidthLog2 := c.minWidthLog2.val, srcCheck := c.srcCheck
        srcBase := c.srcBase, srcMask := c.srcMask, laneDisable := c.laneDisable, parkHoldUs := c.parkHoldUs.toNat
        rxReady := (port s n.val).rxReady &&& ~~~c.laneDisable, lit := (port t n.val).lit
        partnerReady := (port t n.val).partnerReady, parked := (port t n.val).parked } ∧
      (port t n.val).lit = (port s n.val).lit &&& ~~~c.laneDisable ∧
      (∀ i, i < 16 → c.laneDisable.getLsbD i = false → tget none (port t n.val).parked i = tget none (port s n.val).parked i ∧
        (port t n.val).partnerReady.getLsbD i = (port s n.val).partnerReady.getLsbD i) ∧
      Others port n.val s t ∧ Only [.out, .ports] s t) ∧
  (∀ (n : Fin 64) (c : PortConfig) (s : State), Managed s → (port s n.val).st = .up →
    goodLanes (configured (port s n.val) c) ≠ [] →
    ∃ t, exec (.setPortConfig n c) s = .next t ∧ .fm .ok [] ∈ t.out ∧ (port t n.val).st = .up ∧
      (port t n.val).pair = c.pair ∧ (port t n.val).widthPolicy = c.widthPolicy.val ∧
      (port t n.val).minWidthLog2 = c.minWidthLog2.val ∧ (port t n.val).srcCheck = c.srcCheck ∧
      (port t n.val).srcBase = c.srcBase ∧ (port t n.val).srcMask = c.srcMask ∧
      (port t n.val).laneDisable = c.laneDisable ∧ (port t n.val).parkHoldUs = c.parkHoldUs.toNat ∧
      (port t n.val).lit &&& c.laneDisable = 0 ∧ (port t n.val).rxReady &&& c.laneDisable = 0 ∧
      (port t n.val).txMask &&& c.laneDisable = 0 ∧ Others port n.val s t ∧ Only [.out, .cnt, .ports] s t) ∧
  -- SET_VC_PARTITION
  (∀ (n : Fin 64) (v : Fin 8) (words : BitVec 16) (s : State), Managed s →
    (if v.val = 7 then 8 else 130) ≤ words.toNat →
    (((List.range 8).filter (fun u => u != v.val)).map (rxWords s n.val)).foldl (· + ·) 0 + words.toNat ≤ 16384 →
    ∃ t, exec (.setVcPartition n v words) s = .next t ∧ t.out = .fm .ok [] :: s.out ∧
      rxWords t n.val v.val = words.toNat ∧ (vcOf t n.val v.val).rxInForce = (vcOf s n.val v.val).rxInForce ∧
      (∀ m u, u < 8 → m ≠ n.val ∨ u ≠ v.val → vcOf t m u = vcOf s m u) ∧ Only [.out, .vcs] s t) ∧
  (∀ (n : Fin 64) (v : Fin 8) (words : BitVec 16) (s : State), Managed s →
    words.toNat < (if v.val = 7 then 8 else 130) ∨
    16384 < (((List.range 8).filter (fun u => u != v.val)).map (rxWords s n.val)).foldl (· + ·) 0 + words.toNat →
    exec (.setVcPartition n v words) s = .next { s with out := .fm .policed [] :: s.out }) ∧
  -- SET_ROUTE
  (∀ (d : BitVec 16) (ports : BitVec 64) (s : State), Managed s →
    ∃ t, exec (.setRoute d ports) s = .next t ∧ t.out = .fm .ok [] :: s.out ∧ tget 0 t.rof.route d.toNat = ports ∧
      t.rof.mcast = s.rof.mcast ∧ Others (fun s => tget 0 s.rof.route) d.toNat s t ∧ Only [.out, .routes] s t) ∧
  -- SET_MCAST
  (∀ (g : Fin 4096) (ports : BitVec 64) (valid loc : Bool) (s : State), Managed s →
    ∃ t, exec (.setMcast g ports valid loc) s = .next t ∧ t.out = .fm .ok [] :: s.out ∧
      tget (0, false, false) t.rof.mcast g.val = (ports, valid, loc) ∧ t.rof.route = s.rof.route ∧
      Others (fun s => tget (0, false, false) s.rof.mcast) g.val s t ∧ Only [.out, .routes] s t) ∧
  -- SET_ROF_CTRL
  (∀ (a u : BitVec 16) (d : BitVec 10) (l : BitVec 16) (s : State), Managed s →
    ∃ t, exec (.setRofCtrl a u d l) s = .next t ∧ t.out = .fm .ok [] :: s.out ∧ t.rof.adaptBiasW = a.toNat ∧
      t.rof.auditUs = u.toNat ∧ t.rof.retrainDrainUs = d.toNat ∧ t.rof.trainLimitMs = l.toNat ∧
      t.rof.lastPort = s.rof.lastPort ∧ Only [.out, .rofRest] s t) ∧
  -- PROBE_EMIT
  (∀ (n : Fin 64) (now : Nat) (s : State), Running s → (port s n.val).st = .probing →
    ∃ t, exec (.probeEmit n now) s = .next t ∧ t.out = .probe n.val :: s.out ∧ t.time = max s.time now ∧
      Only [.out, .time] s t) ∧
  -- PARTNER_DETECTED
  (∀ (n : Fin 64) (now : Nat) (s : State), Running s → (port s n.val).st = .probing →
    ∃ t, exec (.partnerDetected n now) s = .next t ∧
      port t n.val = { port s n.val with lit := ~~~(port s n.val).laneDisable, st := .lighting
                                         stateTime := max s.time now } ∧
      Others port n.val s t ∧ Only [.time, .obs, .ports, .e2e] s t) ∧
  -- RECEIVE_LOCK
  (∀ (n : Fin 64) (lane : Fin 16) (now : Nat) (s : State), Running s → (port s n.val).st = .lighting →
    (port s n.val).rxReady ||| ((1#16 <<< lane.val) &&& ~~~(port s n.val).laneFault &&& ~~~(port s n.val).laneDisable) ≠ 0 →
    ∃ t, exec (.receiveLock n lane now) s = .next t ∧ (port t n.val).st = .training ∧
      (port t n.val).rxReady =
        (port s n.val).rxReady ||| ((1#16 <<< lane.val) &&& ~~~(port s n.val).laneFault &&& ~~~(port s n.val).laneDisable) ∧
      (port t n.val).keyAgreed = false ∧ (port t n.val).trainSeen = false ∧ (port t n.val).creditSeen = false ∧
      (port t n.val).ephemeral = s.sec.ak.map (fun _ => s.free) ∧
      (∃ w, t.out.head? = some (.control n.val 0x01 ((List.range 8).map (rxWords s n.val)) w)) ∧
      (∃ w, .control n.val 0x09 [endpointOf s (n.val / 16),
        b2n (port s n.val).pair + 2 * b2n ((port s n.val).pair && s.sec.side), (port t n.val).rxReady.toNat] w ∈ t.out) ∧
      Others port n.val s t) ∧
  (∀ (n : Fin 64) (lane : Fin 16) (now : Nat) (s : State), Running s →
    (port s n.val).st = .training ∨ (port s n.val).st = .up →
    ∃ t, exec (.receiveLock n lane now) s = .next t ∧
      port t n.val = { port s n.val with
        rxReady := (port s n.val).rxReady ||| ((1#16 <<< lane.val) &&& ~~~(port s n.val).laneFault &&& ~~~(port s n.val).laneDisable) } ∧
      t.out = (if (port s n.val).st = .up then [ctrlOut s n.val 0x03 [(port t n.val).rxReady.toNat]] else []) ++ s.out ∧
      Others port n.val s t ∧ Only [.out, .time, .ports] s t) ∧
  -- TRAINING_COMPLETE
  (∀ (n : Fin 64) (now : Nat) (s : State), Running s → (port s n.val).st = .training → (port s n.val).pair = false →
    (port s n.val).keyAgreed = true → (port s n.val).trainSeen = true → (port s n.val).creditSeen = true →
    goodLanes (port s n.val) ≠ [] → (port s n.val).rxReady ≠ 0 →
    ∃ t, exec (.trainingComplete n now) s = .next t ∧ (port t n.val).st = .up ∧ (port t n.val).fctrTx = 0 ∧
      (port t n.val).fctrRx = 0 ∧ (port t n.val).ephemeral = none ∧ (port t n.val).auditAt = t.time ∧ t.time = max s.time now ∧
      (port t n.val).rxMask =
        maskFrom ((lanesOf (port s n.val).rxReady).take (widthFor (lanesOf (port s n.val).rxReady).length)) ∧
      (port t n.val).txMask = maskFrom ((goodLanes (port s n.val)).take (policyWidth (port s n.val))) ∧
      Others port n.val s t ∧ Only [.time, .obs, .ports, .e2e] s t) ∧
  -- TRAIN_LIMIT_EXPIRY
  (∀ (n : Fin 64) (now : Nat) (s : State), Running s → (port s n.val).pair = false → (port s n.val).txq = [] →
    (port s n.val).st = .lighting ∨ (port s n.val).st = .training →
    (port s n.val).stateTime + 1000000 * trainLimitMs s ≤ max s.time now →
    ∃ t, exec (.trainLimitExpiry n now) s = .next t ∧ (port t n.val).st = .probing ∧ (port t n.val).lit = 0 ∧
      cntGet t cSec 0 7 = satAdd (2 ^ 64 - 1) (cntGet s cSec 0 7)
        (if (port s n.val).st = .training ∧ (port s n.val).keyAgreed = false then 1 else 0) ∧
      cntGet t cRof n.val 17 = satAdd (2 ^ 64 - 1) (cntGet s cRof n.val 17) 1 ∧ Others port n.val s t) ∧
  -- LOSS_OF_SIGNAL
  (∀ (n : Fin 64) (now : Nat) (s : State), Running s → (port s n.val).pair = false → (port s n.val).txq = [] →
    (port s n.val).st = .lighting ∨ (port s n.val).st = .training ∨ (port s n.val).st = .up →
    ∃ t, exec (.lossOfSignal n now) s = .next t ∧ (port t n.val).st = .probing ∧ (port t n.val).lit = 0 ∧
      cntGet t cRof n.val 17 = satAdd (2 ^ 64 - 1) (cntGet s cRof n.val 17) 1 ∧ Others port n.val s t) ∧
  -- FULL_RETRAIN
  (∀ (n : Fin 64) (s : State), Managed s → (port s n.val).pair = false → (port s n.val).txq = [] →
    (port s n.val).st = .up →
    ∃ t, exec (.fullRetrain n true) s = .next t ∧ (port t n.val).st = .training ∧
      (port t n.val).lit = (port s n.val).lit ∧ (port t n.val).keyAgreed = false ∧
      cntGet t cRof n.val 16 = satAdd (2 ^ 64 - 1) (cntGet s cRof n.val 16) 1 ∧ .fm .ok [] ∈ t.out ∧
      Others port n.val s t)

/-- FRAMES, CREDITS AND AUDITS COMPLETE (R277, R287 to R289): what a received and a transmitted frame, the CREDIT,
AUDIT and RETRAIN words and their timers do to a port and its channels. Where the manual leaves a choice the statement
rests on the model's, named in log entries 5, 6, 7, 9, 11, 108, 109, 113, 114, 186, 216, 217, 220. -/
def Obligations.FrameCommandsComplete : Prop :=
  -- FRAME_RECEIVE
  (∀ (n : Fin 64) (p : Packet) (idle errs : List Nat) (f : BitVec 32) (now : Nat) (s : State), Running s →
    (port s n.val).st = .up → (port s n.val).fctrRx = f.toNat → (∀ e ∈ idle, e ≤ 2) → (∀ e ∈ errs, e ≤ 1) →
    ∃ t, exec (.frameReceive n p ⟨idle, errs⟩ true true f now) s = .next t ∧ t.time = max s.time now ∧
      (∃ r, (port t n.val).rxq = (port s n.val).rxq ++ [r] ∧ r.pkt = p ∧ r.id = f.toNat ∧ r.time = max s.time now) ∧
      (port t n.val).fctrRx = f.toNat + 1 ∧ (port t n.val).tagFails = 0 ∧
      (vcOf t n.val p.vc.toNat).held = (vcOf s n.val p.vc.toNat).held + frameWords p ∧
      cntGet t cRof n.val 1 = satAdd (2 ^ 64 - 1) (cntGet s cRof n.val 1) 1 ∧
      cntGet t cRof n.val 3 = satAdd (2 ^ 64 - 1) (cntGet s cRof n.val 3) (32 + p.payload.length) ∧
      cntGet t cRof n.val 11 = satAdd (2 ^ 64 - 1) (cntGet s cRof n.val 11) ((idle ++ errs).count 1) ∧
      cntGet t cRof n.val 12 = satAdd (2 ^ 64 - 1) (cntGet s cRof n.val 12) (idle.count 2) ∧
      Others port n.val s t ∧ Only [.time, .cnt, .ports, .vcs] s t) ∧
  (∀ (n : Fin 64) (p : Packet) (idle errs : List Nat) (ok tagOk : Bool) (f : BitVec 32) (now : Nat) (s : State), Running s →
    (port s n.val).st = .up → (2 ∈ errs ∨ ok = false) →
    ∃ t, exec (.frameReceive n p ⟨idle, errs⟩ ok tagOk f now) s = .next t ∧
      cntGet t cRof n.val 4 = satAdd (2 ^ 64 - 1) (cntGet s cRof n.val 4) 1 ∧ Only [.time, .cnt, .free] s t) ∧
  (∀ (n : Fin 64) (p : Packet) (idle errs : List Nat) (f : BitVec 32) (now : Nat) (s : State), Running s →
    (port s n.val).st = .up → (port s n.val).fctrRx = f.toNat → (∀ e ∈ idle, e ≤ 2) → (∀ e ∈ errs, e ≤ 1) →
    (port s n.val).tagFails < 2 →
    ∃ t, exec (.frameReceive n p ⟨idle, errs⟩ true false f now) s = .next t ∧
      port t n.val = { port s n.val with tagFails := (port s n.val).tagFails + 1 } ∧
      cntGet t cRof n.val 5 = satAdd (2 ^ 64 - 1) (cntGet s cRof n.val 5) 1 ∧
      Others port n.val s t ∧ Only [.time, .cnt, .ports] s t) ∧
  -- FRAME_TRANSMIT
  (∀ (n : Fin 64) (v : Fin 8) (now : Nat) (f : TxFrame) (s : State), Running s → (port s n.val).st = .up →
    (port s n.val).retraining = false → headFrame (port s n.val) v.val = some f → f.entry = none →
    f.pkt.mcast = false → frameWords f.pkt ≤ (vcOf s n.val v.val).txAvail → (port s n.val).fctrTx + 1 < 2 ^ 63 →
    gated s = false → awaitsAck s = false →
    ∃ t, exec (.frameTransmit n v now) s = .next t ∧
      t.out = frameOut s n.val (atStart (advance now s) f) :: s.out ∧
      (port t n.val).txq = (port s n.val).txq.erase f ∧ (port t n.val).fctrTx = (port s n.val).fctrTx + 1 ∧
      (vcOf t n.val v.val).txAvail = (vcOf s n.val v.val).txAvail - frameWords f.pkt ∧
      (vcOf t n.val v.val).sent = ((vcOf s n.val v.val).sent + frameWords f.pkt) % 65536 ∧
      (vcOf t n.val v.val).stallAt = none ∧
      cntGet t cRof n.val 0 = satAdd (2 ^ 64 - 1) (cntGet s cRof n.val 0) 1 ∧
      cntGet t cRof n.val 2 = satAdd (2 ^ 64 - 1) (cntGet s cRof n.val 2) (32 + f.pkt.payload.length) ∧
      Others port n.val s t ∧ Only [.out, .time, .cnt, .ports, .vcs] s t) ∧
  -- CREDIT
  (∀ (n : Fin 64) (c : List (BitVec 16)) (s : State), Running s → (port s n.val).st = .up → c.length = 8 →
    ∃ t, exec (.credit n c) s = .next t ∧ (∀ v, v < 8 →
      (vcOf t n.val v).txAvail = min 65535 ((vcOf s n.val v).txAvail + ((c.drop v).headD 0).toNat)) ∧
      (∀ m v, v < 8 → m ≠ n.val → vcOf t m v = vcOf s m v) ∧ Only [.vcs] s t) ∧
  (∀ (n : Fin 64) (c : List (BitVec 16)) (s : State), Running s → (port s n.val).st = .training → c.length = 8 →
    ∃ t, exec (.credit n c) s = .next t ∧ (port t n.val).creditSeen = true ∧ (∀ v, v < 8 →
      (vcOf t n.val v).txWindow = ((c.drop v).headD 0).toNat ∧
      (vcOf t n.val v).txAvail = ((c.drop v).headD 0).toNat) ∧ Others port n.val s t ∧ Only [.ports, .vcs] s t) ∧
  -- CREDIT_RETURN_TIMER
  (∀ (n : Fin 64) (now v : Nat) (s : State), Running s → (port s n.val).st = .up → v < 8 → (vcOf s n.val v).owed ≠ 0 →
    ∃ t, exec (.creditReturnTimer n now) s = .next t ∧
      t.out = ctrlOut s n.val 0x01 ((List.range 8).map (fun v => (vcOf s n.val v).owed)) :: s.out ∧
      (∀ v, v < 8 → vcOf t n.val v = { vcOf s n.val v with owed := 0 }) ∧ Only [.out, .time, .vcs] s t) ∧
  -- AUDIT_TIMER
  (∀ (n : Fin 64) (now : Nat) (s : State), Running s → (port s n.val).st = .up →
    (port s n.val).auditAt + 1000 * auditUs s ≤ max s.time now →
    ∃ t, exec (.auditTimer n now) s = .next t ∧
      t.out = ctrlOut s n.val 0x05 ((List.range 8).map (fun v => (vcOf s n.val v).sent)) :: s.out ∧
      port t n.val = { port s n.val with auditSent := (List.range 8).map (fun v => (vcOf s n.val v).sent)
                                         auditAt := max s.time now } ∧
      Others port n.val s t ∧ Only [.out, .time, .ports] s t) ∧
  -- AUDIT
  (∀ (n : Fin 64) (c : List (BitVec 16)) (s : State), Running s → (port s n.val).st = .up →
    (port s n.val).rxq = [] → (port s n.val).audits = [] → (port s n.val).rxRetrain = none →
    ∃ t, exec (.audit n c) s = .next t ∧ port t n.val = port s n.val ∧
      t.out = ctrlOut s n.val 0x06 ((List.range 8).map (fun v => (vcOf s n.val v).recvd)) :: s.out ∧
      Only [.out, .ports] s t) ∧
  -- AUDIT_ACK
  (∀ (n : Fin 64) (c : List (BitVec 16)) (s : State), Running s → (port s n.val).st = .up →
    (port s n.val).auditSent ≠ [] → c.length = 8 →
    ∃ t, exec (.auditAck n c) s = .next t ∧ (port t n.val).auditSent = [] ∧ (∀ v, v < 8 →
      (vcOf t n.val v).txLeaked =
        ((port s n.val).auditSent.getD v 0 + 65536 - ((c.drop v).headD 0).toNat) % 65536) ∧
      ((∃ v, v < 8 ∧ (vcOf t n.val v).txWindow < 2 * (vcOf t n.val v).txLeaked) →
        (port t n.val).retraining = true) ∧
      Others port n.val s t ∧ Only [.out, .cnt, .ports, .vcs] s t) ∧
  -- RETRAIN
  (∀ (n : Fin 64) (now : Nat) (s : State), Running s → (port s n.val).st = .up → (port s n.val).rxq = [] →
    (port s n.val).audits = [] →
    ∃ t, exec (.retrain n 0 now) s = .next t ∧ (port t n.val).rxRetrain = none ∧
      (∃ w w', t.out = .control n.val 0x01 ((List.range 8).map (rxWords s n.val)) w :: .control n.val 0x08 [0] w' :: s.out) ∧
      (∀ v, v < 8 → (vcOf t n.val v).rxInForce = rxWords s n.val v ∧ (vcOf t n.val v).owed = 0 ∧
        (vcOf t n.val v).recvd = 0) ∧
      cntGet t cRof n.val 15 = satAdd (2 ^ 64 - 1) (cntGet s cRof n.val 15) 1 ∧
      Only [.out, .time, .cnt, .ports, .vcs] s t) ∧
  (∀ (n : Fin 64) (now : Nat) (s : State), Running s → (port s n.val).st = .up → (port s n.val).pair = false →
    (port s n.val).txq = [] →
    ∃ t, exec (.retrain n 1 now) s = .next t ∧ (port t n.val).st = .training ∧
      cntGet t cRof n.val 16 = satAdd (2 ^ 64 - 1) (cntGet s cRof n.val 16) 1 ∧ Others port n.val s t) ∧
  -- RETRAIN_ACK
  (∀ (n : Fin 64) (c : List (BitVec 16)) (s : State), Running s → (port s n.val).retraining = true → c.length = 8 →
    ∃ t, exec (.retrainAck n c) s = .next t ∧ port t n.val = { port s n.val with retraining := false, auditSent := [] } ∧
      (∀ v, v < 8 → (vcOf t n.val v).txWindow = ((c.drop v).headD 0).toNat ∧
        (vcOf t n.val v).txAvail = ((c.drop v).headD 0).toNat ∧ (vcOf t n.val v).txLeaked = 0 ∧ (vcOf t n.val v).sent = 0) ∧
      Others port n.val s t ∧ Only [.ports, .vcs] s t) ∧
  -- RETRAIN_DRAIN_EXPIRY
  (∀ (n : Fin 64) (now at_ mark : Nat) (f : RxFrame) (s : State), Running s →
    (port s n.val).rxRetrain = some (at_, mark) → (port s n.val).rxq = [f] → f.id < mark →
    at_ + 1000 * retrainDrainUs s ≤ max s.time now →
    ∃ t, exec (.retrainDrainExpiry n now) s = .next t ∧ (port t n.val).rxq = [] ∧
      (port t n.val).rxRetrain = none ∧
      cntGet t cRof n.val 10 = satAdd (2 ^ 64 - 1) (cntGet s cRof n.val 10) 1 ∧
      Only [.out, .time, .cnt, .ports, .vcs] s t)

/-- LANES, TRAINING WORDS AND ROUTING COMPLETE (R278, R282 to R285, R293 to R300, R388). Where the manual leaves a
choice the statement rests on the model's, named in log entries 5, 6, 7, 9, 11, 108, 110, 112, 113, 186, 194, 195,
217, 218, 219, 221. -/
def Obligations.LaneCommandsComplete : Prop :=
  -- LANE_SET
  (∀ (n : Fin 64) (m : BitVec 16) (s : State), Running s → (lanesOf m).length ≠ 0 →
    widthFor (lanesOf m).length = (lanesOf m).length →
    ∃ t, exec (.laneSet n m) s = .next t ∧ port t n.val = { port s n.val with rxMask := m } ∧
      Others port n.val s t ∧ Only [.ports] s t) ∧
  (∀ (n : Fin 64) (m : BitVec 16) (s : State), Running s → widthFor (lanesOf m).length ≠ (lanesOf m).length →
    exec (.laneSet n m) s = .next s) ∧
  -- LANE_READY
  (∀ (n : Fin 64) (m : BitVec 16) (s : State), Running s → (port s n.val).st ≠ .up →
    ∃ t, exec (.laneReady n m) s = .next t ∧ port t n.val = { port s n.val with partnerReady := m } ∧
      Others port n.val s t ∧ Only [.ports] s t) ∧
  (∀ (n : Fin 64) (m : BitVec 16) (s : State), Running s → (port s n.val).st = .up → goodLanes { port s n.val with partnerReady := m } ≠ [] →
    ∃ t, exec (.laneReady n m) s = .next t ∧ (port t n.val).st = .up ∧
      ((port s n.val).parkHoldUs ≠ 0 → (port t n.val).partnerReady = m) ∧
      (port t n.val).txMask =
        (if (∀ i ∈ lanesOf (port s n.val).txMask, i ∈ goodLanes { port s n.val with partnerReady := m }) ∧
            (lanesOf (port s n.val).txMask).length = dueWidth { port s n.val with partnerReady := m }
          then (port s n.val).txMask
          else maskFrom ((goodLanes { port s n.val with partnerReady := m }).take (dueWidth { port s n.val with partnerReady := m }))) ∧
      ((port t n.val).txMask ≠ (port s n.val).txMask →
        t.out = ctrlOut s n.val 0x02 [(port t n.val).txMask.toNat] :: s.out) ∧
      Others port n.val s t ∧ Only [.out, .cnt, .ports] s t) ∧
  (∀ (n : Fin 64) (m : BitVec 16) (s : State), Running s → (port s n.val).st = .up → (port s n.val).pair = false →
    (port s n.val).txq = [] → goodLanes { port s n.val with partnerReady := m } = [] →
    ∃ t, exec (.laneReady n m) s = .next t ∧ (port t n.val).st = .training ∧
      cntGet t cRof n.val 16 = satAdd (2 ^ 64 - 1) (cntGet s cRof n.val 16) 1 ∧ Others port n.val s t) ∧
  -- LANE_FAULT
  (∀ (n : Fin 64) (m : BitVec 16) (s : State), Running s → (port s n.val).st ≠ .up →
    ∃ t, exec (.laneFault n m) s = .next t ∧ port t n.val = { port s n.val with txFault := m } ∧
      Others port n.val s t ∧ Only [.ports] s t) ∧
  (∀ (n : Fin 64) (m : BitVec 16) (s : State), Running s → (port s n.val).st = .up → goodLanes { port s n.val with txFault := m } ≠ [] →
    ∃ t, exec (.laneFault n m) s = .next t ∧ (port t n.val).st = .up ∧
      (port t n.val).txFault = m ∧
      (port t n.val).txMask =
        (if (∀ i ∈ lanesOf (port s n.val).txMask, i ∈ goodLanes { port s n.val with txFault := m }) ∧
            (lanesOf (port s n.val).txMask).length = dueWidth { port s n.val with txFault := m }
          then (port s n.val).txMask
          else maskFrom ((goodLanes { port s n.val with txFault := m }).take (dueWidth { port s n.val with txFault := m }))) ∧
      ((port t n.val).txMask ≠ (port s n.val).txMask →
        t.out = ctrlOut s n.val 0x02 [(port t n.val).txMask.toNat] :: s.out) ∧
      Others port n.val s t ∧ Only [.out, .cnt, .ports] s t) ∧
  (∀ (n : Fin 64) (m : BitVec 16) (s : State), Running s → (port s n.val).st = .up → (port s n.val).pair = false →
    (port s n.val).txq = [] → goodLanes { port s n.val with txFault := m } = [] →
    ∃ t, exec (.laneFault n m) s = .next t ∧ (port t n.val).st = .training ∧
      cntGet t cRof n.val 16 = satAdd (2 ^ 64 - 1) (cntGet s cRof n.val 16) 1 ∧ Others port n.val s t) ∧
  -- LANE_LOCK_LOSS
  (∀ (n : Fin 64) (lane : Fin 16) (now : Nat) (s : State), Running s →
    (port s n.val).st = .training ∨ ((port s n.val).st = .up ∧
      (port s n.val).rxMask &&& ((port s n.val).rxReady &&& ~~~(1#16 <<< lane.val)) ≠ 0) →
    ∃ t, exec (.laneLockLoss n lane now) s = .next t ∧
      port t n.val = { port s n.val with laneFault := (port s n.val).laneFault ||| (1#16 <<< lane.val)
                                         rxReady := (port s n.val).rxReady &&& ~~~(1#16 <<< lane.val) } ∧
      (∃ w w', t.out = .control n.val 0x03 [(port t n.val).rxReady.toNat] w ::
        .control n.val 0x04 [(port t n.val).laneFault.toNat] w' :: s.out) ∧
      Others port n.val s t ∧ Only [.out, .time, .ports] s t) ∧
  (∀ (n : Fin 64) (lane : Fin 16) (now : Nat) (s : State), Running s → (port s n.val).st = .up →
    (port s n.val).pair = false → (port s n.val).txq = [] →
    (port s n.val).rxMask &&& ((port s n.val).rxReady &&& ~~~(1#16 <<< lane.val)) = 0 →
    ∃ t, exec (.laneLockLoss n lane now) s = .next t ∧ (port t n.val).st = .training ∧
      cntGet t cRof n.val 16 = satAdd (2 ^ 64 - 1) (cntGet s cRof n.val 16) 1 ∧ Others port n.val s t) ∧
  -- WIDTH_NARROW
  (∀ (n : Fin 64) (s : State), Running s → (port s n.val).st = .up → (port s n.val).widthPolicy = 1 →
    minWidth (port s n.val) < (lanesOf (port s n.val).txMask).length →
    ∃ t, exec (.widthNarrow n) s = .next t ∧
      (port t n.val).txMask =
        maskFrom ((goodLanes (port s n.val)).take ((lanesOf (port s n.val).txMask).length / 2)) ∧
      Others port n.val s t ∧ Only [.out, .cnt, .ports] s t) ∧
  -- WIDTH_WIDEN
  (∀ (n : Fin 64) (s : State), Running s → (port s n.val).st = .up → (port s n.val).widthPolicy = 1 →
    2 * (lanesOf (port s n.val).txMask).length ≤ 16 → goodLanes (port s n.val) ≠ [] →
    widthFor (2 * (lanesOf (port s n.val).txMask).length) = 2 * (lanesOf (port s n.val).txMask).length →
    2 * (lanesOf (port s n.val).txMask).length ≤ (goodLanes (port s n.val)).length →
    ∃ t, exec (.widthWiden n) s = .next t ∧
      (port t n.val).txMask =
        maskFrom ((goodLanes (port s n.val)).take (2 * (lanesOf (port s n.val).txMask).length)) ∧
      Others port n.val s t ∧ Only [.out, .cnt, .ports] s t) ∧
  (∀ (n : Fin 64) (s : State), Running s → (port s n.val).st = .up → (port s n.val).widthPolicy = 1 →
    goodLanes (port s n.val) ≠ [] → (∀ i ∈ lanesOf (port s n.val).txMask, i ∈ goodLanes (port s n.val)) →
    widthFor (goodLanes (port s n.val)).length = (lanesOf (port s n.val).txMask).length →
    2 * (lanesOf (port s n.val).txMask).length ≤
      (lanesOf (~~~(port s n.val).txFault &&& ~~~(port s n.val).laneDisable)).length →
    2 * (lanesOf (port s n.val).txMask).length ≤ 16 →
    ∃ t, exec (.widthWiden n) s = .next t ∧
      port t n.val = { port s n.val with
        wantWidth := 2 * (lanesOf (port s n.val).txMask).length
        lit := (port s n.val).lit ||| maskFrom ((lanesOf (~~~(port s n.val).txFault &&&
          ~~~(port s n.val).laneDisable)).take (2 * (lanesOf (port s n.val).txMask).length)) } ∧
      Others port n.val s t ∧ Only [.ports] s t) ∧
  -- LANE_PARK_EXPIRY
  (∀ (n : Fin 64) (lane : Fin 16) (now u : Nat) (s : State), Running s →
    tget none (port s n.val).parked lane.val = some u → u + 1000 * (port s n.val).parkHoldUs ≤ max s.time now →
    ∃ t, exec (.laneParkExpiry n lane now) s = .next t ∧ (port t n.val).lit.getLsbD lane.val = false ∧
      tget none (port t n.val).parked lane.val = none ∧
      (∀ l, l < 16 → l ≠ lane.val → (port t n.val).lit.getLsbD l = (port s n.val).lit.getLsbD l) ∧
      Others port n.val s t ∧ Only [.time, .ports] s t) ∧
  -- TRAIN
  (∀ (n : Fin 64) (id : BitVec 16) (pair side : Bool) (ready : BitVec 16) (s : State), Running s →
    (port s n.val).st = .training → pair = (port s n.val).pair → (pair = true → side ≠ s.sec.side) →
    (pair = false → id.toNat ≠ endpointOf s (n.val / 16)) →
    ((port s n.val).ephemeral = none ∨ (port s n.val).keyParts = []) →
    ∃ t, exec (.train n id pair side ready) s = .next t ∧
      port t n.val = { port s n.val with trainSeen := true, partnerId := id.toNat, partnerPair := pair
                                         partnerSide := side, partnerReady := ready } ∧
      Others port n.val s t ∧ Only [.ports] s t) ∧
  (∀ (n : Fin 64) (id : BitVec 16) (pair side : Bool) (ready : BitVec 16) (s : State), Running s →
    (port s n.val).st = .training → pair ≠ (port s n.val).pair → (port s n.val).pair = false →
    (port s n.val).txq = [] →
    ∃ t, exec (.train n id pair side ready) s = .next t ∧ (port t n.val).st = .probing ∧ (port t n.val).lit = 0 ∧
      Others port n.val s t) ∧
  (∀ (n : Fin 64) (id : BitVec 16) (side : Bool) (ready : BitVec 16) (s : State), Running s →
    (port s n.val).st = .training → (port s n.val).pair = false → id.toNat = endpointOf s (n.val / 16) →
    (port s n.val).txq = [] →
    ∃ t, exec (.train n id false side ready) s = .next t ∧ (port t n.val).st = .probing ∧ (port t n.val).lit = 0 ∧
      cntGet t cSec 0 7 = satAdd (2 ^ 64 - 1) (cntGet s cSec 0 7) 1 ∧ Others port n.val s t) ∧
  -- KEYX
  (∀ (n : Fin 64) (part : Fin 4) (index total : BitVec 16) (d : List Byte) (s : State), Running s →
    (port s n.val).st = .training → part.val ≠ 3 → index < total → (port s n.val).keyParts = [] → 2 ≤ total →
    ∃ t, exec (.keyx n part index total d) s = .next t ∧
      port t n.val = { port s n.val with keyParts := [((part.val, index.toNat), (total.toNat, slice d 0 22))] } ∧
      Others port n.val s t ∧ Only [.ports] s t) ∧
  (∀ (n : Fin 64) (part : Fin 4) (index total : BitVec 16) (d : List Byte) (e : Nat) (s : State), Running s →
    (port s n.val).st = .training → part.val ≠ 3 → index < total → (port s n.val).ephemeral = some e →
    (port s n.val).trainSeen = true → (port s n.val).keyAgreed = false → (port s n.val).keySigned = false →
    (keyPart { port s n.val with
      keyParts := aset (part.val, index.toNat) (total.toNat, slice d 0 22) (port s n.val).keyParts } 0).isSome = true →
    keyPart { port s n.val with
      keyParts := aset (part.val, index.toNat) (total.toNat, slice d 0 22) (port s n.val).keyParts } 1 = none →
    ∃ t, exec (.keyx n part index total d) s = .next t ∧
      port t n.val = { port s n.val with
        keyParts := aset (part.val, index.toNat) (total.toNat, slice d 0 22) (port s n.val).keyParts
        keySigned := true } ∧
      (∃ v w, t.out.head? = some (.control n.val 0x0A (2 :: v) w)) ∧
      Others port n.val s t ∧ Only [.out, .ports] s t) ∧
  -- CONTROL_WORD_DISCARD
  (∀ (n : Fin 64) (w : List Byte) (s : State), Running s → ctrlBad w = true →
    ∃ t, exec (.controlWordDiscard ⟨n, w⟩) s = .next t ∧
      cntGet t cRof n.val 13 = satAdd (2 ^ 64 - 1) (cntGet s cRof n.val 13) 1 ∧
      (∀ f m i, m < 64 → i < 65536 → ¬(f = cRof ∧ m = n.val ∧ i = 13) → cntGet t f m i = cntGet s f m i) ∧
      Only [.cnt] s t) ∧
  (∀ (n : Fin 64) (w : List Byte) (s : State), ctrlBad w = false → exec (.controlWordDiscard ⟨n, w⟩) s = .next s) ∧
  -- FORWARD
  (∀ (n : Fin 64) (m : Nat) (p : Packet) (s : State), Running s → p.mcast = false → termQuadrant s n.val p = none →
    srcOk (port s n.val) p = true → ageOf s p ≤ 976 → choosePort s (n.val / 16) p (some n.val) = some m →
    (port s n.val).rxq = [] →
    ∃ t, exec (.forward n p) s = .next t ∧
      (port t m).txq = (port s m).txq ++ [{ pkt := p, entry := some n.val }] ∧
      cntGet t cRof n.val 19 = satAdd (2 ^ 64 - 1) (cntGet s cRof n.val 19) 1 ∧ Others port m s t ∧
      Only [.cnt, .ports, .rofRest] s t) ∧
  (∀ (n : Fin 64) (p : Packet) (s : State), Running s → p.mcast = false → termQuadrant s n.val p = none →
    srcOk (port s n.val) p = true → ageOf s p ≤ 976 → candidates s p.dst.toNat (some n.val) = [] →
    (port s n.val).rxq = [] →
    ∃ t, exec (.forward n p) s = .next t ∧
      cntGet t cRof n.val 7 = satAdd (2 ^ 64 - 1) (cntGet s cRof n.val 7) 1 ∧ Only [.cnt] s t) ∧
  -- MULTICAST
  (∀ (n : Fin 64) (p : Packet) (ports : BitVec 64) (loc : Bool) (s : State), Running s → p.mcast = true →
    p.dst.toNat < 4096 → tget (0#64, false, false) s.rof.mcast p.dst.toNat = (ports, true, loc) →
    srcOk (port s n.val) p = true → ageOf s p ≤ 976 → (port s n.val).rxq = [] →
    ∃ t, exec (.multicast n p) s = .next t ∧ (∀ m, m < 64 →
      (port t m).txq = (if ports.getLsbD m = true ∧ m ≠ n.val ∧ (port s m).st = .up
        then (port s m).txq ++ [{ pkt := p, entry := some n.val }] else (port s m).txq)) ∧
      Only [.cnt, .ports] s t)

/-- REQUEST COMMANDS COMPLETE (R86 to R113, Tables 4.3, 4.4): a request packet that passes the checks of R313,
translates, and finds its line idle is performed at its home and answered; every byte outside the written ones reads
as before. Where the manual leaves a choice the statement rests on the model's, named in log entries 5, 6, 7, 9, 11,
19, 28, 119, 186, 189, 198, 236. -/
def Obligations.RequestCommandsComplete : Prop :=
  -- RDONCE
  (∀ (n : Fin 64) (p : Packet) (q ppa : Nat) (s : State), Running s → Passes n.val p q s = true → p.typ = 0x01 →
    p.pktCount.toNat ≤ 1 → p.mcast = false → s.e2e.send = [] → s.fen.fencedBlocks = [] →
    argPva p % 64 + (field p.arg0.toNat 48 12 + 1) ≤ 64 →
    (translate (n.val / 16) p.tenant.toNat (argPva p) (.ep p.src.toNat) .port .read s).1.toOption.map (·.1) = some ppa →
    ppa % 64 = argPva p % 64 → IdleLine s (n.val / 16) (ppa / 64) →
    ∃ t, exec (.rdonce n p) s = .next t ∧
      flowPackets t q p.src.toNat 1 = some [(tData, respArg 0 p.seq.toNat p.vc.toNat,
        bytesAt s ppa (field p.arg0.toNat 48 12 + 1))] ∧
      (line t (ppa / 64)).dir = {} ∧ SameMemory s t) ∧
  -- RDSHARED
  (∀ (n : Fin 64) (p : Packet) (q ppa : Nat) (s : State), Running s → Passes n.val p q s = true → p.typ = 0x02 →
    p.pktCount.toNat ≤ 1 → p.mcast = false → s.e2e.send = [] → s.fen.fencedBlocks = [] → argPva p % 64 = 0 →
    (translate (n.val / 16) p.tenant.toNat (argPva p) (.ep p.src.toNat) .port .read s).1.toOption.map (·.1) = some ppa →
    ppa % 64 = 0 → IdleLine s (n.val / 16) (ppa / 64) →
    ∃ t, exec (.rdshared n p) s = .next t ∧
      flowPackets t q p.src.toNat 1 = some [(tDataS, respArg 0 p.seq.toNat p.vc.toNat, bytesAt s ppa 64)] ∧
      (line t (ppa / 64)).dir = { st := .s, ptrs := [.ep p.src.toNat] } ∧ SameMemory s t) ∧
  -- RDOWN
  (∀ (n : Fin 64) (p : Packet) (q ppa : Nat) (s : State), Running s → Passes n.val p q s = true → p.typ = 0x03 →
    p.pktCount.toNat ≤ 1 → p.mcast = false → s.e2e.send = [] → s.fen.fencedBlocks = [] → argPva p % 64 = 0 →
    (translate (n.val / 16) p.tenant.toNat (argPva p) (.ep p.src.toNat) .port .own s).1.toOption.map (·.1) = some ppa →
    ppa % 64 = 0 → IdleLine s (n.val / 16) (ppa / 64) →
    ∃ t, exec (.rdown n p) s = .next t ∧
      flowPackets t q p.src.toNat 1 = some [(tDataO, respArg 0 p.seq.toNat p.vc.toNat, bytesAt s ppa 64)] ∧
      (line t (ppa / 64)).dir = { st := .o, ptrs := [.ep p.src.toNat] } ∧ SameMemory s t) ∧
  -- UPGRADE
  (∀ (n : Fin 64) (p : Packet) (q ppa : Nat) (s : State), Running s → Passes n.val p q s = true → p.typ = 0x04 →
    p.pktCount.toNat ≤ 1 → p.mcast = false → s.e2e.send = [] → s.fen.fencedBlocks = [] → argPva p % 64 = 0 →
    (translate (n.val / 16) p.tenant.toNat (argPva p) (.ep p.src.toNat) .port .own s).1.toOption.map (·.1) = some ppa →
    ppa % 64 = 0 → IdleLine s (n.val / 16) (ppa / 64) →
    ∃ t, exec (.upgrade n p) s = .next t ∧
      flowPackets t q p.src.toNat 1 = some [(tDataO, respArg 0 p.seq.toNat p.vc.toNat, bytesAt s ppa 64)] ∧
      (line t (ppa / 64)).dir = { st := .o, ptrs := [.ep p.src.toNat] } ∧ SameMemory s t) ∧
  -- WRLINE
  (∀ (n : Fin 64) (p : Packet) (q ppa : Nat) (s : State), Running s → Passes n.val p q s = true → p.typ = 0x30 →
    p.pktCount.toNat ≤ 1 → p.mcast = false → s.e2e.send = [] → s.fen.fencedBlocks = [] → argPva p % 64 = 0 →
    p.payload.length = 64 →
    (translate (n.val / 16) p.tenant.toNat (argPva p) (.ep p.src.toNat) .port .write s).1.toOption.map (·.1) = some ppa →
    ppa % 64 = 0 → IdleLine s (n.val / 16) (ppa / 64) →
    ∃ t, exec (.wrline n p) s = .next t ∧
      flowPackets t q p.src.toNat 1 = some [(tCmp, respArg 0 p.seq.toNat p.vc.toNat, [])] ∧
      bytesAt t ppa 64 = p.payload ∧ (line t (ppa / 64)).dir = {} ∧ SameOutside ppa 64 s t) ∧
  -- WRPART
  (∀ (n : Fin 64) (p : Packet) (q ppa : Nat) (s : State), Running s → Passes n.val p q s = true → p.typ = 0x31 →
    p.pktCount.toNat ≤ 1 → p.mcast = false → s.e2e.send = [] → s.fen.fencedBlocks = [] → argPva p % 64 = 0 →
    (translate (n.val / 16) p.tenant.toNat (argPva p) (.ep p.src.toNat) .port .write s).1.toOption.map (·.1) = some ppa →
    ppa % 64 = 0 → IdleLine s (n.val / 16) (ppa / 64) →
    ∃ t, exec (.wrpart n p) s = .next t ∧
      flowPackets t q p.src.toNat 1 = some [(tCmp, respArg 0 p.seq.toNat p.vc.toNat, [])] ∧
      (∀ i, i < 64 → readByte t (ppa + i) =
        if bitOf (leAt p.payload 0 8) i then byteAt p.payload (8 + i) else readByte s (ppa + i)) ∧
      SameOutside ppa 64 s t) ∧
  -- WRBACK
  (∀ (n : Fin 64) (p : Packet) (q l : Nat) (s : State), Running s → Passes n.val p q s = true → p.typ = 0x2B →
    p.pktCount.toNat ≤ 1 → p.mcast = false → s.e2e.send = [] → s.fen.fencedBlocks = [] →
    wbLine s p.tenant.toNat (argPva p) = some l → recallLine s (.ep p.src.toNat) (pktAddr p) = none →
    line s l = { dir := { st := .o, ptrs := [.ep p.src.toNat] } } → s.mem.migs = [] →
    (stack s (pcOf s (64 * l) / 64)).failedPcs = [] →
    reachesHome s (n.val / 16) (homeOf s (64 * l)) = true →
    ∃ t, exec (.wrback n p) s = .next t ∧
      flowPackets t q p.src.toNat 1 = some [(tCmp, respArg 0 p.seq.toNat p.vc.toNat, [])] ∧
      bytesAt t (64 * l) 64 = p.payload ∧ (line t l).dir = {} ∧ SameOutside (64 * l) 64 s t) ∧
  -- ATOMIC
  (∀ (n : Fin 64) (p : Packet) (q ppa : Nat) (s : State), Running s → Passes n.val p q s = true → p.typ = 0x05 →
    p.pktCount.toNat ≤ 1 → p.mcast = false → s.e2e.send = [] → s.fen.fencedBlocks = [] → s.e2e.retained = [] →
    atomValid (field p.arg0.toNat 48 8) = true → argPva p % max 1 (atomBytes (field p.arg0.toNat 48 8)) = 0 →
    argPva p % 64 + atomBytes (field p.arg0.toNat 48 8) ≤ 64 →
    (translate (n.val / 16) p.tenant.toNat (argPva p) (.ep p.src.toNat) .port .atomic s).1.toOption.map (·.1) = some ppa →
    ppa % 64 = argPva p % 64 → IdleLine s (n.val / 16) (ppa / 64) →
    ∃ t, exec (.atomic n p) s = .next t ∧
      flowPackets t q p.src.toNat 1 = some [(tAtomicResult, respArg 0 p.seq.toNat p.vc.toNat,
        slice p.payload 0 8 ++ slice (bytesAt s ppa (atomBytes (field p.arg0.toNat 48 8))) 0 16)] ∧
      bytesAt t ppa (atomBytes (field p.arg0.toNat 48 8)) =
        leBytes (atomBytes (field p.arg0.toNat 48 8)) (atomNew (field p.arg0.toNat 48 8)
          (leNat (bytesAt s ppa (atomBytes (field p.arg0.toNat 48 8))))
          (leAt p.payload 8 (atomBytes (field p.arg0.toNat 48 8)))
          (leAt p.payload 24 (atomBytes (field p.arg0.toNat 48 8)))) ∧
      SameOutside ppa (atomBytes (field p.arg0.toNat 48 8)) s t)

/-- HOLDERS' ANSWERS AND THE HOME'S OWN EVENTS COMPLETE (R88, R96, R98, R100, R106, R107, R178 step 5, Table 4.4).
Where the manual leaves a choice the statement rests on the model's, named in log entries 5, 6, 7, 9, 11, 29, 30, 31,
119, 186, 196, 197, 199. -/
def Obligations.HomeEventCommandsComplete : Prop :=
  -- CLEAN_EVICT
  (∀ (d : Fin 64) (tag hpa pva l : Nat) (s : State), Running s → hostPva s d.val hpa = some pva →
    wbLine s (logDev s d.val).tenant pva = some l → quietLine (line s l) = true → (line s l).buf = none →
    (line s l).dir.st = .s → (line s l).dir.coarse = false → tenantGone s (logDev s d.val).tenant = false →
    s.dir.lines.length < 16 → s.dir.scans = [] → s.dir.waitIn = [] → s.dir.due = [] → s.mem.migs = [] →
    homeReachable s (homeOf s (64 * l)) = true → entryServes s (d.val / 16) = true →
    gated s = false → awaitsAck s = false →
    ∃ t, exec (.cleanEvict d tag hpa) s = .next t ∧ Part.ld d.val ∉ (line t l).dir.ptrs ∧
      (∀ h, h ≠ Part.ld d.val → h ∈ (line s l).dir.ptrs → h ∈ (line t l).dir.ptrs) ∧
      t.out = .cxl d.val tag false 0 [] :: s.out ∧ Others line l s t ∧ Only [.out, .cnt, .dir] s t) ∧
  (∀ (d : Fin 64) (tag hpa : Nat) (s : State), Running s → hostPva s d.val hpa = none →
    gated s = false → awaitsAck s = false →
    ∃ t, exec (.cleanEvict d tag hpa) s = .next t ∧ t.out = .cxl d.val tag false 0 [] :: s.out ∧ Only [.out] s t) ∧
  -- RECALL_MISS
  (∀ (d : Fin 64) (hpa l : Nat) (s : State), Running s →
    recallLine s (.ld d.val) (hostAddr s d.val hpa) = some l → s.mem.migs = [] →
    reachesHome s (d.val / 16) (homeOf s (64 * l)) = true →
    (line s l).recalls.map (·.holder) = [Part.ld d.val] → (line s l).cur = none → (line s l).dir.st ≠ .u →
    ∃ t, exec (.recallMiss (.host d hpa [] false)) s = .next t ∧ (line t l).recalls = [] ∧
      (line t l).dir = (line s l).target ∧
      cntGet t cDir (homeOf s (64 * l)) 1 = satAdd (2 ^ 64 - 1) (cntGet s cDir (homeOf s (64 * l)) 1) 1 ∧
      Others line l s t ∧ Only [.cnt, .dir] s t) ∧
  -- RECALL_ACK
  (∀ (d : Fin 64) (hpa l : Nat) (s : State), Running s →
    recallLine s (.ld d.val) (hostAddr s d.val hpa) = some l → s.mem.migs = [] →
    reachesHome s (d.val / 16) (homeOf s (64 * l)) = true →
    (line s l).recalls.map (·.holder) = [Part.ld d.val] → (line s l).cur = none →
    ∃ t, exec (.recallAck (.host d hpa [] false)) s = .next t ∧ (line t l).recalls = [] ∧
      (line t l).dir = (if (line s l).dir.st = .u then {} else (line s l).target) ∧
      Others line l s t ∧ Only [.cnt, .dir] s t) ∧
  -- RECALL_DATA
  (∀ (d : Fin 64) (hpa l : Nat) (b : List Byte) (s : State), Running s → b.length = 64 →
    recallLine s (.ld d.val) (hostAddr s d.val hpa) = some l → s.mem.migs = [] →
    reachesHome s (d.val / 16) (homeOf s (64 * l)) = true →
    (stack s (pcOf s (64 * l) / 64)).failedPcs = [] → ownsLine (line s l) (.ld d.val) = true →
    (line s l).recalls.map (·.holder) = [Part.ld d.val] → (line s l).cur = none → (line s l).dir.st ≠ .u →
    ∃ t, exec (.recallData (.host d hpa b false)) s = .next t ∧ (line t l).recalls = [] ∧
      (line t l).dir = (line s l).target ∧ bytesAt t (64 * l) 64 = b ∧ SameOutside (64 * l) 64 s t ∧
      Others line l s t) ∧
  (∀ (d : Fin 64) (hpa l : Nat) (b : List Byte) (s : State), Running s →
    recallLine s (.ld d.val) (hostAddr s d.val hpa) = some l → s.mem.migs = [] →
    reachesHome s (d.val / 16) (homeOf s (64 * l)) = true → ownsLine (line s l) (.ld d.val) = false →
    (line s l).recalls.map (·.holder) = [Part.ld d.val] → (line s l).cur = none → (line s l).dir.st ≠ .u →
    ∃ t, exec (.recallData (.host d hpa b false)) s = .next t ∧ (line t l).recalls = [] ∧
      (line t l).dir = (line s l).target ∧ SameMemory s t ∧
      cntGet t cDir (homeOf s (64 * l)) 6 = satAdd (2 ^ 64 - 1) (cntGet s cDir (homeOf s (64 * l)) 6) 1 ∧
      Others line l s t ∧ Only [.cnt, .dir] s t) ∧
  -- LINE_QUEUE_SERVE
  (∀ (l : Nat) (r : LineReq) (s : State), Running s → line s l = { queue := [r] } → r.kind = .wrLine →
    r.poison = false → r.data.length = 64 → s.dir.scans = [] → s.dir.waitIn = [] → s.mem.migs = [] →
    tenantGone s r.tenant = false → tget none s.dir.pends r.pend = none →
    (stack s (pcOf s (64 * l) / 64)).failedPcs = [] → NothingDue s →
    ∃ t, exec (.lineQueueServe l) s = .next t ∧ (line t l).queue = [] ∧ (line t l).dir = {} ∧
      bytesAt t (64 * l) 64 = r.data ∧ SameOutside (64 * l) 64 s t ∧ Others line l s t) ∧
  -- RECALL_TIMEOUT_FIRST
  (∀ (l now : Nat) (s : State), Running s → (line s l).recalls ≠ [] → (line s l).dir.st ≠ .u →
    (line s l).recallTime + 1000 * recallTimeoutUs s (homeOf s (64 * l)) ≤ max s.time now →
    ∃ t, exec (.recallTimeoutFirst l now) s = .next t ∧ (line t l).dir.st = .u ∧
      (line t l).dir.dirtyPossible = decide ((line s l).dir.st = .o) ∧ (line t l).recalls = (line s l).recalls ∧
      (line t l).recallTime = max s.time now ∧
      cntGet t cDir (homeOf s (64 * l)) 4 = satAdd (2 ^ 64 - 1) (cntGet s cDir (homeOf s (64 * l)) 4) 1 ∧
      Others line l s t ∧ SameMemory s t) ∧
  -- RECALL_TIMEOUT_SECOND
  (∀ (l now : Nat) (s : State), Running s → (line s l).recalls ≠ [] → (line s l).dir.st = .u →
    (line s l).cur = none → (line s l).queue = [] → s.mem.migs = [] →
    (line s l).recallTime + 1000 * recallTimeoutUs s (homeOf s (64 * l)) ≤ max s.time now →
    ∃ t, exec (.recallTimeoutSecond l now) s = .next t ∧ (line t l).dir = {} ∧ (line t l).recalls = [] ∧
      tget false t.mem.poison l = (tget false s.mem.poison l || (line s l).dir.dirtyPossible) ∧
      t.out = .alert .unresponsive [64 * l, ((pvaOfLine s l).getD (0, 0)).1] :: s.out ∧
      Others line l s t ∧ Others (fun s => tget false s.mem.poison) l s t) ∧
  -- BICONFLICT
  (∀ (d : Fin 64) (tag : Nat) (s : State), Running s → gated s = false → awaitsAck s = false →
    ∃ t, exec (.biconflict d tag) s = .next t ∧ t.out = .biConflictAck d.val tag :: s.out ∧
      cntGet t cCxl (d.val / 16) 5 = satAdd (2 ^ 64 - 1) (cntGet s cCxl (d.val / 16) 5) 1 ∧
      Only [.out, .cnt] s t) ∧
  -- MERGE_HOLD_EXPIRY
  (∀ (l now : Nat) (e : MergeEnt) (s : State), Running s → tget none s.mem.merge l = some e → e.mask = 2 ^ 64 - 1 →
    e.data.length = 64 → e.time + 1000 ≤ max s.time now → s.mem.migs = [] →
    (stack s (pcOf s (64 * l) / 64)).failedPcs = [] →
    ∃ t, exec (.mergeHoldExpiry l now) s = .next t ∧ tget none t.mem.merge l = none ∧
      storedLine t l = e.data ∧ SameMemory s t)

/-- TRANSLATION EVENTS COMPLETE (R63 to R84, Tables 3.3, 3.7, 3.11). Where the manual leaves a choice the statement
rests on the model's, named in log entries 5, 6, 7, 9, 11, 19, 20, 21, 22, 23, 186, 187, 188, 189, 190, 191, 192, 193.
-/
def Obligations.TranslationCommandsComplete : Prop :=
  -- WALK_RESULT
  (∀ (q : Fin 4) (c : Fin 1024) (pva : BitVec 48) (who : Part) (port adm : Bool) (acc : Access)
      (ents : List (BitVec 64 × Bool)) (level : Nat) (e : Pte) (s : State), Running s →
    walkEntries s 0 ents = .leaf level e →
    leafCheck (runEntry s c.val pva.toNat level e).leaf who (if port then .port else .inPool adm) acc = none →
    ∃ t, exec (.walkResult q c pva who port adm acc ents) s = .next t ∧
      (xunit t q.val).tlb.head? = some (runEntry s c.val pva.toNat level e) ∧
      (xunit t q.val).faultHead = (xunit s q.val).faultHead ∧ Others xunit q.val s t ∧ Only [.xunits] s t) ∧
  (∀ (q : Fin 4) (c : Fin 1024) (pva : BitVec 48) (who : Part) (port adm : Bool) (acc : Access)
      (ents : List (BitVec 64 × Bool)) (s : State), Running s → walkEntries s 0 ents = .fault .notPresent 0 →
    (xunit s q.val).faultHead + 1 ≠ (xunit s q.val).faultTail →
    ∃ t, exec (.walkResult q c pva who port adm acc ents) s = .next t ∧
      (xunit t q.val).faultHead = (xunit s q.val).faultHead + 1 ∧
      tget none (xunit t q.val).faultLog (xunit s q.val).faultHead.toNat = some
        { time := s.time, pva := pva.toNat, reason := 1, access := accCode acc, level := 0, tenant := c.val
          extent := none, source := (srcOf who c.val).source, sourceId := (srcOf who c.val).sourceId
          tableEpoch := (roots s c.val).tableEpoch, seq := (xunit s q.val).faultSeq.toNat } ∧
      Others xunit q.val s t ∧ Only [.xunits] s t) ∧
  -- INVALIDATION
  (∀ (q : Fin 4) (c : Fin 1024) (lo hi now : Nat) (v : Inval) (s : State), Running s → s.xlt.invals = [v] →
    awaits q.val c.val lo hi v = true →
    ∃ t, exec (.invalidation q c lo hi now) s = .next t ∧
      t.xlt.invals = [{ v with reached := tput none v.reached q.val (some (max s.time now))
                               beats := tput 0 v.beats q.val s.dir.nextBeat
                               turn := tput 0 v.turn q.val (xunit s q.val).turns }] ∧
      (xunit t q.val).tlb = (xunit s q.val).tlb.map (fun e =>
        if overlapsEntry c.val lo hi e then { e with draining := true } else e) ∧
      Others xunit q.val s t ∧ (∀ n, { queue t n with flight := [] } = { queue s n with flight := [] }) ∧
      Only [.time, .xunits, .invals, .e2e, .queues] s t) ∧
  -- INVALIDATION_COMPLETE
  (∀ (q : Fin 4) (c : Fin 1024) (lo hi : Nat) (v : Inval) (s : State), Running s → s.xlt.invals = [v] →
    inProgress q.val c.val lo hi v = true → s.dir.lines = [] → s.dir.waitIn = [] → s.cxl.wins = [] →
    v.isSwitch = false → (∀ k, k < 4 → k ≠ q.val → k ∈ v.done) →
    ∃ t, exec (.invalidationComplete q c lo hi) s = .next t ∧ t.xlt.invals = [] ∧
      (xunit t q.val).tlb = (xunit s q.val).tlb.filter (fun e => !(e.draining && overlapsEntry c.val lo hi e)) ∧
      Others xunit q.val s t ∧ Only [.xunits, .invals] s t) ∧
  -- DRAIN_BOUND_EXPIRY
  (∀ (q : Fin 4) (c : Fin 1024) (lo hi now at_ : Nat) (v : Inval) (r : LineReq) (s : State), Running s →
    s.xlt.invals = [v] → inProgress q.val c.val lo hi v = true → tget none v.reached q.val = some at_ →
    v.withdraws = true → q.val ∉ v.bounded → at_ + 1000 * drainBoundUs s q.val ≤ max s.time now →
    s.dir.lines = [] → s.dir.waitIn.map (·.2.2) = [r] → drainBeat q.val v r = true → r.owner = none →
    tget none s.dir.pends r.pend = none → (xunit s q.val).faultHead + 1 ≠ (xunit s q.val).faultTail →
    NothingDue s →
    ∃ t, exec (.drainBoundExpiry q c lo hi now) s = .next t ∧ t.dir.waitIn = [] ∧
      (∀ w ∈ t.xlt.invals, q.val ∈ w.bounded) ∧
      (∃ f, tget none (xunit t q.val).faultLog (xunit s q.val).faultHead.toNat = some f ∧ f.reason = 7 ∧
        f.pva = (r.pva + r.pos) % 2 ^ 48) ∧
      SameMemory s t) ∧
  -- TABLE_SWITCH
  (∀ (c : Fin 1024) (root : BitVec 26) (now : Nat) (s : State), Running s → (roots s c.val).switchPending = false →
    ∃ t, exec (.tableSwitch c root now) s = .next t ∧
      (roots t c.val).activeSel = !(roots s c.val).activeSel ∧ (roots t c.val).switchPending = true ∧
      (if (roots s c.val).activeSel then (roots t c.val).rootA else (roots t c.val).rootB) = root.toNat ∧
      (if (roots s c.val).activeSel then (roots t c.val).rootB else (roots t c.val).rootA) =
        (if (roots s c.val).activeSel then (roots s c.val).rootB else (roots s c.val).rootA) ∧
      (∃ v, t.xlt.invals = s.xlt.invals ++ [v] ∧ v.isSwitch = true ∧ v.tenant = c.val) ∧
      (∀ q, q < 4 → ∀ e ∈ (xunit t q).tlb, e.tenant = c.val → e.sel = (roots s c.val).activeSel →
        e.draining = true) ∧
      Others roots c.val s t ∧ (∀ n, { queue t n with flight := [] } = { queue s n with flight := [] }) ∧
      Only [.time, .xunits, .roots, .invals, .e2e, .queues] s t) ∧
  -- ATS_TRANSLATION_COMPLETION
  (∀ (d : Fin 64) (pasid page size hpa : Nat) (n : Fin 8192) (s : State), Running s →
    ∃ t, exec (.atsTranslationCompletion d pasid page size hpa true n) s = .next t ∧
      (xunit t (d.val / 16)).atc.head? =
        some { ld := d.val, pasid := pasid, page := page, size := size, hpa := hpa, draining := false }) ∧
  -- ATS_INVALIDATE_REQUEST
  (∀ (d : Fin 64) (pasid page size itag now : Nat) (s : State), Running s →
    ∃ t, exec (.atsInvalidateRequest d pasid page size itag now) s = .next t ∧
      (∀ e ∈ (xunit t (d.val / 16)).atc, atsOverlap d.val pasid page size e.ld e.pasid e.page e.size = true →
        e.draining = true) ∧
      (xunit t (d.val / 16)).atc.map (·.hpa) = (xunit s (d.val / 16)).atc.map (·.hpa) ∧
      (∃ v, (xunit t (d.val / 16)).atsInvals = (xunit s (d.val / 16)).atsInvals ++ [v] ∧ v.ld = d.val ∧
        v.itag = itag ∧ v.time = max s.time now) ∧
      Others xunit (d.val / 16) s t ∧ Only [.time, .xunits] s t) ∧
  -- ATS_INVALIDATE_COMPLETE
  (∀ (d : Fin 64) (itag : Nat) (v : AtsInval) (s : State), Running s → atsFind s d.val itag = some v →
    s.cxl.dmaReads = [] → gated s = false → awaitsAck s = false →
    ∃ t, exec (.atsInvalidateComplete d itag) s = .next t ∧ t.out = .atsInvalComplete d.val itag :: s.out ∧
      (xunit t (d.val / 16)).atsInvals = (xunit s (d.val / 16)).atsInvals.erase v ∧
      Others xunit (d.val / 16) s t ∧ Only [.out, .xunits] s t) ∧
  -- ATS_INVAL_BOUND_EXPIRY
  (∀ (d : Fin 64) (itag now : Nat) (v : AtsInval) (s : State), Running s → atsFind s d.val itag = some v →
    s.cxl.dmaReads = [] → v.time + 1000 * drainBoundUs s (d.val / 16) ≤ max s.time now →
    gated s = false → awaitsAck s = false →
    ∃ t, exec (.atsInvalBoundExpiry d itag now) s = .next t ∧ t.out = .atsInvalComplete d.val itag :: s.out ∧
      (xunit t (d.val / 16)).atsInvals = (xunit s (d.val / 16)).atsInvals.erase v ∧
      Others xunit (d.val / 16) s t) ∧
  -- FAULT_TAIL_WRITE
  (∀ (q : Fin 4) (data : BitVec 64) (s : State), Running s →
    ∃ t, exec (.faultTailWrite q data) s = .next t ∧ (xunit t q.val).faultTail.toNat = field data.toNat 8 6 ∧
      (xunit t q.val).overflow = ((xunit s q.val).overflow && !(bitOf data.toNat 16)) ∧
      (xunit t q.val).faultHead = (xunit s q.val).faultHead ∧ (xunit t q.val).faultLog = (xunit s q.val).faultLog ∧
      Others xunit q.val s t ∧ Only [.xunits] s t)

/-- DOORBELLS AND DESCRIPTOR FETCH COMPLETE (R120 to R130, R133, R135, R146): doorbells set their index and renew the
group's tethers, descriptors are fetched, refused, timed out and completed into the ring. Where the manual leaves a
choice the statement rests on the model's, named in log entries 5, 6, 7, 9, 11, 24, 55, 58, 59, 61, 62, 63, 186, 203,
206. -/
def Obligations.DoorbellCommandsComplete : Prop :=
  -- SQ_TAIL_DOORBELL
  (∀ (n : Fin 8192) (v : BitVec 32) (s : State), Running s → (group s (n.val / 8)).st = .active →
    (group s (n.val / 8)).revoking = false → s.time ≤ leaseEnd (lease s (.grp (n.val / 8))) →
    (v - (queue s n.val).sqHead).toNat ≤ sqSize (queue s n.val) →
    ∃ t, exec (.sqTailDoorbell n v 0) s = .next t ∧ (queue t n.val).sqTail = v ∧
      (queue t n.val).sqHead = (queue s n.val).sqHead ∧ (queue t n.val).st = (queue s n.val).st ∧
      (tethersOf s (.grp (n.val / 8)) ≠ 0 → leaseEnd (lease t (.grp (n.val / 8))) =
        s.time + 1000000 * (lease s (.grp (n.val / 8))).periodMs) ∧
      Others queue n.val s t ∧ Only [.out, .extents, .leases, .queues] s t) ∧
  -- CQ_HEAD_DOORBELL
  (∀ (n : Fin 8192) (v : BitVec 32) (s : State), Running s → (group s (n.val / 8)).st = .active →
    (group s (n.val / 8)).revoking = false → s.time ≤ leaseEnd (lease s (.grp (n.val / 8))) →
    (v - (queue s n.val).cqHead).toNat ≤ cqHeld (queue s n.val) →
    ∃ t, exec (.cqHeadDoorbell n v 0) s = .next t ∧ queue t n.val = { queue s n.val with cqHead := v } ∧
      Others queue n.val s t ∧ Only [.out, .extents, .leases, .queues] s t) ∧
  -- HEARTBEAT_DOORBELL
  (∀ (n : Fin 8192) (v : BitVec 32) (s : State), Running s → (group s (n.val / 8)).st = .active →
    (group s (n.val / 8)).revoking = false → s.time ≤ leaseEnd (lease s (.grp (n.val / 8))) →
    tethersOf s (.grp (n.val / 8)) ≠ 0 →
    ∃ t, exec (.heartbeatDoorbell n v 0) s = .next t ∧
      leaseEnd (lease t (.grp (n.val / 8))) = s.time + 1000000 * (lease s (.grp (n.val / 8))).periodMs ∧
      (lease t (.grp (n.val / 8))).lapsed = false ∧ Others lease (.grp (n.val / 8)) s t ∧
      Only [.out, .extents, .leases] s t) ∧
  -- RESERVED_KIND_DOORBELL
  (∀ (n : Fin 8192) (v : BitVec 32) (r : BitVec 30) (s : State), Running s → (group s (n.val / 8)).st = .active →
    (group s (n.val / 8)).revoking = false → s.time ≤ leaseEnd (lease s (.grp (n.val / 8))) →
    (queue s n.val).st = .running →
    ∃ t, exec (.reservedKindDoorbell n v r) s = .next t ∧
      queue t n.val = { queue s n.val with st := .stopped, fault := 1 } ∧ Others queue n.val s t ∧
      Only [.out, .extents, .leases, .queues] s t) ∧
  -- FOREIGN_DOORBELL
  (∀ (n : Fin 8192) (s : State), Running s →
    ∃ t, exec (.foreignDoorbell n) s = .next t ∧ cntGet t cQue 0 2 = satAdd (2 ^ 64 - 1) (cntGet s cQue 0 2) 1 ∧
      Only [.cnt] s t) ∧
  -- DOORBELL_PACKET
  (∀ (port : Fin 64) (p : Packet) (q : Nat) (s : State), Running s → Passes port.val p q s = true → p.typ = 0x40 →
    p.arg0.toNat < 8192 → ownedBy s (p.arg0.toNat / 8) p.src.toNat = true →
    (group s (p.arg0.toNat / 8)).st = .active → (group s (p.arg0.toNat / 8)).revoking = false →
    s.time ≤ leaseEnd (lease s (.grp (p.arg0.toNat / 8))) →
    dbKind (BitVec.ofNat 64 (leNat p.payload)) = 0 →
    dbValid (queue s p.arg0.toNat) (BitVec.ofNat 64 (leNat p.payload)) = true →
    ∃ t, exec (.doorbellPacket port p) s = .next t ∧
      (queue t p.arg0.toNat).sqTail = dbValue (BitVec.ofNat 64 (leNat p.payload)) ∧
      Others queue p.arg0.toNat s t ∧ SameMemory s t) ∧
  -- POOL_DOORBELL_READ
  (∀ (g : Fin 1024) (i : Fin 8) (d : List Byte) (s : State), Running s → (group s g.val).owner = .pool →
    (group s g.val).st = .active → (group s g.val).revoking = false → (group s g.val).dbMask = 2 ^ i.val →
    s.time ≤ leaseEnd (lease s (.grp g.val)) →
    (engRead (queueActor s (8 * g.val) none) ((group s g.val).dbPva / 64 * 64) 64 s).1 = .got d none →
    dbKind (BitVec.ofNat 64 (leAt d (8 * i.val) 8)) = 0 →
    dbValid (queue s (8 * g.val + i.val)) (BitVec.ofNat 64 (leAt d (8 * i.val) 8)) = true →
    ∃ t, exec (.poolDoorbellRead g) s = .next t ∧ (group t g.val).dbMask = 0 ∧
      (queue t (8 * g.val + i.val)).sqTail = dbValue (BitVec.ofNat 64 (leAt d (8 * i.val) 8)) ∧
      Others queue (8 * g.val + i.val) s t) ∧
  -- DESCRIPTOR_FETCH
  (∀ (n : Fin 8192) (ld h : Nat) (s : State), Running s → canFetch s n.val = true → s.pair.st = .solo →
    (queue s n.val).placement = 0 → (group s (n.val / 8)).owner = .host ld → hostLinkUp s ld = true →
    dmaRoom s (ld / 16) = true → dmaOf s n.val = none →
    hostXlat s ld (queue s n.val).pasid ((queue s n.val).sqBase +
      64 * ((queue s n.val).sqHead.toNat % sqSize (queue s n.val))) = some h →
    ∃ t, exec (.descriptorFetch n) s = .next t ∧ t.out = .dmaRead ld (queue s n.val).pasid h 64 :: s.out ∧
      queue t n.val = { queue s n.val with fetching := true } ∧
      t.cxl.dmaReads.length = s.cxl.dmaReads.length + 1 ∧ Others queue n.val s t ∧
      Only [.out, .queues, .cxlRest] s t) ∧
  -- RING_READ_FAILED
  (∀ (n : Fin 8192) (s : State), Running s → (queue s n.val).fetching = true → (queue s n.val).st = .running →
    ∃ t, exec (.ringReadFailed n) s = .next t ∧
      queue t n.val = { queue s n.val with fetching := false, st := .stopped, fault := 3 } ∧
      (∀ r ∈ t.cxl.dmaReads, r.queue ≠ n.val) ∧ Others queue n.val s t ∧ Only [.e2e, .queues, .cxlRest] s t) ∧
  -- NOP
  (∀ (n : Fin 8192) (slot ld h : Nat) (d : Desc) (s : State), Running s → descAt s n.val slot = some d →
    dOpcode d = 0x01 → descError d = none → mayStart s n.val slot = true → RingOpen s n.val ld h →
    unordered s (complOf n.val d .ok) = false →
    ∃ t, exec (.nop n slot) s = .next t ∧ Delivered (complOf n.val d .ok) ld h s t ∧ Others queue n.val s t) ∧
  -- RESERVED_OPCODE
  (∀ (n : Fin 8192) (slot k ld h : Nat) (d : Desc) (s : State), Running s → descAt s n.val slot = some d →
    descError d = some k → mayStart s n.val slot = true → RingOpen s n.val ld h →
    unordered s (complOf n.val d .policed) = false →
    ∃ t, exec (.reservedOpcode n slot) s = .next t ∧
      Delivered { complOf n.val d .policed with
        detail := k, result0 := (if nearMem d then nmDone s n.val d else 0),
        result1 := (if nearMem d then nmResult1 d (nmDone s n.val d) else 0) } ld h s t ∧ Others queue n.val s t) ∧
  -- COALESCE_TIMER_EXPIRY
  (∀ (n : Fin 8192) (now ld : Nat) (s : State), Running s → 0 < (queue s n.val).coalesced →
    0 < (queue s n.val).coalesceUs →
    (queue s n.val).coalesceSince + 1000 * (queue s n.val).coalesceUs ≤ max s.time now →
    (queue s n.val).notifyKind = 1 → (group s (n.val / 8)).owner = .host ld → gated s = false → awaitsAck s = false →
    ∃ t, exec (.coalesceTimerExpiry n now) s = .next t ∧ t.out = .msix ld (queue s n.val).msixVector :: s.out ∧
      queue t n.val = { queue s n.val with coalesced := 0 } ∧ Others queue n.val s t ∧
      Only [.out, .time, .queues] s t) ∧
  -- DESCRIPTOR_TIME_LIMIT_EXPIRY
  (∀ (n : Fin 8192) (slot now ld h : Nat) (d : Desc) (s : State), Running s → descAt s n.val slot = some d →
    d.job = none → d.started = true → 2 ≤ dOpcode d → dOpcode d ≤ 7 → dLimitUs s n.val d ≠ 0 →
    d.startTime + 1000 * dLimitUs s n.val d ≤ max s.time now → RingOpen s n.val ld h →
    unordered s (complOf n.val d .timeout) = false →
    ∃ t, exec (.descriptorTimeLimitExpiry n slot now) s = .next t ∧
      Delivered { complOf n.val d .timeout with detail := 1, result0 := nmDone s n.val d,
                                                     result1 := nmResult1 d (nmDone s n.val d) } ld h
        (advance now s) t ∧ Others queue n.val s t)

/-- QUEUE AND GROUP STATES COMPLETE (R154 to R156, Tables 5.14, 5.15). Where the manual leaves a choice the statement
rests on the model's, named in log entries 5, 6, 7, 9, 11, 60, 85, 186, 205. -/
def Obligations.GroupCommandsComplete : Prop :=
  -- QUEUE_ENABLE
  (∀ (n : Fin 8192) (s : State), Running s → (group s (n.val / 8)).st ≠ .unbound → ownerIgnored s n.val = false →
    (queue s n.val).st = .disabled → ringOk (queue s n.val) = true →
    ∃ t, exec (.queueEnable n) s = .next t ∧ queue t n.val = { queue s n.val with enable := true, st := .running } ∧
      Others queue n.val s t ∧ Only [.queues] s t) ∧
  -- QUEUE_DISABLE
  (∀ (n : Fin 8192) (s : State), Running s → (group s (n.val / 8)).st ≠ .unbound → ownerIgnored s n.val = false →
    (queue s n.val).st = .running → inFlight (queue s n.val) = 0 →
    ∃ t, exec (.queueDisable n) s = .next t ∧ queue t n.val = { queue s n.val with enable := false, st := .disabled } ∧
      Others queue n.val s t ∧ Only [.queues] s t) ∧
  -- QUEUE_RESTART
  (∀ (n : Fin 8192) (s : State), Running s → (group s (n.val / 8)).st ≠ .unbound → ownerIgnored s n.val = false →
    (queue s n.val).st = .stopped → (group s (n.val / 8)).held = [] →
    ∃ t, exec (.queueRestart n) s = .next t ∧ queue t n.val = { queue s n.val with st := .running, fault := 0 } ∧
      Others queue n.val s t ∧ (group t (n.val / 8)) = group s (n.val / 8)) ∧
  -- GROUP_BIND
  (∀ (g c : Fin 1024) (o : Owner) (q : Fin 4) (db : Nat) (s : State), Managed s → (group s g.val).st = .unbound →
    ownerOk s c.val o db = true → tenantLive s c.val = true →
    (s.pool.tethers.filter (fun x => x.tenant == c.val)).length < tget 0 s.pool.quotas c.val →
    tethersOf s (.grp g.val) < 65535 → s.pool.tethers.length < 65536 →
    ∃ t, exec (.groupBind g c o q db) s = .next t ∧ t.out = .fm .ok [] :: s.out ∧
      group t g.val = { tenant := c.val, quadrant := q.val, owner := o, dbPva := db, st := .active
                        stateTime := s.time } ∧
      t.pool.tethers = s.pool.tethers ++ [{ holder := .grp g.val, obj := .group g.val, tenant := c.val }] ∧
      Others group g.val s t ∧ Only [.out, .tethers, .leases, .groups] s t) ∧
  -- GROUP_RELEASE
  (∀ (g : Fin 1024) (s : State), Managed s → (group s g.val).st = .active → s.que.jobs = [] → s.core.objs = [] →
    ∃ t, exec (.groupRelease g) s = .next t ∧ t.out = .fm .ok [] :: s.out ∧ (group t g.val).st = .releasing ∧
      (group t g.val).held = [] ∧ (group t g.val).tenant = (group s g.val).tenant ∧ Others group g.val s t ∧
      Only [.out, .groups, .queues, .queRest] s t) ∧
  -- GROUP_QUIESCE_DRAINED
  (∀ (g : Fin 1024) (s : State), Running s → (group s g.val).st = .quiescing → groupBusy s g.val = false →
    allDelivered s g.val = true → (group s g.val).renewSeen = false →
    ∃ t, exec (.groupQuiesceDrained g) s = .next t ∧
      group t g.val = { group s g.val with st := .lapsed, stateTime := s.time } ∧ Others group g.val s t ∧
      Only [.groups] s t) ∧
  (∀ (g : Fin 1024) (s : State), Running s → (group s g.val).st = .quiescing → groupBusy s g.val = false →
    allDelivered s g.val = true → (group s g.val).renewSeen = true → s.que.jobs = [] →
    ∃ t, exec (.groupQuiesceDrained g) s = .next t ∧
      group t g.val = { group s g.val with st := .active, renewSeen := false, stateTime := s.time } ∧
      Others group g.val s t ∧ Only [.groups] s t) ∧
  -- GROUP_REARM
  (∀ (g : Fin 1024) (s : State), Managed s → (group s g.val).st = .orphaned → s.que.jobs = [] → s.core.objs = [] →
    (group s g.val).held = [] → (∀ n ∈ queuesOf g.val, (queue s n).flight = []) →
    ∃ t, exec (.groupRearm g) s = .next t ∧ t.out = .fm .ok [] :: s.out ∧ (group t g.val).st = .lapsed ∧
      Others group g.val s t ∧ Only [.out, .groups] s t) ∧
  -- GROUP_RELEASE_DRAINED
  (∀ (g : Fin 1024) (s : State), Running s → (group s g.val).st = .releasing → s.que.jobs = [] →
    (∀ n ∈ queuesOf g.val, (queue s n).flight = []) → tethersOf s (.grp g.val) = 0 →
    ∃ t, exec (.groupReleaseDrained g) s = .next t ∧ (group t g.val).st = .unbound ∧
      (∀ n ∈ queuesOf g.val, (queue t n).st = .disabled ∧ (queue t n).enable = false) ∧ Others group g.val s t ∧
      Only [.groups, .queues] s t)

/-- KITE DESCRIPTORS COMPLETE (R53 to R57, R138, Tables 2.9a, 2.9b): a version is published, attached, detached and
reclaimed at the kite's home. Where the manual leaves a choice the statement rests on the model's, named in log
entries 5, 6, 7, 9, 11, 27, 63, 186. -/
def Obligations.KiteCommandsComplete : Prop :=
  -- KITE_PUBLISH
  (∀ (n : Fin 8192) (slot : Nat) (d : Desc) (y : Kite) (s : State), Running s → descAt s n.val slot = some d →
    dOpcode d = 0x20 → mayStart s n.val slot = true → kdClean d = true → kdKite d < 4096 → kite s (kdKite d) = some y →
    y.tenant = (group s (n.val / 8)).tenant → homeReachable s (kdKite d % 4) = true → y.held = none → y.sealed = false →
    (extent s (kdExtent d)).st = .active →
    (extent s (kdExtent d)).kind = .ordinary → (extent s (kdExtent d)).tenant = y.tenant → kdExtent d < 16384 →
    y.version = kdVersion d → kdVersion d ≠ 2 ^ 64 - 1 →
    ∃ t, exec (.kitePublish n slot) s = .next t ∧
      kite t (kdKite d) = some { y with held := some (kdExtent d, n.val, slot) } ∧
      extent t (kdExtent d) = { extent s (kdExtent d) with readOnly := true } ∧
      ((extent s (kdExtent d)).blocks ≠ [] → ∃ v ∈ t.xlt.invals, v.withdraws = true ∧
        v.tenant = (extent s (kdExtent d)).tenant ∧ v.lo = extentLo (extent s (kdExtent d)) ∧
        v.hi = extentHi (extent s (kdExtent d))) ∧
      Others kite (kdKite d) s t ∧ Others extent (kdExtent d) s t ∧ SameMemory s t) ∧
  -- KITE_PUBLISH_DRAINED
  (∀ (k : Fin 4096) (e n slot ld h : Nat) (d : Desc) (y : Kite) (s : State), Running s → kite s k.val = some y →
    y.held = some (e, n, slot) → y.waiting = [] → y.extent = none → s.dir.lines = [] →
    drainPending s (extent s e).tenant (extentLo (extent s e)) (extentHi (extent s e)) = false →
    (extent s e).releaseWaits = false → descAt s n slot = some d → unordered s (complOf n d .ok) = false →
    RingOpen s n ld h →
    ∃ t, exec (.kitePublishDrained k) s = .next t ∧
      kite t k.val = some { y with version := y.version + 1, extent := some e, held := none } ∧
      extent t e = { extent s e with st := .current, kite := some k.val, version := y.version + 1 } ∧
      Delivered { complOf n d .ok with result0 := y.version + 1 } ld h s t ∧
      Others kite k.val s t ∧ Others extent e s t) ∧
  -- KITE_ATTACH
  (∀ (n : Fin 8192) (slot e ld h : Nat) (d : Desc) (y : Kite) (s : State), Running s → descAt s n.val slot = some d →
    dOpcode d = 0x21 → mayStart s n.val slot = true → kdClean d = true → kdKite d < 4096 → kite s (kdKite d) = some y →
    y.tenant = (group s (n.val / 8)).tenant → homeReachable s (kdKite d % 4) = true → y.held = none →
    kdCurrent d = true → y.version ≠ 0 → y.extent = some e → (extent s e).st = .current →
    (s.pool.tethers.filter (fun x => x.tenant == y.tenant)).length < tget 0 s.pool.quotas y.tenant →
    tethersOf s (.grp (n.val / 8)) < 65535 → s.pool.tethers.length < 65536 →
    unordered s (complOf n.val d .ok) = false → RingOpen s n.val ld h →
    ∃ t, exec (.kiteAttach n slot) s = .next t ∧
      t.pool.tethers = s.pool.tethers ++ [{ holder := .grp (n.val / 8), obj := .attach e, tenant := y.tenant }] ∧
      Delivered { complOf n.val d .ok with result0 := y.version, result1 := (extent s e).pvaBase } ld h s t ∧
      t.pool.kites = s.pool.kites) ∧
  -- KITE_DETACH
  (∀ (n : Fin 8192) (slot e ld h : Nat) (d : Desc) (y : Kite) (s : State), Running s → descAt s n.val slot = some d →
    dOpcode d = 0x22 → mayStart s n.val slot = true → kdClean d = true → kdKite d < 4096 → kite s (kdKite d) = some y →
    y.tenant = (group s (n.val / 8)).tenant → homeReachable s (kdKite d % 4) = true → y.held = none →
    versionExt s (kdKite d) (kdVersion d) isVersionSt = some e →
    s.pool.tethers.any (fun x => x.holder == .grp (n.val / 8) && x.obj == .attach e) = true →
    unordered s (complOf n.val d .ok) = false → RingOpen s n.val ld h →
    ∃ t, exec (.kiteDetach n slot) s = .next t ∧
      (t.pool.tethers.filter (fun x => x.holder == .grp (n.val / 8) && x.obj == .attach e)).length + 1 =
        (s.pool.tethers.filter (fun x => x.holder == .grp (n.val / 8) && x.obj == .attach e)).length ∧
      Delivered { complOf n.val d .ok with result0 := kdVersion d } ld h s t) ∧
  -- KITE_RECLAIM
  (∀ (n : Fin 8192) (slot e ld h : Nat) (d : Desc) (y : Kite) (s : State), Running s → descAt s n.val slot = some d →
    dOpcode d = 0x23 → mayStart s n.val slot = true → kdClean d = true → kdKite d < 4096 → kite s (kdKite d) = some y →
    y.tenant = (group s (n.val / 8)).tenant → homeReachable s (kdKite d % 4) = true → y.held = none →
    y.keepRetired = true → y.sealed = false →
    versionExt s (kdKite d) (kdVersion d) (fun st => decide (st = .retired)) = some e →
    unordered s (complOf n.val d .ok) = false → RingOpen s n.val ld h →
    ∃ t, exec (.kiteReclaim n slot) s = .next t ∧
      extent t e = { extent s e with st := .active, readOnly := false, kite := none, version := 0 } ∧
      Delivered { complOf n.val d .ok with result0 := kdVersion d, result1 := (extent s e).pvaBase } ld h s t ∧
      Others extent e s t ∧ t.pool.kites = s.pool.kites)

/-- NEAR-MEMORY DESCRIPTORS COMPLETE (R158 to R175, Table 6.1): each starts as its stripes, a stripe writes its bytes,
and the descriptor completes with its prefix. Where the manual leaves a choice the statement rests on the model's,
named in log entries 5, 6, 7, 9, 11, 63, 64, 65, 66, 186, 208, 210, 235. -/
def Obligations.NearMemoryCommandsComplete : Prop :=
  -- FILL
  (∀ (n : Fin 8192) (slot : Nat) (d : Desc) (s : State), Running s → descAt s n.val slot = some d →
    dOpcode d = 0x02 → descError d = none → mayStart s n.val slot = true → nmMisaligned d = false → nmTotal d ≠ 0 →
    ∃ t, exec (.fill n slot) s = .next t ∧ descAt t n.val slot =
        some { d with started := true, startTime := s.time, stripes := (nmTotal d + 1048575) / 1048576 } ∧
      Others queue n.val s t ∧ Only [.queues] s t) ∧
  -- COPY
  (∀ (n : Fin 8192) (slot : Nat) (d : Desc) (s : State), Running s → descAt s n.val slot = some d →
    dOpcode d = 0x03 → descError d = none → mayStart s n.val slot = true → nmTotal d ≠ 0 →
    ∃ t, exec (.copy n slot) s = .next t ∧ descAt t n.val slot =
        some { d with started := true, startTime := s.time, stripes := (nmTotal d + 1048575) / 1048576 } ∧
      Others queue n.val s t ∧ Only [.queues] s t) ∧
  -- COMPARE
  (∀ (n : Fin 8192) (slot : Nat) (d : Desc) (s : State), Running s → descAt s n.val slot = some d →
    dOpcode d = 0x04 → descError d = none → mayStart s n.val slot = true → nmMisaligned d = false → nmTotal d ≠ 0 →
    ∃ t, exec (.compare n slot) s = .next t ∧ descAt t n.val slot =
        some { d with started := true, startTime := s.time, stripes := (nmTotal d + 1048575) / 1048576 } ∧
      Others queue n.val s t ∧ Only [.queues] s t) ∧
  -- GATHER
  (∀ (n : Fin 8192) (slot : Nat) (d : Desc) (s : State), Running s → descAt s n.val slot = some d →
    dOpcode d = 0x05 → descError d = none → mayStart s n.val slot = true → nmMisaligned d = false → nmTotal d ≠ 0 →
    ∃ t, exec (.gather n slot) s = .next t ∧ descAt t n.val slot =
        some { d with started := true, startTime := s.time, stripes := (nmTotal d + 1048575) / 1048576 } ∧
      Others queue n.val s t ∧ Only [.queues] s t) ∧
  -- SCATTER
  (∀ (n : Fin 8192) (slot : Nat) (d : Desc) (s : State), Running s → descAt s n.val slot = some d →
    dOpcode d = 0x06 → descError d = none → mayStart s n.val slot = true → nmMisaligned d = false → nmTotal d ≠ 0 →
    ∃ t, exec (.scatter n slot) s = .next t ∧ descAt t n.val slot =
        some { d with started := true, startTime := s.time, stripes := (nmTotal d + 1048575) / 1048576 } ∧
      Others queue n.val s t ∧ Only [.queues] s t) ∧
  -- REDUCE
  (∀ (n : Fin 8192) (slot : Nat) (d : Desc) (s : State), Running s → descAt s n.val slot = some d →
    dOpcode d = 0x07 → descError d = none → mayStart s n.val slot = true → nmMisaligned d = false → nmTotal d ≠ 0 →
    ∃ t, exec (.reduce n slot) s = .next t ∧ descAt t n.val slot =
        some { d with started := true, startTime := s.time, stripes := (nmTotal d + 1048575) / 1048576 } ∧
      Others queue n.val s t ∧ Only [.queues] s t) ∧
  -- STRIPE_START
  (∀ (n : Fin 8192) (slot ppa : Nat) (c : Fin 160) (d : Desc) (s : State), Running s → descAt s n.val slot = some d →
    dOpcode d = 0x02 → d.started = true → d.stripes = 1 → d.stripesDone = [] → d.running = [] → d.cut = [] → d.stopped = false →
    d.diff = none → d.failure = none → nByte d 32 = 0 → nA d % 64 = 0 → nB d = 64 →
    placed s (group s (n.val / 8)) d 0 c.val = true →
    (translate (c.val / 40) (group s (n.val / 8)).tenant (nA d) (.grp (n.val / 8)) (.inPool false) .write s).1.toOption.map
      (·.1) = some ppa →
    ppa % 64 = 0 → IdleLine s (c.val / 40) (ppa / 64) → s.pair.st = .solo →
    tenantGone s (group s (n.val / 8)).tenant = false →
    ∃ t, exec (.stripeStart n slot 0 c) s = .next t ∧
      bytesAt t ppa 64 = (List.range 64).map (fun i => byteAt d.bytes (40 + i % 8)) ∧
      descAt t n.val slot = some { d with stripesDone := [0], engine := some c.val, cut := [] } ∧ Others queue n.val s t ∧ SameOutside ppa 64 s t) ∧
  -- NM_FIRST_FAILURE_KNOWN
  (∀ (n : Fin 8192) (slot : Nat) (d : Desc) (s : State), Running s → descAt s n.val slot = some d →
    d.failure.isSome = true →
    ∃ t, exec (.nmFirstFailureKnown n slot) s = .next t ∧ descAt t n.val slot = some { d with stopped := true } ∧
      Others queue n.val s t ∧ Only [.queues] s t) ∧
  -- NM_DESCRIPTOR_COMPLETE
  (∀ (n : Fin 8192) (slot ld h : Nat) (d : Desc) (s : State), Running s → descAt s n.val slot = some d →
    d.stripes ≠ 0 → d.failure = none → d.diff = none → (∀ i, i < d.stripes → i ∈ d.stripesDone) →
    (nmOpen s n.val slot).isEmpty = true → unordered s (complOf n.val d .ok) = false → RingOpen s n.val ld h →
    ∃ t, exec (.nmDescriptorComplete n slot) s = .next t ∧
      Delivered { complOf n.val d .ok with result0 := nmTotal d, result1 := nmResult1 d (nmTotal d) } ld h s t ∧
      cntGet t cNmo 0 0 = satAdd (2 ^ 64 - 1) (cntGet s cNmo 0 0) 1 ∧
      cntGet t cNmo 0 1 = satAdd (2 ^ 64 - 1) (cntGet s cNmo 0 1) (nmTotal d) ∧ Others queue n.val s t) ∧
  (∀ (n : Fin 8192) (slot ld h m : Nat) (x y : Byte) (d : Desc) (s : State), Running s → descAt s n.val slot = some d →
    dOpcode d = 0x04 → d.stripes ≠ 0 → d.failure = none → d.diff = some (m, x, y) →
    m / 1048576 * 1048576 ≤ donePrefix d →
    (nmOpen s n.val slot).isEmpty = true → unordered s (complOf n.val d .ok) = false → RingOpen s n.val ld h →
    ∃ t, exec (.nmDescriptorComplete n slot) s = .next t ∧
      Delivered { complOf n.val d .ok with result0 := m, result1 := 1 + x.toNat * 2 ^ 8 + y.toNat * 2 ^ 16 } ld h s t ∧
      Others queue n.val s t) ∧
  (∀ (n : Fin 8192) (slot ld h pos : Nat) (st : Status) (d : Desc) (s : State), Running s →
    descAt s n.val slot = some d → d.stripes ≠ 0 → diffWins d = false → d.failure = some (pos, st, []) → d.stopped = true →
    (nmOpen s n.val slot).isEmpty = true → unordered s (complOf n.val d st) = false → RingOpen s n.val ld h →
    ∃ t, exec (.nmDescriptorComplete n slot) s = .next t ∧
      Delivered { complOf n.val d st with result0 := nmPrefix d, result1 := nmResult1 d (nmPrefix d) } ld h s t ∧
      Others queue n.val s t)

/-- REDUCE-ON-WRITE AND REDUCTION WINDOWS COMPLETE (R177 to R183, R322, R323, Tables 6.11 to 6.13). Where the manual
leaves a choice the statement rests on the model's, named in log entries 5, 6, 7, 9, 11, 67, 68, 69, 70, 71, 72, 186,
209. -/
def Obligations.WindowCommandsComplete : Prop :=
  -- REDUCE_WR
  (∀ (n : Fin 64) (p : Packet) (q ppa : Nat) (s : State), Running s → Passes n.val p q s = true → p.typ = 0x38 →
    p.pktCount.toNat ≤ 1 → p.mcast = false → s.e2e.send = [] → s.fen.fencedBlocks = [] →
    redValid (field p.arg0.toNat 48 8) = true → p.payload ≠ [] →
    p.payload.length % redSrcBytes (field p.arg0.toNat 48 8) = 0 →
    argPva p % redDstBytes (field p.arg0.toNat 48 8) = 0 →
    argPva p % 64 + p.payload.length / redSrcBytes (field p.arg0.toNat 48 8) * redDstBytes (field p.arg0.toNat 48 8) ≤ 64 →
    (translate (n.val / 16) p.tenant.toNat (argPva p) (.ep p.src.toNat) .port .reduce s).1.toOption.map (·.1) = some ppa →
    ppa % 64 = argPva p % 64 → IdleLine s (n.val / 16) (ppa / 64) →
    ∃ t, exec (.reduceWr n p) s = .next t ∧
      flowPackets t q p.src.toNat 1 = some [(tCmp, respArg 0 p.seq.toNat p.vc.toNat, [])] ∧
      bytesAt t ppa (p.payload.length / redSrcBytes (field p.arg0.toNat 48 8) * redDstBytes (field p.arg0.toNat 48 8)) =
        redBytes (field p.arg0.toNat 48 8) (p.payload.length / redSrcBytes (field p.arg0.toNat 48 8))
          (bytesAt s ppa
            (p.payload.length / redSrcBytes (field p.arg0.toNat 48 8) * redDstBytes (field p.arg0.toNat 48 8)))
          p.payload ∧
      SameOutside ppa
        (p.payload.length / redSrcBytes (field p.arg0.toNat 48 8) * redDstBytes (field p.arg0.toNat 48 8)) s t) ∧
  -- REDUCE_WR_W
  (∀ (n : Fin 64) (p : Packet) (q ppa : Nat) (s : State), Running s → Passes n.val p q s = true → p.typ = 0x39 →
    p.pktCount.toNat ≤ 1 → p.mcast = false → s.e2e.send = [] →
    (window s (field p.arg0.toNat 32 10)).st = .armed → (window s (field p.arg0.toNat 32 10)).disarming = false →
    (window s (field p.arg0.toNat 32 10)).tenant = p.tenant.toNat →
    p.arg1.toNat = (window s (field p.arg0.toNat 32 10)).generation.toNat % 65536 →
    2 ≤ (window s (field p.arg0.toNat 32 10)).contributors →
    field p.arg0.toNat 42 12 < (window s (field p.arg0.toNat 32 10)).contributors →
    field p.arg0.toNat 0 32 < chunkCount (window s (field p.arg0.toNat 32 10)) →
    8 ≤ (window s (field p.arg0.toNat 32 10)).chunkLog2 → (window s (field p.arg0.toNat 32 10)).chunkLog2 ≤ 12 →
    (window s (field p.arg0.toNat 32 10)).dstPva % chunkBytes (window s (field p.arg0.toNat 32 10)) = 0 →
    redValid (window s (field p.arg0.toNat 32 10)).red = true →
    p.payload.length * redDstBytes (window s (field p.arg0.toNat 32 10)).red =
      chunkBytes (window s (field p.arg0.toNat 32 10)) * redSrcBytes (window s (field p.arg0.toNat 32 10)).red →
    tget 0 (window s (field p.arg0.toNat 32 10)).bitmap (field p.arg0.toNat 0 32) = 0 →
    (translate (n.val / 16) p.tenant.toNat ((window s (field p.arg0.toNat 32 10)).dstPva +
      field p.arg0.toNat 0 32 * chunkBytes (window s (field p.arg0.toNat 32 10))) (.ep p.src.toNat) .port .reduce s).1.toOption.map
        (·.1) = some ppa →
    ppa % 64 = 0 → OpenMemory s → NothingDue s →
    (∀ l, ppa / 64 ≤ l → l < ppa / 64 + 64 → isLight s (64 * l) = false ∧ keyHeld s (64 * l) = true ∧
      l ≠ bitmapLine s (contribOf p) ppa) →
    isLight s (64 * bitmapLine s (contribOf p) ppa) = false → keyHeld s (64 * bitmapLine s (contribOf p) ppa) = true →
    ∃ t, exec (.reduceWrW n p) s = .next t ∧
      flowPackets t q p.src.toNat 1 = some [(tCmp, respArg 0 p.seq.toNat p.vc.toNat, [])] ∧
      window t (field p.arg0.toNat 32 10) = { window s (field p.arg0.toNat 32 10) with
        bitmap := tput 0 (window s (field p.arg0.toNat 32 10)).bitmap (field p.arg0.toNat 0 32)
          (2 ^ field p.arg0.toNat 42 12) } ∧
      bytesAt t ppa (chunkBytes (window s (field p.arg0.toNat 32 10))) =
        redBytes (window s (field p.arg0.toNat 32 10)).red
          (p.payload.length / redSrcBytes (window s (field p.arg0.toNat 32 10)).red)
          (bytesAt s ppa (chunkBytes (window s (field p.arg0.toNat 32 10)))) p.payload ∧
      SameOutside ppa (chunkBytes (window s (field p.arg0.toNat 32 10))) s t ∧
      Others window (field p.arg0.toNat 32 10) s t) ∧
  -- RWIN_ASSIGN
  (∀ (w c : Fin 1024) (s : State), Managed s → winFree (window s w.val) = true →
    ∃ t, exec (.rwinAssign w c) s = .next t ∧ t.out = .fm .ok [] :: s.out ∧
      window t w.val = { window s w.val with tenant := c.val } ∧ Others window w.val s t ∧ Only [.out, .windows] s t) ∧
  -- RWIN_ARM
  (∀ (w : Fin 1024) (c : BitVec 13) (s : State), Running s → winFree (window s w.val) = true →
    armFault (setWindow w.val { window s w.val with contributors := c.toNat } s) w.val
      { window s w.val with contributors := c.toNat } = 0 →
    tget false s.e2e.collValid w.val = false → (window s w.val).init = false →
    ∃ t, exec (.rwinArm w c) s = .next t ∧ (window t w.val).st = .arming ∧
      (window t w.val).generation = (window s w.val).generation + 1 ∧ (window t w.val).contributors = c.toNat ∧
      (window t w.val).bitmap = [] ∧ (window t w.val).armFault = 0 ∧ Others window w.val s t ∧ Only [.windows] s t) ∧
  (∀ (w : Fin 1024) (c : BitVec 13) (b : Nat) (s : State), Running s → winFree (window s w.val) = true →
    armFault (setWindow w.val { window s w.val with contributors := c.toNat } s) w.val
      { window s w.val with contributors := c.toNat } = 0 →
    tget false s.e2e.collValid w.val = false → (window s w.val).init = true → OpenMemory s →
    tenantGone s (window s w.val).tenant = false → b % 64 = 0 →
    (∀ i, i < (window s w.val).length / 64 →
      (leafAt s (window s w.val).tenant ((window s w.val).dstPva + 64 * i)).map
          (fun x => x.2.ppa + ((window s w.val).dstPva + 64 * i - x.1)) = some (b + 64 * i) ∧
      isLight s (b + 64 * i) = false ∧ keyHeld s (b + 64 * i) = true) →
    ∃ t, exec (.rwinArm w c) s = .next t ∧ (window t w.val).st = .arming ∧
      bytesAt t b (window s w.val).length = (List.range (window s w.val).length).map
        (fun i => byteAt (leBytes (redDstBytes (window s w.val).red) (redIdentity (window s w.val).red))
          (i % redDstBytes (window s w.val).red)) ∧
      SameOutside b (window s w.val).length s t ∧ Others window w.val s t) ∧
  -- RWIN_ARM_FILL_DONE
  (∀ (w : Fin 1024) (now : Nat) (s : State), Running s → (window s w.val).st = .arming →
    (window s w.val).disarming = false → fillOpen s w.val = false →
    ∃ t, exec (.rwinArmFillDone w now) s = .next t ∧ window t w.val = { window s w.val with
        st := .armed, chunksDone := 0, chunksFailed := 0, armTime := max s.time now } ∧
      Others window w.val s t ∧ Only [.time, .windows] s t) ∧
  -- RWIN_DISARM
  (∀ (w : Fin 1024) (s : State), Running s → (window s w.val).st = .armed → (window s w.val).disarming = false →
    (window s w.val).partialDone = false → tget false s.e2e.collValid w.val = false →
    tget 0 s.e2e.collMissing w.val = 0 →
    ∃ t, exec (.rwinDisarm w) s = .next t ∧
      window t w.val = { window s w.val with disarming := true, partialDone := true } ∧
      cntGet t cE2e 0 14 = satAdd (2 ^ 64 - 1) (cntGet s cE2e 0 14) 1 ∧
      Others window w.val s t ∧ Only [.cnt, .windows] s t) ∧
  -- RWIN_DISARM_DONE
  (∀ (w : Fin 1024) (s : State), Running s → (window s w.val).disarming = true → contribOpen s w.val = false →
    ∃ t, exec (.rwinDisarmDone w) s = .next t ∧
      window t w.val = { window s w.val with st := .disarmed, disarming := false, takenBy := [] } ∧
      Others window w.val s t ∧ Only [.windows] s t) ∧
  -- COLLECTIVE_DEADLINE_EXPIRY
  (∀ (w : Fin 1024) (now : Nat) (s : State), Running s → (window s w.val).st = .armed →
    tget 0 s.e2e.collDeadline w.val ≠ 0 →
    (window s w.val).armTime + 1000 * tget 0 s.e2e.collDeadline w.val ≤ max s.time now →
    (window s w.val).partialDone = false → tget false s.e2e.collValid w.val = false →
    tget 0 s.e2e.collMissing w.val = 0 →
    ∃ t, exec (.collectiveDeadlineExpiry w now) s = .next t ∧
      window t w.val = { window s w.val with partialDone := true } ∧
      cntGet t cE2e 0 14 = satAdd (2 ^ 64 - 1) (cntGet s cE2e 0 14) 1 ∧
      Others window w.val s t ∧ Only [.time, .cnt, .windows] s t)

/-- JOB DESCRIPTORS COMPLETE (R136, R137, R147 to R152): a job is admitted step by step, resumed, discarded, stopped,
and completes into its ring. Where the manual leaves a choice the statement rests on the model's, named in log entries
5, 6, 7, 9, 11, 79, 85, 104, 105, 106, 186, 207. -/
def Obligations.JobCommandsComplete : Prop :=
  -- JOB
  (∀ (n : Fin 8192) (slot : Nat) (d : Desc) (s : State), Running s → descAt s n.val slot = some d →
    dOpcode d = 0x10 → descError d = none → mayStart s n.val slot = true →
    leAt d.bytes 16 8 % 4096 = 0 → leAt d.bytes 24 8 % 8 = 0 →
    ∃ t, exec (.job n slot) s = .next t ∧
      descAt t n.val slot = some { d with started := true, startTime := s.time, job := some s.que.nextJob } ∧
      (∃ j, job t s.que.nextJob = some j ∧ j.phase = .header ∧ j.imagePva = leAt d.bytes 16 8 ∧
        j.argPva = leAt d.bytes 24 8 ∧ j.width = leAt d.bytes 32 2 ∧ j.queue = n.val ∧ j.slot = slot ∧
        j.group = n.val / 8 ∧ j.cores = [] ∧ j.readySince = d.stamp) ∧
      t.que.nextJob = s.que.nextJob + 1 ∧ Others queue n.val s t ∧ Others job s.que.nextJob s t ∧
      Only [.queues, .jobs, .queRest] s t) ∧
  -- JOB_HEADER_READ
  (∀ (n : Fin 8192) (slot jid : Nat) (j : Job) (h : List Byte) (s : State), Running s →
    jobAt s n.val slot = some (jid, j) → j.phase = .header →
    (engRead (queueActor s n.val (some slot)) j.imagePva 256 s).1 = .got h none → headerOkJob h = true →
    leAt h 44 2 ≤ j.width → j.width ≤ leAt h 46 2 → j.width ≤ coresInService s →
    ∃ t, exec (.jobHeaderRead n slot) s = .next t ∧ job t jid = some { j with
        phase := .image, header := h, nonIdem := bitOf (leAt h 12 4) 0, energyClass := leAt h 38 1
        contexts := leAt h 39 1, coreStoreBytes := leAt h 40 4, tilesEst := leAt h 48 8 } ∧
      Others job jid s t) ∧
  -- JOB_IMAGE_READ
  (∀ (n : Fin 8192) (slot jid : Nat) (j : Job) (img args : List Byte) (s s1 s2 s3 : State), Running s →
    jobAt s n.val slot = some (jid, j) → j.phase = .image →
    engReady (queueActor s n.val (some slot)) [(j.imagePva, leAt j.header 8 4), (j.argPva, 8 * leAt j.header 36 2)] s =
      (true, s1) →
    engRead (queueActor s n.val (some slot)) j.imagePva (leAt j.header 8 4) s1 = (.got img none, s2) →
    engRead (queueActor s n.val (some slot)) j.argPva (8 * leAt j.header 36 2) s2 = (.got args none, s3) →
    80 ≤ leAt j.header 20 4 → leAt j.header 20 4 % 16 = 0 →
    (slice img (leAt j.header 16 4) (leAt j.header 20 4)).length = leAt j.header 20 4 →
    bindsOk (slice img (leAt j.header 32 4) (16 * leAt j.header 36 2)) = true →
    programOk { n := (programOf (slice img (leAt j.header 16 4) (leAt j.header 20 4))).2.length,
                storeBytes := j.coreStoreBytes, bindCount := leAt j.header 36 2, contexts := j.contexts,
                nonIdem := j.nonIdem,
                kinds := (List.range (leAt j.header 36 2)).map (fun i =>
                  leAt (slice img (leAt j.header 32 4) (16 * leAt j.header 36 2)) (16 * i) 1) }
      (programOf (slice img (leAt j.header 16 4) (leAt j.header 20 4))).1
      (programOf (slice img (leAt j.header 16 4) (leAt j.header 20 4))).2 = true →
    (∀ i, i < leAt j.header 36 2 → leAt args (8 * i) 8 %
      2 ^ leAt (slice img (leAt j.header 32 4) (16 * leAt j.header 36 2)) (16 * i + 1) 1 = 0) →
    digestKey s j = none →
    ∃ t, exec (.jobImageRead n slot) s = .next t ∧ (job t jid).map (·.phase) = some .digest ∧
      (job t jid).map (·.digest) = some (sha384 (undigested img)) ∧
      (job t jid).map (·.program) = some (programOf (slice img (leAt j.header 16 4) (leAt j.header 20 4))).2 ∧
      (job t jid).map (·.consts) = some (slice img (leAt j.header 24 4) (leAt j.header 28 4)) ∧
      Others job jid s t) ∧
  -- JOB_DIGEST_COMPUTED
  (∀ (n : Fin 8192) (slot jid : Nat) (j : Job) (s : State), Running s → jobAt s n.val slot = some (jid, j) →
    j.phase = .digest → digestKey s j = none → j.digest.toNat = leAt j.header 64 48 → (group s j.group).st = .active →
    ∃ t, exec (.jobDigestComputed n slot) s = .next t ∧ job t jid = some { j with phase := .ready } ∧
      cntGet t cQue 0 7 = satAdd (2 ^ 64 - 1) (cntGet s cQue 0 7) 1 ∧ Others job jid s t ∧
      Only [.cnt, .jobs] s t) ∧
  -- RESUME
  (∀ (n : Fin 8192) (slot jid : Nat) (j : Job) (d : Desc) (s : State), Running s → descAt s n.val slot = some d →
    dOpcode d = 0x11 → descError d = none → mayStart s n.val slot = true →
    handleJob s n.val (leAt d.bytes 16 4) = some (jid, j) → s.que.jobs = [(jid, some j)] →
    ∃ t, exec (.resume n slot) s = .next t ∧ job t jid = some { j with
        queue := n.val, slot := slot, tag := dTag d, notify := dNotify d, waitVerified := dWait d
        phase := .ready, record := none, ext := [] } ∧
      tget none t.que.recordJob (leAt d.bytes 16 4 % 4096) = none ∧
      descAt t n.val slot = some { d with started := true, startTime := s.time, job := some jid } ∧
      Others queue n.val s t ∧ Only [.queues, .jobs, .queRest] s t) ∧
  -- DISCARD
  (∀ (n : Fin 8192) (slot jid ld h : Nat) (j : Job) (d : Desc) (s : State), Running s → descAt s n.val slot = some d →
    dOpcode d = 0x12 → descError d = none → mayStart s n.val slot = true →
    handleJob s n.val (leAt d.bytes 16 4) = some (jid, j) → s.que.jobs = [(jid, some j)] →
    j.record.map (·.1) = some (leAt d.bytes 16 4 % 4096) → unordered s (complOf n.val d .ok) = false →
    RingOpen s n.val ld h →
    ∃ t, exec (.discard n slot) s = .next t ∧ job t jid = none ∧
      tget none t.que.recordJob (leAt d.bytes 16 4 % 4096) = none ∧
      Delivered (complOf n.val d .ok) ld h s t ∧ Others queue n.val s t) ∧
  -- JOB_PREEMPT
  (∀ (n : Fin 8192) (slot jid m : Nat) (j : Job) (s : State), Running s → jobAt s n.val slot = some (jid, j) →
    j.phase = .running → j.cores = [m] → (coreOf s m).job = some jid → arrivals (coreOf s m) = j.commits →
    j.issuing = none → j.fences = [] →
    ∃ t, exec (.jobPreempt n slot) s = .next t ∧ (job t jid).map (·.phase) = some .ready ∧
      (job t jid).map (·.cores) = some [] ∧ (job t jid).map (·.commits) = some j.commits ∧
      (job t jid).map (·.snaps) = some j.snaps ∧ (coreOf t m).job = none ∧ (coreOf t m).ctxs = [] ∧
      cntGet t cQue 0 3 = satAdd (2 ^ 64 - 1) (cntGet s cQue 0 3) 1 ∧ Others coreOf m s t ∧ Others job jid s t ∧
      SameMemory s t) ∧
  -- JOB_COMPLETE
  (∀ (n : Fin 8192) (slot jid m ld h : Nat) (j : Job) (s : State), Running s → jobAt s n.val slot = some (jid, j) →
    j.phase = .running → j.cores = [m] → (coreOf s m).job = some jid → liveCtxs (coreOf s m) = [] →
    (coreOf s m).engines = [] → j.newSnaps = [] → j.issuing = none →
    j.waits = [] → j.effects = [] → j.record = none → s.dir.lines = [] → s.dir.waitIn = [] → RingOpen s j.queue ld h →
    ∃ t, exec (.jobComplete n slot) s = .next t ∧ job t jid = none ∧ (coreOf t m).job = none ∧
      (∃ k, k.status = .ok ∧ k.queue = j.queue ∧ k.slot = j.slot ∧ Delivered k ld h s t) ∧
      Others coreOf m s t ∧ Others job jid s t)

/-- COMMITS AND HELD EFFECTS COMPLETE (R199 to R202, R206, R232, R237): a commit counts, a held atomic acts once every
core has arrived, a fenced job returns to its commit. Where the manual leaves a choice the statement rests on the
model's, named in log entries 5, 6, 7, 9, 11, 73, 74, 75, 76, 77, 78, 186, 190, 207, 213. -/
def Obligations.CommitCommandsComplete : Prop :=
  -- COMMIT_COMPLETE
  (∀ (n : Fin 8192) (slot jid m : Nat) (j : Job) (s : State), Running s → jobAt s n.val slot = some (jid, j) →
    j.phase = .running → j.cores = [m] → j.fences = [] → j.waits = [] → j.effects = [] → j.signals = [] →
    arrivedAt (coreOf s m) (j.commits + 1) = true → nothingWaits s j (j.commits + 1) = true →
    tget [] j.newSnaps ((j.commits + 1) * 256) ≠ [] →
    s.dir.lines = [] → s.dir.waitIn = [] → s.pair.st = .solo →
    ∃ t, exec (.commitComplete n slot) s = .next t ∧ (job t jid).map (·.commits) = some (j.commits + 1) ∧
      (job t jid).map (·.tiles) = some (j.tiles + 1) ∧
      (job t jid).map (·.snaps) = some [tget [] j.newSnaps ((j.commits + 1) * 256)] ∧
      (job t jid).map (·.phase) = some .running ∧
      cntGet t cOps (m / 40) 14 = satAdd (2 ^ 64 - 1) (cntGet s cOps (m / 40) 14) 1 ∧
      Others job jid s t ∧ Only [.cnt, .jobs, .pair] s t) ∧
  -- HELD_EFFECTS_ISSUE
  (∀ (n : Fin 160) (jid p ppa : Nat) (e : HeldEff) (j : Job) (s : State), Running s → jobOn s n.val = some (jid, j) →
    coreFenced s n.val = false → j.phase = .running → j.fences = [] → j.issuing = none → j.cores = [n.val] →
    (coreOf s n.val).rank = 0 → arrivedAt (coreOf s n.val) (j.commits + 1) = true → j.effects = [e] → e.isAtomic = true →
    e.rank = 0 → e.commit = j.commits + 1 → e.ctx < j.contexts → e.rows = [p] → e.issued = 0 → e.answers = [] →
    j.waits = [] → e.signal = none → atomValid e.op = true → p % 64 + atomBytes e.op ≤ 64 →
    OpenMemory s → s.dir.answers = [] →
    Maps s (n.val / 40) (group s j.group).tenant p (atomBytes e.op) (.grp j.group)
      (moveActor s (effTurn jid j e) p).via .atomic ppa →
    ∃ t, exec (.heldEffectsIssue n 1) s = .next t ∧
      bytesAt t ppa (atomBytes e.op) = leBytes (atomBytes e.op) (atomNew e.op
        (leNat (bytesAt s ppa (atomBytes e.op))) (e.opA % 2 ^ (8 * atomBytes e.op)) (e.opC % 2 ^ (8 * atomBytes e.op))) ∧
      (job t jid).map (·.issuing) = some (some (j.commits + 1)) ∧
      (job t jid).map (fun x => x.effects.map (·.issued)) = some [1] ∧ SameOutside ppa (atomBytes e.op) s t) ∧
  -- CORE_FENCE_TEST
  (∀ (n : Fin 8192) (slot jid m : Nat) (f : FenceRec) (j : Job) (s : State), Running s →
    jobAt s n.val slot = some (jid, j) → j.phase = .stopping → j.why = .preempt → j.fences = [f] → f.held ≤ f.issued →
    j.cores = [m] → (coreOf s m).job = some jid → (coreOf s m).frozen = true → j.newSnaps = [] → j.effects = [] → j.waits = [] → j.issuing = none →
    s.dir.lines = [] → s.dir.waitIn = [] →
    ∃ t, exec (.coreFenceTest n slot) s = .next t ∧ (job t jid).map (·.phase) = some .ready ∧
      (job t jid).map (·.cores) = some [] ∧ (job t jid).map (·.fences) = some [] ∧
      (job t jid).map (·.commits) = some j.commits ∧ (coreOf t m).job = none ∧ Others coreOf m s t ∧
      Others job jid s t) ∧
  -- SET_SR_CONTROLS
  (∀ (fixed : Bool) (seed : BitVec 64) (s : State), Managed s →
    ∃ t, exec (.setSrControls fixed seed) s = .next t ∧ t.out = .fm .ok [] :: s.out ∧ t.core.srFixed = fixed ∧
      t.core.srSeed = seed ∧ Only [.out, .coreRest] s t) ∧
  -- CORE_FENCE
  (∀ (n : Fin 160) (cause : Fin 8) (now : Nat) (s : State), Running s → cause.val ≠ 0 →
    tget 0 s.fen.coreCause n.val = 0 →
    ∃ t, exec (.coreFence n cause now) s = .next t ∧ tget 0 t.fen.coreCause n.val = cause.val ∧
      tget 0 t.fen.coreTime n.val = max s.time now ∧ (0, n.val) ∈ t.fen.repair ∧
      cntGet t cFen 0 0 = satAdd (2 ^ 64 - 1) (cntGet s cFen 0 0) 1 ∧
      (∀ k, k ≠ n.val → tget 0 t.fen.coreCause k = tget 0 s.fen.coreCause k) ∧
      ((coreOf s n.val).job = none → coreOf t n.val = { coreOf s n.val with stateTime := max s.time now } ∧
        Others coreOf n.val s t ∧ Only [.time, .cnt, .obs, .cores, .fen] s t)) ∧
  (∀ (n : Fin 160) (cause : Fin 8) (now jid : Nat) (j : Job) (s : State), Running s → cause.val ≠ 0 →
    tget 0 s.fen.coreCause n.val = 0 → jobOn s n.val = some (jid, j) → j.phase = .running → n.val ∈ j.cores →
    ∃ t, exec (.coreFence n cause now) s = .next t ∧ (job t jid).map (·.phase) = some .stopping ∧
      (job t jid).map (fun x => x.fences.length) = some (j.fences.length + 1) ∧
      (∀ m ∈ j.cores, (coreOf t m).frozen = true) ∧ (coreOf t n.val).engines = []) ∧
  -- WAIT_WATCHDOG_EXPIRY
  (∀ (n : Fin 160) (c : Fin 8) (now jid ld h : Nat) (j : Job) (s : State), Running s →
    jobOn s n.val = some (jid, j) → (expired (advance now s) j).head? = some (n.val, c.val) → j.issuing = none →
    j.record = none → s.dir.waitIn = [] → RingOpen s j.queue ld h →
    ∃ t, exec (.waitWatchdogExpiry n c now) s = .next t ∧ job t jid = none ∧ (coreOf t n.val).job = none ∧
      t.core.wdogTime = max s.time now ∧ t.core.wdogCore = n.val ∧ t.core.wdogCtx = c.val ∧
      t.core.wdogCause = (ctxOf (coreOf s n.val) c.val).waitCause ∧
      t.core.wdogNumber = (ctxOf (coreOf s n.val) c.val).waitNumber ∧ t.core.wdogGroup = j.group ∧
      cntGet t cSyn 0 3 = satAdd (2 ^ 64 - 1) (cntGet s cSyn 0 3) 1 ∧
      (∃ k, k.status = .waitTimeout ∧ k.queue = j.queue ∧ k.slot = j.slot ∧ Delivered k ld h (advance now s) t))

/-- SEQUENCER OPERATIONS COMPLETE (R186 to R196, R234 to R241, Table 7.5): register arithmetic, branches, semaphores,
barriers, commits, the end of a context. Where the manual leaves a choice the statement rests on the model's, named in
log entries 5, 6, 7, 9, 11, 73, 80, 86, 91, 186. -/
def Obligations.SequencerCommandsComplete : Prop :=
  -- SALU
  (∀ (n : Fin 160) (c : Fin 8) (r : Turn) (s : State), Running s → Dispatches s n.val c.val r .salu →
    ∃ t, exec (.salu n c) s = .next t ∧ (ctxOf (coreOf t n.val) c.val).pc = r.x.pc + 1 ∧
      (∀ k, k < 64 → sreg (ctxOf (coreOf t n.val) c.val) k =
        if k = tD r.w % 64 ∧ k ≠ 0 then saluValue s r else sreg (ctxOf (coreOf s n.val) c.val) k) ∧
      (coreOf t n.val).store = (coreOf s n.val).store ∧ Others coreOf n.val s t ∧ Only [.cnt, .cores] s t) ∧
  -- BRANCH
  (∀ (n : Fin 160) (c : Fin 8) (r : Turn) (s : State), Running s → Dispatches s n.val c.val r .branch →
    ∃ t, exec (.branch n c) s = .next t ∧
      (ctxOf (coreOf t n.val) c.val).pc = (if branchTaken r then tX r.w else r.x.pc + 1) ∧
      (ctxOf (coreOf t n.val) c.val).regs = (ctxOf (coreOf s n.val) c.val).regs ∧
      (coreOf t n.val).store = (coreOf s n.val).store ∧ Others coreOf n.val s t ∧ Only [.cnt, .cores] s t) ∧
  -- SYNC
  (∀ (n : Fin 160) (c : Fin 8) (k : Nat) (r : Turn) (s : State), Running s → Dispatches s n.val c.val r .sync →
    tWe r.w = false → tSignal r.w = some k → tget 0 (coreOf s n.val).sems k < 255 →
    ∃ t, exec (.sync n c) s = .next t ∧ tget 0 (coreOf t n.val).sems k = tget 0 (coreOf s n.val).sems k + 1 ∧
      (∀ m, m ≠ k → tget 0 (coreOf t n.val).sems m = tget 0 (coreOf s n.val).sems m) ∧
      Advances n.val c.val s t ∧ Only [.cores] s t) ∧
  (∀ (n : Fin 160) (c : Fin 8) (r : Turn) (s : State), Running s → Dispatches s n.val c.val r .sync →
    tWe r.w = true → tSignal r.w = none →
    ∃ t, exec (.sync n c) s = .next t ∧
      tget 0 (coreOf t n.val).sems (tWsem r.w) = tget 0 (coreOf s n.val).sems (tWsem r.w) - 1 ∧
      (∀ m, m ≠ tWsem r.w → tget 0 (coreOf t n.val).sems m = tget 0 (coreOf s n.val).sems m) ∧
      Advances n.val c.val s t ∧ Only [.cores] s t) ∧
  -- BARRIER
  (∀ (n : Fin 160) (c : Fin 8) (r : Turn) (s : State), Running s → Dispatches s n.val c.val r .barrier → r.j.width ≠ 1 →
    ∃ t, exec (.barrier n c) s = .next t ∧ (ctxOf (coreOf t n.val) c.val).st = .barrier (tX r.w % 16) ∧
      (ctxOf (coreOf t n.val) c.val).barrierSignal = tSignal r.w ∧ Advances n.val c.val s t ∧
      Only [.cores, .coreRest] s t) ∧
  -- BARRIER_RELEASE
  (∀ (p : Fin 16) (now jid : Nat) (j : Job) (s : State), Running s → (chanOf s p.val).job = some jid →
    job s jid = some j → 0 < (chanOf s p.val).members →
    (chanOf s p.val).members ≤ (chanOf s p.val).arrived.length →
    ∃ t, exec (.barrierRelease p now) s = .next t ∧ (chanOf t p.val).sense = !(chanOf s p.val).sense ∧
      (chanOf t p.val).arrived = [] ∧
      (∀ n ∈ j.cores, ∀ c, (ctxOf (coreOf s n) c).st = .barrier (chanOf s p.val).logical →
        (ctxOf (coreOf t n) c).st = .ready ∧ (ctxOf (coreOf t n) c).pc = (ctxOf (coreOf s n) c).pc) ∧
      (∀ n, n ∉ j.cores → coreOf t n = coreOf s n) ∧ Others chanOf p.val s t ∧
      Only [.time, .cnt, .cores, .coreRest] s t) ∧
  -- COMMIT
  (∀ (n : Fin 160) (c : Fin 8) (r : Turn) (s : State), Running s → Dispatches s n.val c.val r .commit →
    r.j.phase = .running →
    ∃ t, exec (.commit n c) s = .next t ∧ (ctxOf (coreOf t n.val) c.val).commits = r.x.commits + 1 ∧
      (coreOf t n.val).store = (coreOf s n.val).store ∧ Advances n.val c.val s t ∧ Only [.jobs, .cores] s t) ∧
  (∀ (n : Fin 160) (r : Turn) (s : State), Running s → Dispatches s n.val 0 r .commit → r.j.phase = .running →
    r.j.contexts = 1 → (coreOf s n.val).ctxs = [(0, r.x)] → r.x.marks = [] → (coreOf s n.val).arrived = r.x.commits →
    ∃ t, exec (.commit n 0) s = .next t ∧ (coreOf t n.val).arrived = r.x.commits + 1 ∧
      (job t r.jid).map (fun x => tget [] x.newSnaps ((r.x.commits + 1) * 256 + (coreOf s n.val).rank)) =
        some [{ pc := tX r.w, regs := r.x.regs }]) ∧
  -- END
  (∀ (n : Fin 160) (c : Fin 8) (r : Turn) (s : State), Running s → Dispatches s n.val c.val r .ended →
    r.j.phase = .running →
    ∃ t, exec (.endOp n c) s = .next t ∧ (ctxOf (coreOf t n.val) c.val).st = .ended ∧ Others coreOf n.val s t ∧
      Only [.cnt, .jobs, .cores, .coreRest] s t)

/-- MOVE OPERATIONS COMPLETE (R78, R187, R197, R201, Table 7.6): loads and stores between core store and pool memory,
held effects recorded, a windowed contribution sent, a copy. Where the manual leaves a choice the statement rests on
the model's, named in log entries 5, 6, 7, 9, 11, 73, 74, 79, 81, 82, 186, 190, 214, 215. -/
def Obligations.MoveCommandsComplete : Prop :=
  -- TLOAD
  (∀ (n : Fin 160) (c : Fin 8) (ppa : Nat) (r : Turn) (s : State), Running s → Dispatches s n.val c.val r .tload →
    (coreOf s n.val).engines = [] → tMode r.w = 0 → tMoveRows r.w = 1 → fmtOk (tFd r.w) = true →
    rowOff r 0 + rowBytesOf (tFd r.w) ≤ slotBytes r.j (tSlot r.w) → OpenMemory s →
    Maps s (n.val / 40) (group s r.j.group).tenant (slotArg r.j (tSlot r.w) + rowOff r 0) (rowBytesOf (tFd r.w))
      (.grp r.j.group) (moveActor s r (slotArg r.j (tSlot r.w) + rowOff r 0)).via .read ppa →
    gmacOk s (group s r.j.group).tenant (slotArg r.j (tSlot r.w) + rowOff r 0) (rowBytesOf (tFd r.w)) = true →
    ∃ t, exec (.tload n c) s = .next t ∧
      Operates n.val c.val 3 (128 * tD r.w) (bytesAt s ppa (rowBytesOf (tFd r.w))) s t ∧ SameMemory s t) ∧
  (∀ (n : Fin 160) (c : Fin 8) (r : Turn) (s : State), Running s → Dispatches s n.val c.val r .tload →
    (coreOf s n.val).engines = [] → tMode r.w = 1 → tMoveRows r.w = 1 →
    rowOff r 0 + rowBytesOf (tFd r.w) ≤ r.j.consts.length →
    ∃ t, exec (.tload n c) s = .next t ∧
      Operates n.val c.val 3 (128 * tD r.w) (slice r.j.consts (rowOff r 0) (rowBytesOf (tFd r.w))) s t ∧
      Only [.jobs, .cores] s t) ∧
  -- TSTORE
  (∀ (n : Fin 160) (c : Fin 8) (ppa : Nat) (r : Turn) (s : State), Running s → Dispatches s n.val c.val r .tstore →
    (coreOf s n.val).engines = [] → tMoveRows r.w = 1 → fmtOk (tFa r.w) = true →
    rowOff r 0 + rowBytesOf (tFa r.w) ≤ slotBytes r.j (tSlot r.w) → OpenMemory s →
    Maps s (n.val / 40) (group s r.j.group).tenant (slotArg r.j (tSlot r.w) + rowOff r 0) (rowBytesOf (tFa r.w))
      (.grp r.j.group) (moveActor s r (slotArg r.j (tSlot r.w) + rowOff r 0)).via .write ppa →
    ∃ t, exec (.tstore n c) s = .next t ∧
      bytesAt t ppa (rowBytesOf (tFa r.w)) = storeAt s n.val (128 * tA r.w) (rowBytesOf (tFa r.w)) ∧
      SameOutside ppa (rowBytesOf (tFa r.w)) s t ∧ Advances n.val c.val s t ∧
      (coreOf t n.val).store = (coreOf s n.val).store) ∧
  -- TREDUCE
  (∀ (n : Fin 160) (c : Fin 8) (r : Turn) (s : State), Running s → Dispatches s n.val c.val r .treduce →
    tMoveRows r.w = 1 → redValid (tRed r.w) = true →
    rowOff r 0 + 128 * redDstBytes (tRed r.w) ≤ slotBytes r.j (tSlot r.w) →
    (slotArg r.j (tSlot r.w) + rowOff r 0) % redDstBytes (tRed r.w) = 0 →
    (slotArg r.j (tSlot r.w) + rowOff r 0) % 4096 + 128 * redDstBytes (tRed r.w) ≤ 4096 →
    ∃ t, exec (.treduce n c) s = .next t ∧ job t r.jid = some { r.j with effects := r.j.effects ++
        [{ rank := (coreOf s n.val).rank, commit := r.x.commits + 1, ctx := c.val, isAtomic := false
           rows := [slotArg r.j (tSlot r.w) + rowOff r 0], op := tRed r.w, src := 128 * tA r.w
           signal := tSignal r.w }] } ∧
      Advances n.val c.val s t ∧ Others job r.jid s t ∧ Only [.jobs, .cores] s t) ∧
  -- TATOMIC
  (∀ (n : Fin 160) (c : Fin 8) (r : Turn) (s : State), Running s → Dispatches s n.val c.val r .tatomic →
    atomValid (tRed r.w) = true → atomBytes (tRed r.w) ≤ 8 →
    (sreg r.x (tR1 r.w)).toNat + atomBytes (tRed r.w) ≤ slotBytes r.j (tSlot r.w) →
    (slotArg r.j (tSlot r.w) + (sreg r.x (tR1 r.w)).toNat) % atomBytes (tRed r.w) = 0 →
    ∃ t, exec (.tatomic n c) s = .next t ∧ job t r.jid = some { r.j with effects := r.j.effects ++
        [{ rank := (coreOf s n.val).rank, commit := r.x.commits + 1, ctx := c.val, isAtomic := true
           rows := [slotArg r.j (tSlot r.w) + (sreg r.x (tR1 r.w)).toNat], op := tRed r.w
           opA := (sreg r.x (tR2 r.w)).toNat % 2 ^ (8 * atomBytes (tRed r.w))
           opC := (sreg r.x (tR3 r.w)).toNat % 2 ^ (8 * atomBytes (tRed r.w))
           reg := tD r.w % 64, signal := tSignal r.w }] } ∧
      Advances n.val c.val s t ∧ Others job r.jid s t ∧ Only [.jobs, .cores] s t) ∧
  -- TREDUCEW
  (∀ (n : Fin 160) (c : Fin 8) (ppa : Nat) (x : Window) (r : Turn) (s : State), Running s →
    Dispatches s n.val c.val r .treducew → (coreOf s n.val).engines = [] → window s (tWindow r.w) = x → x.st = .armed →
    x.disarming = false → x.tenant = (group s r.j.group).tenant →
    (sreg r.x (tR3 r.w)).toNat % 65536 = x.generation.toNat % 65536 → 2 ≤ x.contributors →
    (sreg r.x (tR2 r.w)).toNat < x.contributors → (sreg r.x (tR1 r.w)).toNat < chunkCount x →
    8 ≤ x.chunkLog2 → x.chunkLog2 ≤ 12 → x.dstPva % chunkBytes x = 0 → redValid x.red = true →
    tget 0 x.bitmap (sreg r.x (tR1 r.w)).toNat = 0 →
    128 * tA r.w + chunkBytes x / redDstBytes x.red * redSrcBytes x.red ≤ r.j.coreStoreBytes →
    r.j.waits = [] → OpenMemory s → NothingDue s → s.dir.answers = [] →
    isLight s (64 * bitmapLine s (moveContrib r) ppa) = false → keyHeld s (64 * bitmapLine s (moveContrib r) ppa) = true →
    (∀ l, ppa / 64 ≤ l → l < ppa / 64 + chunkBytes x / 64 → l ≠ bitmapLine s (moveContrib r) ppa) →
    Maps s (n.val / 40) x.tenant (x.dstPva + (sreg r.x (tR1 r.w)).toNat * chunkBytes x) (chunkBytes x)
      (.grp r.j.group) (.inPool false) .reduce ppa →
    ∃ t, exec (.treducew n c) s = .next t ∧
      window t (tWindow r.w) = { x with
        bitmap := tput 0 x.bitmap (sreg r.x (tR1 r.w)).toNat (2 ^ (sreg r.x (tR2 r.w)).toNat) } ∧
      bytesAt t ppa (chunkBytes x) = redBytes x.red (chunkBytes x / redDstBytes x.red) (bytesAt s ppa (chunkBytes x))
        (storeAt s n.val (128 * tA r.w) (chunkBytes x / redDstBytes x.red * redSrcBytes x.red)) ∧
      SameOutside ppa (chunkBytes x) s t ∧ Advances n.val c.val s t ∧ Others window (tWindow r.w) s t) ∧
  -- TCOPY
  (∀ (n : Fin 160) (c : Fin 8) (r : Turn) (s : State), Running s → Dispatches s n.val c.val r .tcopy →
    (coreOf s n.val).engines = [] →
    ∃ t, exec (.tcopy n c) s = .next t ∧
      Operates n.val c.val 3 (128 * tD r.w) (storeAt s n.val (128 * tA r.w) (128 * tF r.w 96 16)) s t ∧
      Only [.jobs, .cores] s t)

/-- MATRIX, VECTOR AND REDUCE OPERATIONS COMPLETE (R187, R214 to R228, Tables 6.8, 7.4, 7.5): what each writes to the
core store or the accumulators, every other byte as before; an operation leaves its engine's queue and is counted.
Where the manual leaves a choice the statement rests on the model's, named in log entries 5, 6, 7, 9, 11, 73, 77, 88,
90, 186, 210, 215. -/
def Obligations.ArithmeticCommandsComplete : Prop :=
  -- MMA
  (∀ (n : Fin 160) (c : Fin 8) (r : Turn) (s : State), Running s → Dispatches s n.val c.val r .mma →
    (coreOf s n.val).engines = [] →
    ∃ t, exec (.mma n c) s = .next t ∧
      (∀ i k, i < tRows r.w → k < 128 → tget 0 (coreOf t n.val).acc (accKey (tEng r.w) (tAcc r.w) i k) =
        mmaDot (tget 0 (coreOf s n.val).acc (accKey (tEng r.w) (tAcc r.w) i k)) (tMode r.w == 1)
          (rowVals (tFa r.w) (storeAt s n.val (128 * tA r.w + i * rowBytesOf (tFa r.w)) (rowBytesOf (tFa r.w))))
          (rowVals (tFb r.w) (storeAt s n.val (128 * tB r.w + k * rowBytesOf (tFb r.w)) (rowBytesOf (tFb r.w))))) ∧
      (∀ a, (∀ i k, i < tRows r.w → k < 128 → a ≠ accKey (tEng r.w) (tAcc r.w) i k) →
        tget 0 (coreOf t n.val).acc a = tget 0 (coreOf s n.val).acc a) ∧
      (coreOf t n.val).store = (coreOf s n.val).store ∧
      (tget [] (coreOf t n.val).engines (tEng r.w)).length = 1 ∧ Advances n.val c.val s t ∧
      Only [.jobs, .cores] s t) ∧
  -- ACCRD
  (∀ (n : Fin 160) (c : Fin 8) (r : Turn) (s : State), Running s → Dispatches s n.val c.val r .accrd →
    (coreOf s n.val).engines = [] →
    ∃ t, exec (.accrd n c) s = .next t ∧
      Operates n.val c.val (tEng r.w) (128 * tD r.w) ((List.range (tRows r.w)).flatMap (fun i =>
        if tFd r.w = 8 then (List.range 128).flatMap (fun k =>
          leBytes 4 (tget 0 (coreOf s n.val).acc (accKey (tEng r.w) (tAcc r.w) i k)))
        else rowEnc (tFd r.w)
          (fun k => roundOf r s 0 (tMode r.w % 4) r.x.accDraws (128 * i + k))
          ((List.range 128).map (fun k => f32 (tget 0 (coreOf s n.val).acc (accKey (tEng r.w) (tAcc r.w) i k)))))) s t ∧
      (∀ i k, i < tRows r.w → k < 128 → tget 0 (coreOf t n.val).acc (accKey (tEng r.w) (tAcc r.w) i k) =
        if bitOf (tMode r.w) 2 then 0 else tget 0 (coreOf s n.val).acc (accKey (tEng r.w) (tAcc r.w) i k)) ∧
      Only [.jobs, .cores] s t) ∧
  -- ACCWR
  (∀ (n : Fin 160) (c : Fin 8) (r : Turn) (s : State), Running s → Dispatches s n.val c.val r .accwr →
    (coreOf s n.val).engines = [] →
    ∃ t, exec (.accwr n c) s = .next t ∧
      (∀ i k, i < tRows r.w → k < 128 → tget 0 (coreOf t n.val).acc (accKey (tEng r.w) (tAcc r.w) i k) =
        leNat (storeAt s n.val (128 * tA r.w + 512 * i + 4 * k) 4)) ∧
      (coreOf t n.val).store = (coreOf s n.val).store ∧
      (tget [] (coreOf t n.val).engines (tEng r.w)).length = 1 ∧ Advances n.val c.val s t ∧
      Only [.jobs, .cores] s t) ∧
  -- VBIN
  (∀ (n : Fin 160) (c : Fin 8) (r : Turn) (s : State), Running s → Dispatches s n.val c.val r .vbin →
    (coreOf s n.val).engines = [] →
    ∃ t, exec (.vbin n c) s = .next t ∧
      Operates n.val c.val 2 (128 * tD r.w) (codeBytes (tFd r.w) (List.zipWith (vecBin (tFd r.w) (tMode r.w))
        (elemsAt s n.val (128 * tA r.w) (128 * tRows r.w) (tFd r.w)) (elemsAt s n.val (128 * tB r.w) (128 * tRows r.w) (tFd r.w)))) s t ∧
      Only [.jobs, .cores] s t) ∧
  -- VFMA
  (∀ (n : Fin 160) (c : Fin 8) (r : Turn) (s : State), Running s → Dispatches s n.val c.val r .vfma →
    (coreOf s n.val).engines = [] →
    ∃ t, exec (.vfma n c) s = .next t ∧
      Operates n.val c.val 2 (128 * tD r.w) (codeBytes (tFd r.w) ((List.range (128 * tRows r.w)).map (fun i =>
        vecFma (tFd r.w) ((elemsAt s n.val (128 * tA r.w) (128 * tRows r.w) (tFd r.w)).getD i 0)
          ((elemsAt s n.val (128 * tB r.w) (128 * tRows r.w) (tFd r.w)).getD i 0)
          ((elemsAt s n.val (128 * tD r.w) (128 * tRows r.w) (tFd r.w)).getD i 0)))) s t ∧
      Only [.jobs, .cores] s t) ∧
  -- VFUNC
  (∀ (n : Fin 160) (c : Fin 8) (r : Turn) (s : State), Running s → Dispatches s n.val c.val r .vfunc →
    (coreOf s n.val).engines = [] →
    ∃ t, exec (.vfunc n c) s = .next t ∧
      Operates n.val c.val 2 (128 * tD r.w) (codeBytes (tFd r.w) ((elemsAt s n.val (128 * tA r.w) (128 * tRows r.w) (tFd r.w)).map
        (vecFunc (tFd r.w) (tMode r.w)))) s t ∧
      Only [.jobs, .cores] s t) ∧
  -- VROWRED
  (∀ (n : Fin 160) (c : Fin 8) (r : Turn) (s : State), Running s → Dispatches s n.val c.val r .vrowred →
    (coreOf s n.val).engines = [] →
    ∃ t, exec (.vrowred n c) s = .next t ∧
      Operates n.val c.val 2 (128 * tD r.w) (codeBytes (tFd r.w) ((List.range (tRows r.w)).map (fun i =>
        rowRed (tFd r.w) (tMode r.w) (anySum f32Add 0 (fun k => (drawOrderAt [r.j.quadrant, r.j.serial, r.rank s, r.x.commits, c.val,
            r.x.pc + 1] s).1 (256 * i + k)) 128)
          (elemsAt s n.val (128 * tA r.w + 128 * i * (elemBits (tFd r.w) / 8)) 128 (tFd r.w))))) s t ∧
      t.free = (if paired s then s.free else s.free + 1) ∧ Only [.free, .jobs, .cores] s t) ∧
  -- VBCAST
  (∀ (n : Fin 160) (c : Fin 8) (r : Turn) (s : State), Running s → Dispatches s n.val c.val r .vbcast →
    (coreOf s n.val).engines = [] →
    ∃ t, exec (.vbcast n c) s = .next t ∧
      Operates n.val c.val 2 (128 * tD r.w) (codeBytes (tFd r.w) ((List.range (128 * tRows r.w)).map (fun i =>
        vecBin (tFd r.w) (tMode r.w) ((elemsAt s n.val (128 * tA r.w) (128 * tRows r.w) (tFd r.w)).getD i 0)
          ((elemsAt s n.val (128 * tB r.w) (tRows r.w) (tFd r.w)).getD (i / 128) 0)))) s t ∧
      Only [.jobs, .cores] s t) ∧
  -- VCVT
  (∀ (n : Fin 160) (c : Fin 8) (r : Turn) (s : State), Running s → Dispatches s n.val c.val r .vcvt →
    (coreOf s n.val).engines = [] →
    ∃ t, exec (.vcvt n c) s = .next t ∧
      Operates n.val c.val 2 (128 * tD r.w) ((List.range (tRows r.w)).flatMap (fun i => rowEnc (tFd r.w)
        (fun k => roundOf r s 1 (tMode r.w) r.x.cvtDraws (128 * i + k))
        (rowVals (tFa r.w) (storeAt s n.val (128 * tA r.w + i * rowBytesOf (tFa r.w)) (rowBytesOf (tFa r.w)))))) s t ∧
      Only [.jobs, .cores] s t) ∧
  -- RACC
  (∀ (n : Fin 160) (c : Fin 8) (r : Turn) (s : State), Running s → Dispatches s n.val c.val r .racc →
    (coreOf s n.val).engines = [] →
    ∃ t, exec (.racc n c) s = .next t ∧
      Operates n.val c.val 4 (128 * tD r.w) (redBytes (tRed r.w) (128 * tRows r.w)
        (storeAt s n.val (128 * tD r.w) (128 * tRows r.w * redDstBytes (tRed r.w)))
        (storeAt s n.val (128 * tA r.w) (128 * tRows r.w * redSrcBytes (tRed r.w)))) s t ∧
      Only [.jobs, .cores] s t) ∧
  -- TILE_OP_COMPLETE
  (∀ (n : Fin 160) (e : Fin 5) (now jid : Nat) (o : EngOp) (l : List EngOp) (j : Job) (s : State), Running s →
    tget [] (coreOf s n.val).engines e.val = o :: l → jobOn s n.val = some (jid, j) → j.waits = [] → j.effects = [] →
    o.signal = none → o.waits = false →
    ∃ t, exec (.tileOpComplete n e now) s = .next t ∧ tget [] (coreOf t n.val).engines e.val = l ∧
      cntGet t cOps (n.val / 40) o.count = satAdd (2 ^ 64 - 1) (cntGet s cOps (n.val / 40) o.count) o.rows ∧
      (coreOf t n.val).store = (coreOf s n.val).store ∧ (coreOf t n.val).ctxs = (coreOf s n.val).ctxs ∧
      Others coreOf n.val s t ∧ Only [.time, .cnt, .cores] s t)

/-- SYNCHRONISATION COMMANDS COMPLETE (R245 to R251, Tables 9.4, 9.5, 9.11): objects assigned, registered, marked,
released and abandoned; semaphores and channels set by command. Where the manual leaves a choice the statement rests
on the model's, named in log entries 5, 6, 7, 8, 9, 11, 87, 92, 93, 94, 186, 211, 212. -/
def Obligations.SyncCommandsComplete : Prop :=
  -- OBJ_ASSIGN
  (∀ (o c : Fin 1024) (s : State), Managed s → (syncObj s o.val).st = 0 → (syncObj s o.val).reading = false →
   
    ∃ t, exec (.objAssign o c) s = .next t ∧ t.out = .fm .ok [] :: s.out ∧
      syncObj t o.val = { syncObj s o.val with tenant := c.val } ∧ Others syncObj o.val s t ∧
      Only [.out, .coreRest] s t) ∧
  -- OBJ_REGISTER
  (∀ (o : Fin 1024) (b : List Byte) (s : State), Running s → hasHost s (syncObj s o.val).tenant = false →
    (syncObj s o.val).st = 0 →
    (syncObj s o.val).wordPva % 8 = 0 → (syncObj s o.val).memListPva % 4 = 0 → (syncObj s o.val).members ≠ 0 →
    (syncObj s o.val).members ≤ 256 → wordOk s (syncObj s o.val) = true →
    membersUsed s + (syncObj s o.val).members ≤ 16384 →
    (engRead (objActor s (syncObj s o.val)) (syncObj s o.val).memListPva (4 * (syncObj s o.val).members) s).1 =
      .got b none →
    (memberList b (syncObj s o.val).members).all memberOk = true →
    ∃ t, exec (.objRegister o none) s = .next t ∧ syncObj t o.val = { syncObj s o.val with
        st := 1, regFault := 0, reading := false, list := memberList b (syncObj s o.val).members, stateTime := s.time } ∧
      Others syncObj o.val s t) ∧
  -- OBJ_DEREGISTER
  (∀ (o : Fin 1024) (s : State), Running s → hasHost s (syncObj s o.val).tenant = false → (syncObj s o.val).st ≠ 0 →
    ∃ t, exec (.objDeregister o none) s = .next t ∧
      syncObj t o.val = { syncObj s o.val with st := 0, list := [], stateTime := s.time } ∧
      Others syncObj o.val s t ∧ Only [.coreRest] s t) ∧
  -- SEM_SET
  (∀ (who : Nat) (n : Fin 160) (k : Fin 64) (v : Fin 256) (s : State), Managed s →
    ∃ t, exec (.semSet .operator who n k v) s = .next t ∧ t.out = .fm .ok [] :: s.out ∧
      tget 0 (coreOf t n.val).sems k.val = v.val ∧
      (∀ m, m ≠ k.val → tget 0 (coreOf t n.val).sems m = tget 0 (coreOf s n.val).sems m) ∧
      cntGet t cSyn 0 5 = satAdd (2 ^ 64 - 1) (cntGet s cSyn 0 5) 1 ∧ Others coreOf n.val s t ∧
      Only [.out, .cnt, .obs, .cores] s t) ∧
  -- CHAN_RELEASE
  (∀ (who : Nat) (p : Fin 16) (jid : Nat) (j : Job) (s : State), Managed s → (chanOf s p.val).job = some jid →
    job s jid = some j →
    ∃ t, exec (.chanRelease .operator who p) s = .next t ∧ t.out = .fm .ok [] :: s.out ∧
      (chanOf t p.val).sense = !(chanOf s p.val).sense ∧ (chanOf t p.val).arrived = [] ∧
      (∀ n ∈ j.cores, ∀ c, (ctxOf (coreOf s n) c).st = .barrier (chanOf s p.val).logical →
        (ctxOf (coreOf t n) c).st = .ready) ∧
      Others chanOf p.val s t ∧ Only [.out, .cnt, .obs, .cores, .coreRest] s t) ∧
  -- OBJ_MARK
  (∀ (who : Nat) (o : Fin 1024) (l : Nat) (s : State), Managed s → (syncObj s o.val).st ≠ 0 →
    wbLine s (syncObj s o.val).tenant (syncObj s o.val).wordPva = some l → (syncObj s o.val).wordPva % 8 = 0 →
    IdleLine s (homeOf s (64 * l)) l → s.pair.st = .solo → tenantGone s (syncObj s o.val).tenant = false →
    ∃ t, exec (.objMark .operator who o) s = .next t ∧ t.out = .fm .ok [] :: s.out ∧
      leNat (bytesAt t (64 * l + (syncObj s o.val).wordPva % 64) 8) =
        leNat (bytesAt s (64 * l + (syncObj s o.val).wordPva % 64) 8) ||| 0x0900000000000000 ∧
      SameOutside (64 * l + (syncObj s o.val).wordPva % 64) 8 s t ∧ syncObj t o.val = syncObj s o.val) ∧
  -- OBJ_RELEASE
  (∀ (who : Nat) (o : Fin 1024) (l : Nat) (s : State), Managed s → (syncObj s o.val).st ≠ 0 →
    wbLine s (syncObj s o.val).tenant (syncObj s o.val).wordPva = some l → (syncObj s o.val).wordPva % 8 = 0 →
    IdleLine s (homeOf s (64 * l)) l → s.pair.st = .solo → tenantGone s (syncObj s o.val).tenant = false →
    ∃ t, exec (.objRelease .operator who o) s = .next t ∧ t.out = .fm .ok [] :: s.out ∧
      leNat (bytesAt t (64 * l + (syncObj s o.val).wordPva % 64) 8) =
        leNat (bytesAt s (64 * l + (syncObj s o.val).wordPva % 64) 8) / 2 ^ 33 * 2 ^ 33 +
          (if bitOf (leNat (bytesAt s (64 * l + (syncObj s o.val).wordPva % 64) 8)) 32 then 0 else 2 ^ 32) ∧
      SameOutside (64 * l + (syncObj s o.val).wordPva % 64) 8 s t ∧ syncObj t o.val = syncObj s o.val) ∧
  -- RESETNOTICE
  (∀ (n : Fin 64) (o : Nat) (p : Packet) (q : Nat) (x : SyncObj) (s : State), Running s → Passes n.val p q s = true →
    p.typ = 0x43 → s.core.objs = [(o, x)] → x.st = 1 → memberEntry 1 p.src.toNat ∈ x.list →
    ∃ t, exec (.resetnotice n p) s = .next t ∧ syncObj t o = { x with st := 2, stateTime := s.time } ∧
      cntGet t cSyn 0 4 = satAdd (2 ^ 64 - 1) (cntGet s cSyn 0 4) 1 ∧ Others syncObj o s t) ∧
  -- DECLARE_ENDPOINT_RESET
  (∀ (i : Fin 65536) (s : State), Managed s →
    ∃ t, exec (.declareEndpointReset i) s = .next t ∧ t.out.head? = some (.fm .ok []) ∧
      (∀ o, (syncObj s o).st = 1 → memberEntry 1 i.val ∈ (syncObj s o).list → (syncObj t o).st = 2))

/-- SCHEDULER AND SHAPING COMMANDS COMPLETE (R35, R258 to R265, Tables 10.9 to 10.15): admission of the one ready job,
class credit, queue samples, the fabric manager's settings. Where the manual leaves a choice the statement rests on
the model's, named in log entries 5, 6, 7, 9, 11, 95, 96, 97, 99, 100, 103, 186. -/
def Obligations.SchedulerCommandsComplete : Prop :=
  -- SCHEDULER_TICK
  (∀ (q : Fin 4) (now jid : Nat) (cs : List Nat) (j : Job) (s : State), Running s →
    admissionOpen (advance now s) = true → quadServes s q.val = true → s.que.jobs = [(jid, some j)] →
    j.phase = .ready → j.quiesced = false → j.quadrant = q.val → (group s j.group).st = .active →
    0 ≤ creditOf s (classOf s j.group) → j.width ≤ coresInService s → placement (advance now s) j = some cs →
    ∃ t, exec (.schedulerTick q now) s = .next t ∧ (job t jid).map (·.phase) = some .running ∧
      (job t jid).map (·.cores) = some cs ∧ (∀ n ∈ cs, (coreOf t n).job = some jid ∧ (coreOf t n).sems = [] ∧
        (coreOf t n).store = [] ∧ (coreOf t n).acc = []) ∧
      (∀ n, n ∉ cs → coreOf t n = coreOf s n) ∧
      cntGet t cSch 0 0 = satAdd (2 ^ 64 - 1) (cntGet s cSch 0 0) 1) ∧
  -- CLASS_CREDIT_TICK
  (∀ (l : List (Nat × Nat)) (now : Nat) (s : State), Running s →
    ∃ t, exec (.classCreditTick l now) s = .next t ∧
      (∀ c, c < 256 → creditOf t c =
        if enginesInUse s l c = 0 ∧ classReady s c = false then creditOf s c
        else max (-(classBurst s c : Int)) (min (classBurst s c : Int)
          (creditOf s c + (classRate s c : Int) - 64 * (enginesInUse s l c : Int)))) ∧
      Only [.time, .schRest] s t) ∧
  -- QUEUE_SAMPLE_TICK
  (∀ (now : Nat) (s : State), Running s →
    ∃ t, exec (.queueSampleTick now) s = .next t ∧
      (∀ n ∈ s.que.queues.map (·.1), tget 0 t.sch.qDepth n =
          min (2 ^ 32 - 1) (sqHeld (queue s n) + inFlight (queue s n)) ∧
        tget 0 t.sch.qDelay n = ((oldestStamp (queue s n)).map (fun a =>
          min (2 ^ 32 - 1) ((max s.time now - a) / 1000))).getD 0 ∧
        tget 0 t.sch.qMaxDelay n = max (tget 0 s.sch.qMaxDelay n) (tget 0 t.sch.qDelay n)) ∧
      Only [.time, .schRest] s t) ∧
  -- CLEAR_MAX
  (∀ (n : Fin 8192) (s : State), Running s → (group s (n.val / 8)).st ≠ .unbound → ownerIgnored s n.val = false →
    ∃ t, exec (.clearMax n) s = .next t ∧ tget 0 t.sch.qMaxDelay n.val = 0 ∧
      (∀ k, k ≠ n.val → tget 0 t.sch.qMaxDelay k = tget 0 s.sch.qMaxDelay k) ∧ Only [.schRest] s t) ∧
  -- SET_CLASS
  (∀ (c : Fin 256) (rate : BitVec 16) (burst : BitVec 32) (s : State), Managed s →
    ∃ t, exec (.setClass c rate burst) s = .next t ∧ t.out = .fm .ok [] :: s.out ∧ classRate t c.val = rate.toNat ∧
      classBurst t c.val = 64 * burst.toNat ∧
      (∀ k, k ≠ c.val → classRate t k = classRate s k ∧ classBurst t k = classBurst s k) ∧
      Only [.out, .schRest] s t) ∧
  -- SET_GROUP_CLASS
  (∀ (g : Fin 1024) (c : Fin 256) (s : State), Managed s →
    ∃ t, exec (.setGroupClass g c) s = .next t ∧ t.out = .fm .ok [] :: s.out ∧ classOf t g.val = c.val ∧
      Others classOf g.val s t ∧ Only [.out, .schRest] s t) ∧
  -- SET_SCH_CTRL
  (∀ (a f : BitVec 16) (m : BitVec 8) (s : State), Managed s →
    ∃ t, exec (.setSchCtrl a f m) s = .next t ∧ t.out = .fm .ok [] :: s.out ∧
      t.sch = { s.sch with ageLimitMs := a.toNat, fitHorizonUs := f.toNat, shedMarginC := m.toNat } ∧
      Only [.out, .schRest] s t) ∧
  -- SET_CONTRACT
  (∀ (k : Fin 4096) (c : Fin 1024) (anyT : Bool) (p : Fin 64) (anyP : Bool) (rate burst : BitVec 32) (s : State),
    Managed s → 4128 ≤ burst.toNat → s.sch.contracts = [] →
    ∃ t, exec (.setContract k c anyT p anyP true rate burst) s = .next t ∧ t.out = .fm .ok [] :: s.out ∧
      tget {} t.sch.contracts k.val = { tenant := c.val, anyTenant := anyT, port := p.val, anyPort := anyP, valid := true
                                        rateMbps := rate.toNat, burstB := burst.toNat, milli := 1000 * burst.toNat
                                        tokenTime := s.time } ∧
      Only [.out, .schRest] s t) ∧
  (∀ (k : Fin 4096) (c : Fin 1024) (anyT : Bool) (p : Fin 64) (anyP valid : Bool) (rate burst : BitVec 32) (s : State),
    Managed s → valid = true → burst.toNat < 4128 →
    exec (.setContract k c anyT p anyP valid rate burst) s = .next { s with out := .fm .policed [] :: s.out })

/-- POWER COMMANDS COMPLETE (R253 to R257, R267 to R270, Tables 10.1 to 10.8): operating points, energy, throttles,
emergencies, deferred activation. Where the manual leaves a choice the statement rests on the model's, named in log
entries 5, 6, 7, 9, 11, 52, 88, 95, 101, 102, 134, 186, 234. -/
def Obligations.PowerCommandsComplete : Prop :=
  -- VF_STEP
  (∀ (q : Fin 4) (now : Nat) (s : State), Running s →
    (pwrq s q.val).divider < opDivider (max (pwrq s q.val).opReq (pwrq s q.val).opCap) →
    ∃ t, exec (.vfStep q now) s = .next t ∧ (pwrq t q.val).divider = (pwrq s q.val).divider + 1 ∧
      (pwrq t q.val).voltMv = (pwrq s q.val).voltMv ∧ Others pwrq q.val s t ∧
      Only [.time, .cnt, .jobs, .cores, .power] s t) ∧
  (∀ (q : Fin 4) (now : Nat) (s : State), Running s →
    opDivider (max (pwrq s q.val).opReq (pwrq s q.val).opCap) ≤ (pwrq s q.val).divider →
    (pwrq s q.val).voltMv < opMv (max (pwrq s q.val).opReq (pwrq s q.val).opCap) →
    ∃ t, exec (.vfStep q now) s = .next t ∧ (pwrq t q.val).divider = (pwrq s q.val).divider ∧
      (pwrq t q.val).voltMv = min (opMv (max (pwrq s q.val).opReq (pwrq s q.val).opCap)) ((pwrq s q.val).voltMv + 10) ∧
      Others pwrq q.val s t) ∧
  -- ENERGY_BUCKET_TICK
  (∀ (q : Fin 4) (uj now : Nat) (s : State), Running s →
    ∃ t, exec (.energyBucketTick q uj now) s = .next t ∧
      (pwrq t q.val).bucketUj = max (-(1000 * (clampN 1 1000 (pwrq s q.val).bucketMaxMj : Nat) : Int))
        (min (1000 * (clampN 1 1000 (pwrq s q.val).bucketMaxMj : Nat) : Int)
          ((pwrq s q.val).bucketUj + (min (pwrq s q.val).budgetW 700 : Nat) - (uj : Int))) ∧
      cntGet t cUtil q.val 9 = satAdd (2 ^ 64 - 1) (cntGet s cUtil q.val 9) (((pwrq s q.val).energyRemUj + uj) / 1000) ∧
      Others pwrq q.val s t ∧ Only [.time, .cnt, .power] s t) ∧
  -- CLASS_OVERRUN_WINDOW
  (∀ (q : Fin 4) (now n jid : Nat) (j : Job) (s : State), Running s → 40 * q.val ≤ n → n < 40 * q.val + 40 →
    jobOn s n = some (jid, j) →
    ∃ t, exec (.classOverrunWindow q now) s = .next t ∧ (coreOf t n).energyFj = 0 ∧
      (coreOf t n).limited = decide (750000 * (j.energyClass + 1) * voltFactor (pwrq s q.val).opCur *
        opMhz (pwrq s q.val).opCur * 10000 < ((coreOf s n).energyFj + ceilDiv (2800000 *
          voltFactor (pwrq s q.val).opCur * opMhz (pwrq s q.val).opCur * (max s.time now - (coreOf s n).meterAt))
            20000000) * 20000000) ∧
      (∀ m, m < 40 * q.val ∨ 40 * q.val + 40 ≤ m → coreOf t m = coreOf s m) ∧
      Only [.time, .cnt, .jobs, .cores] s t) ∧
  -- SENSOR_SAMPLE
  (∀ (q : Fin 4) (tj : BitVec 12) (w : BitVec 10) (now : Nat) (s : State), Running s →
    ∃ t, exec (.sensorSample q tj w now) s = .next t ∧ (pwrq t q.val).tj = tj.toNat ∧
      (pwrq t q.val).railW = w.toNat ∧
      (420 ≤ tj.toNat → (pwrq s q.val).emergThermal = false →
        (pwrq t q.val).emergThermal = true ∧ (pwrq t q.val).opCap = 3) ∧
      (380 ≤ tj.toNat → (pwrq t q.val).tjThrottle = true) ∧ (tj.toNat < 360 → (pwrq t q.val).tjThrottle = false) ∧
      (700 < w.toNat → (pwrq t q.val).railLimited = true) ∧
      (pwrq t q.val).throttle = ((pwrq t q.val).tjThrottle || (pwrq t q.val).railLimited) ∧
      Others pwrq q.val s t ∧ Only [.out, .time, .cnt, .obs, .power] s t) ∧
  -- THROTTLE_STEP_TIMER
  (∀ (q : Fin 4) (now : Nat) (s : State), Running s → (pwrq s q.val).tjThrottle = true → 380 ≤ (pwrq s q.val).tj →
    (pwrq s q.val).stepAt + 100000 ≤ max s.time now →
    ∃ t, exec (.throttleStepTimer q now) s = .next t ∧ pwrq t q.val = { pwrq s q.val with
        opCap := min 3 ((pwrq s q.val).opCap + 1), raiseFrom := none, stepAt := max s.time now } ∧
      Others pwrq q.val s t ∧ Only [.time, .power] s t) ∧
  -- RAIL_EMERGENCY
  (∀ (q : Fin 4) (now a : Nat) (s : State), Running s → (pwrq s q.val).railSince = some a →
    a + 10000 ≤ max s.time now → (pwrq s q.val).emergRail = false →
    ∃ t, exec (.railEmergency q now) s = .next t ∧ (pwrq t q.val).emergRail = true ∧ (pwrq t q.val).opCap = 3 ∧
      (pwrq t q.val).emergTime = max s.time now ∧ t.out = .alert .emergency [q.val, 1] :: s.out ∧
      cntGet t cPwr 0 1 = satAdd (2 ^ 64 - 1) (cntGet s cPwr 0 1) 1 ∧ Others pwrq q.val s t ∧
      Only [.out, .time, .cnt, .obs, .power] s t) ∧
  -- PWR_ALERT_N
  (∀ (now : Nat) (s : State), Running s →
    ∃ t, exec (.pwrAlertN true now) s = .next t ∧ t.sch.alertN = true ∧
      (∀ q, q < 4 → (pwrq t q).emergAlert = true ∧
        ((pwrq s q).emergAlert = false → (pwrq t q).opCap = 3)) ∧
      Only [.out, .time, .cnt, .obs, .power, .schRest] s t) ∧
  (∀ (now : Nat) (s : State), Running s →
    ∃ t, exec (.pwrAlertN false now) s = .next t ∧ t.sch.alertN = false ∧
      (∀ q, (pwrq t q).emergAlert = (pwrq s q).emergAlert ∧ (pwrq t q).opCap = (pwrq s q).opCap) ∧
      Only [.time, .power, .schRest] s t) ∧
  -- EMERGENCY_CLEAR
  (∀ (q : Fin 4) (now : Nat) (s : State), Running s → (pwrq s q.val).emergThermal = true →
    (pwrq s q.val).emergRail = false → (pwrq s q.val).emergAlert = false → (pwrq s q.val).throttle = false →
    (pwrq s q.val).tj < 360 → tget 0 (pwrq s q.val).causeAt 0 + 10000000 ≤ max s.time now →
    ∃ t, exec (.emergencyClear q 0 now) s = .next t ∧ pwrq t q.val = { pwrq s q.val with
        emergThermal := false, emergTime := max s.time now, opCap := (pwrq s q.val).opCap - 1
        raiseFrom := some (max s.time now) } ∧
      Others pwrq q.val s t ∧ Only [.time, .obs, .power] s t) ∧
  -- OP_CAP_RAISE
  (∀ (q : Fin 4) (now a : Nat) (s : State), Running s → (pwrq s q.val).raiseFrom = some a →
    inEmergency (pwrq s q.val) = false → (pwrq s q.val).throttle = false → a + 1000000 ≤ max s.time now →
    ∃ t, exec (.opCapRaise q now) s = .next t ∧ (pwrq t q.val).opCap = (pwrq s q.val).opCap - 1 ∧
      (pwrq t q.val).opReq = (pwrq s q.val).opReq ∧ Others pwrq q.val s t ∧ Only [.time, .power] s t) ∧
  -- SET_OP_REQ
  (∀ (q k : Fin 4) (s : State), Managed s →
    ∃ t, exec (.setOpReq q k) s = .next t ∧ t.out = .fm .ok [] :: s.out ∧
      pwrq t q.val = { pwrq s q.val with opReq := k.val } ∧ Others pwrq q.val s t ∧ Only [.out, .power] s t) ∧
  -- SET_BUDGET
  (∀ (q : Fin 4) (w mj : BitVec 10) (s : State), Managed s → 1 ≤ mj.toNat → mj.toNat ≤ 1000 →
    ∃ t, exec (.setBudget q w mj) s = .next t ∧ t.out = .fm .ok [] :: s.out ∧
      pwrq t q.val = { pwrq s q.val with budgetW := w.toNat, bucketMaxMj := mj.toNat } ∧
      Others pwrq q.val s t ∧ Only [.out, .power] s t) ∧
  (∀ (q : Fin 4) (w mj : BitVec 10) (s : State), Managed s → mj.toNat = 0 ∨ 1000 < mj.toNat →
    exec (.setBudget q w mj) s = .next { s with out := .fm .policed [] :: s.out }) ∧
  -- ACTIVATION_REQUEST
  (∀ (now : Nat) (pkg : Nat × BitVec 384) (s : State), Managed s → s.sch.actState = 0 →
    tget none s.sec.slots (1 - s.sec.selector) = some pkg → anyEmerg s = true →
    ∃ t, exec (.activationRequest .operator now) s = .next t ∧ t.sch.actState = 1 ∧ t.sch.actPkg = some pkg ∧
      t.sch.actReqTime = max s.time now ∧ cntGet t cPwr 0 4 = satAdd (2 ^ 64 - 1) (cntGet s cPwr 0 4) 1 ∧
      Only [.time, .free, .cnt, .obs, .schRest] s t) ∧
  (∀ (now : Nat) (pkg : Nat × BitVec 384) (s : State), Managed s → s.sch.actState = 0 →
    tget none s.sec.slots (1 - s.sec.selector) = some pkg → anyEmerg s = false → refusing s pkg.2 = none →
    ∃ t, exec (.activationRequest .operator now) s = .next t ∧ t.sch.actState = 2 ∧ t.sch.actPkg = some pkg ∧
      t.sch.actReqTime = max s.time now) ∧
  -- DEFERRAL_TICK
  (∀ (now : Nat) (pkg : Nat × BitVec 384) (s : State), Running s → s.sch.actState = 1 → s.sch.actPkg = some pkg →
    anyEmerg s = false → refusing s pkg.2 = none →
    ∃ t, exec (.deferralTick now) s = .next t ∧ t.sch.actState = 2 ∧ t.sch.actPkg = s.sch.actPkg ∧
      t.sch.actReqTime = s.sch.actReqTime) ∧
  -- DEFERRAL_EXPIRY
  (∀ (now : Nat) (s : State), Running s → s.sch.actState = 1 → s.sch.actSince + 60000000000 ≤ max s.time now →
    ∃ t, exec (.deferralExpiry now) s = .next t ∧ t.sch.actState = 0 ∧ t.sch.actLast =
        (if s.sch.actReqTime = s.sch.actSince then Status.deferredExpired.code else s.sch.actLast) ∧
      cntGet t cPwr 0 5 = satAdd (2 ^ 64 - 1) (cntGet s cPwr 0 5) 1)

/-- CXL.MEM, LINKS AND LOGICAL DEVICES COMPLETE (R30, R96, R115 to R117, R330 to R335, R340, R341, R343, Table 4.3).
Where the manual leaves a choice the statement rests on the model's, named in log entries 5, 6, 7, 9, 11, 33, 39, 43,
119, 186, 199, 200, 204, 223, 224. -/
def Obligations.CxlCommandsComplete : Prop :=
  -- CXL_MEM_READ
  (∀ (d : Fin 64) (tag hpa : Nat) (m : Fin 3) (g ppa : Nat) (w : Wdw) (s : State), Running s → ldUp s d.val = true →
    s.pair.st = .solo → openHit s d.val hpa = some (g, w) → w.mode = 2 →
    (translate (d.val / 16) (logDev s d.val).tenant ((hostPva s d.val hpa).getD 0 / 64 * 64) (.ld d.val) .port
      (readKind m.val).2 s).1.toOption.map (·.1) = some ppa →
    ppa % 64 = 0 → IdleLine s (d.val / 16) (ppa / 64) → tenantGone s (logDev s d.val).tenant = false →
    ∃ t, exec (.cxlMemRead d tag hpa m) s = .next t ∧
      t.out = .cxl d.val tag false m.val (bytesAt s ppa 64) :: s.out ∧
      (line t (ppa / 64)).dir = (if m.val = 0 then {}
        else if m.val = 1 then { st := .s, ptrs := [.ld d.val] } else { st := .o, ptrs := [.ld d.val] }) ∧
      cntGet t cCxl (d.val / 16) 0 = satAdd (2 ^ 64 - 1) (cntGet s cCxl (d.val / 16) 0) 1 ∧
      Others line (ppa / 64) s t ∧ SameMemory s t) ∧
  -- CXL_MEM_WRITE
  (∀ (d : Fin 64) (tag hpa : Nat) (mask : BitVec 64) (data : List Byte) (g ppa : Nat) (w : Wdw) (s : State), Running s →
    ldUp s d.val = true → s.pair.st = .solo → openHit s d.val hpa = some (g, w) →
    wbTarget s d.val hpa = none →
    (translate (d.val / 16) (logDev s d.val).tenant ((hostPva s d.val hpa).getD 0 / 64 * 64) (.ld d.val) .port
      .write s).1.toOption.map (·.1) = some ppa →
    ppa % 64 = 0 → IdleLine s (d.val / 16) (ppa / 64) → tenantGone s (logDev s d.val).tenant = false →
    ∃ t, exec (.cxlMemWrite d tag hpa mask data false) s = .next t ∧ t.out = .cxl d.val tag false 0 [] :: s.out ∧
      (∀ i, i < 64 → readByte t (ppa + i) = if bitOf mask.toNat i then byteAt data i else readByte s (ppa + i)) ∧
      (line t (ppa / 64)).dir = {} ∧
      cntGet t cCxl (d.val / 16) 1 = satAdd (2 ^ 64 - 1) (cntGet s cCxl (d.val / 16) 1) 1 ∧
      Others line (ppa / 64) s t ∧ SameOutside ppa 64 s t) ∧
  -- CXL_MEM_INV
  (∀ (d : Fin 64) (tag hpa : Nat) (g ppa : Nat) (w : Wdw) (s : State), Running s → ldUp s d.val = true →
    s.pair.st = .solo → openHit s d.val hpa = some (g, w) → w.mode = 2 →
    (translate (d.val / 16) (logDev s d.val).tenant ((hostPva s d.val hpa).getD 0 / 64 * 64) (.ld d.val) .port
      .own s).1.toOption.map (·.1) = some ppa →
    ppa % 64 = 0 → IdleLine s (d.val / 16) (ppa / 64) → tenantGone s (logDev s d.val).tenant = false →
    ∃ t, exec (.cxlMemInv d tag hpa) s = .next t ∧ (∃ b, t.out = .cxl d.val tag false 2 b :: s.out) ∧
      (line t (ppa / 64)).dir = { st := .o, ptrs := [.ld d.val] } ∧ Others line (ppa / 64) s t ∧ SameMemory s t) ∧
  -- CXL_LINK_TRAINED
  (∀ (p v : Fin 4) (width rate : Nat) (sw : Bool) (n : Fin 17) (now : Nat) (s : State), Running s →
    (cxlPort s p.val).linkState = 1 → width ∈ [4, 8, 16] → v.val ≠ 0 → rate = 32 ∨ (rate = 64 ∧ v.val = 3) →
    ∃ t, exec (.cxlLinkTrained p v width rate sw n now) s = .next t ∧ cxlPort t p.val = { cxlPort s p.val with
        linkState := 2, stateTime := max s.time now, version := v.val, width := width, rateGts := rate,
        mld := sw && (cxlPort s p.val).mldAllow && decide (2 ≤ v.val),
        ldCount := if sw && (cxlPort s p.val).mldAllow && decide (2 ≤ v.val) then max 1 n.val else 1, downAt := none } ∧
      (∀ d, d / 16 = p.val → (logDev t d).dcd = decide (v.val = 3)) ∧ Others cxlPort p.val s t ∧
      Only [.time, .cxlPorts, .lds] s t) ∧
  (∀ (p v : Fin 4) (width rate : Nat) (sw : Bool) (n : Fin 17) (now : Nat) (s : State), Running s →
    (cxlPort s p.val).linkState = 1 →
    width ∉ [4, 8, 16] ∨ rate ∉ [32, 64] ∨ v.val = 0 ∨ (rate = 64 ∧ v.val ≠ 3) →
    ∃ t, exec (.cxlLinkTrained p v width rate sw n now) s = .next t ∧ (cxlPort t p.val).linkState = 0 ∧
      Others cxlPort p.val s t ∧ Only [.time, .cxlPorts, .lds] s t) ∧
  -- LINK_DOWN
  (∀ (p : Fin 4) (now : Nat) (s : State), Running s → (cxlPort s p.val).linkState = 2 →
    ∃ t, exec (.linkDown p now) s = .next t ∧ (cxlPort t p.val).linkState = 0 ∧
      (cxlPort t p.val).downAt = some (max s.time now) ∧ (cxlPort t p.val).downQueues = (linkQueues s p.val).length ∧
      (∀ e ∈ (xunit t p.val).atc, e.ld / 16 ≠ p.val) ∧ (∀ r ∈ t.cxl.dmaReads, r.ld / 16 ≠ p.val) ∧
      (∀ n ∈ linkQueues s p.val, (queue t n).st = .stopped ∧ (queue t n).fault = 8) ∧
      cntGet t cCxl p.val 6 = satAdd (2 ^ 64 - 1) (cntGet s cCxl p.val 6) 1) ∧
  -- LINK_DOWN_SCAN_COMPLETE
  (∀ (p : Fin 4) (now a : Nat) (s : State), Running s → (cxlPort s p.val).downAt = some a → s.dir.lines = [] →
    (cxlPort s p.val).linkState = 3 →
    ∃ t, exec (.linkDownScanComplete p now) s = .next t ∧ cxlPort t p.val = { cxlPort s p.val with downAt := none } ∧
      (∀ c ∈ t.dir.scans, c.link = true → c.ld / 16 ≠ p.val) ∧ Others cxlPort p.val s t ∧
      Only [.time, .obs, .dir, .cxlPorts] s t) ∧
  (∀ (p : Fin 4) (now a : Nat) (s : State), Running s → (cxlPort s p.val).downAt = some a → s.dir.lines = [] →
    (cxlPort s p.val).linkState = 0 → mayTrain s p.val = true →
    ∃ t, exec (.linkDownScanComplete p now) s = .next t ∧ (cxlPort t p.val).linkState = 1 ∧
      (cxlPort t p.val).downAt = none ∧ Others cxlPort p.val s t) ∧
  -- DIRECTORY_SCAN
  (∀ (l : Nat) (c : Scan) (s : State), Running s → s.dir.scans = [c] → c.dead = true → scanHits s c l = true →
    (line s l).recalls = [] → (line s l).dir.st = .s → (line s l).dir.coarse = false →
    ∃ t, exec (.directoryScan l) s = .next t ∧ Part.ld c.ld ∉ (line t l).dir.ptrs ∧
      (∀ h, h ≠ Part.ld c.ld → h ∈ (line s l).dir.ptrs → h ∈ (line t l).dir.ptrs) ∧ Others line l s t ∧
      Only [.dir] s t) ∧
  (∀ (l : Nat) (c : Scan) (s : State), Running s → s.dir.scans = [c] → c.dead = true → scanHits s c l = true →
    (line s l).recalls = [] → (line s l).dir.st = .o →
    ∃ t, exec (.directoryScan l) s = .next t ∧ (line t l).dir = {} ∧ tget false t.mem.poison l = true ∧
      cntGet t cDir (homeOf s (64 * l)) 5 = satAdd (2 ^ 64 - 1) (cntGet s cDir (homeOf s (64 * l)) 5) 1 ∧
      Others line l s t) ∧
  -- CONVENTIONAL_RESET
  (∀ (p : Fin 4) (now : Nat) (s : State), Running s → (cxlPort s p.val).linkState = 2 →
    ∃ t, exec (.conventionalReset p now) s = .next t ∧ (cxlPort t p.val).linkState = 1 ∧
      (∀ e ∈ (xunit t p.val).atc, e.ld / 16 ≠ p.val) ∧
      (∀ d g, d / 16 = p.val → g < 32 → (wdw t d g).st ≠ .open_) ∧ t.pool.tethers = s.pool.tethers) ∧
  -- RESET_LD
  (∀ (d : Fin 64) (s : State), Managed s →
    ∃ t, exec (.resetLd d) s = .next t ∧ t.out.head? = some (.fm .ok []) ∧ logDev t d.val = { logDev s d.val with
        biEnabled := false, eventPolicy := 0, errNotCommitted := 0, resetTime := s.time } ∧
      (∀ g, g < 32 → (wdw t d.val g).st ≠ .open_) ∧ (∀ e ∈ (xunit t (d.val / 16)).atc, e.ld ≠ d.val) ∧
      t.pool.tethers = s.pool.tethers ∧ Others logDev d.val s t) ∧
  -- BIND_LD
  (∀ (d : Fin 64) (c : Fin 1024) (s : State), Managed s → grantsOf s d.val = [] → tethersOf s (.ld d.val) = 0 →
    tenantLive s c.val = true →
    ∃ t, exec (.bindLd d c) s = .next t ∧ t.out = .fm .ok [] :: s.out ∧
      logDev t d.val = { logDev s d.val with tenant := c.val, bound := true } ∧ Others logDev d.val s t ∧
      Only [.out, .lds] s t) ∧
  -- PORT_ENABLE
  (∀ (p : Fin 4) (m : Bool) (dc : Option (BitVec 16)) (now : Nat) (s : State), Managed s → (cxlPort s p.val).downAt = none →
    (cxlPort s p.val).linkState ≠ 2 → tget false s.fen.fencedCxl p.val = false → (quad s p.val).faultFenced = false →
    s.clk.phase = .released → gated s = false →
    ∃ t, exec (.portEnable p true ⟨m, dc⟩ now) s = .next t ∧ t.out = .fm .ok [] :: s.out ∧ (cxlPort t p.val).linkState = 1 ∧
      (cxlPort t p.val).enable = true ∧ (cxlPort t p.val).mldAllow = m ∧
      (cxlPort t p.val).dcResponseMs = (dc.map BitVec.toNat).getD (cxlPort s p.val).dcResponseMs ∧ Others cxlPort p.val s t ∧
      Only [.out, .time, .cxlPorts, .lds] s t) ∧
  (∀ (p : Fin 4) (m : Bool) (dc : Option (BitVec 16)) (now : Nat) (s : State), Managed s → (cxlPort s p.val).linkState ≠ 2 →
    ∃ t, exec (.portEnable p false ⟨m, dc⟩ now) s = .next t ∧ t.out = .fm .ok [] :: s.out ∧ (cxlPort t p.val).linkState = 3 ∧
      (cxlPort t p.val).enable = false ∧
      (cxlPort t p.val).dcResponseMs = (dc.map BitVec.toNat).getD (cxlPort s p.val).dcResponseMs ∧
      Others cxlPort p.val s t ∧ Only [.out, .time, .cxlPorts, .lds] s t) ∧
  -- DMA_READ_COMPLETE
  (∀ (i : Nat) (b : List Byte) (r : DmaRead) (s : State), Running s → s.cxl.dmaReads = [r] → r.id = i →
    r.discard = false → s.pair.st = .solo → (queue s r.queue).fetching = true → (queue s r.queue).st = .running →
    (group s (r.queue / 8)).st = .active → (group s (r.queue / 8)).revoking = false →
    ∃ t, exec (.dmaReadComplete i b false) s = .next t ∧ t.cxl.dmaReads = [] ∧
      (queue t r.queue).flight = (queue s r.queue).flight ++
        [{ slot := (queue s r.queue).sqHead.toNat, bytes := slice b 0 64,
           stamp := (queue s r.queue).stamps.headD s.time }] ∧
      (queue t r.queue).sqHead = (queue s r.queue).sqHead + 1 ∧ (queue t r.queue).fetching = false ∧
      cntGet t cQue 0 0 = satAdd (2 ^ 64 - 1) (cntGet s cQue 0 0) 1 ∧ Others queue r.queue s t ∧
      Only [.cnt, .queues, .cxlRest] s t)

/-- GRANTS, WINDOWS, DYNAMIC CAPACITY AND CUTS COMPLETE (R333 to R339, Tables 13.7, 13.8). Where the manual leaves a
choice the statement rests on the model's, named in log entries 5, 6, 7, 9, 11, 34, 36, 37, 38, 186, 204, 225. -/
def Obligations.GrantCommandsComplete : Prop :=
  -- GRANT_EXTENT
  (∀ (d : Fin 64) (e : Fin 16384) (m : Fin 3) (g b : Nat) (s : State), Managed s → grantable (extent s e.val) = true →
    (extent s e.val).kind ≠ .balloon → (extent s e.val).kite = none → (logDev s d.val).bound = true →
    (logDev s d.val).dcd = false → (extent s e.val).tenant = (logDev s d.val).tenant → m.val ≠ 2 →
    lowest 32 (fun g => decide ((wdw s d.val g).st = .empty)) = some g →
    findDpa s d.val (extent s e.val).blocks.length = some b →
    (s.pool.tethers.filter (fun x => x.tenant == (extent s e.val).tenant)).length <
      tget 0 s.pool.quotas (extent s e.val).tenant →
    tethersOf s (.ld d.val) < 65535 → s.pool.tethers.length < 65536 →
    ∃ t, exec (.grantExtent d e m) s = .next t ∧ t.out.head? = some (.fm .ok [g, b]) ∧
      wdw t d.val g = { extent := e.val, mode := m.val, st := .granted, dpaBase := b,
                        size := (extent s e.val).blocks.length } ∧
      t.pool.tethers = s.pool.tethers ++
        [{ holder := .ld d.val, obj := .extent e.val, tenant := (extent s e.val).tenant }] ∧
      (∀ d' g', (d', g') ≠ (d.val, g) → g' < 32 → g < 32 → wdw t d' g' = wdw s d' g')) ∧
  -- REVOKE_GRANT
  (∀ (d : Fin 64) (g : Fin 32) (s : State), Managed s → (wdw s d.val g.val).st = .granted → (logDev s d.val).dcd = false →
    (wdw s d.val g.val).attach = false → (extent s (wdw s d.val g.val).extent).kite = none →
    { holder := .ld d.val, obj := .extent (wdw s d.val g.val).extent, tenant := (logDev s d.val).tenant } ∈ s.pool.tethers →
    (∀ o ∈ s.cxl.dcOps, o.extent ≠ (wdw s d.val g.val).extent) →
    ∃ t, exec (.revokeGrant d g) s = .next t ∧ t.out = .fm .ok [] :: s.out ∧ wdw t d.val g.val = {} ∧
      t.pool.tethers.length + 1 = s.pool.tethers.length) ∧
  (∀ (d : Fin 64) (g : Fin 32) (s : State), Managed s → (wdw s d.val g.val).st = .open_ →
    ∃ t, exec (.revokeGrant d g) s = .next t ∧ t.out = .fm .ok [] :: s.out ∧
      wdw t d.val g.val = { wdw s d.val g.val with revoked := true, ordered := true } ∧ Only [.out, .wins] s t) ∧
  -- HDM_DECODER_COMMIT
  (∀ (d : Fin 64) (k : Fin 32) (dpa size hpa g : Nat) (w : Wdw) (s : State), Running s → ldUp s d.val = true →
    decoderBusy s d.val k.val = false → (grantsOf s d.val).find? (fun x =>
      decide (dpa = x.2.dpaBase * blockBytes) && decide (size = x.2.size * blockBytes)) = some (g, w) →
    w.st = .granted → w.opening = none → w.mode = 1 →
    ∃ t, exec (.hdmDecoderCommit d k dpa size hpa 1) s = .next t ∧
      wdw t d.val g = { w with st := .open_, hpaBase := hpa, decoder := k.val, refusedSeen := false } ∧
      (logDev t d.val).errNotCommitted = (logDev s d.val).errNotCommitted &&& ~~~(1#32 <<< k.val) ∧
      (∀ d' g', d' * 32 + g' ≠ d.val * 32 + g → wdw t d' g' = wdw s d' g') ∧ Only [.lds, .wins] s t) ∧
  (∀ (d : Fin 64) (k : Fin 32) (dpa size hpa : Nat) (s : State), Running s → ldUp s d.val = true →
    decoderBusy s d.val k.val = false → (grantsOf s d.val).find? (fun x =>
      decide (dpa = x.2.dpaBase * blockBytes) && decide (size = x.2.size * blockBytes)) = none →
    ∃ t, exec (.hdmDecoderCommit d k dpa size hpa 1) s = .next t ∧
      (logDev t d.val).errNotCommitted = (logDev s d.val).errNotCommitted ||| 1#32 <<< k.val ∧ Only [.lds] s t) ∧
  -- HDM_DECODER_DECOMMIT
  (∀ (d : Fin 64) (k : Fin 32) (g : Nat) (w : Wdw) (s : State), Running s → (grantsOf s d.val).find? (fun x =>
      ((decide (x.2.st = .open_) || decide (x.2.st = .cut)) && x.2.decoder == k.val) ||
      x.2.opening.any (fun y => y.1 == k.val)) = some (g, w) → w.st = .open_ →
    ∃ t, exec (.hdmDecoderDecommit d k) s = .next t ∧
      wdw t d.val g = { w with opening := none, st := .granted, hpaBase := 0, decoder := 0 } ∧
      (∀ d' g', d' * 32 + g' ≠ d.val * 32 + g → wdw t d' g' = wdw s d' g') ∧ t.pool.tethers = s.pool.tethers) ∧
  -- INITIATE_DYNAMIC_CAPACITY_ADD
  (∀ (e : Fin 16384) (n : Nat) (bs : List Nat) (s1 s : State), Managed s → (extent s e.val).st = .active →
    (extent s e.val).kind = .balloon → (extent s e.val).growing = [] → windowsOn s e.val ≠ [] →
    dcOf s e.val false = none → dcOf s e.val true = none → cutsOn s e.val = false → n ≠ 0 →
    (extent s e.val).blocks.length + n ≤ (extent s e.val).maxBlocks →
    allocBlocks n e.val (extent s e.val).light (extent s e.val).place (extent s e.val).grainLog2 s = some (bs, s1) →
    ∃ t, exec (.initiateDynamicCapacityAdd e n) s = .next t ∧ extent t e.val = { extent s e.val with growing := bs } ∧
      t.cxl.dcOps = s.cxl.dcOps ++ [{ extent := e.val, add := true, blocks := bs }] ∧ Others extent e.val s t ∧
      Only [.extents, .blocks, .cxlRest] s t) ∧
  -- ADD_DYNAMIC_CAPACITY_RESPONSE
  (∀ (d : Fin 64) (e : Fin 16384) (dl : Nat) (o : DcOp) (s : State), Running s → ldUp s d.val = true →
    versionOf s d.val = 3 → s.cxl.dcOps = [o] → o.extent = e.val → o.add = true → o.sent = true → o.grant = none →
    o.wait = [(d.val, dl)] →
    ∃ t, exec (.addDynamicCapacityResponse d e true) s = .next t ∧
      t.out = .fm .ok [] :: .mailbox d.val 0 [] :: s.out ∧
      extent t e.val = { extent s e.val with blocks := (extent s e.val).blocks ++ o.blocks, growing := [] } ∧
      t.cxl.dcOps = [] ∧ Others extent e.val s t ∧ Only [.out, .extents, .cxlRest] s t) ∧
  -- DC_RESPONSE_TIMEOUT
  (∀ (e : Fin 16384) (now d dl : Nat) (o : DcOp) (s : State), Running s → s.cxl.dcOps = [o] → o.extent = e.val →
    o.add = true → o.sent = true → o.reported = false → o.grant = none → o.wait = [(d, dl)] → dl ≤ max s.time now →
    ∃ t, exec (.dcResponseTimeout e true now) s = .next t ∧ t.out = .fm .conflict [] :: s.out ∧ t.cxl.dcOps = [] ∧
      extent t e.val = { extent s e.val with growing := [], scrubbing := (extent s e.val).scrubbing ++ o.blocks } ∧
      cntGet t cCxl (d / 16) 7 = satAdd (2 ^ 64 - 1) (cntGet s cCxl (d / 16) 7) 1 ∧ Others extent e.val s t ∧
      Only [.out, .time, .cnt, .extents, .cxlRest] s t) ∧
  -- INITIATE_DYNAMIC_CAPACITY_RELEASE
  (∀ (e : Fin 16384) (n d g : Nat) (s : State), Managed s → windowsOn s e.val = [(d, g)] → cutsOn s e.val = false →
    (extent s e.val).st = .active → (extent s e.val).kind = .balloon → (extent s e.val).shrinking = [] →
    s.cxl.dcOps = [] → n ≠ 0 → n ≤ (extent s e.val).blocks.length →
    leastBlocks (extent s e.val) ≤ (extent s e.val).blocks.length - n → gated s = false → awaitsAck s = false →
    ∃ t, exec (.initiateDynamicCapacityRelease e n false) s = .next t ∧
      t.out = .hostEvent d 2 [e.val, ((wdw s d g).dpaBase + ((extent s e.val).blocks.length - n)) * blockBytes,
        n * blockBytes, 0] :: s.out ∧
      t.cxl.dcOps = [{ extent := e.val, add := false, sent := true,
                       blocks := (extent s e.val).blocks.drop ((extent s e.val).blocks.length - n),
                       wait := [(d, s.time + dcResponse s (d / 16))] }] ∧
      Only [.out, .cxlRest] s t) ∧
  (∀ (e : Fin 16384) (n : Nat) (s : State), Managed s → windowsOn s e.val ≠ [] → cutsOn s e.val = false →
    (∀ w ∈ windowsOn s e.val, (wdw s w.1 w.2).st = .open_) →
    ∃ t, exec (.initiateDynamicCapacityRelease e n true) s = .next t ∧ t.out.head? = some (.fm .ok []) ∧
      (∀ w ∈ windowsOn s e.val, (wdw t w.1 w.2).ordered = true ∧ (wdw t w.1 w.2).revoked = true)) ∧
  (∀ (e : Fin 16384) (n d g : Nat) (s : State), Managed s → windowsOn s e.val = [(d, g)] → cutsOn s e.val = false →
    (wdw s d g).st = .granted → (∀ o ∈ s.cxl.dcOps, o.extent ≠ e.val) → (extent s e.val).kite = none →
    ∃ t, exec (.initiateDynamicCapacityRelease e n true) s = .next t ∧ t.out = .fm .ok [] :: s.out ∧ wdw t d g = {}) ∧
  -- RELEASE_DYNAMIC_CAPACITY
  (∀ (d : Fin 64) (e : Fin 16384) (dl : Nat) (o : DcOp) (s : State), Running s → ldUp s d.val = true →
    versionOf s d.val = 3 → s.cxl.dcOps = [o] → o.extent = e.val → o.add = false → o.sent = true → o.grant = none →
    o.wait = [(d.val, dl)] → s.core.objs = [] →
    ∃ t, exec (.releaseDynamicCapacity d e) s = .next t ∧ t.out = .fm .ok [] :: .mailbox d.val 0 [] :: s.out ∧
      extent t e.val = { extent s e.val with
        shrinking := (extent s e.val).blocks.drop ((extent s e.val).blocks.length - o.blocks.length),
        shrinkAt := (extent s e.val).blocks.length - o.blocks.length,
        blocks := (extent s e.val).blocks.take ((extent s e.val).blocks.length - o.blocks.length) } ∧
      t.cxl.dcOps = [] ∧ Others extent e.val s t ∧ Only [.out, .extents, .invals, .cxlRest] s t) ∧
  -- CUT
  (∀ (e : Fin 16384) (p : Fin 4) (s : State), Running s →
    (∀ w ∈ windowsOn s e.val, w.1 / 16 = p.val → (wdw s w.1 w.2).ordered = true → (wdw s w.1 w.2).st ≠ .granted) →
    ∃ t, exec (.cut e p) s = .next t ∧
      (∀ w ∈ windowsOn s e.val, w.1 / 16 = p.val → (wdw s w.1 w.2).ordered = true → (wdw s w.1 w.2).st = .open_ →
        (wdw t w.1 w.2).st = .cut ∧ (wdw t w.1 w.2).cutting = true ∧
        (wdw t w.1 w.2).extent = (wdw s w.1 w.2).extent) ∧
      Only [.dir, .wins] s t) ∧
  (∀ (e : Fin 16384) (p : Fin 4) (d g : Nat) (s : State), Running s → windowsOn s e.val = [(d, g)] → d / 16 = p.val →
    (wdw s d g).ordered = true → (wdw s d g).st = .granted → (wdw s d g).revoked = false → (wdw s d g).extent = e.val →
    (extent s e.val).releaseAfterCut = false →
    ∃ t, exec (.cut e p) s = .next t ∧ wdw t d g = { wdw s d g with ordered := false } ∧ Only [.wins] s t) ∧
  -- CUT_COMPLETE
  (∀ (d : Fin 64) (g : Fin 32) (s : State), Running s → (wdw s d.val g.val).st = .cut →
    (wdw s d.val g.val).cutting = true → (wdw s d.val g.val).revoked = false → 2 ≤ versionOf s d.val →
    (extent s (wdw s d.val g.val).extent).releaseAfterCut = false → s.dir.lines = [] →
    (∀ o ∈ s.cxl.dcOps, o.extent ≠ (wdw s d.val g.val).extent) →
    ∃ t, exec (.cutComplete d g) s = .next t ∧ wdw t d.val g.val = {} ∧ t.pool.tethers = s.pool.tethers)

/-- MAILBOX COMMANDS COMPLETE (R342, Table 13.3): on a logical device of a link that is up at CXL 2.0 or 3.1 each
command answers the host and, but for the two that write, changes nothing else; the commands of CXL 3.1 are
unsupported below. Where the manual leaves a choice the statement rests on the model's, named in log entries 5, 6, 7,
9, 11, 41, 42, 186. -/
def Obligations.MailboxCommandsComplete : Prop :=
  -- IDENTIFY_MEMORY_DEVICE, GET_EVENT_INTERRUPT_POLICY, GET_HEALTH_INFO, UNSUPPORTED_MAILBOX_COMMAND
  (∀ (d : Fin 64) (s : State), Running s → ldUp s d.val = true → 2 ≤ versionOf s d.val →
    exec (.identifyMemoryDevice d) s = .next (said (.mailbox d.val 0 [dpaEnd s d.val]) s) ∧
    exec (.getEventInterruptPolicy d) s = .next (said (.mailbox d.val 0
      [(logDev s d.val).eventPolicy % 256, (logDev s d.val).eventPolicy / 256 % 256,
        (logDev s d.val).eventPolicy / 65536 % 256, (logDev s d.val).eventPolicy / 16777216 % 256]) s) ∧
    exec (.unsupportedMailboxCommand d) s = .next (said (.mailbox d.val 3 []) s) ∧
    (∃ h c, exec (.getHealthInfo d) s = .next (said (.mailbox d.val 0 [h, c, retiredStacks s]) s) ∧
      (h = 0 ↔ ∀ n, n < 32 → (stack s n).st = .inService) ∧ ∀ n, n < 32 → (stack s n).tempC ≤ c)) ∧
  -- GET_EVENT_RECORDS
  (∀ (d : Fin 64) (k : Fin 4) (s : State), Running s → ldUp s d.val = true → 2 ≤ versionOf s d.val →
    exec (.getEventRecords d k) s = .next (said (.mailbox d.val 0 ((eventLog s d.val k.val).flatMap
      (fun r => r.1 :: r.2.1 :: r.2.2.length :: r.2.2))) s)) ∧
  -- CLEAR_EVENT_RECORDS
  (∀ (d : Fin 64) (k : Fin 4) (hs : List Nat) (s : State), Running s → ldUp s d.val = true → 2 ≤ versionOf s d.val →
    ∃ t, exec (.clearEventRecords d k true hs) s = .next t ∧ t.out = .mailbox d.val 0 [] :: s.out ∧
      eventLog t d.val k.val = [] ∧ (∀ e j, j < 4 → (e, j) ≠ (d.val, k.val) → eventLog t e j = eventLog s e j) ∧
      Only [.out, .cxlRest] s t) ∧
  (∀ (d : Fin 64) (k : Fin 4) (hs : List Nat) (s : State), Running s → ldUp s d.val = true → 2 ≤ versionOf s d.val →
    (∀ h ∈ hs, ∃ r ∈ eventLog s d.val k.val, r.1 = h) →
    ∃ t, exec (.clearEventRecords d k false hs) s = .next t ∧ t.out = .mailbox d.val 0 [] :: s.out ∧
      (∀ r, r ∈ eventLog t d.val k.val ↔ r ∈ eventLog s d.val k.val ∧ r.1 ∉ hs) ∧
      (∀ e j, j < 4 → (e, j) ≠ (d.val, k.val) → eventLog t e j = eventLog s e j) ∧ Only [.out, .cxlRest] s t) ∧
  -- SET_EVENT_INTERRUPT_POLICY
  (∀ (d : Fin 64) (v : BitVec 32) (s : State), Running s → ldUp s d.val = true → 2 ≤ versionOf s d.val →
    v.toNat % 4 ≤ 1 → v.toNat / 256 % 4 ≤ 1 → v.toNat / 65536 % 4 ≤ 1 → v.toNat / 16777216 % 4 ≤ 1 →
    ∃ t, exec (.setEventInterruptPolicy d v) s = .next t ∧ t.out = .mailbox d.val 0 [] :: s.out ∧
      logDev t d.val = { logDev s d.val with eventPolicy := v.toNat } ∧ Others logDev d.val s t ∧
      Only [.out, .lds] s t) ∧
  -- GET_POISON_LIST
  (∀ (d : Fin 64) (s : State), Running s → ldUp s d.val = true → 2 ≤ versionOf s d.val →
    ∃ t l, exec (.getPoisonList d) s = .next t ∧ t = said (.mailbox d.val 0 l) s ∧ l.length ≤ 1024 ∧
      ∀ a ∈ l, ∃ w ∈ grantsOf s d.val, ∃ n, (n, true) ∈ s.mem.poison ∧ dpaOfLine s w.2 n = some a) ∧
  -- GET_DYNAMIC_CAPACITY_CONFIGURATION, GET_DYNAMIC_CAPACITY_EXTENT_LIST
  (∀ (d : Fin 64) (s : State), Running s → ldUp s d.val = true → versionOf s d.val = 3 →
    exec (.getDynamicCapacityConfiguration d) s = .next (said (.mailbox d.val 0 (268435456 :: dcRegions s d.val)) s) ∧
    exec (.getDynamicCapacityExtentList d) s = .next (said (.mailbox d.val 0 (dcExtents s d.val)) s)) ∧
  (∀ (d : Fin 64) (s : State), Running s → ldUp s d.val = true → versionOf s d.val = 2 →
    exec (.getDynamicCapacityConfiguration d) s = .next (said (.mailbox d.val 3 []) s) ∧
    exec (.getDynamicCapacityExtentList d) s = .next (said (.mailbox d.val 3 []) s)) ∧
  -- every mailbox command on a port at CXL 1.1
  (∀ (d : Fin 64) (s : State), Running s → versionOf s d.val = 1 →
    exec (.identifyMemoryDevice d) s = .next s ∧ exec (.getEventRecords d 0) s = .next s ∧
    exec (.clearEventRecords d 0 true []) s = .next s ∧ exec (.getEventInterruptPolicy d) s = .next s ∧
    exec (.setEventInterruptPolicy d 0) s = .next s ∧ exec (.getHealthInfo d) s = .next s ∧
    exec (.getPoisonList d) s = .next s ∧ exec (.getDynamicCapacityConfiguration d) s = .next s ∧
    exec (.getDynamicCapacityExtentList d) s = .next s ∧ exec (.unsupportedMailboxCommand d) s = .next s)

/-- FABRIC MANAGER API COMMANDS COMPLETE (R344, Table 13.5): the commands that read answer and change nothing else,
the two that set allocations and regions are unsupported, and the quality-of-service settings are written in ranges.
Where the manual leaves a choice the statement rests on the model's, named in log entries 5, 6, 7, 9, 11, 40, 41, 186,
224, 225. -/
def Obligations.FmApiCommandsComplete : Prop :=
  -- GET_LD_INFO, GET_LD_ALLOCATIONS, GET_QOS_ALLOCATED_BW, GET_QOS_BW_LIMIT
  (∀ (p : Fin 4) (s : State), Managed s →
    exec (.getLdInfo p) s = .next (said (.fmApi 0
      ((cxlPort s p.val).ldCount :: (ldsPresent s p.val).map (dpaEnd s))) s) ∧
    exec (.getLdAllocations p) s = .next (said (.fmApi 0 ((ldsPresent s p.val).flatMap (fun d =>
      (grantsOf s d).length :: (grantsOf s d).flatMap (fun w => [w.2.extent, w.2.dpaBase, w.2.size])))) s) ∧
    exec (.getQosAllocatedBw p) s = .next (said (.fmApi 0
      ((ldsPresent s p.val).map (fun d => (logDev s d).bwShare))) s) ∧
    exec (.getQosBwLimit p) s = .next (said (.fmApi 0
      ((ldsPresent s p.val).map (fun d => (logDev s d).bwLimit))) s)) ∧
  -- SET_LD_ALLOCATIONS, SET_DC_REGION_CONFIGURATION, GET_QOS_CONTROL, GET_DCD_INFO
  (∀ (s : State), Managed s →
    exec .setLdAllocations s = .next (said (.fmApi 3 []) s) ∧
    exec .setDcRegionConfiguration s = .next (said (.fmApi 3 []) s) ∧
    exec .getQosControl s = .next (said (.fmApi 0 [s.cxl.qosHigh, s.cxl.qosLow]) s) ∧
    (∃ n, exec .getDcdInfo s = .next (said (.fmApi 0 [n, 8, 268435456]) s) ∧ n ≤ 64 ∧
      (n = 0 ↔ ∀ d, d < 64 → (logDev s d).dcd = false))) ∧
  -- SET_QOS_CONTROL
  (∀ (high low : Nat) (s : State), Managed s → low ≤ high → high ≤ 100 →
    ∃ t, exec (.setQosControl high low) s = .next t ∧ t.out = .fmApi 0 [] :: s.out ∧ t.cxl.qosHigh = high ∧
      t.cxl.qosLow = low ∧ t.cxl.events = s.cxl.events ∧ Only [.out, .cxlRest] s t) ∧
  (∀ (high low : Nat) (s : State), Managed s → high < low ∨ 100 < high →
    exec (.setQosControl high low) s = .next (said (.fmApi 2 []) s)) ∧
  -- GET_QOS_STATUS
  (∀ (s : State), Managed s →
    ∃ t n, exec .getQosStatus s = .next t ∧ t = said (.fmApi 0 [n, queueOccupancy s]) s ∧ n ≤ 3 ∧
      (n = 0 ↔ queueOccupancy s < s.cxl.qosLow ∧ queueOccupancy s < s.cxl.qosHigh ∧ queueOccupancy s < 100)) ∧
  -- SET_QOS_ALLOCATED_BW
  (∀ (p : Fin 4) (k : Nat) (vs : List Nat) (s : State), Managed s → k + vs.length ≤ (cxlPort s p.val).ldCount →
    (∀ v ∈ vs, v ≤ 255) →
    ∃ t, exec (.setQosAllocatedBw p k vs) s = .next t ∧ t.out = .fmApi 0 [] :: s.out ∧
      (∀ d, logDev t d = if 16 * p.val + k ≤ d ∧ d < 16 * p.val + k + vs.length then
        { logDev s d with bwShare := vs.getD (d - (16 * p.val + k)) 0 } else logDev s d) ∧ Only [.out, .lds] s t) ∧
  -- SET_QOS_BW_LIMIT
  (∀ (p : Fin 4) (k : Nat) (vs : List Nat) (s : State), Managed s → k + vs.length ≤ (cxlPort s p.val).ldCount →
    (∀ v ∈ vs, v ≤ 255) →
    ∃ t, exec (.setQosBwLimit p k vs) s = .next t ∧ t.out = .fmApi 0 [] :: s.out ∧
      (∀ d, logDev t d = if 16 * p.val + k ≤ d ∧ d < 16 * p.val + k + vs.length then
        { logDev s d with bwLimit := vs.getD (d - (16 * p.val + k)) 0 } else logDev s d) ∧ Only [.out, .lds] s t) ∧
  -- GET_HOST_DC_REGION_CONFIGURATION, GET_DC_REGION_EXTENT_LISTS
  (∀ (d : Fin 64) (s : State), Managed s → (logDev s d.val).dcd = true →
    exec (.getHostDcRegionConfiguration d) s = .next (said (.fmApi 0 (dcRegions s d.val)) s) ∧
    exec (.getDcRegionExtentLists d) s = .next (said (.fmApi 0 (dcExtents s d.val)) s)) ∧
  (∀ (d : Fin 64) (s : State), Managed s → (logDev s d.val).dcd = false →
    exec (.getHostDcRegionConfiguration d) s = .next (said (.fmApi 2 []) s) ∧
    exec (.getDcRegionExtentLists d) s = .next (said (.fmApi 2 []) s))

/-- STACK COMMANDS COMPLETE (R352 to R355, R361, R364, R365, R374, Tables 14.5 to 14.8): refresh, temperature, parity,
patrol scrub, the controls and the tail of the error log. Where the manual leaves a choice the statement rests on the
model's, named in log entries 5, 6, 7, 9, 11, 122, 123, 125, 126, 186, 227. -/
def Obligations.StackCommandsComplete : Prop :=
  -- STACK_REFRESH
  (∀ (pc : Fin 2048) (b : Fin 16) (now : Nat) (s : State), Running s →
    ∃ t, exec (.stackRefresh pc b now) s = .next t ∧ tget none t.mem.openRows (16 * pc.val + b.val) = none ∧
      (∀ k, k ≠ 16 * pc.val + b.val → tget none t.mem.openRows k = tget none s.mem.openRows k ∧
        tget [] t.mem.acts k = tget [] s.mem.acts k) ∧
      (tget 0 s.mem.refreshStart (16 * pc.val + b.val) + refreshWindow s (pc.val / 64) ≤ max s.time now →
        tget [] t.mem.acts (16 * pc.val + b.val) = [] ∧
        tget 0 t.mem.refreshStart (16 * pc.val + b.val) ≤ max s.time now ∧
        max s.time now < tget 0 t.mem.refreshStart (16 * pc.val + b.val) + refreshWindow s (pc.val / 64)) ∧
      (max s.time now < tget 0 s.mem.refreshStart (16 * pc.val + b.val) + refreshWindow s (pc.val / 64) →
        t.mem.acts = s.mem.acts ∧ t.mem.refreshStart = s.mem.refreshStart) ∧ Only [.time, .memRest] s t) ∧
  -- STACK_TEMP_READ
  (∀ (n : Fin 32) (c : BitVec 8) (s : State), Running s →
    ∃ t, exec (.stackTempRead n c) s = .next t ∧ stack t n.val = { stack s n.val with tempC := c.toNat } ∧
      refreshWindow t n.val = (if 85 < c.toNat then 16000000 else 32000000) ∧ Others stack n.val s t ∧
      Only [.stacks] s t) ∧
  -- PARITY_ALERT
  (∀ (c : Fin 1024) (i : Fin 64) (now : Nat) (f : Nat × Nat) (s : State), Running s →
    (chan s c.val).retry[i.val]? = some f →
    ∃ t, exec (.parityAlert c i now) s = .next t ∧ chan t c.val = { chan s c.val with
        alert := some (max s.time now), failing := some f,
        repeats := if (chan s c.val).failing = some f then (chan s c.val).repeats + 1 else 0 } ∧
      Others chan c.val s t ∧ Only [.time, .memRest] s t) ∧
  -- PARITY_ALERT_CLEAR
  (∀ (c : Fin 1024) (now a : Nat) (s : State), Running s → (chan s c.val).alert = some a → (chan s c.val).repeats < 3 →
    ∃ t, exec (.parityAlertClear c now) s = .next t ∧ chan t c.val = { chan s c.val with alert := none } ∧
      cntGet t cMem 0 5 = satAdd (2 ^ 64 - 1) (cntGet s cMem 0 5) 1 ∧ cntGet t cMem 0 6 = cntGet s cMem 0 6 ∧
      Others chan c.val s t ∧ Only [.time, .cnt, .memRest] s t) ∧
  (∀ (c : Fin 1024) (now a : Nat) (s : State), Running s → (chan s c.val).alert = some a → 3 ≤ (chan s c.val).repeats →
    s.mem.errHead + 1 ≠ s.mem.errTail →
    ∃ t, exec (.parityAlertClear c now) s = .next t ∧ chan t c.val = { chan s c.val with alert := none, repeats := 0 } ∧
      (tget none t.mem.errLog s.mem.errHead.toNat).map (fun r => (r.kind, r.pc)) = some (6, 2 * c.val) ∧
      cntGet t cMem 0 5 = satAdd (2 ^ 64 - 1) (cntGet s cMem 0 5) 1 ∧
      cntGet t cMem 0 6 = satAdd (2 ^ 64 - 1) (cntGet s cMem 0 6) 1 ∧
      Others chan c.val s t ∧ Only [.time, .cnt, .memRest] s t) ∧
  -- PATROL_SCRUB_READ
  (∀ (a errs : Nat) (g : Option (BitVec 10 × BitVec 10)) (s : State), Running s → a < capacity s → tget none s.mem.merge (a / 64) = none →
    stackServes s ((storedAt s (64 * (a / 64))).1 / 64) = true →
    (stack s ((storedAt s (64 * (a / 64))).1 / 64)).selfRefresh = false →
    (stack s ((storedAt s (64 * (a / 64))).1 / 64)).failedPcs = [] → tget 0 s.mem.lineErr (a / 64) + errs = 0 →
    ∃ t, exec (.patrolScrubRead ⟨a, errs, g⟩) s = .next t ∧ SameMemory s t ∧ Only [.cnt, .memRest] s t) ∧
  (∀ (a errs : Nat) (g : Option (BitVec 10 × BitVec 10)) (s : State), Running s → a < capacity s → tget none s.mem.merge (a / 64) = none →
    stackServes s ((storedAt s (64 * (a / 64))).1 / 64) = true →
    (stack s ((storedAt s (64 * (a / 64))).1 / 64)).selfRefresh = false →
    (stack s ((storedAt s (64 * (a / 64))).1 / 64)).failedPcs = [] → isLight s (64 * (a / 64)) = false →
    tget 0 s.mem.lineErr (a / 64) + errs ≠ 0 → tget 0 s.mem.lineErr (a / 64) + errs ≤ 3 → tget false s.mem.poison (a / 64) = false →
    tget 0 s.mem.rowCe ((storedAt s (64 * (a / 64))).1 * 1048576 + rowKey (storedAt s (64 * (a / 64))).2) + 1 <
      max 1 s.mem.ceRemap →
    ∃ t, exec (.patrolScrubRead ⟨a, errs, g⟩) s = .next t ∧ tget 0 t.mem.lineErr (a / 64) = 0 ∧ SameMemory s t ∧
      cntGet t cOne 7 (2 * ((storedAt s (64 * (a / 64))).1 / 64)) =
        satAdd (2 ^ 64 - 1) (cntGet s cOne 7 (2 * ((storedAt s (64 * (a / 64))).1 / 64))) 1 ∧
      Only [.cnt, .memRest] s t) ∧
  (∀ (a errs : Nat) (g : Option (BitVec 10 × BitVec 10)) (s : State), Running s → a < capacity s → tget none s.mem.merge (a / 64) = none →
    stackServes s ((storedAt s (64 * (a / 64))).1 / 64) = true →
    (stack s ((storedAt s (64 * (a / 64))).1 / 64)).selfRefresh = false → isLight s (64 * (a / 64)) = false →
    4 ≤ tget 0 s.mem.lineErr (a / 64) + errs → tget 0 s.mem.lineErr (a / 64) + errs ≤ 5 →
    ∃ t, exec (.patrolScrubRead ⟨a, errs, g⟩) s = .next t ∧ tget false t.mem.poison (a / 64) = true) ∧
  -- an address beyond the pool
  (∀ (a errs : Nat) (g : Option (BitVec 10 × BitVec 10)) (s : State), capacity s ≤ a → exec (.patrolScrubRead ⟨a, errs, g⟩) s = .fault (.noSuchAddress a)) ∧
  -- PATROL_PERIOD_END
  (∀ (now : Nat) (s : State), Running s →
    ∃ t, exec (.patrolPeriodEnd now) s = .next t ∧ t.mem.rowCe = [] ∧
      cntGet t cMem 0 8 = satAdd (2 ^ 64 - 1) (cntGet s cMem 0 8) 1 ∧ Only [.time, .cnt, .memRest] s t) ∧
  -- SET_MEM_CTRL
  (∀ (h : BitVec 8) (a : BitVec 16) (c m : BitVec 8) (s : State), Managed s →
    ∃ t, exec (.setMemCtrl h a c m) s = .next t ∧ t.out = .fm .ok [] :: s.out ∧ t.mem.patrolHours = h.toNat ∧
      t.mem.actThreshold = a.toNat ∧ t.mem.ceRemap = c.toNat ∧ t.mem.migratePct = m.toNat ∧
      t.mem.errLog = s.mem.errLog ∧ t.mem.remap = s.mem.remap ∧ Only [.out, .memRest] s t) ∧
  -- ERR_TAIL_WRITE
  (∀ (d : BitVec 64) (s : State), Running s →
    ∃ t, exec (.errTailWrite d) s = .next t ∧ t.mem.errTail.toNat = d.toNat / 256 % 256 ∧
      t.mem.errOverflow = (s.mem.errOverflow && !(d.getLsbD 16)) ∧ t.mem.errHead = s.mem.errHead ∧
      t.mem.errLog = s.mem.errLog ∧ Only [.memRest] s t)

/-- RETIREMENT AND RE-INTERLEAVE COMMANDS COMPLETE (R368 to R373, Tables 14.4, 14.9, 14.13): states of a stack, the
move of its granules, and the copy, switch, handover and end of a re-interleave. Where the manual leaves a choice the
statement rests on the model's, named in log entries 5, 6, 7, 9, 11, 120, 121, 186, 202, 226, 229. -/
def Obligations.MigrationCommandsComplete : Prop :=
  -- RETIRE_STACK
  (∀ (n : Fin 32) (k : Nat) (m : Tbl (Option (Nat × Nat))) (s : State), Managed s → (stack s n.val).st = .inService →
    retSlot s n.val = some k → retMap s n.val = some m →
    ∃ t, exec (.retireStack n true) s = .next t ∧ t.out = .alert .stack [n.val] :: .fm .ok [] :: s.out ∧
      stack t n.val = { stack s n.val with st := .retiring, stateTime := s.time } ∧
      mig t k = { st := 1, stack := n.val, total := granulesOf s m, startTime := s.time, map := m } ∧
      Others stack n.val s t ∧ Others mig k s t ∧ Only [.out, .stacks, .memRest] s t) ∧
  (∀ (n : Fin 32) (s : State), Managed s → (stack s n.val).st = .inService →
    retSlot s n.val = none ∨ retMap s n.val = none →
    ∃ t, exec (.retireStack n true) s = .next t ∧ t.out = .alert .stack [n.val] :: .fm .ok [] :: s.out ∧
      stack t n.val = { stack s n.val with st := .degraded, stateTime := s.time } ∧ Others stack n.val s t ∧
      Only [.out, .stacks] s t) ∧
  -- STACK_FAILURE
  (∀ (n : Fin 32) (l : List (Fin 64)) (s : State), Running s →
    (stack s n.val).st = .inService ∨ (stack s n.val).st = .degraded →
    ∃ t, exec (.stackFailure n l) s = .next t ∧ t.out = .alert .stack [n.val] :: s.out ∧
      (stack t n.val).st = .failed ∧
      (∀ i, i ∈ (stack t n.val).failedPcs ↔ i ∈ (stack s n.val).failedPcs ∨ ∃ j ∈ l, j.val = i) ∧
      Others stack n.val s t ∧ Only [.out, .cnt, .stacks, .memRest] s t) ∧
  (∀ (n : Fin 32) (l : List (Fin 64)) (s : State), Running s → (stack s n.val).st = .retiring →
    ∃ t, exec (.stackFailure n l) s = .next t ∧ (stack t n.val).st = .retiring ∧
      (∀ i, i ∈ (stack t n.val).failedPcs ↔ i ∈ (stack s n.val).failedPcs ∨ ∃ j ∈ l, j.val = i) ∧
      Others stack n.val s t ∧ Only [.cnt, .stacks, .memRest] s t) ∧
  -- RETIREMENT_START
  (∀ (n : Fin 32) (k : Nat) (m : Tbl (Option (Nat × Nat))) (s : State), Running s →
    (stack s n.val).st = .degraded ∨ (stack s n.val).st = .failed → retSlot s n.val = some k →
    retMap s n.val = some m →
    ∃ t, exec (.retirementStart n) s = .next t ∧ t.out = .alert .stack [n.val] :: s.out ∧
      stack t n.val = { stack s n.val with st := .retiring, stateTime := s.time } ∧
      mig t k = { st := 1, stack := n.val, total := granulesOf s m, startTime := s.time, map := m } ∧
      Others stack n.val s t ∧ Others mig k s t ∧ Only [.out, .stacks, .memRest] s t) ∧
  -- MIGRATION_GRANULE
  (∀ (k : Fin 4) (b : Nat) (i : Fin 64) (g : Nat) (x : Nat × Nat) (s : State), Running s → (mig s k.val).st = 1 →
    tget none (mig s k.val).map b = some x → g < 8 * blockFrames (block s b) →
    i.val * 65536 + 8 * (block s b).frame + g ∉ (mig s k.val).movedSet → s.mem.merge = [] → s.mem.lineErr = [] →
    (s.mem.stk.all (fun c => c.2.failedPcs.isEmpty)) = true → (mig s k.val).moved + 1 < (mig s k.val).total →
    ∃ t, exec (.migrationGranule k b i g) s = .next t ∧ mig t k.val = { mig s k.val with
        movedSet := (i.val * 65536 + 8 * (block s b).frame + g) :: (mig s k.val).movedSet,
        moved := (mig s k.val).moved + 1 } ∧
      Others mig k.val s t ∧ SameMemory s t ∧ Only [.memRest] s t) ∧
  (∀ (k : Fin 4) (b : Nat) (i : Fin 64) (g : Nat) (x : Nat × Nat) (s : State), Running s → (mig s k.val).st = 1 →
    tget none (mig s k.val).map b = some x → g < 8 * blockFrames (block s b) →
    i.val * 65536 + 8 * (block s b).frame + g ∉ (mig s k.val).movedSet → s.mem.merge = [] → s.mem.lineErr = [] →
    (s.mem.stk.all (fun c => c.2.failedPcs.isEmpty)) = true → (mig s k.val).total ≤ (mig s k.val).moved + 1 →
    ∃ t, exec (.migrationGranule k b i g) s = .next t ∧ (mig t k.val).st = 3 ∧
      stack t (mig s k.val).stack = { stack s (mig s k.val).stack with st := .retired, stateTime := s.time } ∧
      t.out = .alert .stack [(mig s k.val).stack] :: s.out ∧
      t.fen.repair = s.fen.repair ++ [(5, (mig s k.val).stack)] ∧ Others stack (mig s k.val).stack s t ∧
      SameMemory s t) ∧
  -- REINTERLEAVE
  (∀ (e : Fin 16384) (pl : Placement) (g : Nat) (bs : List Nat) (s1 s : State), Managed s → s.mem.migs = [] →
    (extent s e.val).st = .active ∨ (extent s e.val).st = .sealed → windowIn s (extent s e.val) = false → 8 ≤ g →
    g ≤ 16 → allocBlocks (extent s e.val).blocks.length e.val (extent s e.val).light pl g s = some (bs, s1) →
    ∃ t, exec (.reinterleave e pl g) s = .next t ∧ t.out = .fm .ok [] :: s.out ∧
      mig t 4 = { st := 1, extent := e.val, total := 16384 * (extent s e.val).blocks.length, startTime := s.time,
                  targets := bs, place := pl, grainLog2 := g } ∧
      Others mig 4 s t ∧ Only [.out, .blocks, .memRest] s t) ∧
  -- REINTERLEAVE_GRANULE
  (∀ (a b : Nat) (s : State), Running s → (mig s 4).st = 1 → (mig s 4).switched = false →
    (mig s 4).moved < (mig s 4).total → (∀ k, k < 4 → (mig s k).st ≠ 1) →
    (extent s (mig s 4).extent).blocks[(mig s 4).moved / 16384]? = some a →
    (mig s 4).targets[(mig s 4).moved / 16384]? = some b → a ≠ b → s.mem.merge = [] → s.mem.lineErr = [] →
    s.mem.poison = [] → (s.mem.stk.all (fun c => c.2.failedPcs.isEmpty)) = true → s.pair.copying = false →
    ∃ t, exec .reinterleaveGranule s = .next t ∧ mig t 4 = { mig s 4 with moved := (mig s 4).moved + 1 } ∧
      (∀ i, i < 16384 → readByte t (b * blockBytes + (mig s 4).moved % 16384 * 16384 + i) =
        readByte s (a * blockBytes + (mig s 4).moved % 16384 * 16384 + i)) ∧
      SameOutside (b * blockBytes + (mig s 4).moved % 16384 * 16384) 16384 s t) ∧
  (∀ (k : Nat) (s : State), Running s → (mig s 4).st = 1 → (mig s 4).switched = false →
    (mig s 4).moved < (mig s 4).total → k < 4 → (mig s k).st = 1 →
    ∃ t, exec .reinterleaveGranule s = .next t ∧ mig t 4 = { mig s 4 with st := 2 } ∧ Only [.memRest] s t) ∧
  -- REINTERLEAVE_SWITCH
  (∀ (root : BitVec 26) (now : Nat) (s : State), Running s → (mig s 4).st = 1 → (mig s 4).switched = false →
    (mig s 4).total ≤ (mig s 4).moved → (roots s (extent s (mig s 4).extent).tenant).switchPending = false →
    ∃ t, exec (.reinterleaveSwitch root now) s = .next t ∧
      mig t 4 = { mig s 4 with switched := true, old := (extent s (mig s 4).extent).blocks } ∧
      extent t (mig s 4).extent = { extent s (mig s 4).extent with
        blocks := (mig s 4).targets, place := (mig s 4).place, grainLog2 := (mig s 4).grainLog2 } ∧
      (roots t (extent s (mig s 4).extent).tenant).switchPending = true ∧
      (roots t (extent s (mig s 4).extent).tenant).activeSel =
        !(roots s (extent s (mig s 4).extent).tenant).activeSel ∧
      Others extent (mig s 4).extent s t ∧ Others roots (extent s (mig s 4).extent).tenant s t ∧
      Only [.time, .extents, .xunits, .roots, .invals, .memRest, .e2e, .queues] s t) ∧
  -- DIRECTORY_HANDOVER
  (∀ (l n : Nat) (s : State), Running s → targetLine s l = some n → n ≠ l → (mig s 4).switched = true →
    l ∉ (mig s 4).handed → busy (line s l) = false → (line s l).queue = [] → s.mem.merge = [] →
    ∃ t, exec (.directoryHandover l) s = .next t ∧ line t n = { line s l with queue := (line s n).queue } ∧
      line t l = {} ∧ mig t 4 = { mig s 4 with handed := l :: (mig s 4).handed } ∧
      (∀ k, k ≠ l → k ≠ n → line t k = line s k) ∧ SameMemory s t ∧ Only [.dir, .memRest] s t) ∧
  -- REINTERLEAVE_COMPLETE
  (∀ (s : State), Running s → (mig s 4).st ≠ 0 → (mig s 4).switched = true → s.dir.lines = [] →
    (roots s (extent s (mig s 4).extent).tenant).switchPending = false →
    ∃ t, exec .reinterleaveComplete s = .next t ∧ mig t 4 = {} ∧
      (∀ b, block t b = if b ∈ (mig s 4).old then {} else block s b) ∧
      (∀ a, readByte t a = if a / blockBytes ∈ (mig s 4).old then 0 else readByte s a) ∧ Others mig 4 s t ∧
      Only [.bytes, .poison, .merge, .blocks, .memRest] s t)

/-- SECURITY COMMANDS COMPLETE (R377 to R387, R400 to R404, Tables 15.2, 15.3, 15.7, 15.8): evidence, release keys and
blobs, sealed loads, management sessions, release packages, board records. What a signature, a key or a decryption
answers is open, so each of those statements says what follows either answer. Where the manual leaves a choice the
statement rests on the model's, named in log entries 5, 6, 7, 9, 11, 18, 128, 130, 131, 132, 133, 134, 140, 141, 186,
201, 228, 229. -/
def Obligations.SecurityCommandsComplete : Prop :=
  -- GET_EVIDENCE
  (∀ (nonce : List Byte) (now : Nat) (r : BitVec 384) (s : State), Managed s → s.sec.identityFault = false → s.sec.ak = some r →
    ∃ t, exec (.getEvidence nonce none now) s = .next t ∧ (∃ b, t.out = .data (b ++ ownChain s) :: .fm .ok [] :: s.out ∧
        b.length = 440 ∧ leAt b 0 4 = 0x45564944 ∧ leAt b 4 2 = 1 ∧ slice b 8 48 = slice nonce 0 48 ∧
        leAt b 56 8 = max s.time now % 2 ^ 64 ∧ leAt b 80 1 = 0xB0 ∧ leAt b 81 1 = s.grade % 256 ∧
        leAt b 84 4 = s.sec.releaseLevel % 2 ^ 32 ∧ leAt b 88 48 = s.sec.fwDigest.toNat ∧
        leAt b 136 48 = s.sec.bcrDigest.toNat ∧ leAt b 184 2 = 0xFFFF ∧ leAt b 186 2 = 0xFFFF ∧
        slice b 344 96 = slice (Config.akSign r (sha384 (slice b 0 344))) 0 96) ∧
      Only [.out, .time] s t) ∧
  (∀ (nonce : List Byte) (e : Fin 16384) (now : Nat) (r : BitVec 384) (s : State), Managed s → s.sec.identityFault = false →
    s.sec.ak = some r → (extent s e.val).st = .sealedEmpty →
    ∃ t, exec (.getEvidence nonce (some e) now) s = .next t ∧ sealedOf t e.val = { sealedOf s e.val with
        releaseKey := some s.sec.nextKey, nonce := slice nonce 0 48, signedAt := max s.time now } ∧
      t.sec.nextKey = s.sec.nextKey + 1 ∧ (∃ b, t.out = .data (b ++ ownChain s) :: .fm .ok [] :: s.out ∧
        leAt b 184 2 = e.val ∧ leAt b 188 4 = 1 ∧ leAt b 192 48 = (sealedOf s e.val).ownerKey.toNat ∧
        slice b 240 97 = slice (Config.publicKey s.sec.nextKey) 0 97 ∧
        slice b 344 96 = slice (Config.akSign r (sha384 (slice b 0 344))) 0 96) ∧
      Others sealedOf e.val s t ∧ Only [.out, .time, .sealeds, .secRest] s t) ∧
  -- RELEASE_KEY_EXPIRY
  (∀ (e : Fin 16384) (now k : Nat) (s : State), Running s → (sealedOf s e.val).releaseKey = some k →
    (sealedOf s e.val).signedAt + 60000000000 ≤ max s.time now →
    ∃ t, exec (.releaseKeyExpiry e now) s = .next t ∧
      sealedOf t e.val = { sealedOf s e.val with releaseKey := none, nonce := [] } ∧ Others sealedOf e.val s t ∧
      Only [.time, .sealeds] s t) ∧
  -- RELEASE_KEY
  (∀ (b : List Byte) (now : Nat) (s : State), Managed s →
    ∃ t, exec (.releaseKey .operator b now) s = .next t ∧
      t.out = .fm (testBlob (advance now s) (leAt b 6 2) b).1 [] :: s.out ∧
      (∀ k, (testBlob (advance now s) (leAt b 6 2) b).2 = some k →
         sealedOf t (leAt b 6 2) = { sealedOf s (leAt b 6 2) with
           releaseKey := none, nonce := [], admitted := blobDigests b 224 (leAt b 56 1),
           fwAccepted := blobDigests b 992 (leAt b 57 1), contentKey := some k, packageNonce := slice b 216 8 } ∧
         (tenant t (extent s (leAt b 6 2)).tenant).contentKey = true ∧
         cntGet t cSec 0 1 = satAdd (2 ^ 64 - 1) (cntGet s cSec 0 1) 1) ∧
      ((testBlob (advance now s) (leAt b 6 2) b).2 = none → t.sec = s.sec ∧ cntGet t cSec 0 2 = satAdd (2 ^ 64 - 1) (cntGet s cSec 0 2) 1) ∧
      Others sealedOf (leAt b 6 2) s t ∧ Only [.out, .time, .cnt, .obs, .tenants, .sealeds] s t) ∧
  -- LOAD_SEALED
  (∀ (e : Fin 16384) (pva n : Nat) (key : List Byte) (s1 s : State), Managed s → (extent s e.val).st = .sealedEmpty →
    (sealedOf s e.val).contentKey = some key → n ≤ (extent s e.val).blocks.length * 65536 →
    engReady (loadActor e.val (extent s e.val).tenant) [(pva, 4096 * n + 16 * n)] s = (true, s1) →
    ∃ t, exec (.loadSealed .operator e pva n) s = .next t ∧ extent t e.val = { extent s e.val with st := .loading } ∧
      (∃ f, sealedOf t e.val = { sealedOf s e.val with loadFailed := f, pages := n } ∧ (n = 0 → f = false)) ∧
      Others extent e.val s t ∧ Others sealedOf e.val s t) ∧
  (∀ (e : Fin 16384) (pva n : Nat) (key : List Byte) (s : State), Managed s → (extent s e.val).st = .sealedEmpty →
    (sealedOf s e.val).contentKey = some key → (extent s e.val).blocks.length * 65536 < n →
    ∃ t, exec (.loadSealed .operator e pva n) s = .next t ∧ extent t e.val = { extent s e.val with st := .loading } ∧
      sealedOf t e.val = { sealedOf s e.val with loadFailed := true, pages := n } ∧ Only [.extents, .sealeds] s t) ∧
  -- LOAD_COMPLETE
  (∀ (e : Fin 16384) (s : State), Running s → (extent s e.val).st = .loading → (sealedOf s e.val).loadFailed = false →
    ∃ t, exec (.loadComplete e) s = .next t ∧ t.out = .fm .ok [] :: s.out ∧
      extent t e.val = { extent s e.val with st := .sealed } ∧
      sealedOf t e.val = { sealedOf s e.val with contentKey := none } ∧ Others extent e.val s t ∧
      Others sealedOf e.val s t ∧ Only [.out, .extents, .tenants, .sealeds] s t) ∧
  (∀ (e : Fin 16384) (s : State), Running s → (extent s e.val).st = .loading → (sealedOf s e.val).loadFailed = true →
    ∃ t, exec (.loadComplete e) s = .next t ∧ t.out.head? = some (.fm .policed []) ∧
      (extent t e.val).st = .releasing ∧ (sealedOf t e.val).contentKey = none ∧
      cntGet t cSec 0 3 = satAdd (2 ^ 64 - 1) (cntGet s cSec 0 3) 1) ∧
  -- TLS_CONNECT
  (∀ (p : Fin 2) (k : Nat) (r : Role) (d : BitVec 384) (now : Nat) (s : State), Running s → servesPort s p.val = true →
    tget none s.sec.sessions k = none → sessionCount s < 16 → servesRole s r = true →
    ∃ t, exec (.tlsConnect p k true [r] d true now) s = .next t ∧ t.out = .fm .ok [s.sec.nextSession] :: s.out ∧
      tget none t.sec.sessions s.sec.nextSession =
        some { role := some r, digest := d, start := max s.time now, last := max s.time now, port := p.val } ∧
      t.sec.nextSession = s.sec.nextSession + 1 ∧
      (∀ i, i ≠ s.sec.nextSession → tget none t.sec.sessions i = tget none s.sec.sessions i) ∧
      Only [.out, .time, .secRest] s t) ∧
  (∀ (p : Fin 2) (k : Nat) (rs : List Role) (d : BitVec 384) (w : Bool) (now : Nat) (s : State), Running s →
    servesPort s p.val = true → tget none s.sec.sessions k = none → 16 ≤ sessionCount s ∨ (w = true ∧ rs.length ≠ 1) →
    ∃ t, exec (.tlsConnect p k true rs d w now) s = .next t ∧ t.out = .fm .policed [] :: s.out ∧
      cntGet t cSec 0 6 = satAdd (2 ^ 64 - 1) (cntGet s cSec 0 6) 1 ∧ Only [.out, .time, .cnt] s t) ∧
  -- TLS_HANDSHAKE_TIMEOUT
  (∀ (k now : Nat) (x : Session) (s : State), Running s → tget none s.sec.sessions k = some x → x.role = none →
    x.start + 10000000000 ≤ max s.time now →
    ∃ t, exec (.tlsHandshakeTimeout k now) s = .next t ∧ tget none t.sec.sessions k = none ∧
      (∀ i, i ≠ k → tget none t.sec.sessions i = tget none s.sec.sessions i) ∧ Only [.time, .secRest] s t) ∧
  -- TLS_IDLE_TIMEOUT
  (∀ (k last now : Nat) (x : Session) (s : State), Running s → tget none s.sec.sessions k = some x →
    max x.last last + 600000000000 ≤ max s.time now →
    ∃ t, exec (.tlsIdleTimeout k last now) s = .next t ∧ tget none t.sec.sessions k = none ∧
      (∀ i, i ≠ k → tget none t.sec.sessions i = tget none s.sec.sessions i) ∧ Only [.time, .secRest] s t) ∧
  -- FIRMWARE_TRANSFER
  (∀ (l : BitVec 32) (d g : BitVec 384) (tg : Bool) (sig : List Byte) (now : Nat) (s : State), Managed s →
    ∃ t, exec (.firmwareTransfer .operator l d g tg sig now) s = .next t ∧
      (if pkgOk (advance now s) l.toNat d g tg sig then t.out = .fm .ok [] :: s.out ∧
         tget none t.sec.slots (1 - s.sec.selector) = some (l.toNat, d) ∧
         (∀ i, i ≠ 1 - s.sec.selector → tget none t.sec.slots i = tget none s.sec.slots i)
       else t.out = .fm .policed [] :: s.out ∧ t.sec = s.sec) ∧ Only [.out, .time, .secRest] s t) ∧
  -- FIRMWARE_ACTIVATE
  (∀ (now l : Nat) (d : BitVec 384) (s : State), Running s → s.sch.actState = 2 → s.sch.actPkg = some (l, d) →
    ∃ t, exec (.firmwareActivate true now) s = .next t ∧ t.out = .fm .ok [] :: s.out ∧ t.sec = { s.sec with
        selector := 1 - s.sec.selector, bootSlot := 1 - s.sec.selector, releaseLevel := l, fwDigest := d,
        ak := if s.sec.identityFault then none else some d,
        akCert := if s.sec.identityFault then [] else Config.akCertificate (Config.akPublic d) } ∧
      t.sch = { s.sch with
        actState := 0, actPkg := none, actPause := false,
        actLast := if s.sch.actReqTime = s.sch.actSince then Status.ok.code else s.sch.actLast } ∧
      Only [.out, .time, .obs, .schRest, .secRest] s t) ∧
  (∀ (now l : Nat) (d : BitVec 384) (s : State), Running s → s.sch.actState = 2 → s.sch.actPkg = some (l, d) →
    ∃ t, exec (.firmwareActivate false now) s = .next t ∧ t.out = .fm .policed [] :: s.out ∧ t.sec = s.sec ∧
      t.sch = { s.sch with
        actState := 0, actPkg := none, actPause := false,
        actLast := if s.sch.actReqTime = s.sch.actSince then Status.policed.code else s.sch.actLast } ∧
      Only [.out, .time, .obs, .schRest] s t) ∧
  -- INSTALL_BCR
  (∀ (b : List Byte) (g : BitVec 384) (s : State), anchorServes s = true →
    ∃ t, exec (.installBcr .custodian b g) s = .next t ∧
      (if bcrOk b g = true ∧ bcrMin s.sec.flashBcr ≤ bcrMin b then
         t.out = .fm .ok [] :: s.out ∧ t.sec = { s.sec with flashBcr := b }
       else t.out = .fm .policed [] :: s.out ∧ t.sec = s.sec) ∧ Only [.out, .secRest] s t) ∧
  -- AUTHORISE_ROLLBACK
  (∀ (l : BitVec 32) (now : Nat) (s : State), Managed s →
    ∃ t, exec (.authoriseRollback .custodian l now) s = .next t ∧ t.out = .fm .ok [] :: s.out ∧
      t.sec = { s.sec with rollback := some (l.toNat, max s.time now + 600000000000) } ∧
      Only [.out, .time, .secRest] s t) ∧
  -- a command of another role
  (∀ (r r' : Role) (b : List Byte) (e : Fin 16384) (pva n : Nat) (l : BitVec 32) (d g : BitVec 384) (tg : Bool)
      (sig : List Byte) (now : Nat) (s : State), Managed s → r ≠ .operator → r' ≠ .custodian →
    exec (.loadSealed r e pva n) s = .next (said (.fm .policed []) s) ∧
    exec (.installBcr r' b g) s = .next (said (.fm .policed []) s) ∧
    exec (.releaseKey r b now) s = .next (said (.fm .policed []) (advance now s)) ∧
    exec (.firmwareTransfer r l d g tg sig now) s = .next (said (.fm .policed []) (advance now s)) ∧
    exec (.authoriseRollback r' l now) s = .next (said (.fm .policed []) (advance now s)))

/-- TENANT COMMANDS COMPLETE (R390 to R398, Tables 15.4, 15.5, 15.10): creation, rekeying, removal, drain and scrub.
Where the manual leaves a choice the statement rests on the model's, named in log entries 5, 6, 7, 9, 11, 129, 135,
136, 137, 139, 186, 187, 228, 229. -/
def Obligations.TenantCommandsComplete : Prop :=
  -- CREATE_TENANT
  (∀ (c : Fin 1024) (m : Bool) (now : Nat) (s : State), Managed s → (tenant s c.val).st = .free →
    ∃ t, exec (.createTenant c m now) s = .next t ∧ t.out = .fm .ok [] :: s.out ∧ (tenant t c.val).st = .active ∧
      (tenant t c.val).epoch = ((tenant s c.val).epoch + 1) % 256 ∧
      slotOf (tenant t c.val) (tenant t c.val).epoch = .active ∧ (tenant t c.val).memoryOnly = m ∧
      (tenant t c.val).stateTime = max s.time now ∧
      ((roots s c.val).rootA = 0 → (roots t c.val).rootA = rootPlace s c.val false) ∧
      t.sec.nextKey = s.sec.nextKey + 2 ∧ Others tenant c.val s t ∧ Others roots c.val s t ∧
      Only [.out, .time, .tenants, .roots, .secRest] s t) ∧
  -- REKEY_TENANT
  (∀ (c : Fin 1024) (now : Nat) (s : State), Managed s → (tenant s c.val).st = .active →
    slotOf (tenant s c.val) (((tenant s c.val).epoch + 1) % 256) = .empty →
    ∃ t, exec (.rekeyTenant c now) s = .next t ∧ t.out = .fm .ok [] :: s.out ∧ (tenant t c.val).st = .rekeying ∧
      (tenant t c.val).epoch = ((tenant s c.val).epoch + 1) % 256 ∧
      slotOf (tenant t c.val) (tenant t c.val).epoch = .active ∧
      (∀ e ∈ extentsOf s c.val, extent t e = { extent s e with
        sweep := if (extent s e).st = .preparing then [] else sweepBlocks s e, swept := 0 }) ∧
      (∀ e, e ∉ extentsOf s c.val → extent t e = extent s e) ∧ Others tenant c.val s t ∧
      t.sec.nextKey = s.sec.nextKey + 2 ∧ Only [.out, .time, .extents, .tenants, .secRest] s t) ∧
  -- REKEY_SWEEP_GRANULE
  (∀ (e : Fin 16384) (s : State), Running s → (tenant s (extent s e.val).tenant).st = .rekeying →
    (extent s e.val).st ≠ .free → (extent s e.val).swept < sweepEnd (extent s e.val) →
    ∃ t, exec (.rekeySweepGranule e) s = .next t ∧
      extent t e.val = { extent s e.val with swept := (extent s e.val).swept + 1 } ∧ Others extent e.val s t ∧
      Only [.extents] s t) ∧
  -- REKEY_SWEEP_COMPLETE
  (∀ (c : Fin 1024) (now : Nat) (s : State), Running s → (tenant s c.val).st = .rekeying →
    (∀ e ∈ extentsOf s c.val, sweepEnd (extent s e) ≤ (extent s e).swept) →
    ∃ t, exec (.rekeySweepComplete c now) s = .next t ∧ (tenant t c.val).st = .active ∧
      slotOf (tenant t c.val) ((tenant s c.val).epoch + 1) = .revoking ∧
      slotOf (tenant t c.val) (tenant s c.val).epoch = slotOf (tenant s c.val) (tenant s c.val).epoch ∧
      (∀ e ∈ extentsOf s c.val, extent t e = { extent s e with sweep := [], swept := 0 } ∧
        ∀ b ∈ (extent s e).sweep, (block s b).valid = true →
          ∃ e' ∈ extentsOf s c.val, (block t b).slot = some (activeSlot s (extent s e').tenant)) ∧
      Others tenant c.val s t ∧ Only [.time, .extents, .blocks, .tenants] s t) ∧
  -- REVOKED_SLOT_EMPTY
  (∀ (c : Fin 1024) (s : State), Running s → tenantLive s c.val = true →
    slotOf (tenant s c.val) ((tenant s c.val).epoch + 1) = .revoking → oldEpochWork s c.val = false →
    ∃ t, exec (.revokedSlotEmpty c) s = .next t ∧ slotOf (tenant t c.val) ((tenant s c.val).epoch + 1) = .empty ∧
      (tenant t c.val).st = (tenant s c.val).st ∧ Others tenant c.val s t ∧ Only [.tenants] s t) ∧
  -- REMOVE_TENANT
  (∀ (c : Fin 1024) (now : Nat) (s : State), Managed s → tenantLive s c.val = true →
    ∃ t, exec (.removeTenant c now) s = .next t ∧ t.out.head? = some (.fm .ok []) ∧ (tenant t c.val).st = .revoking ∧
      (tenant t c.val).removedAt = max s.time now ∧
      (tenant t c.val).epoch = ((tenant s c.val).epoch + 1) % 256 ∧ (tenant t c.val).slotEven ≠ .active ∧
      (tenant t c.val).slotOdd ≠ .active ∧ (∀ m ∈ t.pool.members, m.2 ≠ c.val) ∧
      cntGet t cSec 0 4 = satAdd (2 ^ 64 - 1) (cntGet s cSec 0 4) 1 ∧ Others tenant c.val s t) ∧
  -- OUTSTANDING_COUNTERS_ZERO
  (∀ (c : Fin 1024) (now : Nat) (s : State), Running s → (tenant s c.val).st = .revoking →
    outstandingSum s c.val = 0 →
    ∃ t, exec (.outstandingCountersZero c now) s = .next t ∧ tenant t c.val = { tenant s c.val with
        st := .scrubbing, stateTime := max s.time now, slotEven := .empty, slotOdd := .empty, contentKey := false,
        dataEven := none, dataOdd := none, tagKey := none } ∧
      (∀ e ∈ extentsOf s c.val, (sealedOf t e).contentKey = none) ∧ Others tenant c.val s t) ∧
  -- DRAIN_ALERT_EXPIRY
  (∀ (c : Fin 1024) (now q : Nat) (s : State), Running s → (tenant s c.val).st = .revoking →
    (tenant s c.val).alerted = false → (tenant s c.val).removedAt + 10000000 ≤ max s.time now →
    allBlocks.filter (fun b => decide (outstanding s c.val b.1 b.2 ≠ 0)) = [(1, q)] →
    ∃ t, exec (.drainAlertExpiry c now) s = .next t ∧ t.out = .alert .drain [c.val, 1, q] :: s.out ∧
      tenant t c.val = { tenant s c.val with alerted := true, zeroed := (tenant s c.val).zeroed ++ [(1, q)] } ∧
      (1, q) ∈ t.fen.fencedBlocks ∧ outstanding t c.val 1 q = 0 ∧
      cntGet t cSec 0 5 = satAdd (2 ^ 64 - 1) (cntGet s cSec 0 5) 1 ∧ Others tenant c.val s t ∧
      Only [.out, .time, .cnt, .obs, .tenants, .fen] s t) ∧
  -- TENANT_SCRUB_COMPLETE
  (∀ (c : Fin 1024) (now : Nat) (s : State), Running s → (tenant s c.val).st = .scrubbing → extentsOf s c.val = [] →
    ∃ t, exec (.tenantScrubComplete c now) s = .next t ∧
      tenant t c.val = { tenant s c.val with st := .free, stateTime := max s.time now } ∧
      (∀ g ∈ groupsOf s c.val, (group t g).st = .unbound) ∧
      ((tenant s c.val).memoryOnly = false → ∀ q, q < 4 → ∀ e ∈ (xunit t q).tlb, e.tenant ≠ c.val) ∧
      Others tenant c.val s t)

/-- FENCES AND ISLANDS COMPLETE (R14 to R19, R206, R405 to R419, Tables 16.1, 16.3 to 16.9): straits, the status
lines, the anchor role, fences of cores, quadrants, optical engines and CXL ports, the repair record and the return of
an island. Where the manual leaves a choice the statement rests on the model's, named in log entries 5, 6, 7, 9, 11,
53, 54, 138, 143, 144, 145, 186, 230. -/
def Obligations.FenceCommandsComplete : Prop :=
  -- STRAIT_LOST
  (∀ (i : Fin 6) (now : Nat) (s : State), Running s → tget false s.fen.straitLost i.val = false → s.fen.anchor ≠ none →
    outside { s with fen := { s.fen with straitLost := tput false s.fen.straitLost i.val true } } = [] →
    ∃ t, exec (.straitLost i now) s = .next t ∧
      t.fen = { s.fen with straitLost := tput false s.fen.straitLost i.val true } ∧
      cntGet t cFen 0 3 = satAdd (2 ^ 64 - 1) (cntGet s cFen 0 3) 1 ∧ Only [.time, .cnt, .obs, .fen] s t) ∧
  (∀ (i : Fin 6) (now q : Nat) (s : State), Running s → tget false s.fen.straitLost i.val = false →
    s.fen.anchor ≠ none →
    q ∈ outside { s with fen := { s.fen with straitLost := tput false s.fen.straitLost i.val true } } →
    ∃ t, exec (.straitLost i now) s = .next t ∧ tget false t.fen.straitLost i.val = true ∧
      (quad t q).positionFenced = true ∧ q ∈ (quad t q).island ∧
      (∀ n, n / 40 = q → tget 0 t.fen.coreCause n =
        if tget 0 s.fen.coreCause n = 0 then 7 else tget 0 s.fen.coreCause n) ∧ t.fen.anchor = s.fen.anchor) ∧
  -- STRAIT_RESTORED
  (∀ (i : Fin 6) (now : Nat) (s : State), Running s → tget false s.fen.straitLost i.val = true →
    ∃ t, exec (.straitRestored i now) s = .next t ∧
      t.fen = { s.fen with straitLost := tput false s.fen.straitLost i.val false } ∧ Only [.time, .obs, .fen] s t) ∧
  -- FENCE_STATUS_SAMPLE
  (∀ (now a : Nat) (s : State), Running s → a < 4 → fenceCode s a = .anchor →
    ∃ t, exec (.fenceStatusSample now) s = .next t ∧
      (∀ q p, q < 4 → p < 4 → p ≠ q → tget .inService (quad t q).sampled p = fenceCode s p) ∧
      (∀ q, { quad t q with sampled := [] } = { quad s q with sampled := [] }) ∧ t.fen.anchor = s.fen.anchor ∧
      Only [.time, .fen] s t) ∧
  (∀ (now : Nat) (s : State), Running s → (∀ q, q < 4 → fenceCode s q ≠ .anchor) → mayFailOver s = false →
    ∃ t, exec (.fenceStatusSample now) s = .next t ∧ (∀ q, q < 4 → qFenced t q = true) ∧ t.fen.anchor = none ∧
      t.sec.sessions = []) ∧
  -- ANCHOR_FAILOVER
  (∀ (now : Nat) (s : State), Running s → mayFailOver s = true →
    ∃ t, exec (.anchorFailover now) s = .next t ∧ t.fen.anchor = some 2 ∧
      t.fen.anchorMoveUntil = some (max s.time now + 5000000) ∧
      cntGet t cFen 0 5 = satAdd (2 ^ 64 - 1) (cntGet s cFen 0 5) 1 ∧
      t.sec.sessions = s.sec.sessions.filter (fun c => c.2.any (fun x => x.port != 0))) ∧
  -- FENCE_CORE
  (∀ (n : Fin 160) (now : Nat) (s : State), Running s →
    ∃ t, exec (.fenceCore n 0 now) s = .next t ∧ cntGet t cFen 0 1 = satAdd (2 ^ 64 - 1) (cntGet s cFen 0 1) 1 ∧
      Only [.time, .cnt] s t) ∧
  (∀ (n : Fin 160) (c : Fin 6) (now : Nat) (s : State), Running s → c.val ≠ 0 →
    (c.val = 4 → anchorServes s = true) → tget 0 s.fen.coreCause n.val = 0 →
    ∃ t, exec (.fenceCore n c now) s = .next t ∧ (c.val = 4 → t.out = .fm .ok [] :: s.out) ∧
      tget 0 t.fen.coreCause n.val = c.val ∧ tget 0 t.fen.coreTime n.val = max s.time now ∧
      (0, n.val) ∈ t.fen.repair ∧ (coreOf t n.val).engines = (if (jobOn s n.val).isSome then [] else
        (coreOf s n.val).engines) ∧
      cntGet t cFen 0 0 = satAdd (2 ^ 64 - 1) (cntGet s cFen 0 0) 1 ∧
      (∀ k, k ≠ n.val → tget 0 t.fen.coreCause k = tget 0 s.fen.coreCause k) ∧
      Only [.out, .time, .cnt, .obs, .jobs, .cores, .fen] s t) ∧
  -- ENGINE_HOLD_EXPIRY
  (∀ (n : Fin 160) (e : Fin 5) (now : Nat) (s : State), Running s → tget [] (coreOf s n.val).engines e.val ≠ [] →
    tget 0 (coreOf s n.val).busyAt e.val + 1000000 ≤ max s.time now → tget 0 s.fen.coreCause n.val = 0 →
    ∃ t, exec (.engineHoldExpiry n e now) s = .next t ∧ tget 0 t.fen.coreCause n.val = 2 ∧
      (0, n.val) ∈ t.fen.repair ∧ (∀ k, k ≠ n.val → tget 0 t.fen.coreCause k = tget 0 s.fen.coreCause k) ∧
      Only [.time, .cnt, .obs, .jobs, .cores, .fen] s t) ∧
  -- FENCE_QUADRANT
  (∀ (q : Fin 4) (now : Nat) (s : State), Managed s → (quad s q.val).faultFenced = false →
    ∃ t, exec (.fenceQuadrant q 4 now) s = .next t ∧ t.out.head? = some (.fm .ok []) ∧
      (quad t q.val).faultFenced = true ∧ (3, q.val) ∈ t.fen.repair ∧
      (∀ n, n / 40 = q.val → tget 0 t.fen.coreCause n ≠ 0) ∧
      (∀ k, k / 8 = q.val → (stack t k).selfRefresh = true) ∧
      (∀ n, n / 16 = q.val → (port t n).st = .disabled) ∧ (cxlPort t q.val).linkState ≠ 2 ∧
      cntGet t cFen 0 2 = satAdd (2 ^ 64 - 1) (cntGet s cFen 0 2) 1) ∧
  -- FENCE_OPTICAL_ENGINE
  (∀ (e : Fin 16) (now : Nat) (s : State), Managed s → tget false s.fen.fencedOe e.val = false →
    ∃ t, exec (.fenceOpticalEngine e 4 now) s = .next t ∧ t.out.head? = some (.fm .ok []) ∧
      tget false t.fen.fencedOe e.val = true ∧ (1, e.val) ∈ t.fen.repair ∧
      (∀ n, n / 4 = e.val → (port t n).st = .disabled)) ∧
  -- FENCE_CXL_PORT
  (∀ (p : Fin 4) (now : Nat) (s : State), Managed s → tget false s.fen.fencedCxl p.val = false →
    ∃ t, exec (.fenceCxlPort p 4 now) s = .next t ∧ t.out.head? = some (.fm .ok []) ∧
      tget false t.fen.fencedCxl p.val = true ∧ (2, p.val) ∈ t.fen.repair ∧
      (cxlPort t p.val).linkState ≠ 2 ∧ (cxlPort t p.val).linkState ≠ 1) ∧
  -- UNFENCE
  (∀ (k : Fin 4) (n : Nat) (s : State), Managed s → (k.val, n) ∈ s.fen.repair →
    ∃ t, exec (.unfence k n) s = .next t ∧ t.out = .fm .ok [] :: s.out ∧ (k.val, n) ∈ t.fen.unfenced ∧
      { t.fen with unfenced := [] } = { s.fen with unfenced := [] } ∧ Only [.out, .fen] s t) ∧
  -- ISLAND_REJOIN
  (∀ (q : Fin 4) (now : Nat) (s : State), Running s → (quad s q.val).positionFenced = true → s.fen.anchor ≠ none →
    (quad s q.val).island ≠ [] → (∀ p ∈ (quad s q.val).island, p ∈ straitReach s ((anchorSeat s).getD 0)) →
    ∃ t, exec (.islandRejoin q now) s = .next t ∧ t.out.head? = some (.fm .ok []) ∧
      (∀ p ∈ (quad s q.val).island, (quad t p).positionFenced = false ∧ (quad t p).island = []) ∧
      (∀ n, n / 40 ∈ (quad s q.val).island → tget 0 t.fen.coreCause n =
        if tget 0 s.fen.coreCause n = 7 then 0 else tget 0 s.fen.coreCause n) ∧
      (2 ∈ (quad s q.val).island → t.fen.spareLost = false) ∧
      (∀ x ∈ s.fen.lostLines, ∀ a ∈ x.2, homeOf s a ∈ (quad s q.val).island →
        tget false t.mem.poison (a / 64) = true))

/-- THE STATES OF A PAIR (R420 to R425, R431, Tables 16.4, 16.5): enabling, leading, re-silvering, the interlock, the
hold-offs, the output gate and a take-over. Where the manual leaves a choice the statement rests on the model's, named
in log entries 5, 6, 7, 9, 11, 147, 148, 153, 154, 157, 161, 186, 228. -/
def Obligations.PairCommandsComplete : Prop :=
  -- PAIR_ENABLE
  (∀ (g0 g1 g2 g3 : Fin 4096) (s : State), Managed s → s.pair.st = .solo → s.sec.pairCapable = true →
    pairPortsOk s = true →
    ∃ t, exec (.pairEnable g0 g1 g2 g3 s.sec.fwDigest true s.sec.partnerSerial ownSerial (!s.sec.side)) s = .next t ∧
      t.out.head? = some (.fm .ok []) ∧ t.pair.st = .waiting ∧ t.pair.enable = true ∧
      tget 0 t.pair.groups 0 = g0.val ∧ tget 0 t.pair.groups 1 = g1.val ∧ tget 0 t.pair.groups 2 = g2.val ∧
      tget 0 t.pair.groups 3 = g3.val ∧ t.pair.stateTime = s.time ∧ (∀ p, p < 4 → (cxlPort t p).linkState ≠ 2)) ∧
  (∀ (g0 g1 g2 g3 : Fin 4096) (s : State), Managed s → s.pair.st ≠ .solo →
    exec (.pairEnable g0 g1 g2 g3 s.sec.fwDigest true s.sec.partnerSerial ownSerial (!s.sec.side)) s =
      .next (said (.fm .conflict []) s)) ∧
  -- PAIR_DISABLE
  (∀ (s : State), Managed s →
    ∃ t, exec .pairDisable s = .next t ∧ t.out.head? = some (.fm .ok []) ∧ t.pair.st = .solo ∧
      t.pair.enable = false ∧ t.pair.inputs = [] ∧ t.pair.recs = [] ∧ t.pair.dirty = [] ∧ t.pair.copying = false) ∧
  -- PAIR_LEAD
  (∀ (now : Nat) (s : State), Managed s → s.pair.st = .waiting →
    ∃ t, exec (.pairLead now) s = .next t ∧ t.out = .fm .ok [] :: s.out ∧ t.pair = { s.pair with lead := true } ∧
      Only [.out, .time, .pair] s t) ∧
  (∀ (now : Nat) (s : State), Managed s → s.pair.st = .passive ∨ s.pair.st = .suspect → s.pair.partner = .absent →
    ∃ t, exec (.pairLead now) s = .next t ∧ t.out.head? = some (.fm .ok []) ∧ t.pair.st = .active ∧
      t.pair.inputs = [] ∧ t.pair.recs = [] ∧ t.e2e.quietUntil ≠ none) ∧
  -- PAIR_RESILVER
  (∀ (now : Nat) (s : State), Managed s →
    s.pair.st = .standbySync ∨ s.pair.st = .suspect ∨ s.pair.st = .passive → s.pair.partner = .hz4096 →
    ∃ t, exec (.pairResilver now) s = .next t ∧ t.out.head? = some (.fm .ok []) ∧ t.pair.st = .standbySync ∧
      t.pair.mark = 0 ∧ t.pair.applied = 0 ∧ t.pair.recs = []) ∧
  -- INTERLOCK_CLASSIFY
  (∀ (x : Pattern) (now : Nat) (s : State), Running s →
    ∃ t, exec (.interlockClassify x true now) s = .next t ∧
      t.pair = { s.pair with ownOk := decide (x = drives s.pair.st) && decide (x ≠ .absent) } ∧
      Only [.time, .pair] s t) ∧
  (∀ (now : Nat) (s : State), Running s →
    ∃ t, exec (.interlockClassify .hz1024 false now) s = .next t ∧ t.pair = { s.pair with partner := .hz1024 } ∧
      Only [.time, .pair] s t) ∧
  (∀ (now : Nat) (s : State), Running s → s.pair.st = .active →
    ∃ t, exec (.interlockClassify .hz4096 false now) s = .next t ∧ t.pair.partner = .hz4096 ∧
      t.pair.partnerActiveAt = max s.time now ∧ t.pair.st = .passive ∧ t.pair.gateOpen = false ∧
      (∀ p, p < 4 → (cxlPort t p).linkState ≠ 2) ∧
      cntGet t cPair 0 6 = satAdd (2 ^ 64 - 1) (cntGet s cPair 0 6) 1) ∧
  (∀ (now : Nat) (s : State), Running s → s.pair.st = .waiting → pairUp s = true →
    ∃ t, exec (.interlockClassify .hz4096 false now) s = .next t ∧ t.pair.partner = .hz4096 ∧
      t.pair.st = .standbySync ∧ t.pair.applied = 0 ∧ t.pair.mark = s.pair.mark) ∧
  -- INTERLOCK_ABSENT
  (∀ (now : Nat) (s : State), Running s → s.pair.st = .standby → s.pair.lastRecv + 10000000 ≤ max s.time now →
    ∃ t, exec (.interlockAbsent now) s = .next t ∧ t.pair.partner = .absent ∧ t.pair.st = .active ∧
      t.pair.inputs = [] ∧ t.e2e.quietUntil ≠ none ∧
      cntGet t cPair 0 5 = satAdd (2 ^ 64 - 1) (cntGet s cPair 0 5) 1) ∧
  (∀ (now : Nat) (s : State), Running s → s.pair.st = .standby → max s.time now < s.pair.lastRecv + 10000000 →
    ∃ t, exec (.interlockAbsent now) s = .next t ∧ t.pair = { s.pair with partner := .absent, intlkFault := true } ∧
      Only [.time, .pair] s t) ∧
  -- OWN_READBACK_ABSENT
  (∀ (now : Nat) (s : State), Running s → s.pair.st ≠ .solo →
    ∃ t, exec (.ownReadbackAbsent now) s = .next t ∧ t.pair.ownOk = false ∧ t.pair.gateOpen = false ∧
      t.pair.st = (if s.pair.st = .active then .passive else s.pair.st) ∧
      cntGet t cPair 0 7 = satAdd (2 ^ 64 - 1) (cntGet s cPair 0 7) 1) ∧
  -- WAITING_HOLDOFF_EXPIRY
  (∀ (now : Nat) (s : State), Running s → s.pair.st = .waiting → s.pair.partner ≠ .hz4096 →
    s.pair.memoryCurrent = true ∨ s.pair.lead = true →
    max s.pair.stateTime s.pair.partnerActiveAt + (if s.sec.side then 20000000 else 10000000) ≤ max s.time now →
    ∃ t, exec (.waitingHoldoffExpiry now) s = .next t ∧ t.pair.st = .active ∧ t.pair.gateOpen = false ∧
      t.pair.stateTime = max s.time now ∧ t.pair.driveActive = max s.time now ∧ t.pair.sent = 0 ∧
      Only [.time, .obs, .pair] s t) ∧
  -- OUTPUT_GATE_HOLD_EXPIRY
  (∀ (now : Nat) (s : State), Running s → s.pair.st = .active → s.pair.gateOpen = false →
    s.pair.driveActive + 1000000 ≤ max s.time now →
    ∃ t, exec (.outputGateHoldExpiry now) s = .next t ∧ t.pair.gateOpen = true ∧ t.pair.st = .active) ∧
  -- ORDER_RECORD_SILENCE
  (∀ (now : Nat) (s : State), Running s → s.pair.st = .standby → s.pair.lastRecv + 10000000 ≤ max s.time now →
    s.pair.partner = .hz4096 →
    ∃ t, exec (.orderRecordSilence now) s = .next t ∧ t.pair.st = .passive ∧ Only [.time, .obs, .pair] s t) ∧
  (∀ (now : Nat) (s : State), Running s → s.pair.st = .standby → s.pair.lastRecv + 10000000 ≤ max s.time now →
    s.pair.partner = .absent →
    ∃ t, exec (.orderRecordSilence now) s = .next t ∧ t.pair.st = .active ∧ t.pair.inputs = [] ∧
      t.e2e.quietUntil ≠ none)

/-- ORDER STREAM AND RE-SILVERING COMPLETE (R426 to R430, R432 to R434, R447, R448): records, acknowledgements,
inputs, digests and line repair, and the granules and the snapshot that bring a standby into step. Where the manual
leaves a choice the statement rests on the model's, named in log entries 5, 6, 7, 9, 11, 149, 150, 151, 152, 155, 156,
158, 159, 160, 162, 186. -/
def Obligations.ResilverCommandsComplete : Prop :=
  -- EMPTY_ORDER_RECORD_TIMER
  (∀ (now : Nat) (s : State), Running s → s.pair.st = .active → s.pair.follower ≠ 0 →
    s.pair.lastSent + 10000 ≤ max s.time now →
    ∃ t, exec (.emptyOrderRecordTimer now) s = .next t ∧ t.pair.sent = s.pair.sent + 1 ∧
      t.pair.lastSent = max s.time now ∧ cntGet t cPair 0 0 = satAdd (2 ^ 64 - 1) (cntGet s cPair 0 0) 1) ∧
  -- ORDER
  (∀ (n : Fin 64) (p : Packet) (tm l : Nat) (d : List Byte) (s : State), Running s →
    PairPasses n.val p 0x50 s = true → s.pair.st = .standby → s.pair.recs = [] → s.mem.migs = [] →
    (s.mem.stk.all (fun c => c.2.failedPcs.isEmpty)) = true →
    ∃ t, exec (.order n p (s.pair.applied + 1) [(tm, .line l d)]) s = .next t ∧
      t.pair.applied = s.pair.applied + 1 ∧ t.pair.recs = [] ∧ t.pair.lastRecv = s.time ∧ t.time = max s.time tm ∧
      (∀ i, i < 64 → readByte t (64 * l + i) = byteAt d i) ∧ SameOutside (64 * l) 64 s t ∧
      cntGet t cPair 0 0 = satAdd (2 ^ 64 - 1) (cntGet s cPair 0 0) 1) ∧
  -- ORDERACK
  (∀ (n : Fin 64) (p : Packet) (s : State), Running s → PairPasses n.val p 0x51 s = true → s.pair.st = .active →
    p.arg0.toNat ≠ 0 → s.pair.snapshotAt = none → s.pair.early = [] →
    ∃ t, exec (.orderack n p) s = .next t ∧ t.pair.acked = min s.pair.sent (max s.pair.acked p.arg0.toNat) ∧
      (∀ x ∈ t.pair.kept, t.pair.acked < x.1) ∧
      (∀ x ∈ t.pair.held, s.pair.follower ≠ 0 ∧ t.pair.acked < x.1)) ∧
  (∀ (n : Fin 64) (p : Packet) (s : State), Running s → PairPasses n.val p 0x51 s = true → s.pair.st = .active →
    s.pair.partner = .hz1024 → p.arg0 = 0 → leAt p.payload 8 8 = 0 →
    ∃ t, exec (.orderack n p) s = .next t ∧ t.pair.follower = 1 ∧ t.pair.copying = true ∧
      t.pair.mark = leAt p.payload 0 8 ∧ t.pair.inTransit = [] ∧ t.pair.units = []) ∧
  (∀ (n : Fin 64) (p : Packet) (r : Nat) (s : State), Running s → PairPasses n.val p 0x51 s = true →
    s.pair.st = .active → s.pair.snapshotAt = some r → r ≤ min s.pair.sent (max s.pair.acked p.arg0.toNat) →
    leAt p.payload 8 8 ≠ 0 → s.pair.early = [] →
    ∃ t, exec (.orderack n p) s = .next t ∧ t.pair.follower = 2 ∧ t.pair.snapshotAt = none ∧
      t.pair.copying = false) ∧
  -- DIGEST
  (∀ (n : Fin 64) (p : Packet) (ls : List Nat) (bad : Bool) (u : DigestUnit) (s : State), Running s →
    PairPasses n.val p 0x52 s = true → s.pair.st = .active → s.pair.follower = 2 → s.pair.units = [u] →
    u.q = leAt p.payload 0 8 → u.unit = leAt p.payload 8 8 → u.crc = leAt p.payload 16 8 → s.que.unverified = [] →
    ∃ t, exec (.digest n p ls bad) s = .next t ∧ t.pair.units = [] ∧ t.pair.follower = 2 ∧
      t.pair.digestLagNs = min 65535 (s.time - u.time) ∧
      cntGet t cPair 0 1 = satAdd (2 ^ 64 - 1) (cntGet s cPair 0 1) 1) ∧
  (∀ (n : Fin 64) (p : Packet) (ls : List Nat) (u : DigestUnit) (s : State), Running s →
    PairPasses n.val p 0x52 s = true → s.pair.st = .active → s.pair.follower = 2 → s.pair.units = [u] →
    u.q = leAt p.payload 0 8 → u.unit = leAt p.payload 8 8 → u.crc ≠ leAt p.payload 16 8 → ownBad s ls = false →
    s.que.unverified = [] →
    ∃ t, exec (.digest n p ls false) s = .next t ∧ t.pair.follower = 3 ∧ t.pair.units = [] ∧
      .alert .pairMismatch [u.q, u.unit] ∈ t.out ∧ (u.q, u.unit) ∈ t.pair.failed ∧
      cntGet t cPair 0 3 = satAdd (2 ^ 64 - 1) (cntGet s cPair 0 3) 1) ∧
  -- DIGEST_LATE
  (∀ (now : Nat) (s : State), Running s → s.pair.st = .active → s.pair.follower = 2 → s.pair.early = [] →
    s.que.unverified = [] →
    s.pair.units.any (fun u => decide (u.time + 100000 < max s.time now)) = true →
    ∃ t, exec (.digestLate now) s = .next t ∧ t.pair.follower = 3 ∧ t.pair.units = [] ∧
      t.pair.sent = s.pair.sent + 1) ∧
  -- INPUTFETCH
  (∀ (n : Fin 64) (p : Packet) (q : Nat) (k : Nat × Packet) (s : State), Running s → PairPasses n.val p 0x53 s = true →
    s.pair.st = .active → s.pair.kept = [k] → pairLink s = some q →
    isInput (p.arg0.toNat / 2 ^ 24 % 2 ^ 16) (p.arg0.toNat / 2 ^ 40 % 8) (p.arg0.toNat % 2 ^ 24) k.2 = true →
    ∃ t, exec (.inputfetch n p) s = .next t ∧
      ∃ c, sendCtx t { q := q, other := 65536 + b2n (!s.sec.side), vc := 4 } = some c ∧
        ∃ x ∈ c.pkts.map (·.pkt) ++ c.waiting, x.typ = 0x54 ∧ x.arg0 = p.arg0 ∧
          x.payload = headerBytes k.2 ++ k.2.payload) ∧
  -- INPUTDATA
  (∀ (n : Fin 64) (p x : Packet) (m : Fin 64) (s : State), Running s → PairPasses n.val p 0x54 s = true →
    s.pair.st = .standby ∨ s.pair.st = .standbySync → s.pair.recs = [] →
    s.pair.inputs.any (fun y => y.2.src == x.src && y.2.vc == x.vc && y.2.seq == x.seq) = false →
    ∃ t, exec (.inputdata n p x m) s = .next t ∧ t.pair.inputs = s.pair.inputs ++ [(m.val, x)] ∧
      t.pair.applied = s.pair.applied ∧ SameMemory s t) ∧
  -- LINEREPAIR
  (∀ (n : Fin 64) (p : Packet) (s : State), Running s → PairPasses n.val p 0x57 s = true → p.payload.length = 64 →
    p.arg0.toNat / 64 < gradeBlocks s.grade * 4194304 → tget false s.mem.poison (p.arg0.toNat / 64) = true →
    s.mem.migs = [] → (s.mem.stk.all (fun c => c.2.failedPcs.isEmpty)) = true →
    ∃ t, exec (.linerepair n p) s = .next t ∧ tget false t.mem.poison (p.arg0.toNat / 64) = false ∧
      (∀ i, i < 64 → readByte t (p.arg0.toNat / 64 * 64 + i) = byteAt p.payload i) ∧
      SameOutside (p.arg0.toNat / 64 * 64) 64 s t) ∧
  -- RESILVER_GRANULE_SEND
  (∀ (now g : Nat) (s : State), Running s → s.pair.st = .active → s.pair.follower = 1 → s.pair.copying = true →
    s.pair.snapshotDue = false → s.pair.dirty = [] → nextGranule s s.pair.mark = some g → s.mem.merge = [] →
    s.mem.lineErr = [] → s.mem.poison = [] → s.mem.tags = [] → (s.mem.stk.all (fun c => c.2.failedPcs.isEmpty)) = true →
    ∃ t, exec (.resilverGranuleSend now) s = .next t ∧ t.pair.mark = g + 1 ∧
      t.pair.inTransit = s.pair.inTransit ++ [g] ∧ SameMemory s t) ∧
  -- RESILVERDATA
  (∀ (n : Fin 64) (p : Packet) (s : State), Running s → PairPasses n.val p 0x55 s = true → s.pair.st = .standbySync →
    p.payload.length = 4096 → p.arg0.toNat / 16384 < gradeBlocks s.grade * 16384 → s.pair.chunks = [] →
    s.mem.migs = [] → (s.mem.stk.all (fun c => c.2.failedPcs.isEmpty)) = true →
    ∃ t, exec (.resilverdata n p) s = .next t ∧
      t.pair.chunks = [(p.arg0.toNat / 16384, p.arg1.toNat % 4)] ∧
      (∀ i, i < 4096 → readByte t (p.arg0.toNat / 16384 * 16384 + p.arg1.toNat % 4 * 4096 + i) =
        byteAt p.payload i) ∧
      SameOutside (p.arg0.toNat / 16384 * 16384 + p.arg1.toNat % 4 * 4096) 4096 s t) ∧
  -- RESILVER_COPY_END
  (∀ (now : Nat) (s : State), Running s → s.pair.st = .active → s.pair.follower = 1 → s.pair.copying = true →
    s.pair.dirty = [] → s.pair.inTransit = [] → s.pair.snapshotAt = none → nextGranule s s.pair.mark = none →
    runningJobs s = [] →
    ∃ t, exec (.resilverCopyEnd now) s = .next t ∧ t.pair.sent = s.pair.sent + 1 ∧
      t.pair.snapshotAt = some t.pair.sent ∧ t.pair.copying = false ∧ t.pair.snapshotDue = false ∧
      ∃ x, t.out.head? = some (.snapshot x) ∧ x.pool = s.pool ∧ x.que = s.que ∧ x.tenants = s.sec.tenants) ∧
  -- RESILVERSTATE
  (∀ (n : Fin 64) (p : Packet) (x : Snapshot) (tm : Nat) (s : State), Running s → PairPasses n.val p 0x56 s = true →
    s.pair.st = .standbySync → s.pair.recs = [(s.pair.applied + 1, tm, .snapshot)] →
    ∃ t, exec (.resilverstate n p x) s = .next t ∧ t.pair.st = .standby ∧ t.pair.applied = s.pair.applied + 1 ∧
      t.pool = x.pool ∧ t.que = x.que ∧ t.nm = x.nm ∧ t.xlt.roots = x.roots ∧ t.core.objs = x.objs ∧
      t.core.serials = x.serials ∧ ∀ a, tagBase s ≤ a ∨ readByte t a = readByte s a)

/-- CLOCKS AND THE ALWAYS-ON DOMAIN COMPLETE (R436 to R442, R498, R501 to R503, Tables 17.1 to 17.3): PLLs, dividers,
gates, the oscillator, hours, rails, the trip, the wake, the connectors and the regulator. Where the manual leaves a
choice the statement rests on the model's, named in log entries 5, 6, 7, 9, 11, 164, 165, 166, 167, 171, 172, 179,
186, 232. -/
def Obligations.ClockCommandsComplete : Prop :=
  -- PLL_LOCK
  (∀ (q : Fin 4) (now : Nat) (s : State), Running s →
    ∃ t, exec (.pllLock q now) s = .next t ∧
      qclock t q.val = { qclock s q.val with pllLock := true, divUncore := 32, divControl := 32 } ∧
      pwrq t q.val = { pwrq s q.val with divider := 32, voltMv := opMv (opTarget (pwrq s q.val)) } ∧
      t.clk.refPresent = true ∧ Others qclock q.val s t ∧ Others pwrq q.val s t ∧ Only [.time, .power, .clk] s t) ∧
  -- PLL_LOCK_LOSS
  (∀ (q : Fin 4) (now : Nat) (s : State), Running s →
    ∃ t, exec (.pllLockLoss q now) s = .next t ∧ (qclock t q.val).pllLock = false ∧ (quad t q.val).faultFenced = true ∧
      ((quad s q.val).faultFenced = false → (3, q.val) ∈ t.fen.repair)) ∧
  -- REFCLK_LOSS
  (∀ (now : Nat) (s : State), Running s →
    ∃ t, exec (.refclkLoss now) s = .next t ∧ t.clk.refPresent = false ∧ t.fen.anchor = none ∧ t.sec.sessions = [] ∧
      (∀ q, q < 4 → (qclock t q).pllLock = false ∧ qFenced t q = true)) ∧
  -- DIVIDER_STEP
  (∀ (q : Fin 4) (now : Nat) (s : State), Running s → (qclock s q.val).pllLock = true →
    ∃ t, exec (.dividerStep q now) s = .next t ∧ qclock t q.val = { qclock s q.val with
        divUncore := max 8 ((qclock s q.val).divUncore - 1), divControl := max 16 ((qclock s q.val).divControl - 1) } ∧
      (opDivider (opTarget (pwrq s q.val)) < (pwrq s q.val).divider → pwrq t q.val = vfMove (pwrq s q.val)) ∧
      Others qclock q.val s t ∧ Others pwrq q.val s t ∧ Only [.time, .power, .clk] s t) ∧
  -- GATE_CLOSE_REQUEST
  (∀ (q : Fin 4) (g : Fin 64) (idle : Bool) (s : State), Running s →
    (∀ h ∈ allGates, gateParent h = some g.val → gateClosed s q.val h = true) → gateIdle s q.val g.val idle = true →
    ∃ t, exec (.gateCloseRequest q g idle) s = .next t ∧ gateClosed t q.val g.val = true ∧
      (∀ h, h ≠ g.val → gateClosed t q.val h = gateClosed s q.val h) ∧ Others qclock q.val s t ∧
      t.clk.gateRefused = s.clk.gateRefused ∧ Only [.clk] s t) ∧
  (∀ (q : Fin 4) (g : Fin 64) (idle : Bool) (h : Nat) (s : State), Running s → h ∈ allGates →
    gateParent h = some g.val → gateClosed s q.val h = false →
    ∃ t, exec (.gateCloseRequest q g idle) s = .next t ∧ t.clk.gateRefused = satAdd 0xFFFFFFFF s.clk.gateRefused 1 ∧
      t.clk.q = s.clk.q ∧ Only [.clk] s t) ∧
  -- GATE_OPEN
  (∀ (q : Fin 4) (g : Fin 64) (s : State), Running s →
    ∃ t, exec (.gateOpen q g) s = .next t ∧
      (∀ h, gateClosed t q.val h = (gateClosed s q.val h && !((gatePath g.val).contains h))) ∧
      Others qclock q.val s t ∧ Only [.clk] s t) ∧
  -- AON_OSCILLATOR_STABLE
  (∀ (s : State), s.clk.aonOscOk = false → s.clk.phase ≠ .dead → s.clk.aonClkLost = false →
    ∃ t, exec .aonOscillatorStable s = .next t ∧ t.clk = { s.clk with
        aonOscOk := true, operatingHours := s.clk.flashHours, powerCycles := s.clk.flashCycles, aonTicks := 0,
        tickAt := s.time } ∧ Only [.clk] s t) ∧
  -- AON_OSCILLATOR_TIMEOUT
  (∀ (s : State), s.clk.aonOscOk = false → s.clk.phase = .inReset ∨ s.clk.phase = .starting →
    ∃ t, exec .aonOscillatorTimeout s = .next t ∧ t.clk = { s.clk with phase := .dead } ∧ Only [.clk] s t) ∧
  -- AON_CLK_LOST
  (∀ (now : Nat) (s : State), Running s → s.clk.aonOscOk = true →
    ∃ t, exec (.aonClkLost now) s = .next t ∧ t.clk.aonClkLost = true ∧ t.clk.aonOscOk = false ∧
      (s.pair.st ≠ .solo → t.pair.gateOpen = false ∧ t.pair.ownOk = false)) ∧
  -- OPERATING_HOUR_TICK
  (∀ (s : State), s.clk.aonOscOk = true → railGone s 0 = false →
    ∃ t, exec .operatingHourTick s = .next t ∧
      t.clk.operatingHours = satAdd 0xFFFFFFFF s.clk.operatingHours 1 ∧
      t.clk.flashHours = t.clk.operatingHours ∧ t.clk.flashCycles = s.clk.powerCycles ∧
      t.clk.phase = s.clk.phase ∧ Only [.clk] s t) ∧
  -- OVER_TEMPERATURE_TRIP
  (∀ (now : Nat) (s : State), Running s →
    ∃ t, exec (.overTemperatureTrip now) s = .next t ∧ t.out.head? = some (.pin 1 true) ∧ t.clk.phase = .tripped ∧
      t.clk.thermTrip = true ∧ t.clk.tripped = true ∧ t.clk.cmpOvertemp = true ∧ t.clk.coldNext = true ∧
      t.sec.sessions = [] ∧ (∀ n, n < 64 → (port t n).st = .disabled) ∧ t.mem = s.mem) ∧
  -- SUPPLY_LOSS
  (∀ (now : Nat) (s : State), Running s →
    ∃ t, exec (.supplyLoss 0 now) s = .next t ∧ t.clk.phase = .inReset ∧ t.clk.resetCold = true ∧
      t.clk.lastCause = .coreRails ∧ railGone t 0 = true ∧ t.clk.cmpSupply = false ∧ t.clk.supplyLost = true ∧
      t.clk.flashHours = s.clk.operatingHours ∧ t.mem.bytes = [] ∧ t.que.queues = [] ∧ t.sec.tenants = []) ∧
  (∀ (now : Nat) (s : State), s.clk.phase = .dormant →
    ∃ t, exec (.supplyLoss 1 now) s = .next t ∧ t.clk.phase = .dormant ∧ t.clk.coldNext = true ∧
      t.clk.memoryKept = false ∧ railGone t 1 = true ∧ Only [.time, .clk] s t) ∧
  -- SUPPLY_RETURN
  (∀ (ticks : Nat) (s : State), railGone s 1 = true → s.clk.wakePending = false →
    ∃ t, exec (.supplyReturn 1 ticks) s = .next t ∧ railGone t 1 = false ∧
      t.clk.cmpSupply = (!(railGone s 0) && !(railGone s 2)) ∧ t.clk.phase = s.clk.phase ∧ Only [.clk] s t) ∧
  (∀ (ticks : Nat) (s : State), railGone s 0 = true → s.clk.wakePending = false → s.clk.phase = .inReset →
    ∃ t, exec (.supplyReturn 0 ticks) s = .next t ∧ railGone t 0 = false ∧
      t.clk.powerCycles = satAdd 0xFFFFFFFF s.clk.powerCycles 1 ∧ t.clk.phase = .inReset ∧ t.clk.resetCold = true) ∧
  -- WAKE_N
  (∀ (ticks : Nat) (s : State), s.clk.phase = .dormant → railGone s 0 = false → railGone s 2 = false →
    s.clk.coldNext = false →
    ∃ t, exec (.wakeN true ticks) s = .next t ∧ t.out = .pin 2 false :: s.out ∧ t.clk.phase = .starting ∧
      t.clk.resetCold = false ∧ t.clk.lastCause = .wakeN ∧ t.clk.dormantN = false ∧ t.clk.cmpWake = true ∧
      t.time = s.clk.holdTime + (max ticks s.clk.holdTicks - s.clk.holdTicks) * 1000000000 / 32768 ∧
      Only [.out, .time, .clk] s t) ∧
  (∀ (ticks : Nat) (s : State),
    ∃ t, exec (.wakeN false ticks) s = .next t ∧ t.clk = { s.clk with cmpWake := false } ∧ Only [.clk] s t) ∧
  -- FA_PRESENCE_CHANGE
  (∀ (e : Fin 16) (m : Bool) (s : State),
    ∃ t, exec (.faPresenceChange e m) s = .next t ∧ tget false t.clk.faPresent e.val = m ∧
      t.out = (if lsrcEn t e.val = lsrcEn s e.val then s.out else .pin (16 + e.val) (lsrcEn t e.val) :: s.out) ∧
      (∀ k, k ≠ e.val → tget false t.clk.faPresent k = tget false s.clk.faPresent k) ∧ Only [.out, .clk] s t) ∧
  -- AVS_TIMEOUT
  (∀ (q : Fin 4) (now : Nat) (s : State), Running s → (quad s q.val).faultFenced = false →
    ∃ t, exec (.avsTimeout q now) s = .next t ∧ (quad t q.val).faultFenced = true ∧ (3, q.val) ∈ t.fen.repair)

/-- RESETS, START-UP AND DORMANCY COMPLETE (R347, R366, R377, R443 to R454, Tables 17.4 to 17.11). Where the manual
leaves a choice the statement rests on the model's, named in log entries 5, 6, 7, 9, 11, 163, 168, 170, 171, 173, 174,
175, 176, 178, 186, 231, 234. -/
def Obligations.ResetCommandsComplete : Prop :=
  -- COLD_RESET
  (∀ (c : Fin 4) (now : Nat) (s : State), s.clk.phase ≠ .tripped → s.clk.phase ≠ .dead → s.sch.actState = 0 →
    ∃ t, exec (.coldReset c now) s = .next t ∧ t.clk.phase = .inReset ∧ t.clk.resetCold = true ∧
      t.clk.lastCause = coldCause c.val ∧ t.mem.bytes = [] ∧ t.mem.poison = [] ∧ t.pool = State.reset.pool ∧
      t.que = State.reset.que ∧ t.core = State.reset.core ∧ t.cxl = State.reset.cxl ∧ t.sec.tenants = [] ∧
      t.sec.slots = s.sec.slots ∧ t.sec.flashBcr = s.sec.flashBcr ∧ t.mem.remap = s.mem.remap ∧
      t.fen.repair = s.fen.repair ∧ t.clk.operatingHours = s.clk.operatingHours ∧
      (s.obs.clearing = false → t.obs.log = s.obs.log) ∧ t.out = s.out) ∧
  -- RESET_COLD
  (∀ (now : Nat) (s : State), Managed s → s.sch.actState = 0 →
    ∃ t, exec (.resetCold .custodian now) s = .next t ∧ t.out = .fm .ok [] :: s.out ∧ t.clk.phase = .inReset ∧
      t.clk.resetCold = true ∧ t.clk.lastCause = .command ∧ t.mem.bytes = [] ∧ t.sec.tenants = []) ∧
  -- WARM_RESET
  (∀ (f : Bool) (now : Nat) (s : State), Running s → s.clk.phase = .released → s.que.jobs = [] → s.mem.merge = [] →
    (∀ p, p < 4 → (cxlPort s p).linkState ≠ 2) → (∀ c ∈ s.dir.lines, c.2.queue = []) →
    ∃ t, exec (.warmReset f now) s = .next t ∧ t.clk.phase = .inReset ∧ t.clk.resetCold = false ∧
      t.clk.lastCause = (if f then .selfFence else .warmRstN) ∧
      t.clk.warmResets = satAdd 0xFFFFFFFF s.clk.warmResets 1 ∧ t.clk.holdTime = max s.time now ∧
      t.sec.sessions = [] ∧ t.sec.tenants = s.sec.tenants ∧ t.core.cores = [] ∧ t.core.objs = s.core.objs ∧
      (∀ q, (xunit t q).tlb = []) ∧ (∀ n, n < 64 → (port t n).st = .disabled) ∧
      (∀ n, n < 32 → (stack s n).st ≠ .retired → (stack t n).selfRefresh = true) ∧ SameMemory s t) ∧
  -- RESET_WARM
  (∀ (now : Nat) (s : State), Managed s → s.clk.phase = .released →
    ∃ t, exec (.resetWarm .operator now) s = .next t ∧ t.clk.phase = .inReset ∧ t.clk.resetCold = false ∧
      t.clk.lastCause = .command ∧ t.sec.sessions = [] ∧ t.core.cores = [] ∧ .fm .ok [] ∈ t.out) ∧
  -- DEVICE_WATCHDOG_REFRESH
  (∀ (now : Nat) (s : State), Running s →
    ∃ t, exec (.deviceWatchdogRefresh now) s = .next t ∧ t.clk = { s.clk with watchdogAt := max s.time now } ∧
      Only [.time, .clk] s t) ∧
  -- DEVICE_WATCHDOG_EXPIRY
  (∀ (now : Nat) (s : State), Running s → s.clk.phase = .released → s.clk.watchdogAt + 10000000000 ≤ max s.time now →
    ∃ t, exec (.deviceWatchdogExpiry now) s = .next t ∧ t.clk.phase = .inReset ∧ t.clk.resetCold = false ∧
      t.clk.lastCause = .watchdog ∧ t.sec.sessions = [] ∧ t.core.cores = []) ∧
  -- RESET_RELEASE
  (∀ (ticks : Nat) (s : State), s.clk.phase = .inReset → s.clk.resetCold = true → s.clk.aonOscOk = true →
    (∀ r, r < 5 → railGone s r = false) →
    ∃ t, exec (.resetRelease ticks) s = .next t ∧ t.clk.phase = .starting ∧ t.clk.aonTicks = max ticks s.clk.aonTicks ∧
      t.free = s.free + 1 ∧ t.core.srSeed = Config.freeWord s.free ∧ t.sec.systemKey = some s.sec.nextKey ∧
      t.sec.nextKey = s.sec.nextKey + 1 ∧ Only [.free, .coreRest, .secRest, .clk] s t) ∧
  (∀ (ticks : Nat) (s : State), s.clk.phase = .inReset → s.clk.resetCold = false →
    ∃ t, exec (.resetRelease ticks) s = .next t ∧ t.clk.phase = .starting ∧
      t.time = s.clk.holdTime + (max ticks s.clk.holdTicks - s.clk.holdTicks) * 1000000000 / 32768 ∧
      Only [.time, .clk] s t) ∧
  -- STACK_TRAINING_DONE
  (∀ (l : List (Fin 4)) (s : State), s.clk.phase = .starting → s.clk.trained = false →
    ∃ t, exec (.stackTrainingDone l) s = .next t ∧ t.clk = { s.clk with trained := true } ∧
      (∀ n, n < 32 → (stack s n).st ≠ .retired →
        if l[n]? = some 3 then (stack t n).st = .failed ∧ (stack t n).failedPcs = List.range 64
        else stack t n = { stack s n with trained := true }) ∧
      (∀ n, n < 32 → (stack s n).st ≠ .retired → l[n]? ≠ some 3 → ∀ c, l[n]? = some c → c.val ≤ t.mem.rate) ∧
      t.mem.rate ≤ 2 ∧ Only [.out, .stacks, .memRest, .clk] s t) ∧
  -- POWER_ON_FILL_DONE
  (∀ (s : State), s.clk.phase = .starting → s.clk.trained = true → s.mem.fillDone = false →
    ∃ t, exec .powerOnFillDone s = .next t ∧ (∀ a, readByte t a = 0) ∧ (∀ l, tget false t.mem.poison l = false) ∧
      t.mem.fillDone = true ∧ Only [.bytes, .poison, .merge, .memRest] s t) ∧
  -- BOOT_FLASH_READ
  (∀ (a b c : BitVec 2) (x y : Option (Nat × BitVec 384)) (r : List Byte) (ok : Bool) (now l : Nat) (d : BitVec 384)
      (s : State), s.sec.keysZeroised = false → s.clk.phase = .starting →
    a &&& flashReached s ≠ 0 → b &&& flashReached s ≠ 0 →
    tget none s.sec.slots s.sec.selector = some (l, d) → s.sec.selector ≤ 1 →
    ∃ t, exec (.bootFlashRead a b c x y r ok now) s = .next t ∧ t.sec.identityFault = !ok ∧
      t.sec.flashBcr = (if s.sec.flashBcr = [] then r else s.sec.flashBcr) ∧
      (t.clk.bcrOk = true ↔ c &&& flashReached s ≠ 0 ∧ bcrForm t.sec.flashBcr = true ∧ leAt t.sec.flashBcr 15 1 = s.grade) ∧
      (t.clk.bcrOk = true → t.sec.bcr = t.sec.flashBcr ∧ t.sec.endpointBase = leAt t.sec.flashBcr 12 2 ∧
        t.sec.minRelease = leAt t.sec.flashBcr 8 4 ∧ t.sec.partnerSerial = slice t.sec.flashBcr 16 16) ∧
      (t.sec.minRelease ≤ l → t.clk.firmwareOk = true ∧ t.sec.releaseLevel = l ∧ t.sec.fwDigest = d ∧
        t.sec.bootSlot = s.sec.selector ∧ t.sec.ak = (if ok then some d else none)) ∧ Only [.time, .obs, .secRest, .clk] s t) ∧
  -- DEVICE_RELEASE
  (∀ (now : Nat) (s : State), Running s → mayRelease s = true → s.fen.unfenced = [] → twf {} s.fen.quads = true →
    ∃ t, exec (.deviceRelease [] now) s = .next t ∧ t.clk.phase = .released ∧ t.clk.releaseTime = max s.time now ∧
      t.e2e.quietUntil = some (max s.time now + 6000000) ∧ t.clk.tripped = false ∧ t.clk.supplyLost = false ∧
      t.fen.anchor = (if (quad s 0).faultFenced = false then some 0
        else if (quad s 2).faultFenced = false then some 2 else none)) ∧
  -- ENTER_DORMANT
  (∀ (now : Nat) (s : State), Managed s → s.clk.phase = .released → mayRest s = true →
    ∃ t, exec (.enterDormant .operator now) s = .next t ∧ t.out.head? = some (.pin 2 true) ∧ t.clk.phase = .dormant ∧
      t.clk.dormantN = true ∧ t.clk.memoryKept = true ∧ t.sec.sessions = [] ∧ t.core.cores = [] ∧
      (∀ n, n < 32 → (stack s n).st ≠ .retired → (stack t n).selfRefresh = true)) ∧
  (∀ (now : Nat) (s : State), Managed s → s.clk.phase ≠ .released ∨ mayRest s = false →
    exec (.enterDormant .operator now) s = .next (said (.fm .conflict []) (advance now s)))

/-- OBSERVATION COMMANDS COMPLETE (R399, R459, R463 to R474, Tables 18.5 to 18.12): counters, the recorder, its
window, the observation lands, the freeze and the test access port. Where the manual leaves a choice the statement
rests on the model's, named in log entries 5, 6, 7, 9, 11, 92, 180, 181, 182, 183, 184, 186, 233. -/
def Obligations.ObserveCommandsComplete : Prop :=
  -- RESET_COUNTERS
  (∀ (f : Fin 16) (n : Fin 64) (who : Nat) (s : State), Managed s → n.val < rowInstances f.val → f.val ≠ cUtil →
    ∃ t, exec (.resetCounters .operator f n who) s = .next t ∧
      t.out = .fm .ok ((List.range (rowCounters f.val n.val)).map (cntGet s f.val n.val)) :: s.out ∧
      (∀ i, i < 65536 → cntGet t f.val n.val i = 0) ∧
      (∀ k, k / 65536 ≠ f.val * 64 + n.val → tget 0 t.cnt k = tget 0 s.cnt k) ∧ Only [.out, .cnt, .obs] s t) ∧
  -- the busy counters of a quadrant
  (∀ (n : Fin 64) (who : Nat) (s : State), Managed s → n.val < 4 →
    ∃ t, exec (.resetCounters .operator 13 n who) s = .next t ∧
      t.out = .fm .ok ((List.range 32).map (utilWord s n.val)) :: s.out ∧
      (∀ i, i < 65536 → cntGet t 13 n.val i = 0) ∧
      (∀ k, k / 65536 ≠ 13 * 64 + n.val → tget 0 t.cnt k = tget 0 s.cnt k) ∧
      Only [.out, .cnt, .obs, .cores, .jobs] s t) ∧
  -- METRIC_SAMPLE
  (∀ (use : List Nat) (now m v : Nat) (s : State), Running s → m < 24 →
    v = min (metricNow (advance now s) use m) 65535 →
    ∃ t, exec (.metricSample use now) s = .next t ∧
      tget 0 t.obs.buckets (m * 16 + bucketOf m v) = min 65535 (tget 0 s.obs.buckets (m * 16 + bucketOf m v) + 1) ∧
      (∀ k, k < 16 → k ≠ bucketOf m v → tget 0 t.obs.buckets (m * 16 + k) = tget 0 s.obs.buckets (m * 16 + k)) ∧
      extremeOf t m = (if m = 23 then min (extremeOf s m) v else max (extremeOf s m) v) ∧
      (m ∈ rateMetrics → tget 0 t.obs.prev m = (rateTotal s m : Int)) ∧ Only [.time, .obs] s t) ∧
  -- PERIOD_END
  (∀ (now : Nat) (s : State), Running s → s.obs.periodAt + periodNs s ≤ max s.time now → s.obs.clearing = false →
    s.obs.full = false → writePtr s ≤ 1000000 →
    ∃ t, exec (.periodEnd now) s = .next t ∧ t.obs.buckets = [] ∧ t.obs.mins = [] ∧ t.obs.maxs = [] ∧
      t.obs.periodAt = max s.time now ∧ (∃ r, t.obs.log = s.obs.log ++ [r] ∧ r.kind = 1 ∧ r.seq = s.obs.seq ∧
        r.time = max s.time now ∧ r.body = fields8 ((List.range 24).flatMap (periodEntry s))) ∧
      t.obs.extremes = s.obs.extremes ∧ Only [.time, .obs] s t) ∧
  -- CLEAR_RECORDER
  (∀ (d : BitVec 384) (now : Nat) (s : State), Managed s → s.obs.clearing = false →
    ∃ t, exec (.clearRecorder .custodian d now) s = .next t ∧ t.out = .fm .ok [] :: s.out ∧ t.obs = { s.obs with
        clearing := true, clearBody := clearBodyOf d s, log := [], full := false, lost := 0 } ∧
      Only [.out, .time, .obs] s t) ∧
  -- CLEAR_ERASE_DONE
  (∀ (now : Nat) (s : State), Running s → s.obs.clearing = true →
    ∃ t, exec (.clearEraseDone now) s = .next t ∧ t.obs.clearing = false ∧ t.obs.staging = [] ∧
      t.obs.clears = (s.obs.clears + 1) % 2 ^ 32 ∧ (∃ r l, t.obs.log = r :: l ∧ r.kind = 4 ∧ r.seq = 0 ∧
        r.body = s.obs.clearBody ∧ r.time = max s.time now) ∧ Only [.time, .obs] s t) ∧
  -- READ_RECORDER
  (∀ (off len : Nat) (s : State), Managed s → len ≤ 65536 →
    exec (.readRecorder off len) s = .next (said (.data (((logBytes s).drop off).take len))
      (said (.fm .ok [(((logBytes s).drop off).take len).length, s.obs.clears, writePtr s]) s))) ∧
  -- REC_WINDOW
  (∀ (d : Fin 64) (on : Bool) (who : Nat) (s : State), Managed s →
    ∃ t, exec (.recWindow .operator d on who) s = .next t ∧ t.out = .fm .ok [] :: s.out ∧
      t.obs.windowLd.getLsbD d.val = on ∧
      (∀ k, k ≠ d.val → t.obs.windowLd.getLsbD k = s.obs.windowLd.getLsbD k) ∧ Only [.out, .obs] s t) ∧
  -- REC_PERIOD
  (∀ (m : BitVec 11) (s : State), Managed s →
    ∃ t, exec (.recPeriod .operator m) s = .next t ∧ t.out = .fm .ok [] :: s.out ∧
      t.obs = { s.obs with periodMin := m.toNat } ∧ Only [.out, .obs] s t) ∧
  -- OBS_SELECT
  (∀ (k : Fin 16) (g q : Fin 4) (i : Fin 4096) (c : Bool) (s : State), Managed s → g.val ≠ 3 ∨ keysLive s = false →
    ∃ t, exec (.obsSelect .operator k g q i c) s = .next t ∧ t.out = .fm .ok [] :: s.out ∧
      tget (0, 0, 0) t.obs.obsSel k.val = (g.val, q.val, i.val) ∧
      (∀ j, j ≠ k.val → tget (0, 0, 0) t.obs.obsSel j = tget (0, 0, 0) s.obs.obsSel j) ∧ Only [.out, .obs] s t) ∧
  (∀ (k : Fin 16) (q : Fin 4) (i : Fin 4096) (s : State), Managed s → keysLive s = true →
    exec (.obsSelect .operator k 3 q i false) s = .next (said (.fm .conflict []) s) ∧
    ∃ t, exec (.obsSelect .operator k 3 q i true) s = .next t ∧ t.out = .fm .ok [] :: s.out ∧
      t.sec.keysZeroised = true ∧ (∀ c, (tenant t c).slotEven = .empty ∧ (tenant t c).slotOdd = .empty) ∧
      tget (0, 0, 0) t.obs.obsSel k.val = (3, q.val, i.val)) ∧
  -- FREEZE_N
  (∀ (now : Nat) (s : State), s.clk.phase = .released ∨ s.clk.phase = .starting →
    ∃ t, exec (.freezeN true now) s = .next t ∧ t.clk.phase = .frozen ∧ t.clk.cmpFreeze = true ∧ t.sec.sessions = [] ∧
      (∀ n, (coreOf t n).store = [] ∧ (coreOf t n).acc = []) ∧ (∀ n, n < 64 → (port t n).st = .disabled) ∧
      (∀ p, p < 4 → (cxlPort t p).linkState = 0) ∧ (keysLive s = true → t.sec.keysZeroised = true) ∧ t.out = s.out) ∧
  (∀ (now : Nat) (s : State),
    ∃ t, exec (.freezeN false now) s = .next t ∧ t.clk = { s.clk with cmpFreeze := false } ∧ Only [.clk] s t) ∧
  -- BYPASS, IDCODE, SAMPLE_PRELOAD
  (∀ (s : State),
    (∃ t, exec .bypass s = .next t ∧ t.out = .tap [0] :: s.out ∧ t.obs.tapInstr = 0 ∧ t.obs.tapDriving = false ∧
      Only [.out, .obs] s t) ∧
    (∃ t, exec .idcode s = .next t ∧ t.out = .tap [0xB4032C53] :: s.out ∧ t.obs.tapInstr = 1 ∧
      t.obs.tapDriving = false ∧ Only [.out, .obs] s t) ∧
    (∃ t, exec .samplePreload s = .next t ∧ t.out = .tap (Config.boundaryBits.map (fun b => b.toNat)) :: s.out ∧
      t.obs.tapInstr = 2 ∧ t.obs.tapDriving = false ∧ Only [.out, .obs] s t)) ∧
  -- EXTEST
  (∀ (s : State), (s.clk.phase = .inReset ∧ s.clk.resetCold = true) ∨ s.clk.phase = .frozen →
    ∃ t, exec .extest s = .next t ∧ t.obs.tapInstr = 3 ∧ t.obs.tapDriving = true ∧ Only [.obs] s t) ∧
  -- SCAN_SELECT, SCAN_DUMP
  (∀ (q : Fin 4) (s : State), s.clk.phase = .frozen →
    (∃ t, exec (.scanSelect q) s = .next t ∧ t.obs.tapInstr = 4 ∧ t.obs.tapQuadrant = q.val ∧ Only [.obs] s t) ∧
    (∃ t, exec .scanDump s = .next t ∧ t.obs.tapInstr = 5 ∧
      t.out = .tap ((Config.scanBits s.obs.tapQuadrant).map (fun b => b.toNat)) :: s.out ∧ Only [.out, .obs] s t)) ∧
  -- EXTEST, SCAN_SELECT, SCAN_DUMP elsewhere
  (∀ (q : Fin 4) (s : State), s.clk.phase ≠ .inReset → s.clk.phase ≠ .frozen →
    exec .extest s = exec .bypass s ∧ exec (.scanSelect q) s = exec .bypass s ∧ exec .scanDump s = exec .bypass s) ∧
  -- CURSOR_WRITE
  (∀ (d : Fin 64) (v : BitVec 64) (s : State), Running s → s.obs.windowLd.getLsbD d.val = true →
    writesIgnored s d.val = false →
    ∃ t, exec (.cursorWrite d v) s = .next t ∧ (tget 0 t.obs.cursor d.val).toNat = v.toNat / 32 % 32768 ∧
      (∀ k, k ≠ d.val → tget 0 t.obs.cursor k = tget 0 s.obs.cursor k) ∧ Only [.obs] s t)

/-- REGISTER ACCESSES COMPLETE (R476 to R489, Tables 19.1, 19.6 to 19.12): what a read returns, which accesses are
flagged and ignored, and what a write of each kind of writable register does. Where the manual leaves a choice the
statement rests on the model's, named in log entries 5, 6, 7, 9, 11, 44, 45, 46, 47, 48, 49, 50, 51, 55, 56, 186, 206,
233. -/
def Obligations.RegisterCommandsComplete : Prop :=
  -- a read of 8 bytes of BAR0
  (∀ (a : RegAccess) (o v : Nat) (sc : Scope) (s : State), Reached a s → a.place = .bar0 o → a.write = none → a.size = 8 →
    o % 8 = 0 → isComp o = false → isMsix o = false → isPba o = false → regAt s a.ld.val o = some (sc, v) →
    exec (.registerWrite a) s = .next (said (.data (leBytes 8 (if mayRead s a sc then v else 0))) s)) ∧
  -- a read of 4 bytes of BAR0
  (∀ (a : RegAccess) (o v : Nat) (sc : Scope) (s : State), Reached a s → a.place = .bar0 o → a.write = none → a.size = 4 →
    o % 4 = 0 → isComp (o / 8 * 8) = false → isMsix (o / 8 * 8) = false → isPba (o / 8 * 8) = false →
    regAt s a.ld.val (o / 8 * 8) = some (sc, v) → mayRead s a sc = true →
    exec (.registerWrite a) s = .next (said (.data (leBytes 4 (v / 2 ^ (8 * (o % 8))))) s)) ∧
  -- where no register lies
  (∀ (a : RegAccess) (o : Nat) (s : State), Reached a s → a.place = .bar0 o → a.write = none → a.size = 8 → o % 8 = 0 →
    isComp o = false → isMsix o = false → isPba o = false → regAt s a.ld.val o = none →
    exec (.registerWrite a) s = .next (said (.data [0, 0, 0, 0, 0, 0, 0, 0]) s)) ∧
  -- a read of another size or alignment
  (∀ (a : RegAccess) (o : Nat) (s : State), Running s → a.place = .bar0 o → a.write = none → a.mgmt = false →
    readFits o a.size = false →
    ∃ t, exec (.registerWrite a) s = .next t ∧ t.out = .data (List.replicate a.size 0) :: s.out ∧
      tget false t.map.badRead a.ld.val = true ∧ tget 0 t.map.lastOffset a.ld.val = o % 2 ^ 24 ∧
      tget false t.map.badWrite a.ld.val = tget false s.map.badWrite a.ld.val ∧ Only [.out, .map] s t) ∧
  -- a write of another size or alignment
  (∀ (a : RegAccess) (o : Nat) (v : BitVec 64) (s : State), Running s → a.place = .bar0 o → a.write = some v →
    a.mgmt = false → writesIgnored s a.ld.val = false → a.size ≠ 8 ∨ o % 8 ≠ 0 →
    ∃ t, exec (.registerWrite a) s = .next t ∧ tget false t.map.badWrite a.ld.val = true ∧
      tget 0 t.map.lastOffset a.ld.val = o % 2 ^ 24 ∧ Only [.map] s t) ∧
  -- a write out of scope
  (∀ (a : RegAccess) (o x : Nat) (v : BitVec 64) (sc : Scope) (s : State), Running s → a.place = .bar0 o →
    a.write = some v → a.mgmt = false → writesIgnored s a.ld.val = false → a.size = 8 → o % 8 = 0 → isComp o = false →
    isMsix o = false → regAt s a.ld.val o = some (sc, x) → mayWrite s a sc o = false → (∀ g, sc ≠ .owner g) →
    ∃ t, exec (.registerWrite a) s = .next t ∧ tget false t.map.badWrite a.ld.val = true ∧ Only [.map] s t) ∧
  -- DPC_MAP_ERR
  (∀ (a : RegAccess) (v : BitVec 64) (s : State), Reached a s → a.place = .bar0 0xA010 → a.write = some v → a.size = 8 →
    writesIgnored s a.ld.val = false →
    ∃ t, exec (.registerWrite a) s = .next t ∧
      tget false t.map.badWrite a.ld.val = (tget false s.map.badWrite a.ld.val && !(v.getLsbD 0)) ∧
      tget false t.map.badRead a.ld.val = (tget false s.map.badRead a.ld.val && !(v.getLsbD 1)) ∧
      Only [.map] s t) ∧
  -- DPC_SYN_CTRL
  (∀ (a : RegAccess) (v : BitVec 64) (s : State), Reached a s → a.place = .bar0 0xA0000 → a.write = some v → a.size = 8 →
    a.mgmt = true ∨ (s.map.priv.getLsbD a.ld.val = true ∧ writesIgnored s a.ld.val = false) →
    ∃ t, exec (.registerWrite a) s = .next t ∧ t.core = { s.core with watchdogMs := v.toNat % 65536 } ∧
      Only [.coreRest] s t) ∧
  -- DPC_QUE_Q word 0
  (∀ (a : RegAccess) (n : Fin 8192) (v : BitVec 64) (s : State), Running s → a.place = .bar0 (0x110000 + 64 * n.val) →
    a.write = some v → a.size = 8 → a.mgmt = false → writesIgnored s a.ld.val = false →
    ownsGroup s a.ld.val (n.val / 8) = true → (queue s n.val).st = .disabled →
    ∃ t, exec (.registerWrite a) s = .next t ∧ queue t n.val = { queue s n.val with sqBase := v.toNat } ∧
      Others queue n.val s t ∧ Only [.queues] s t) ∧
  -- a queue of another owner
  (∀ (a : RegAccess) (n : Fin 8192) (v : BitVec 64) (s : State), Running s → a.place = .bar0 (0x110000 + 64 * n.val) →
    a.write = some v → a.size = 8 → a.mgmt = false → writesIgnored s a.ld.val = false →
    ownsGroup s a.ld.val (n.val / 8) = false →
    ∃ t, exec (.registerWrite a) s = .next t ∧ cntGet t cQue 0 2 = satAdd (2 ^ 64 - 1) (cntGet s cQue 0 2) 1 ∧
      Only [.cnt] s t) ∧
  -- DPC_NMO_RWIN_CFG word 0
  (∀ (a : RegAccess) (w : Fin 1024) (v : BitVec 64) (s : State), Running s → a.place = .bar0 (0x80000 + 32 * w.val) →
    a.write = some v → a.size = 8 → a.mgmt = false → writesIgnored s a.ld.val = false → (logDev s a.ld.val).bound = true →
    (logDev s a.ld.val).tenant = (window s w.val).tenant → winFree (window s w.val) = true →
    ∃ t, exec (.registerWrite a) s = .next t ∧
      window t w.val = { window s w.val with dstPva := v.toNat % 2 ^ 48 } ∧ Others window w.val s t ∧
      Only [.windows] s t) ∧
  -- DPC_E2E_COLL word 0
  (∀ (a : RegAccess) (w : Fin 1024) (v : BitVec 64) (s : State), Reached a s → a.place = .bar0 (0x831000 + 16 * w.val) →
    a.write = some v → a.size = 8 → a.mgmt = true → hasHost s (window s w.val).tenant = false → winFree (window s w.val) = true →
    ∃ t, exec (.registerWrite a) s = .next t ∧ tget 0 t.e2e.collDeadline w.val = v.toNat % 2 ^ 32 ∧
      tget 0 t.e2e.collQ w.val = v.toNat / 2 ^ 32 % 8192 ∧ tget false t.e2e.collValid w.val = v.getLsbD 45 ∧
      Only [.e2e] s t) ∧
  -- DPC_XLT_CTRL and DPC_DIR_CTRL
  (∀ (a b : RegAccess) (q : Fin 4) (v w : BitVec 64) (s : State), Reached a s → Reached b s →
    a.place = .bar0 (0x800000 + 0x100000 * q.val) → a.write = some v → a.size = 8 → a.mgmt = true →
    b.place = .bar0 (0x820000 + 0x100000 * q.val) → b.write = some w → b.size = 8 → b.mgmt = true →
    (∃ t, exec (.registerWrite a) s = .next t ∧
      xunit t q.val = { xunit s q.val with drainBoundUs := BitVec.ofNat 8 v.toNat } ∧ Others xunit q.val s t ∧
      Only [.xunits] s t) ∧
    ∃ t, exec (.registerWrite b) s = .next t ∧ tget 0xC8 t.dir.recallTimeoutUs q.val = w.toNat % 8192 ∧
      t.dir.lines = s.dir.lines ∧ Only [.dir] s t) ∧
  -- the MSI-X table
  (∀ (a : RegAccess) (k : Fin 4096) (v : BitVec 64) (s : State), Reached a s → a.place = .bar0 (0x30000 + 8 * k.val) →
    a.write = some v → a.size = 8 → writesIgnored s a.ld.val = false →
    ∃ t, exec (.registerWrite a) s = .next t ∧ tget 0 t.map.msix (8192 * a.ld.val + k.val) = v.toNat ∧
      exec (.registerWrite { a with write := none }) t = .next (said (.data (leBytes 8 v.toNat)) t) ∧
      Only [.map] s t) ∧
  -- BAR2 reads 0
  (∀ (a : RegAccess) (o : Nat) (s : State), Reached a s → a.place = .bar2 o → a.write = none →
    exec (.registerWrite a) s = .next (said (.data (List.replicate a.size 0)) s)) ∧
  -- a doorbell that is not the writer's
  (∀ (a : RegAccess) (o : Nat) (v : BitVec 64) (s : State), Reached a s → a.place = .bar2 o → a.write = some v →
    a.size ≠ 8 ∨ o % 8 ≠ 0 ∨ a.mgmt = true ∨ ownsGroup s a.ld.val (o / 64) = false →
    ∃ t, exec (.registerWrite a) s = .next t ∧ cntGet t cQue 0 2 = satAdd (2 ^ 64 - 1) (cntGet s cQue 0 2) 1 ∧
      Only [.cnt] s t) ∧
  -- BAR4: the recorder window
  (∀ (a : RegAccess) (k : Nat) (s : State), Reached a s → a.place = .bar4 (0x100 + k) → a.write = none → a.size = 8 →
    k % 8 = 0 → k < 1024 → s.obs.windowLd.getLsbD a.ld.val = true →
    exec (.registerWrite a) s = .next (said (.data (leBytes 8
      (leAt (logBytes s) ((tget 0 s.obs.cursor a.ld.val).toNat * 32 + k) 8))) s)) ∧
  -- the back-invalidate enable
  (∀ (a : RegAccess) (v : BitVec 64) (s : State), Running s → a.place = .biEnable → a.write = some v → a.mgmt = false →
    versionOf s a.ld.val = 3 →
    ∃ t, exec (.registerWrite a) s = .next t ∧
      logDev t a.ld.val = { logDev s a.ld.val with biEnabled := v.getLsbD 0 } ∧ Others logDev a.ld.val s t ∧
      Only [.lds] s t) ∧
  -- a write over the management network in another role than Operator
  (∀ (a : RegAccess) (s : State), Managed s → a.mgmt = true → a.write ≠ none → a.role ≠ .operator →
    exec (.registerWrite a) s = .next (said (.fm .policed []) s)) ∧
  -- SET_PRIV
  (∀ (d : Fin 64) (on : Bool) (s : State), Managed s →
    ∃ t, exec (.setPriv d on) s = .next t ∧ t.out = .fm .ok [] :: s.out ∧ t.map.priv.getLsbD d.val = on ∧
      (∀ k, k ≠ d.val → t.map.priv.getLsbD k = s.map.priv.getLsbD k) ∧
      t.map.badWrite = s.map.badWrite ∧ Only [.out, .map] s t)

/-- TRANSPORT COMMANDS COMPLETE (R44, R303 to R321, R512, Tables 12.1, 12.3): acknowledgements, re-sending, the
expiries of chapter 12, responses and recalls the device terminates. Where the manual leaves a choice the statement
rests on the model's, named in log entries 5, 6, 7, 9, 11, 57, 58, 115, 186, 189, 220, 222. -/
def Obligations.TransportCommandsComplete : Prop :=
  -- TETHERBEAT
  (∀ (n : Fin 64) (p : Packet) (q : Nat) (s : State), Running s → Passes n.val p q s = true → p.typ = 0x41 →
    tethersOf s (.ep p.src.toNat) ≠ 0 → s.time ≤ leaseEnd (lease s (.ep p.src.toNat)) →
    ∃ t, exec (.tetherbeat n p) s = .next t ∧
      leaseEnd (lease t (.ep p.src.toNat)) = s.time + 1000000 * (lease s (.ep p.src.toNat)).periodMs ∧
      (lease t (.ep p.src.toNat)).lapsed = false ∧ Others lease (.ep p.src.toNat) s t) ∧
  -- UNMATCHED_RESPONSE
  (∀ (n : Fin 64) (p : Packet) (q : Nat) (s : State), Running s → Passes n.val p q s = true → 0x10 ≤ p.typ.toNat →
    p.typ.toNat ≤ 0x14 → s.e2e.requests = [] → s.e2e.ringWrites = [] →
    ∃ t, exec (.unmatchedResponse n p) s = .next t ∧
      cntGet t cE2e q 15 = satAdd (2 ^ 64 - 1) (cntGet s cE2e q 15) 1 ∧ SameMemory s t ∧ t.que = s.que) ∧
  -- RESPONSE_RECEIVED to a ring read
  (∀ (n : Fin 64) (p : Packet) (q : Nat) (r : RingRead) (s : State), Running s → Passes n.val p q s = true →
    p.typ = 0x10 → p.arg0.toNat % 256 = 0 → 64 ≤ p.payload.length → field p.arg0.toNat 32 3 = 0 →
    s.e2e.requests = [r] → r.q = q → r.other = p.src.toNat → r.seq = some (field p.arg0.toNat 8 24) →
    (queue s r.queue).fetching = true → (queue s r.queue).st = .running → (group s (r.queue / 8)).st = .active →
    (group s (r.queue / 8)).revoking = false →
    ∃ t, exec (.responseReceived n p) s = .next t ∧ t.e2e.requests = [] ∧
      queue t r.queue = { queue s r.queue with
        fetching := false, sqHead := (queue s r.queue).sqHead + 1, stamps := (queue s r.queue).stamps.drop 1
        flight := (queue s r.queue).flight ++ [{ slot := (queue s r.queue).sqHead.toNat, bytes := p.payload.take 64
                                                 stamp := (queue s r.queue).stamps.headD s.time }] } ∧
      cntGet t cQue 0 0 = satAdd (2 ^ 64 - 1) (cntGet s cQue 0 0) 1 ∧ Others queue r.queue s t) ∧
  -- to a completion write
  (∀ (n : Fin 64) (p : Packet) (q : Nat) (w : RingWrite) (s : State), Running s → Passes n.val p q s = true →
    p.typ = 0x13 → field p.arg0.toNat 32 3 = 4 → s.e2e.ringWrites = [w] → w.q = q → w.other = p.src.toNat →
    w.seq = some (field p.arg0.toNat 8 24) → (∀ x ∈ s.que.queues, x.2.extOut = none ∧ x.2.posts = []) →
    ∃ t, exec (.responseReceived n p) s = .next t ∧ t.e2e.ringWrites = [] ∧ t.e2e.requests = s.e2e.requests) ∧
  -- RECALL_RECEIVED
  (∀ (n : Fin 64) (p : Packet) (q : Nat) (s : State), Running s → Passes n.val p q s = true →
    p.typ = 0x20 ∨ p.typ = 0x21 → s.e2e.send = [] → s.fen.fencedBlocks = [] →
    (∀ c ∈ s.e2e.recv, s.time < c.2.lastArrival + 4000000) →
    ∃ t, exec (.recallReceived n p) s = .next t ∧
      flowPackets t q p.src.toNat 3 = some [(tRecallMiss, BitVec.ofNat 64 (argPva p), [])] ∧ SameMemory s t ∧
      t.dir = s.dir) ∧
  -- ACK
  (∀ (n : Fin 64) (p : Packet) (q : Nat) (c : SendCtx) (s : State), Running s → PassesPlain n.val p q s = true →
    p.typ = 0x44 → sendCtx s (ackedFlow s n.val q p) = some c → c.waiting = [] → s.e2e.ringWrites = [] →
    (∀ d ∈ s.e2e.send, d.2.stall ≠ 2) → (∀ x ∈ s.que.queues, x.2.extOut = none ∧ x.2.posts = []) →
    ∃ t, exec (.ack n p) s = .next t ∧ sendCtx t (ackedFlow s n.val q p) = some { c with
        isOpen := c.isOpen || c.pkts.any (fun x => !x.acked && covered p x.pkt.seq.toNat), lastAck := s.time
        pkts := c.pkts.map (fun x => { x with acked := x.acked || covered p x.pkt.seq.toNat }) } ∧
      Others sendCtx (ackedFlow s n.val q p) s t ∧ SameMemory s t ∧ t.que = s.que) ∧
  -- ACK_TIMER
  (∀ (f : Flow) (now n : Nat) (c : RecvCtx) (k : Packet) (d : Nat) (s : State), Running s →
    recvCtx s (keyOf f) = some c → c.ackDue = some d → f.pair = false →
    k = stamp (advance now s) { controlPkt s (keyOf f) tAck c.base (c.bits.map (fun i => (i + 2 ^ 24 - c.base) % 2 ^ 24))
      with src := BitVec.ofNat 16 (endpointOf s f.q.val), seq := 0, pktCount := 1 } →
    choosePort s f.q.val k none = some n →
    ∃ t, exec (.ackTimer f now) s = .next t ∧ recvCtx t (keyOf f) = some { c with ackDue := none } ∧
      Others recvCtx (keyOf f) s t ∧ (port t n).txq = (port s n).txq ++ [{ pkt := k, entry := none }] ∧
      Others port n s t ∧ Only [.time, .cnt, .ports, .rofRest, .e2e] s t) ∧
  -- RESENDREQ
  (∀ (n : Fin 64) (p : Packet) (q : Nat) (c : SendCtx) (s : State), Running s → PassesPlain n.val p q s = true →
    p.typ = 0x45 → sendCtx s (ackedFlow s n.val q p) = some c →
    ∃ t, exec (.resendreq n p) s = .next t ∧ (∀ i x, i < 1024 → payBit p i = true →
        heldPkt s (ackedFlow s n.val q p) ((p.arg0.toNat % 2 ^ 24 + i) % 2 ^ 24) = some x → x.lastTx + 5000 ≤ s.time →
        heldPkt t (ackedFlow s n.val q p) ((p.arg0.toNat % 2 ^ 24 + i) % 2 ^ 24) =
          some { x with pkt := stamp s x.pkt, lastTx := s.time }) ∧
      Others sendCtx (ackedFlow s n.val q p) s t ∧ SameMemory s t ∧ t.que = s.que) ∧
  -- one that is not held
  (∀ (n : Fin 64) (p : Packet) (q i : Nat) (s : State), Running s → PassesPlain n.val p q s = true → p.typ = 0x45 →
    (List.range 1024).filter (payBit p) = [i] →
    heldPkt s (ackedFlow s n.val q p) ((p.arg0.toNat % 2 ^ 24 + i) % 2 ^ 24) = none →
    ∃ t, exec (.resendreq n p) s = .next t ∧ cntGet t cE2e q 9 = satAdd (2 ^ 64 - 1) (cntGet s cE2e q 9) 1 ∧
      t.e2e = s.e2e) ∧
  -- RESEND_TIMER
  (∀ (f : Flow) (seq : BitVec 24) (now : Nat) (x : SentPkt) (s : State), Running s →
    heldPkt s (keyOf f) seq.toNat = some x → x.lastTx + 1000 * resendUs s f.q.val ≤ max s.time now →
    ∃ t, exec (.resendTimer f seq now) s = .next t ∧ heldPkt t (keyOf f) seq.toNat =
        some { x with pkt := stamp (advance now s) x.pkt, lastTx := max s.time now } ∧
      cntGet t cE2e f.q.val 7 = satAdd (2 ^ 64 - 1) (cntGet s cE2e f.q.val 7) 1 ∧ Others sendCtx (keyOf f) s t ∧
      Only [.time, .cnt, .ports, .rofRest, .e2e] s t) ∧
  -- RESEND_LIMIT_EXPIRY
  (∀ (f : Flow) (seq : BitVec 24) (now : Nat) (x : SentPkt) (c : SendCtx) (s : State), Running s →
    heldPkt s (keyOf f) seq.toNat = some x → x.first + 1000 * resendLimitUs s f.q.val ≤ max s.time now →
    sendCtx s (keyOf f) = some c → c.waiting = [] →
    (∀ y ∈ c.pkts, y.pkt.typ.toNat ≠ tRdOnce ∧ y.pkt.typ.toNat ≠ tWrPart) → (∀ d ∈ s.e2e.send, d.2.stall ≠ 2) →
    ∃ t, exec (.resendLimitExpiry f seq now) s = .next t ∧ sendCtx t (keyOf f) = some { c with
        isOpen := false, pkts := c.pkts.map (fun y => { y with acked := true }) } ∧
      cntGet t cE2e f.q.val 10 =
        satAdd (2 ^ 64 - 1) (cntGet s cE2e f.q.val 10) (c.pkts.filter (fun y => !y.acked)).length ∧
      Others sendCtx (keyOf f) s t ∧ Only [.time, .cnt, .e2e] s t) ∧
  -- FLOW_SILENCE_EXPIRY
  (∀ (f : Flow) (now : Nat) (c : SendCtx) (s : State), Running s → sendCtx s (keyOf f) = some c → c.isOpen = true →
    c.lastAck + 2000000 ≤ max s.time now → c.waiting = [] →
    (∀ y ∈ c.pkts, y.pkt.typ.toNat ≠ tRdOnce ∧ y.pkt.typ.toNat ≠ tWrPart) → (∀ d ∈ s.e2e.send, d.2.stall ≠ 2) →
    ∃ t, exec (.flowSilenceExpiry f now) s = .next t ∧ sendCtx t (keyOf f) = some { c with
        isOpen := false, pkts := c.pkts.map (fun y => { y with acked := true }) } ∧
      Others sendCtx (keyOf f) s t ∧ Only [.time, .cnt, .e2e] s t) ∧
  -- SEND_CONTEXT_RETIRE
  (∀ (f : Flow) (now : Nat) (c : SendCtx) (s : State), Running s → sendCtx s (keyOf f) = some c → c.isOpen = false →
    oldestUnacked c = none → c.waiting = [] → c.lastTx + 6000000 ≤ max s.time now → (∀ d ∈ s.e2e.send, d.2.stall ≠ 3) →
    ∃ t, exec (.sendContextRetire f now) s = .next t ∧ sendCtx t (keyOf f) = none ∧ Others sendCtx (keyOf f) s t ∧
      Only [.time, .e2e] s t) ∧
  -- RECEIVE_CONTEXT_RETIRE
  (∀ (f : Flow) (now : Nat) (c : RecvCtx) (s : State), Running s → recvCtx s (keyOf f) = some c →
    c.lastArrival + 4000000 ≤ max s.time now →
    ∃ t, exec (.receiveContextRetire f now) s = .next t ∧ recvCtx t (keyOf f) = none ∧ Others recvCtx (keyOf f) s t ∧
      (∀ i, afind t.e2e.reasm (keyOf f, i) = none) ∧
      (∀ k i, k ≠ keyOf f → afind t.e2e.reasm (k, i) = afind s.e2e.reasm (k, i)) ∧ Only [.time, .dir, .e2e] s t) ∧
  -- REASM_TIMEOUT
  (∀ (f : Flow) (first : BitVec 24) (now n i : Nat) (l : List Nat) (r : Reasm) (k : Packet) (s : State), Running s →
    afind s.e2e.reasm (keyOf f, first.toNat) = some r → r.lastReq + 1000 * reasmUs s f.q.val ≤ max s.time now →
    (List.range r.pktCount).filter (fun j => !(r.got.contains j)) = i :: l → (∀ j ∈ l, j < i + 1024) → f.pair = false →
    k = stamp (advance now s) { controlPkt s (keyOf f) tResendReq (first.toNat + i) (0 :: l.map (fun j => j - i))
      with src := BitVec.ofNat 16 (endpointOf s f.q.val), seq := 0, pktCount := 1 } →
    choosePort s f.q.val k none = some n →
    ∃ t, exec (.reasmTimeout f first now) s = .next t ∧
      afind t.e2e.reasm (keyOf f, first.toNat) = some { r with lastReq := max s.time now } ∧
      cntGet t cE2e f.q.val 8 = satAdd (2 ^ 64 - 1) (cntGet s cE2e f.q.val 8) 1 ∧
      (port t n).txq = (port s n).txq ++ [{ pkt := k, entry := none }] ∧
      Others port n s t ∧ Only [.time, .cnt, .ports, .rofRest, .e2e] s t) ∧
  -- ATOMIC_RETENTION_EXPIRY
  (∀ (q : Fin 4) (src : BitVec 16) (tag : BitVec 64) (now : Nat) (r : Retained) (s : State), Running s →
    afind s.e2e.retained (q.val, src.toNat, tag.toNat) = some r → r.result.isSome = true →
    r.time + 2000000 ≤ max s.time now →
    ∃ t, exec (.atomicRetentionExpiry q src tag now) s = .next t ∧
      afind t.e2e.retained (q.val, src.toNat, tag.toNat) = none ∧
      (∀ k, k ≠ (q.val, src.toNat, tag.toNat) → afind t.e2e.retained k = afind s.e2e.retained k) ∧
      Only [.time, .e2e] s t) ∧
  -- QUIET_PERIOD_END
  (∀ (now u : Nat) (s : State), Running s → s.e2e.quietUntil = some u → u ≤ max s.time now →
    (∀ c ∈ s.e2e.send, c.2.waiting = []) →
    exec (.quietPeriodEnd now) s = .next { s with time := max s.time now, e2e := { s.e2e with quietUntil := none } }) ∧
  -- SEQUENCE_QUARANTINE_EXPIRY
  (∀ (f : Flow) (now : Nat) (c : SendCtx) (p : Packet) (s : State), Running s → s.pair.st = .solo →
    sendCtx s (keyOf f) = some c → c.waiting = [p] → c.made = true → flowStall (advance now s) (keyOf f) c p = .none_ →
    ∃ t, exec (.sequenceQuarantineExpiry f now) s = .next t ∧ sendCtx t (keyOf f) = some { c with
        waiting := [], stall := 0, nextSeq := (c.nextSeq + 1) % 2 ^ 24, lastTx := max s.time now
        pkts := c.pkts.filter (fun x => !x.acked || decide (max s.time now < x.lastTx + 1100000)) ++
          [{ pkt := stamp (advance now s) { p with seq := BitVec.ofNat 24 c.nextSeq }, first := max s.time now
             lastTx := max s.time now }] } ∧
      Others sendCtx (keyOf f) s t ∧ Only [.time, .ports, .rofRest, .cnt, .e2e] s t)

/-- POOL TIME AND TRANSPORT SETTINGS COMPLETE (R325, R326, Tables 12.8, 12.9, 12.11): Time packets sent and taken, the
parent ports, the times of end-to-end delivery. Where the manual leaves a choice the statement rests on the model's,
named in log entries 5, 6, 7, 9, 11, 116, 117, 118, 186. -/
def Obligations.PoolTimeCommandsComplete : Prop :=
  -- TIME_EXCHANGE_TIMER
  (∀ (n : Fin 64) (now : Nat) (s : State), Running s → (port s n.val).st = .up →
    ∃ t, exec (.timeExchangeTimer n now) s = .next t ∧ (∃ k, (port t n.val).txq = (port s n.val).txq ++ [k] ∧ k.entry = none ∧ k.pkt.typ = 0x48 ∧ k.pkt.vc = 7 ∧ k.pkt.arg0 = BitVec.ofNat 64 (max s.time now) ∧
      k.pkt.src = BitVec.ofNat 16 (endpointOf s (n.val / 16)) ∧
      k.pkt.payload = leBytes 8 ((tget none s.e2e.timeEcho n.val).getD (0, 0)).1 ++
        leBytes 8 ((tget none s.e2e.timeEcho n.val).getD (0, 0)).2 ++ leBytes 1 (b2n s.e2e.locked + 2 * b2n s.e2e.root) ++
        leBytes 1 s.e2e.depth ++ leBytes 6 0) ∧ Others port n.val s t ∧ Only [.time, .ports] s t) ∧
  -- TIME_PACKET of another than the parent
  (∀ (n : Fin 64) (p : Packet) (q now : Nat) (s : State), Running s → PassesPlain n.val p q (advance now s) = true →
    p.typ = 0x48 → parentPort s ≠ some n.val ∨ s.e2e.root = true →
    ∃ t, exec (.timePacket n p now) s = .next t ∧ t.e2e = { s.e2e with
        timeEcho := tput none s.e2e.timeEcho n.val (some (p.arg0.toNat, max s.time now)) } ∧ t.time = max s.time now ∧
      SameMemory s t) ∧
  -- of the parent
  (∀ (n : Fin 64) (p : Packet) (q now : Nat) (s : State), Running s → PassesPlain n.val p q (advance now s) = true →
    p.typ = 0x48 → parentPort s = some n.val → s.e2e.root = false → leAt p.payload 0 8 ≠ 0 →
    ∃ t, exec (.timePacket n p now) s = .next t ∧
      t.e2e.offsetPs = BitVec.ofInt 32 (500 * ((leAt p.payload 8 8 - leAt p.payload 0 8 : Int) -
        ((max s.time now : Nat) - p.arg0.toNat))) ∧
      t.e2e.depth = min 255 (leAt p.payload 17 1 + 1) ∧ t.e2e.holdover = false ∧
      (s.e2e.everLocked = true → t.time = max s.time now) ∧
      (s.e2e.everLocked = false → t.time = ((max s.time now : Nat) + ((leAt p.payload 8 8 - leAt p.payload 0 8 : Int) -
        ((max s.time now : Nat) - p.arg0.toNat)) / 2).toNat) ∧
      tget none t.e2e.timeEcho n.val = some (p.arg0.toNat, max s.time now)) ∧
  -- SET_TIME_TREE
  (∀ (n : Fin 64) (v r : Bool) (m : Fin 64) (w : Bool) (s : State), Managed s → s.e2e.locked = false ∨ r = true →
    ∃ t, exec (.setTimeTree n v r m w) s = .next t ∧ t.out = .fm .ok [] :: s.out ∧ t.e2e = { s.e2e with
        parent := n.val, parentValid := v, root := r, alt := m.val, altValid := w
        depth := if r then 0 else s.e2e.depth } ∧ Only [.out, .e2e] s t) ∧
  -- with neither port UP
  (∀ (n : Fin 64) (v : Bool) (m : Fin 64) (w : Bool) (s : State), Managed s → s.e2e.locked = true →
    (port s n.val).st ≠ .up → (port s m.val).st ≠ .up →
    ∃ t, exec (.setTimeTree n v false m w) s = .next t ∧ t.e2e.locked = false ∧ t.e2e.holdover = true ∧
      t.e2e.lockTime = s.time ∧ Only [.out, .e2e] s t) ∧
  -- SET_E2E_CTRL
  (∀ (q : Fin 4) (a b : BitVec 10) (c : BitVec 8) (s : State), Managed s →
    ∃ t, exec (.setE2eCtrl q a b c) s = .next t ∧ t.out = .fm .ok [] :: s.out ∧
      resendUs t q.val = max 5 (min 1000 a.toNat) ∧ resendLimitUs t q.val = max 100 (min 900 b.toNat) ∧
      reasmUs t q.val = max 5 (min 200 c.toNat) ∧
      (∀ k, k ≠ q.val → resendUs t k = resendUs s k ∧ resendLimitUs t k = resendLimitUs s k ∧ reasmUs t k = reasmUs s k) ∧
      Only [.out, .e2e] s t)

/-- A STEP RUNS THE COMMAND AT THE FRONT of the queue with the queue's rest; with no command waiting pool time moves
on by one nanosecond and nothing else changes (DESIGN CHOICE of the model, see NOTES.md). Where the manual leaves a
choice the statement rests on the model's, named in log entries 3, 4. -/
def Obligations.StepRunsFrontCommand : Prop :=
  -- the front command
  (∀ (c : Instr) (rest : List Instr) (s : State), step { s with pending := c :: rest } = exec c { s with pending := rest }) ∧
  -- an empty queue
  (∀ (s : State), s.pending = [] → step s = .next { s with time := (s.time + 1) % 2 ^ 64 })

/-- THE STATE AFTER A COLD RESET (R17, R43, R305, R311, R458, Table 12.9): no command waits, no counter has counted,
Q0 holds the anchor role, nothing is bound or mapped, and the memory is canonical. Where the manual leaves a choice
the statement rests on the model's, named in log entries 1, 2, 14, 17. -/
def Obligations.ResetState : Prop :=
  Running State.reset ∧ State.reset.pending = [] ∧ State.reset.out = [] ∧ State.reset.fen.anchor = some 0 ∧
  State.reset.pair.st = .solo ∧ State.reset.pool.members = [] ∧ State.reset.e2e.send = [] ∧ State.reset.e2e.recv = [] ∧
  (∀ f n i, cntGet State.reset f n i = 0) ∧ (∀ h, (lease State.reset h).periodMs = 2000) ∧
  (∀ n, (port State.reset n).st = .disabled) ∧ (∀ n, (group State.reset n).st = .unbound) ∧
  (∀ n, (queue State.reset n).st = .disabled) ∧ (∀ d, (logDev State.reset d).bound = false) ∧
  (∀ q, resendUs State.reset q = 50 ∧ resendLimitUs State.reset q = 500 ∧ reasmUs State.reset q = 20) ∧
  MemoryCanonical State.reset ∧ AnchorLegal State.reset ∧ GradeLegal State.reset

/-- EVERY STEP KEEPS POOL MEMORY CANONICAL: addresses strictly rising, no byte of the value an unlisted address reads
as. Where the manual leaves a choice the statement rests on the model's, named in log entries 17. -/
def Obligations.EveryStepKeepsMemoryCanonical : Prop :=
  (∀ (s t : State), MemoryCanonical s → step s = .next t → MemoryCanonical t)

/-- EVERY STEP KEEPS THE ANCHOR ROLE LEGAL (R17, R19, R417, R418): it lies with Q0, with Q2, or with no quadrant.
Where the manual leaves a choice the statement rests on the model's, named in log entries 53, 143. -/
def Obligations.EveryStepKeepsAnchorLegal : Prop :=
  (∀ (s t : State), AnchorLegal s → step s = .next t → AnchorLegal t)

/-- NO COMMAND TOUCHES THE QUEUE OF WAITING COMMANDS OR THE GRADE of the device (R1). Where the manual leaves a choice
the statement rests on the model's, named in log entries 2, 3. -/
def Obligations.CommandsLeaveQueueAndGrade : Prop :=
  (∀ (c : Instr) (s t : State), exec c s = .next t → t.pending = s.pending ∧ t.grade = s.grade)

/-- THE ROUTE AND MULTICAST TABLES CHANGE ONLY BY SET_ROUTE AND SET_MCAST (R295, R298, R300): whatever else a device
in service is told, every entry keeps its value. A reset leaves the device in another phase. -/
def Obligations.RoutingTablesChangeOnlyByCommand : Prop :=
  (∀ (c : Instr) (s t : State), exec c s = .next t → t.clk.phase = .released → s.clk.phase = .released →
    (∀ d m, c ≠ .setRoute d m) → (∀ g m l v, c ≠ .setMcast g m l v) →
    t.rof.route = s.rof.route ∧ t.rof.mcast = s.rof.mcast)

/-- THE MEMBERSHIP TABLE CHANGES ONLY BY COMMANDS THAT MAY WRITE IT (R35, R395, R434, R443): no packet, host access or
timer makes an endpoint a member of a tenant. Where the manual leaves a choice the statement rests on the model's,
named in log entries 159. -/
def Obligations.MembershipChangesOnlyByCommand : Prop :=
  (∀ (c : Instr) (s t : State), exec c s = .next t → mayWriteMembers c = false → t.pool.members = s.pool.members)

/-- NO MONOTONIC COUNTER FALLS OR WRAPS (R457, R459): but by RESET_COUNTERS or a cold reset, every counter of Table
18.9 keeps at least its value and stays within 64 bits, and every bit of DPC_OBS_SAT that is set stays set. -/
def Obligations.CountersNeverFall : Prop :=
  (∀ (c : Instr) (s t : State), twf 0 s.cnt = true → (∀ f n i, cntGet s f n i ≤ 2 ^ 64 - 1) →
    (∀ r f n who, c ≠ .resetCounters r f n who) → exec c s = .next t →
    t.clk.phase = .released ∨ t.clk.resetCold = false →
    (∀ f n i, cntGet s f n i ≤ cntGet t f n i ∧ cntGet t f n i ≤ 2 ^ 64 - 1) ∧
    ∀ f n, (obsSat s f).testBit n = true → (obsSat t f).testBit n = true)

/-- A HALTED DEVICE TAKES NO COMMAND but those of the always-on domain, the resets, the freeze and the test access
port (R399, R442, R445, R453, R472): in reset, dormant, frozen, tripped or with a zeroised key store it stays as it
is. Where the manual leaves a choice the statement rests on the model's, named in log entries 10. -/
def Obligations.HaltedDeviceTakesNoCommand : Prop :=
  (∀ (c : Instr) (s : State), halted s = true → actsWhileHalted c = false → exec c s = .next s)

/-- A COMMAND OF ANOTHER ROLE IS POLICED (R401, Table 15.8): it changes nothing but pool time, and answers POLICED.
Where the manual leaves a choice the statement rests on the model's, named in log entries 8, 128. -/
def Obligations.OtherRolesArePoliced : Prop :=
  -- the Operator's commands without a time
  (∀ (r : Role) (d : Fin 64) (f : Fin 16) (i : Fin 4096) (g q : Fin 4) (m : BitVec 11) (on : Bool) (who pva n : Nat)
      (s : State), Managed s → r ≠ .operator →
    exec (.resetCounters r f d who) s = .next (said (.fm .policed []) s) ∧
    exec (.recWindow r d on who) s = .next (said (.fm .policed []) s) ∧
    exec (.recPeriod r m) s = .next (said (.fm .policed []) s) ∧
    exec (.obsSelect r f g q i on) s = .next (said (.fm .policed []) s) ∧
    (∀ e, exec (.loadSealed r e pva n) s = .next (said (.fm .policed []) s)) ∧
    (∀ c k v, exec (.semSet r who c k v) s = .next (said (.fm .policed []) s)) ∧
    (∀ p, exec (.chanRelease r who p) s = .next (said (.fm .policed []) s)) ∧
    ∀ o, exec (.objMark r who o) s = .next (said (.fm .policed []) s) ∧
      exec (.objRelease r who o) s = .next (said (.fm .policed []) s)) ∧
  -- with one
  (∀ (r : Role) (now : Nat) (lv : BitVec 32) (dg sg : BitVec 384) (on : Bool) (sig blob : List Byte) (s : State),
    Managed s → r ≠ .operator →
    exec (.activationRequest r now) s = .next (said (.fm .policed []) (advance now s)) ∧
    exec (.releaseKey r blob now) s = .next (said (.fm .policed []) (advance now s)) ∧
    exec (.firmwareTransfer r lv dg sg on sig now) s = .next (said (.fm .policed []) (advance now s)) ∧
    exec (.resetWarm r now) s = .next (said (.fm .policed []) (advance now s)) ∧
    exec (.enterDormant r now) s = .next (said (.fm .policed []) (advance now s))) ∧
  -- the Custodian's
  (∀ (r : Role) (now : Nat) (lv : BitVec 32) (dg : BitVec 384) (b : List Byte) (s : State), Managed s → r ≠ .custodian →
    exec (.installBcr r b dg) s = .next (said (.fm .policed []) s) ∧
    exec (.authoriseRollback r lv now) s = .next (said (.fm .policed []) (advance now s)) ∧
    exec (.clearRecorder r dg now) s = .next (said (.fm .policed []) (advance now s)) ∧
    exec (.resetCold r now) s = .next (said (.fm .policed []) (advance now s)))

/-- THE PACKET CRC (R314): CRC-32C over polynomial 0x1EDC_6F41, reflected, initial value and final XOR all ones, of
header bytes 0 to 27, four zero bytes and the payload; the CRC of "123456789" is 0xE306_9283. -/
def Obligations.PacketCrcRule : Prop :=
  (∀ (l : List Byte), crc32c l = polyCrc l) ∧
  (∀ (p : Packet), (headerBytes p).length = 28 ∧ packetCrc p = polyCrc (headerBytes p ++ [0, 0, 0, 0] ++ p.payload) ∧
    (crcOk p = true ↔ p.crc = polyCrc (headerBytes p ++ [0, 0, 0, 0] ++ p.payload))) ∧
  polyCrc [0x31, 0x32, 0x33, 0x34, 0x35, 0x36, 0x37, 0x38, 0x39] = 0xE3069283#32

/-- WHERE A LINE LIES (R350): its pseudo-channel, its address there, the frames its block uses there, and its home,
which no change of a stack moves. -/
def Obligations.AddressMapRule : Prop :=
  -- device-wide
  (∀ (a : Nat) (s : State), (block s (a / 268435456)).place = .deviceWide → (block s (a / 268435456)).grainLog2 ≤ 17 →
    pcOf s a = 512 * (a % 268435456 / 2 ^ (block s (a / 268435456)).grainLog2 % 4) +
      64 * (a % 268435456 / 2 ^ (block s (a / 268435456)).grainLog2 / 4 % 8) +
      a % 268435456 / 2 ^ (block s (a / 268435456)).grainLog2 / 32 % 64 ∧
    pcAddr s a = 131072 * (block s (a / 268435456)).frame +
      a % 268435456 / 2 ^ (block s (a / 268435456)).grainLog2 / 2048 * 2 ^ (block s (a / 268435456)).grainLog2 +
      a % 268435456 % 2 ^ (block s (a / 268435456)).grainLog2 ∧
    pcAddr s a / 131072 = (block s (a / 268435456)).frame) ∧
  -- local to a quadrant
  (∀ (a : Nat) (q : Fin 4) (s : State), (block s (a / 268435456)).place = .localTo q →
    (block s (a / 268435456)).grainLog2 ≤ 17 →
    pcOf s a = 512 * q.val + 64 * (a % 268435456 / 2 ^ (block s (a / 268435456)).grainLog2 % 8) +
      a % 268435456 / 2 ^ (block s (a / 268435456)).grainLog2 / 8 % 64 ∧
    pcAddr s a = 131072 * (block s (a / 268435456)).frame +
      a % 268435456 / 2 ^ (block s (a / 268435456)).grainLog2 / 512 * 2 ^ (block s (a / 268435456)).grainLog2 +
      a % 268435456 % 2 ^ (block s (a / 268435456)).grainLog2 ∧
    (block s (a / 268435456)).frame ≤ pcAddr s a / 131072 ∧
    pcAddr s a / 131072 ≤ (block s (a / 268435456)).frame + 3) ∧
  -- its home
  (∀ (a n : Nat) (x : Stack) (s : State), homeOf s a = pcOf s a / 512 ∧ homeOf (setStack n x s) a = homeOf s a)

/-- NO TWO BYTES OF A BLOCK SHARE A PLACE (R350): pseudo-channel and address there determine the byte. -/
def Obligations.AddressMapIsInjective : Prop :=
  (∀ (a b : Nat) (s : State), (block s (a / 268435456)).grainLog2 ≤ 17 → a / 268435456 = b / 268435456 →
    pcOf s a = pcOf s b → pcAddr s a = pcAddr s b → a = b)

/-- THE SCALE OF AN MX BLOCK (R214 steps 1 to 3): 0xFF with a NaN among its values, 0x7F where no finite value differs
from 0, otherwise the exponent of the largest magnitude less emax, clamped to −127 … 127, plus 127. -/
def Obligations.MxScaleRule : Prop :=
  -- a NaN
  (∀ (code : Nat) (l : List Fp), .nan ∈ l → mxScale code l = 0xFF) ∧
  -- no finite value but 0
  (∀ (code : Nat) (l : List Fp), .nan ∉ l → (∀ n m e, .fin n m e ∈ l → m = 0) → mxScale code l = 0x7F) ∧
  -- otherwise
  (∀ (code : Nat) (l : List Fp) (x : Fp) (k emax : Int), .nan ∉ l → x ∈ l → (∀ y ∈ l, magnitude y ≤ magnitude x) →
    (2 : ℚ) ^ k ≤ magnitude x → magnitude x < (2 : ℚ) ^ (k + 1) →
    (code = 1 ∧ emax = 2) ∨ (code = 2 ∧ emax = 4) ∨ (code = 3 ∧ emax = 2) →
    (mxScale code l : Int) = max (-127) (min 127 (k - emax)) + 127)

/-- EVERY FLOATING-POINT CODE SURVIVES (R209, R210, R216, R219): the value of a code that is no NaN, subnormals, zeros
and infinities included, is encoded as that code again in every rounding mode. -/
def Obligations.FloatCodesRoundTrip : Prop :=
  (∀ (code : Nat) (f : FmtSpec) (md : Round) (x : Nat), fmtSpec code = some f → x < 2 ^ (f.w + 1) → fpDecode f x ≠ .nan →
    fpEncode f md (fpDecode f x) = x)

/-- HOW A RECEIVER CLASSIFIES A PACKET (R307, Table 12.2), and how BASE moves past every SEQ accepted in order. -/
def Obligations.SequenceRule : Prop :=
  -- a flow without a context
  (∀ (q : Nat) (p : Packet) (s : State), recvCtx s (recvKey q p) = none → recvCount s q < 32768 →
    classify s q p = .new) ∧
  -- the four rows
  (∀ (q : Nat) (p : Packet) (c : RecvCtx) (d : Nat) (s : State), recvCtx s (recvKey q p) = some c → c.base < 2 ^ 24 →
    d < 2 ^ 24 → (c.base + d) % 2 ^ 24 = p.seq.toNat →
    (d ≤ 1023 → p.seq.toNat ∉ c.bits → classify s q p = .new) ∧
    (d ≤ 1023 → p.seq.toNat ∈ c.bits → classify s q p = .duplicate) ∧
    (1024 ≤ d → d ≤ 2 ^ 23 - 1 → classify s q p = .beyond) ∧
    (2 ^ 23 ≤ d → classify s q p = .duplicate)) ∧
  -- BASE
  (∀ (q : Nat) (p : Packet) (c : RecvCtx) (s : State), recvCtx s (recvKey q p) = some c → c.base < 2 ^ 24 → c.bits.Nodup →
    p.seq.toNat ∉ c.bits → (∀ x ∈ p.seq.toNat :: c.bits, (x + 2 ^ 24 - c.base) % 2 ^ 24 < 1024) →
    ∃ k c', recvCtx (noteArrival q p true s) (recvKey q p) = some c' ∧ c'.base = (c.base + k) % 2 ^ 24 ∧
      (∀ j, j < k → (c.base + j) % 2 ^ 24 ∈ p.seq.toNat :: c.bits) ∧ c'.base ∉ p.seq.toNat :: c.bits ∧
      (∀ x, x ∈ c'.bits ↔ x ∈ p.seq.toNat :: c.bits ∧ ∀ j, j < k → x ≠ (c.base + j) % 2 ^ 24) ∧
      c'.lastArrival = s.time ∧ Others recvCtx (recvKey q p) s (noteArrival q p true s))

/-- THE ROUTE OF A PACKET (R295): a port of the mask that is UP and is not the entry port; none only where none is
left; for an adaptive packet no other such port costs less, and of two that cost the same the next after the last
chosen is taken. -/
def Obligations.RouteChoiceRule : Prop :=
  -- a port is chosen
  (∀ (q : Nat) (p : Packet) (e : Option Nat) (n : Nat) (s : State), choosePort s q p e = some n →
    n < 64 ∧ (tget 0 s.rof.route p.dst.toNat).getLsbD n = true ∧ (port s n).st = .up ∧ e ≠ some n) ∧
  -- none
  (∀ (q : Nat) (p : Packet) (e : Option Nat) (n : Nat) (s : State), choosePort s q p e = none → n < 64 →
    (tget 0 s.rof.route p.dst.toNat).getLsbD n = false ∨ (port s n).st ≠ .up ∨ e = some n) ∧
  -- the cheapest
  (∀ (q : Nat) (p : Packet) (e : Option Nat) (n m : Nat) (s : State), choosePort s q p e = some n → p.pin = false →
    p.vc ≠ 7 → tget 63 s.rof.lastPort q < 64 → m < 64 → (tget 0 s.rof.route p.dst.toNat).getLsbD m = true →
    (port s m).st = .up → e ≠ some m →
    routeCost s q p.vc.toNat n < routeCost s q p.vc.toNat m ∨
    (routeCost s q p.vc.toNat n = routeCost s q p.vc.toNat m ∧
      (n + 127 - tget 63 s.rof.lastPort q) % 64 ≤ (m + 127 - tget 63 s.rof.lastPort q) % 64))

/-- A TRANSLATION STAYS IN ITS TENANT (R28, R38, R48, R70, Table 3.3): what a walk answers lies in a block of a mapped
extent of the tenant named, at the offset of the address, and the participant has the right; a sealed region gives an
admitted in-pool read alone. Where the manual leaves a choice the statement rests on the model's, named in log entries
19, 188. -/
def Obligations.TranslationStaysInTenant : Prop :=
  (∀ (q ten a : Nat) (who : Part) (via : Via) (acc : Access) (ppa : Nat) (lf : Leaf) (s : State),
    twf {} s.pool.extents = true → (xunit s q).tlb = [] →
    (translate q ten a who via acc s).1.toOption = some (ppa, lf) →
    ∃ e, (extent s e).tenant = ten ∧ mappedSt (extent s e).st = true ∧ (extent s e).pvaBase ≤ a ∧
      a < (extent s e).pvaBase + (extent s e).blocks.length * 268435456 ∧ lf.extent = e ∧
      (extent s e).blocks[(a - (extent s e).pvaBase) / 268435456]? = some (ppa / 268435456) ∧
      ppa % 268435456 = (a - (extent s e).pvaBase) % 268435456 ∧
      ((extent s e).kind = .sealed → acc = .read ∧ via = .inPool true) ∧
      (acc = .read ∨ acc = .own → (effRights lf who).read = true) ∧
      (acc = .write ∨ acc = .own → (effRights lf who).write = true) ∧
      (acc = .reduce → (effRights lf who).reduce = true) ∧ (acc = .atomic → (effRights lf who).atomic = true))

/-- THE WRITES OF A TENANT THAT IS BEING REMOVED ARE IGNORED (R484): from the moment it leaves ACTIVE and REKEYING no
BAR0 or BAR4 write of a logical device bound to it has an effect; its reads go on. -/
def Obligations.RevokedWritesAreIgnored : Prop :=
  -- BAR0 and BAR4 writes
  (∀ (a : RegAccess) (v : BitVec 64) (o : Nat) (s : State), Running s → a.mgmt = false → a.write = some v →
    a.place = .bar0 o ∨ a.place = .bar4 o → (logDev s a.ld.val).bound = true →
    (tenant s (logDev s a.ld.val).tenant).st ≠ .active → (tenant s (logDev s a.ld.val).tenant).st ≠ .rekeying →
    exec (.registerWrite a) s = .next s ∧ exec (.cursorWrite a.ld v) s = .next s) ∧
  -- reads
  (∀ (a : RegAccess) (o v : Nat) (sc : Scope) (s : State), Running s → a.mgmt = false → a.write = none →
    a.place = .bar0 o → a.size = 8 → o % 8 = 0 → (logDev s a.ld.val).bound = true →
    (tenant s (logDev s a.ld.val).tenant).st ≠ .active → (tenant s (logDev s a.ld.val).tenant).st ≠ .rekeying →
    isComp o = false → isMsix o = false → isPba o = false → regAt s a.ld.val o = some (sc, v) →
    exec (.registerWrite a) s = .next (said (.data (leBytes 8 (if mayRead s a sc then v else 0))) s))

/-- BAR2 (R480): it accepts aligned 8-byte writes of the owner of the doorbell's group, each a doorbell of its queue;
every other write is ignored, and a 32-bit one or another's doorbell counts in FOREIGN_ACCESS; every read returns 0.
-/
def Obligations.Bar2TakesDoorbells : Prop :=
  -- reads
  (∀ (a : RegAccess) (o : Nat) (s : State), Reached a s → a.place = .bar2 o → a.write = none →
    exec (.registerWrite a) s = .next (said (.data (List.replicate a.size 0)) s)) ∧
  -- other writes
  (∀ (a : RegAccess) (o : Nat) (v : BitVec 64) (s : State), Reached a s → a.place = .bar2 o → a.write = some v →
    a.size ≠ 8 ∨ o % 8 ≠ 0 ∨ ownsGroup s a.ld.val (o / 64) = false →
    ∃ t, exec (.registerWrite a) s = .next t ∧ Only [.cnt] s t ∧
      (a.size = 4 ∨ (a.size = 8 ∧ o % 8 = 0) → cntGet t cQue 0 2 = satAdd (2 ^ 64 - 1) (cntGet s cQue 0 2) 1)) ∧
  -- the owner's doorbells
  (∀ (a : RegAccess) (n : Fin 8192) (v : BitVec 64) (s : State), Running s → a.place = .bar2 (8 * n.val) → a.write = some v →
    a.size = 8 → a.mgmt = false → ownsGroup s a.ld.val (n.val / 8) = true →
    (v.toNat / 2 ^ 32 % 4 = 0 → exec (.registerWrite a) s =
      exec (.sqTailDoorbell n (BitVec.ofNat 32 v.toNat) (BitVec.ofNat 30 (v.toNat / 2 ^ 34))) s) ∧
    (v.toNat / 2 ^ 32 % 4 = 1 → exec (.registerWrite a) s =
      exec (.cqHeadDoorbell n (BitVec.ofNat 32 v.toNat) (BitVec.ofNat 30 (v.toNat / 2 ^ 34))) s) ∧
    (v.toNat / 2 ^ 32 % 4 = 2 → exec (.registerWrite a) s =
      exec (.heartbeatDoorbell n (BitVec.ofNat 32 v.toNat) (BitVec.ofNat 30 (v.toNat / 2 ^ 34))) s) ∧
    (v.toNat / 2 ^ 32 % 4 = 3 → exec (.registerWrite a) s =
      exec (.reservedKindDoorbell n (BitVec.ofNat 32 v.toNat) (BitVec.ofNat 30 (v.toNat / 2 ^ 34))) s))

/-- A WELL-FORMED READ CHANGES NO DEVICE STATE (R478): it sends the data, and nothing else moves but the model's own
count of open values (log entries on the CXL-defined registers). Where the manual leaves a choice the statement rests
on the model's, named in log entries 44, 47. -/
def Obligations.ReadsChangeNothing : Prop :=
  (∀ (a : RegAccess) (s : State), Reached a s → a.write = none → (∀ o, a.place = .bar0 o → readFits o a.size = true) →
    ∃ t, exec (.registerWrite a) s = .next t ∧ (∃ d, t.out = .data d :: s.out ∧ d.length = a.size) ∧
      Only [.out, .free] s t)
end

