-- ==== Sys2Proof/Laws/Tbl.lean ====
section
/-! SUPPORT. Laws of tables: reading after a write, and the canonical form that every table operation keeps. -/

namespace Sys2Proof.Machine

variable {α : Type}

@[simp] theorem tget_nil (d : α) (k : Nat) : tget d [] k = d := rfl

theorem tget_terase_same (d : α) (t : Tbl α) (k : Nat) : tget d (terase t k) k = d := by
  induction t with
  | nil => rfl
  | cons c r ih =>
    obtain ⟨a, v⟩ := c
    unfold terase at ih ⊢
    by_cases h : a = k
    · simpa [h] using ih
    · simp only [List.filter_cons, bne_iff_ne, ne_eq, h, not_false_eq_true, if_true, tget]
      rw [if_neg (fun e => h e.symm)]; exact ih

theorem tget_terase_ne (d : α) (t : Tbl α) {k j : Nat} (h : j ≠ k) : tget d (terase t k) j = tget d t j := by
  induction t with
  | nil => rfl
  | cons c r ih =>
    obtain ⟨a, v⟩ := c
    unfold terase at ih ⊢
    by_cases e : a = k
    · simp only [List.filter_cons, bne_iff_ne, ne_eq, e, not_true_eq_false, if_false, tget]
      rw [if_neg h]; exact ih
    · simp only [List.filter_cons, bne_iff_ne, ne_eq, e, not_false_eq_true, if_true, tget]
      rw [ih]

theorem tget_tinsert (d v : α) (k j : Nat) (t : Tbl α) :
    tget d (tinsert k v t) j = if j = k then v else tget d t j := by
  induction t with
  | nil => simp [tinsert, tget]
  | cons c r ih =>
    obtain ⟨a, w⟩ := c
    unfold tinsert
    split
    · rfl
    · split
      · rename_i e; subst e; simp only [tget]; split <;> rfl
      · rename_i hne
        simp only [tget, ih]
        by_cases h : j = a
        · subst h; simp only [if_true]; rw [if_neg (fun e => hne e.symm)]
        · simp [h]

/-- Reading after a write: the value at the key, every other key as before. -/
theorem tget_tput [DecidableEq α] (d v : α) (t : Tbl α) (k j : Nat) :
    tget d (tput d t k v) j = if j = k then v else tget d t j := by
  unfold tput
  split
  · rename_i e
    by_cases h : j = k
    · subst h; simp [tget_terase_same, e]
    · simp [tget_terase_ne d t h, h]
  · exact tget_tinsert d v k j t

@[simp] theorem tget_tput_same [DecidableEq α] (d v : α) (t : Tbl α) (k : Nat) : tget d (tput d t k v) k = v := by
  simp [tget_tput]

theorem tget_tput_ne [DecidableEq α] (d v : α) (t : Tbl α) {k j : Nat} (h : j ≠ k) :
    tget d (tput d t k v) j = tget d t j := by
  simp [tget_tput, h]

theorem tget_tmod [DecidableEq α] (d : α) (t : Tbl α) (k j : Nat) (f : α → α) :
    tget d (tmod d t k f) j = if j = k then f (tget d t k) else tget d t j := tget_tput d _ t k j

/-! The canonical form. -/

theorem twfFrom_mono [DecidableEq α] (d : α) {lo lo' : Nat} (h : lo' ≤ lo) (t : Tbl α) :
    twfFrom d lo t = true → twfFrom d lo' t = true := by
  cases t with
  | nil => intro _; rfl
  | cons c r =>
    obtain ⟨a, v⟩ := c
    simp only [twfFrom, Bool.and_eq_true, decide_eq_true_eq]
    rintro ⟨⟨h1, h2⟩, h3⟩
    exact ⟨⟨by omega, h2⟩, h3⟩

theorem twfFrom_filter [DecidableEq α] (d : α) (p : Nat × α → Bool) (lo : Nat) (t : Tbl α) :
    twfFrom d lo t = true → twfFrom d lo (t.filter p) = true := by
  induction t generalizing lo with
  | nil => intro _; rfl
  | cons c r ih =>
    obtain ⟨a, v⟩ := c
    simp only [twfFrom, Bool.and_eq_true, decide_eq_true_eq]
    rintro ⟨⟨h1, h2⟩, h3⟩
    rw [List.filter_cons]
    split
    · simp only [twfFrom, Bool.and_eq_true, decide_eq_true_eq]
      exact ⟨⟨h1, h2⟩, ih _ h3⟩
    · exact twfFrom_mono d (by omega) _ (ih _ h3)

theorem twfFrom_tinsert [DecidableEq α] {d v : α} (hv : v ≠ d) {k lo : Nat} (hk : lo ≤ k) (t : Tbl α) :
    twfFrom d lo t = true → twfFrom d lo (tinsert k v t) = true := by
  induction t generalizing lo with
  | nil => intro _; simp [tinsert, twfFrom, hv, hk]
  | cons c r ih =>
    obtain ⟨a, w⟩ := c
    simp only [twfFrom, Bool.and_eq_true, decide_eq_true_eq]
    rintro ⟨⟨h1, h2⟩, h3⟩
    unfold tinsert
    split
    · simp only [twfFrom, Bool.and_eq_true, decide_eq_true_eq]
      exact ⟨⟨hk, hv⟩, ⟨by omega, h2⟩, h3⟩
    · split
      · rename_i e; subst e
        simp only [twfFrom, Bool.and_eq_true, decide_eq_true_eq]
        exact ⟨⟨h1, hv⟩, h3⟩
      · simp only [twfFrom, Bool.and_eq_true, decide_eq_true_eq]
        exact ⟨⟨h1, h2⟩, ih (by omega) h3⟩

/-- A write keeps the canonical form. -/
theorem twf_tput [DecidableEq α] (d v : α) {t : Tbl α} (k : Nat) (h : twf d t = true) : twf d (tput d t k v) = true := by
  unfold tput
  split
  · exact twfFrom_filter d _ 0 t h
  · rename_i hv; exact twfFrom_tinsert hv (Nat.zero_le k) t h

theorem twf_tclear [DecidableEq α] (d : α) {t : Tbl α} (lo hi : Nat) (h : twf d t = true) : twf d (tclear t lo hi) = true :=
  twfFrom_filter d _ 0 t h

/-! Pool memory. -/

/-- Storing a run of bytes keeps the canonical form of memory. -/
theorem putBytes_wf (l : List Byte) (a : Nat) (m : List Host.Cell) (h : Memory.wf m = true) :
    Memory.wf (putBytes l a m) = true := by
  induction l generalizing a m with
  | nil => exact h
  | cons b r ih => exact ih _ _ (twf_tput 0 b a h)

end Sys2Proof.Machine
end

