-- ==== Sys2Proof/Laws/State.lean ====
section
/-! SUPPORT. The state's updates: what each setter leaves as it was, one lemma per field, and reading after a write. -/

namespace Sys2Proof.Machine

@[simp] theorem setXunit_pending (q : Nat) (u : XltUnit) (s : State) : (setXunit q u s).pending = s.pending := rfl
@[simp] theorem setXunit_out (q : Nat) (u : XltUnit) (s : State) : (setXunit q u s).out = s.out := rfl
@[simp] theorem setXunit_time (q : Nat) (u : XltUnit) (s : State) : (setXunit q u s).time = s.time := rfl
@[simp] theorem setXunit_free (q : Nat) (u : XltUnit) (s : State) : (setXunit q u s).free = s.free := rfl
@[simp] theorem setXunit_grade (q : Nat) (u : XltUnit) (s : State) : (setXunit q u s).grade = s.grade := rfl
@[simp] theorem setXunit_cnt (q : Nat) (u : XltUnit) (s : State) : (setXunit q u s).cnt = s.cnt := rfl
@[simp] theorem setXunit_obs (q : Nat) (u : XltUnit) (s : State) : (setXunit q u s).obs = s.obs := rfl
@[simp] theorem setXunit_pool (q : Nat) (u : XltUnit) (s : State) : (setXunit q u s).pool = s.pool := rfl
@[simp] theorem setXunit_dir (q : Nat) (u : XltUnit) (s : State) : (setXunit q u s).dir = s.dir := rfl
@[simp] theorem setXunit_mem (q : Nat) (u : XltUnit) (s : State) : (setXunit q u s).mem = s.mem := rfl
@[simp] theorem setXunit_rof (q : Nat) (u : XltUnit) (s : State) : (setXunit q u s).rof = s.rof := rfl
@[simp] theorem setXunit_e2e (q : Nat) (u : XltUnit) (s : State) : (setXunit q u s).e2e = s.e2e := rfl
@[simp] theorem setXunit_que (q : Nat) (u : XltUnit) (s : State) : (setXunit q u s).que = s.que := rfl
@[simp] theorem setXunit_nm (q : Nat) (u : XltUnit) (s : State) : (setXunit q u s).nm = s.nm := rfl
@[simp] theorem setXunit_core (q : Nat) (u : XltUnit) (s : State) : (setXunit q u s).core = s.core := rfl
@[simp] theorem setXunit_sch (q : Nat) (u : XltUnit) (s : State) : (setXunit q u s).sch = s.sch := rfl
@[simp] theorem setXunit_cxl (q : Nat) (u : XltUnit) (s : State) : (setXunit q u s).cxl = s.cxl := rfl
@[simp] theorem setXunit_sec (q : Nat) (u : XltUnit) (s : State) : (setXunit q u s).sec = s.sec := rfl
@[simp] theorem setXunit_fen (q : Nat) (u : XltUnit) (s : State) : (setXunit q u s).fen = s.fen := rfl
@[simp] theorem setXunit_pair (q : Nat) (u : XltUnit) (s : State) : (setXunit q u s).pair = s.pair := rfl
@[simp] theorem setXunit_clk (q : Nat) (u : XltUnit) (s : State) : (setXunit q u s).clk = s.clk := rfl
@[simp] theorem setXunit_map (q : Nat) (u : XltUnit) (s : State) : (setXunit q u s).map = s.map := rfl
@[simp] theorem xunit_setXunit (q j : Nat) (u : XltUnit) (s : State) :
    xunit (setXunit q u s) j = if j = q then u else xunit s j := tget_tput _ _ _ _ _

@[simp] theorem setRoots_pending (t : Nat) (r : Roots) (s : State) : (setRoots t r s).pending = s.pending := rfl
@[simp] theorem setRoots_out (t : Nat) (r : Roots) (s : State) : (setRoots t r s).out = s.out := rfl
@[simp] theorem setRoots_time (t : Nat) (r : Roots) (s : State) : (setRoots t r s).time = s.time := rfl
@[simp] theorem setRoots_free (t : Nat) (r : Roots) (s : State) : (setRoots t r s).free = s.free := rfl
@[simp] theorem setRoots_grade (t : Nat) (r : Roots) (s : State) : (setRoots t r s).grade = s.grade := rfl
@[simp] theorem setRoots_cnt (t : Nat) (r : Roots) (s : State) : (setRoots t r s).cnt = s.cnt := rfl
@[simp] theorem setRoots_obs (t : Nat) (r : Roots) (s : State) : (setRoots t r s).obs = s.obs := rfl
@[simp] theorem setRoots_pool (t : Nat) (r : Roots) (s : State) : (setRoots t r s).pool = s.pool := rfl
@[simp] theorem setRoots_dir (t : Nat) (r : Roots) (s : State) : (setRoots t r s).dir = s.dir := rfl
@[simp] theorem setRoots_mem (t : Nat) (r : Roots) (s : State) : (setRoots t r s).mem = s.mem := rfl
@[simp] theorem setRoots_rof (t : Nat) (r : Roots) (s : State) : (setRoots t r s).rof = s.rof := rfl
@[simp] theorem setRoots_e2e (t : Nat) (r : Roots) (s : State) : (setRoots t r s).e2e = s.e2e := rfl
@[simp] theorem setRoots_que (t : Nat) (r : Roots) (s : State) : (setRoots t r s).que = s.que := rfl
@[simp] theorem setRoots_nm (t : Nat) (r : Roots) (s : State) : (setRoots t r s).nm = s.nm := rfl
@[simp] theorem setRoots_core (t : Nat) (r : Roots) (s : State) : (setRoots t r s).core = s.core := rfl
@[simp] theorem setRoots_sch (t : Nat) (r : Roots) (s : State) : (setRoots t r s).sch = s.sch := rfl
@[simp] theorem setRoots_cxl (t : Nat) (r : Roots) (s : State) : (setRoots t r s).cxl = s.cxl := rfl
@[simp] theorem setRoots_sec (t : Nat) (r : Roots) (s : State) : (setRoots t r s).sec = s.sec := rfl
@[simp] theorem setRoots_fen (t : Nat) (r : Roots) (s : State) : (setRoots t r s).fen = s.fen := rfl
@[simp] theorem setRoots_pair (t : Nat) (r : Roots) (s : State) : (setRoots t r s).pair = s.pair := rfl
@[simp] theorem setRoots_clk (t : Nat) (r : Roots) (s : State) : (setRoots t r s).clk = s.clk := rfl
@[simp] theorem setRoots_map (t : Nat) (r : Roots) (s : State) : (setRoots t r s).map = s.map := rfl
@[simp] theorem roots_setRoots (t j : Nat) (r : Roots) (s : State) :
    roots (setRoots t r s) j = if j = t then r else roots s j := tget_tput _ _ _ _ _

@[simp] theorem setExtent_pending (e : Nat) (x : Extent) (s : State) : (setExtent e x s).pending = s.pending := rfl
@[simp] theorem setExtent_out (e : Nat) (x : Extent) (s : State) : (setExtent e x s).out = s.out := rfl
@[simp] theorem setExtent_time (e : Nat) (x : Extent) (s : State) : (setExtent e x s).time = s.time := rfl
@[simp] theorem setExtent_free (e : Nat) (x : Extent) (s : State) : (setExtent e x s).free = s.free := rfl
@[simp] theorem setExtent_grade (e : Nat) (x : Extent) (s : State) : (setExtent e x s).grade = s.grade := rfl
@[simp] theorem setExtent_cnt (e : Nat) (x : Extent) (s : State) : (setExtent e x s).cnt = s.cnt := rfl
@[simp] theorem setExtent_obs (e : Nat) (x : Extent) (s : State) : (setExtent e x s).obs = s.obs := rfl
@[simp] theorem setExtent_xlt (e : Nat) (x : Extent) (s : State) : (setExtent e x s).xlt = s.xlt := rfl
@[simp] theorem setExtent_dir (e : Nat) (x : Extent) (s : State) : (setExtent e x s).dir = s.dir := rfl
@[simp] theorem setExtent_mem (e : Nat) (x : Extent) (s : State) : (setExtent e x s).mem = s.mem := rfl
@[simp] theorem setExtent_rof (e : Nat) (x : Extent) (s : State) : (setExtent e x s).rof = s.rof := rfl
@[simp] theorem setExtent_e2e (e : Nat) (x : Extent) (s : State) : (setExtent e x s).e2e = s.e2e := rfl
@[simp] theorem setExtent_que (e : Nat) (x : Extent) (s : State) : (setExtent e x s).que = s.que := rfl
@[simp] theorem setExtent_nm (e : Nat) (x : Extent) (s : State) : (setExtent e x s).nm = s.nm := rfl
@[simp] theorem setExtent_core (e : Nat) (x : Extent) (s : State) : (setExtent e x s).core = s.core := rfl
@[simp] theorem setExtent_sch (e : Nat) (x : Extent) (s : State) : (setExtent e x s).sch = s.sch := rfl
@[simp] theorem setExtent_cxl (e : Nat) (x : Extent) (s : State) : (setExtent e x s).cxl = s.cxl := rfl
@[simp] theorem setExtent_sec (e : Nat) (x : Extent) (s : State) : (setExtent e x s).sec = s.sec := rfl
@[simp] theorem setExtent_fen (e : Nat) (x : Extent) (s : State) : (setExtent e x s).fen = s.fen := rfl
@[simp] theorem setExtent_pair (e : Nat) (x : Extent) (s : State) : (setExtent e x s).pair = s.pair := rfl
@[simp] theorem setExtent_clk (e : Nat) (x : Extent) (s : State) : (setExtent e x s).clk = s.clk := rfl
@[simp] theorem setExtent_map (e : Nat) (x : Extent) (s : State) : (setExtent e x s).map = s.map := rfl
@[simp] theorem extent_setExtent (e j : Nat) (x : Extent) (s : State) :
    extent (setExtent e x s) j = if j = e then x else extent s j := tget_tput _ _ _ _ _

@[simp] theorem setKite_pending (k : Nat) (x : Option Kite) (s : State) : (setKite k x s).pending = s.pending := rfl
@[simp] theorem setKite_out (k : Nat) (x : Option Kite) (s : State) : (setKite k x s).out = s.out := rfl
@[simp] theorem setKite_time (k : Nat) (x : Option Kite) (s : State) : (setKite k x s).time = s.time := rfl
@[simp] theorem setKite_free (k : Nat) (x : Option Kite) (s : State) : (setKite k x s).free = s.free := rfl
@[simp] theorem setKite_grade (k : Nat) (x : Option Kite) (s : State) : (setKite k x s).grade = s.grade := rfl
@[simp] theorem setKite_cnt (k : Nat) (x : Option Kite) (s : State) : (setKite k x s).cnt = s.cnt := rfl
@[simp] theorem setKite_obs (k : Nat) (x : Option Kite) (s : State) : (setKite k x s).obs = s.obs := rfl
@[simp] theorem setKite_xlt (k : Nat) (x : Option Kite) (s : State) : (setKite k x s).xlt = s.xlt := rfl
@[simp] theorem setKite_dir (k : Nat) (x : Option Kite) (s : State) : (setKite k x s).dir = s.dir := rfl
@[simp] theorem setKite_mem (k : Nat) (x : Option Kite) (s : State) : (setKite k x s).mem = s.mem := rfl
@[simp] theorem setKite_rof (k : Nat) (x : Option Kite) (s : State) : (setKite k x s).rof = s.rof := rfl
@[simp] theorem setKite_e2e (k : Nat) (x : Option Kite) (s : State) : (setKite k x s).e2e = s.e2e := rfl
@[simp] theorem setKite_que (k : Nat) (x : Option Kite) (s : State) : (setKite k x s).que = s.que := rfl
@[simp] theorem setKite_nm (k : Nat) (x : Option Kite) (s : State) : (setKite k x s).nm = s.nm := rfl
@[simp] theorem setKite_core (k : Nat) (x : Option Kite) (s : State) : (setKite k x s).core = s.core := rfl
@[simp] theorem setKite_sch (k : Nat) (x : Option Kite) (s : State) : (setKite k x s).sch = s.sch := rfl
@[simp] theorem setKite_cxl (k : Nat) (x : Option Kite) (s : State) : (setKite k x s).cxl = s.cxl := rfl
@[simp] theorem setKite_sec (k : Nat) (x : Option Kite) (s : State) : (setKite k x s).sec = s.sec := rfl
@[simp] theorem setKite_fen (k : Nat) (x : Option Kite) (s : State) : (setKite k x s).fen = s.fen := rfl
@[simp] theorem setKite_pair (k : Nat) (x : Option Kite) (s : State) : (setKite k x s).pair = s.pair := rfl
@[simp] theorem setKite_clk (k : Nat) (x : Option Kite) (s : State) : (setKite k x s).clk = s.clk := rfl
@[simp] theorem setKite_map (k : Nat) (x : Option Kite) (s : State) : (setKite k x s).map = s.map := rfl
@[simp] theorem kite_setKite (k j : Nat) (x : Option Kite) (s : State) :
    kite (setKite k x s) j = if j = k then x else kite s j := tget_tput _ _ _ _ _

@[simp] theorem setLine_pending (l : Nat) (x : Line) (s : State) : (setLine l x s).pending = s.pending := rfl
@[simp] theorem setLine_out (l : Nat) (x : Line) (s : State) : (setLine l x s).out = s.out := rfl
@[simp] theorem setLine_time (l : Nat) (x : Line) (s : State) : (setLine l x s).time = s.time := rfl
@[simp] theorem setLine_free (l : Nat) (x : Line) (s : State) : (setLine l x s).free = s.free := rfl
@[simp] theorem setLine_grade (l : Nat) (x : Line) (s : State) : (setLine l x s).grade = s.grade := rfl
@[simp] theorem setLine_cnt (l : Nat) (x : Line) (s : State) : (setLine l x s).cnt = s.cnt := rfl
@[simp] theorem setLine_obs (l : Nat) (x : Line) (s : State) : (setLine l x s).obs = s.obs := rfl
@[simp] theorem setLine_pool (l : Nat) (x : Line) (s : State) : (setLine l x s).pool = s.pool := rfl
@[simp] theorem setLine_xlt (l : Nat) (x : Line) (s : State) : (setLine l x s).xlt = s.xlt := rfl
@[simp] theorem setLine_mem (l : Nat) (x : Line) (s : State) : (setLine l x s).mem = s.mem := rfl
@[simp] theorem setLine_rof (l : Nat) (x : Line) (s : State) : (setLine l x s).rof = s.rof := rfl
@[simp] theorem setLine_e2e (l : Nat) (x : Line) (s : State) : (setLine l x s).e2e = s.e2e := rfl
@[simp] theorem setLine_que (l : Nat) (x : Line) (s : State) : (setLine l x s).que = s.que := rfl
@[simp] theorem setLine_nm (l : Nat) (x : Line) (s : State) : (setLine l x s).nm = s.nm := rfl
@[simp] theorem setLine_core (l : Nat) (x : Line) (s : State) : (setLine l x s).core = s.core := rfl
@[simp] theorem setLine_sch (l : Nat) (x : Line) (s : State) : (setLine l x s).sch = s.sch := rfl
@[simp] theorem setLine_cxl (l : Nat) (x : Line) (s : State) : (setLine l x s).cxl = s.cxl := rfl
@[simp] theorem setLine_sec (l : Nat) (x : Line) (s : State) : (setLine l x s).sec = s.sec := rfl
@[simp] theorem setLine_fen (l : Nat) (x : Line) (s : State) : (setLine l x s).fen = s.fen := rfl
@[simp] theorem setLine_pair (l : Nat) (x : Line) (s : State) : (setLine l x s).pair = s.pair := rfl
@[simp] theorem setLine_clk (l : Nat) (x : Line) (s : State) : (setLine l x s).clk = s.clk := rfl
@[simp] theorem setLine_map (l : Nat) (x : Line) (s : State) : (setLine l x s).map = s.map := rfl
@[simp] theorem line_setLine (l j : Nat) (x : Line) (s : State) :
    line (setLine l x s) j = if j = l then x else line s j := tget_tput _ _ _ _ _

@[simp] theorem setBlock_pending (b : Nat) (x : BlockEnt) (s : State) : (setBlock b x s).pending = s.pending := rfl
@[simp] theorem setBlock_out (b : Nat) (x : BlockEnt) (s : State) : (setBlock b x s).out = s.out := rfl
@[simp] theorem setBlock_time (b : Nat) (x : BlockEnt) (s : State) : (setBlock b x s).time = s.time := rfl
@[simp] theorem setBlock_free (b : Nat) (x : BlockEnt) (s : State) : (setBlock b x s).free = s.free := rfl
@[simp] theorem setBlock_grade (b : Nat) (x : BlockEnt) (s : State) : (setBlock b x s).grade = s.grade := rfl
@[simp] theorem setBlock_cnt (b : Nat) (x : BlockEnt) (s : State) : (setBlock b x s).cnt = s.cnt := rfl
@[simp] theorem setBlock_obs (b : Nat) (x : BlockEnt) (s : State) : (setBlock b x s).obs = s.obs := rfl
@[simp] theorem setBlock_pool (b : Nat) (x : BlockEnt) (s : State) : (setBlock b x s).pool = s.pool := rfl
@[simp] theorem setBlock_xlt (b : Nat) (x : BlockEnt) (s : State) : (setBlock b x s).xlt = s.xlt := rfl
@[simp] theorem setBlock_dir (b : Nat) (x : BlockEnt) (s : State) : (setBlock b x s).dir = s.dir := rfl
@[simp] theorem setBlock_rof (b : Nat) (x : BlockEnt) (s : State) : (setBlock b x s).rof = s.rof := rfl
@[simp] theorem setBlock_e2e (b : Nat) (x : BlockEnt) (s : State) : (setBlock b x s).e2e = s.e2e := rfl
@[simp] theorem setBlock_que (b : Nat) (x : BlockEnt) (s : State) : (setBlock b x s).que = s.que := rfl
@[simp] theorem setBlock_nm (b : Nat) (x : BlockEnt) (s : State) : (setBlock b x s).nm = s.nm := rfl
@[simp] theorem setBlock_core (b : Nat) (x : BlockEnt) (s : State) : (setBlock b x s).core = s.core := rfl
@[simp] theorem setBlock_sch (b : Nat) (x : BlockEnt) (s : State) : (setBlock b x s).sch = s.sch := rfl
@[simp] theorem setBlock_cxl (b : Nat) (x : BlockEnt) (s : State) : (setBlock b x s).cxl = s.cxl := rfl
@[simp] theorem setBlock_sec (b : Nat) (x : BlockEnt) (s : State) : (setBlock b x s).sec = s.sec := rfl
@[simp] theorem setBlock_fen (b : Nat) (x : BlockEnt) (s : State) : (setBlock b x s).fen = s.fen := rfl
@[simp] theorem setBlock_pair (b : Nat) (x : BlockEnt) (s : State) : (setBlock b x s).pair = s.pair := rfl
@[simp] theorem setBlock_clk (b : Nat) (x : BlockEnt) (s : State) : (setBlock b x s).clk = s.clk := rfl
@[simp] theorem setBlock_map (b : Nat) (x : BlockEnt) (s : State) : (setBlock b x s).map = s.map := rfl
@[simp] theorem block_setBlock (b j : Nat) (x : BlockEnt) (s : State) :
    block (setBlock b x s) j = if j = b then x else block s j := tget_tput _ _ _ _ _

@[simp] theorem setStack_pending (n : Nat) (x : Stack) (s : State) : (setStack n x s).pending = s.pending := rfl
@[simp] theorem setStack_out (n : Nat) (x : Stack) (s : State) : (setStack n x s).out = s.out := rfl
@[simp] theorem setStack_time (n : Nat) (x : Stack) (s : State) : (setStack n x s).time = s.time := rfl
@[simp] theorem setStack_free (n : Nat) (x : Stack) (s : State) : (setStack n x s).free = s.free := rfl
@[simp] theorem setStack_grade (n : Nat) (x : Stack) (s : State) : (setStack n x s).grade = s.grade := rfl
@[simp] theorem setStack_cnt (n : Nat) (x : Stack) (s : State) : (setStack n x s).cnt = s.cnt := rfl
@[simp] theorem setStack_obs (n : Nat) (x : Stack) (s : State) : (setStack n x s).obs = s.obs := rfl
@[simp] theorem setStack_pool (n : Nat) (x : Stack) (s : State) : (setStack n x s).pool = s.pool := rfl
@[simp] theorem setStack_xlt (n : Nat) (x : Stack) (s : State) : (setStack n x s).xlt = s.xlt := rfl
@[simp] theorem setStack_dir (n : Nat) (x : Stack) (s : State) : (setStack n x s).dir = s.dir := rfl
@[simp] theorem setStack_rof (n : Nat) (x : Stack) (s : State) : (setStack n x s).rof = s.rof := rfl
@[simp] theorem setStack_e2e (n : Nat) (x : Stack) (s : State) : (setStack n x s).e2e = s.e2e := rfl
@[simp] theorem setStack_que (n : Nat) (x : Stack) (s : State) : (setStack n x s).que = s.que := rfl
@[simp] theorem setStack_nm (n : Nat) (x : Stack) (s : State) : (setStack n x s).nm = s.nm := rfl
@[simp] theorem setStack_core (n : Nat) (x : Stack) (s : State) : (setStack n x s).core = s.core := rfl
@[simp] theorem setStack_sch (n : Nat) (x : Stack) (s : State) : (setStack n x s).sch = s.sch := rfl
@[simp] theorem setStack_cxl (n : Nat) (x : Stack) (s : State) : (setStack n x s).cxl = s.cxl := rfl
@[simp] theorem setStack_sec (n : Nat) (x : Stack) (s : State) : (setStack n x s).sec = s.sec := rfl
@[simp] theorem setStack_fen (n : Nat) (x : Stack) (s : State) : (setStack n x s).fen = s.fen := rfl
@[simp] theorem setStack_pair (n : Nat) (x : Stack) (s : State) : (setStack n x s).pair = s.pair := rfl
@[simp] theorem setStack_clk (n : Nat) (x : Stack) (s : State) : (setStack n x s).clk = s.clk := rfl
@[simp] theorem setStack_map (n : Nat) (x : Stack) (s : State) : (setStack n x s).map = s.map := rfl
@[simp] theorem stack_setStack (n j : Nat) (x : Stack) (s : State) :
    stack (setStack n x s) j = if j = n then x else stack s j := tget_tput _ _ _ _ _

@[simp] theorem setPort_pending (p : Nat) (x : Port) (s : State) : (setPort p x s).pending = s.pending := rfl
@[simp] theorem setPort_out (p : Nat) (x : Port) (s : State) : (setPort p x s).out = s.out := rfl
@[simp] theorem setPort_time (p : Nat) (x : Port) (s : State) : (setPort p x s).time = s.time := rfl
@[simp] theorem setPort_free (p : Nat) (x : Port) (s : State) : (setPort p x s).free = s.free := rfl
@[simp] theorem setPort_grade (p : Nat) (x : Port) (s : State) : (setPort p x s).grade = s.grade := rfl
@[simp] theorem setPort_cnt (p : Nat) (x : Port) (s : State) : (setPort p x s).cnt = s.cnt := rfl
@[simp] theorem setPort_obs (p : Nat) (x : Port) (s : State) : (setPort p x s).obs = s.obs := rfl
@[simp] theorem setPort_pool (p : Nat) (x : Port) (s : State) : (setPort p x s).pool = s.pool := rfl
@[simp] theorem setPort_xlt (p : Nat) (x : Port) (s : State) : (setPort p x s).xlt = s.xlt := rfl
@[simp] theorem setPort_dir (p : Nat) (x : Port) (s : State) : (setPort p x s).dir = s.dir := rfl
@[simp] theorem setPort_mem (p : Nat) (x : Port) (s : State) : (setPort p x s).mem = s.mem := rfl
@[simp] theorem setPort_e2e (p : Nat) (x : Port) (s : State) : (setPort p x s).e2e = s.e2e := rfl
@[simp] theorem setPort_que (p : Nat) (x : Port) (s : State) : (setPort p x s).que = s.que := rfl
@[simp] theorem setPort_nm (p : Nat) (x : Port) (s : State) : (setPort p x s).nm = s.nm := rfl
@[simp] theorem setPort_core (p : Nat) (x : Port) (s : State) : (setPort p x s).core = s.core := rfl
@[simp] theorem setPort_sch (p : Nat) (x : Port) (s : State) : (setPort p x s).sch = s.sch := rfl
@[simp] theorem setPort_cxl (p : Nat) (x : Port) (s : State) : (setPort p x s).cxl = s.cxl := rfl
@[simp] theorem setPort_sec (p : Nat) (x : Port) (s : State) : (setPort p x s).sec = s.sec := rfl
@[simp] theorem setPort_fen (p : Nat) (x : Port) (s : State) : (setPort p x s).fen = s.fen := rfl
@[simp] theorem setPort_pair (p : Nat) (x : Port) (s : State) : (setPort p x s).pair = s.pair := rfl
@[simp] theorem setPort_clk (p : Nat) (x : Port) (s : State) : (setPort p x s).clk = s.clk := rfl
@[simp] theorem setPort_map (p : Nat) (x : Port) (s : State) : (setPort p x s).map = s.map := rfl
@[simp] theorem port_setPort (p j : Nat) (x : Port) (s : State) :
    port (setPort p x s) j = if j = p then x else port s j := tget_tput _ _ _ _ _

@[simp] theorem setQueue_pending (n : Nat) (x : Queue) (s : State) : (setQueue n x s).pending = s.pending := rfl
@[simp] theorem setQueue_out (n : Nat) (x : Queue) (s : State) : (setQueue n x s).out = s.out := rfl
@[simp] theorem setQueue_time (n : Nat) (x : Queue) (s : State) : (setQueue n x s).time = s.time := rfl
@[simp] theorem setQueue_free (n : Nat) (x : Queue) (s : State) : (setQueue n x s).free = s.free := rfl
@[simp] theorem setQueue_grade (n : Nat) (x : Queue) (s : State) : (setQueue n x s).grade = s.grade := rfl
@[simp] theorem setQueue_cnt (n : Nat) (x : Queue) (s : State) : (setQueue n x s).cnt = s.cnt := rfl
@[simp] theorem setQueue_obs (n : Nat) (x : Queue) (s : State) : (setQueue n x s).obs = s.obs := rfl
@[simp] theorem setQueue_pool (n : Nat) (x : Queue) (s : State) : (setQueue n x s).pool = s.pool := rfl
@[simp] theorem setQueue_xlt (n : Nat) (x : Queue) (s : State) : (setQueue n x s).xlt = s.xlt := rfl
@[simp] theorem setQueue_dir (n : Nat) (x : Queue) (s : State) : (setQueue n x s).dir = s.dir := rfl
@[simp] theorem setQueue_mem (n : Nat) (x : Queue) (s : State) : (setQueue n x s).mem = s.mem := rfl
@[simp] theorem setQueue_rof (n : Nat) (x : Queue) (s : State) : (setQueue n x s).rof = s.rof := rfl
@[simp] theorem setQueue_e2e (n : Nat) (x : Queue) (s : State) : (setQueue n x s).e2e = s.e2e := rfl
@[simp] theorem setQueue_nm (n : Nat) (x : Queue) (s : State) : (setQueue n x s).nm = s.nm := rfl
@[simp] theorem setQueue_core (n : Nat) (x : Queue) (s : State) : (setQueue n x s).core = s.core := rfl
@[simp] theorem setQueue_sch (n : Nat) (x : Queue) (s : State) : (setQueue n x s).sch = s.sch := rfl
@[simp] theorem setQueue_cxl (n : Nat) (x : Queue) (s : State) : (setQueue n x s).cxl = s.cxl := rfl
@[simp] theorem setQueue_sec (n : Nat) (x : Queue) (s : State) : (setQueue n x s).sec = s.sec := rfl
@[simp] theorem setQueue_fen (n : Nat) (x : Queue) (s : State) : (setQueue n x s).fen = s.fen := rfl
@[simp] theorem setQueue_pair (n : Nat) (x : Queue) (s : State) : (setQueue n x s).pair = s.pair := rfl
@[simp] theorem setQueue_clk (n : Nat) (x : Queue) (s : State) : (setQueue n x s).clk = s.clk := rfl
@[simp] theorem setQueue_map (n : Nat) (x : Queue) (s : State) : (setQueue n x s).map = s.map := rfl
@[simp] theorem queue_setQueue (n j : Nat) (x : Queue) (s : State) :
    queue (setQueue n x s) j = if j = n then x else queue s j := tget_tput _ _ _ _ _

@[simp] theorem setGroup_pending (g : Nat) (x : Group) (s : State) : (setGroup g x s).pending = s.pending := rfl
@[simp] theorem setGroup_out (g : Nat) (x : Group) (s : State) : (setGroup g x s).out = s.out := rfl
@[simp] theorem setGroup_time (g : Nat) (x : Group) (s : State) : (setGroup g x s).time = s.time := rfl
@[simp] theorem setGroup_free (g : Nat) (x : Group) (s : State) : (setGroup g x s).free = s.free := rfl
@[simp] theorem setGroup_grade (g : Nat) (x : Group) (s : State) : (setGroup g x s).grade = s.grade := rfl
@[simp] theorem setGroup_cnt (g : Nat) (x : Group) (s : State) : (setGroup g x s).cnt = s.cnt := rfl
@[simp] theorem setGroup_obs (g : Nat) (x : Group) (s : State) : (setGroup g x s).obs = s.obs := rfl
@[simp] theorem setGroup_pool (g : Nat) (x : Group) (s : State) : (setGroup g x s).pool = s.pool := rfl
@[simp] theorem setGroup_xlt (g : Nat) (x : Group) (s : State) : (setGroup g x s).xlt = s.xlt := rfl
@[simp] theorem setGroup_dir (g : Nat) (x : Group) (s : State) : (setGroup g x s).dir = s.dir := rfl
@[simp] theorem setGroup_mem (g : Nat) (x : Group) (s : State) : (setGroup g x s).mem = s.mem := rfl
@[simp] theorem setGroup_rof (g : Nat) (x : Group) (s : State) : (setGroup g x s).rof = s.rof := rfl
@[simp] theorem setGroup_e2e (g : Nat) (x : Group) (s : State) : (setGroup g x s).e2e = s.e2e := rfl
@[simp] theorem setGroup_nm (g : Nat) (x : Group) (s : State) : (setGroup g x s).nm = s.nm := rfl
@[simp] theorem setGroup_core (g : Nat) (x : Group) (s : State) : (setGroup g x s).core = s.core := rfl
@[simp] theorem setGroup_sch (g : Nat) (x : Group) (s : State) : (setGroup g x s).sch = s.sch := rfl
@[simp] theorem setGroup_cxl (g : Nat) (x : Group) (s : State) : (setGroup g x s).cxl = s.cxl := rfl
@[simp] theorem setGroup_sec (g : Nat) (x : Group) (s : State) : (setGroup g x s).sec = s.sec := rfl
@[simp] theorem setGroup_fen (g : Nat) (x : Group) (s : State) : (setGroup g x s).fen = s.fen := rfl
@[simp] theorem setGroup_pair (g : Nat) (x : Group) (s : State) : (setGroup g x s).pair = s.pair := rfl
@[simp] theorem setGroup_clk (g : Nat) (x : Group) (s : State) : (setGroup g x s).clk = s.clk := rfl
@[simp] theorem setGroup_map (g : Nat) (x : Group) (s : State) : (setGroup g x s).map = s.map := rfl
@[simp] theorem group_setGroup (g j : Nat) (x : Group) (s : State) :
    group (setGroup g x s) j = if j = g then x else group s j := tget_tput _ _ _ _ _

@[simp] theorem setJob_pending (k : Nat) (x : Option Job) (s : State) : (setJob k x s).pending = s.pending := rfl
@[simp] theorem setJob_out (k : Nat) (x : Option Job) (s : State) : (setJob k x s).out = s.out := rfl
@[simp] theorem setJob_time (k : Nat) (x : Option Job) (s : State) : (setJob k x s).time = s.time := rfl
@[simp] theorem setJob_free (k : Nat) (x : Option Job) (s : State) : (setJob k x s).free = s.free := rfl
@[simp] theorem setJob_grade (k : Nat) (x : Option Job) (s : State) : (setJob k x s).grade = s.grade := rfl
@[simp] theorem setJob_cnt (k : Nat) (x : Option Job) (s : State) : (setJob k x s).cnt = s.cnt := rfl
@[simp] theorem setJob_obs (k : Nat) (x : Option Job) (s : State) : (setJob k x s).obs = s.obs := rfl
@[simp] theorem setJob_pool (k : Nat) (x : Option Job) (s : State) : (setJob k x s).pool = s.pool := rfl
@[simp] theorem setJob_xlt (k : Nat) (x : Option Job) (s : State) : (setJob k x s).xlt = s.xlt := rfl
@[simp] theorem setJob_dir (k : Nat) (x : Option Job) (s : State) : (setJob k x s).dir = s.dir := rfl
@[simp] theorem setJob_mem (k : Nat) (x : Option Job) (s : State) : (setJob k x s).mem = s.mem := rfl
@[simp] theorem setJob_rof (k : Nat) (x : Option Job) (s : State) : (setJob k x s).rof = s.rof := rfl
@[simp] theorem setJob_e2e (k : Nat) (x : Option Job) (s : State) : (setJob k x s).e2e = s.e2e := rfl
@[simp] theorem setJob_nm (k : Nat) (x : Option Job) (s : State) : (setJob k x s).nm = s.nm := rfl
@[simp] theorem setJob_core (k : Nat) (x : Option Job) (s : State) : (setJob k x s).core = s.core := rfl
@[simp] theorem setJob_sch (k : Nat) (x : Option Job) (s : State) : (setJob k x s).sch = s.sch := rfl
@[simp] theorem setJob_cxl (k : Nat) (x : Option Job) (s : State) : (setJob k x s).cxl = s.cxl := rfl
@[simp] theorem setJob_sec (k : Nat) (x : Option Job) (s : State) : (setJob k x s).sec = s.sec := rfl
@[simp] theorem setJob_fen (k : Nat) (x : Option Job) (s : State) : (setJob k x s).fen = s.fen := rfl
@[simp] theorem setJob_pair (k : Nat) (x : Option Job) (s : State) : (setJob k x s).pair = s.pair := rfl
@[simp] theorem setJob_clk (k : Nat) (x : Option Job) (s : State) : (setJob k x s).clk = s.clk := rfl
@[simp] theorem setJob_map (k : Nat) (x : Option Job) (s : State) : (setJob k x s).map = s.map := rfl
@[simp] theorem job_setJob (k j : Nat) (x : Option Job) (s : State) :
    job (setJob k x s) j = if j = k then x else job s j := tget_tput _ _ _ _ _

@[simp] theorem setWindow_pending (w : Nat) (x : Window) (s : State) : (setWindow w x s).pending = s.pending := rfl
@[simp] theorem setWindow_out (w : Nat) (x : Window) (s : State) : (setWindow w x s).out = s.out := rfl
@[simp] theorem setWindow_time (w : Nat) (x : Window) (s : State) : (setWindow w x s).time = s.time := rfl
@[simp] theorem setWindow_free (w : Nat) (x : Window) (s : State) : (setWindow w x s).free = s.free := rfl
@[simp] theorem setWindow_grade (w : Nat) (x : Window) (s : State) : (setWindow w x s).grade = s.grade := rfl
@[simp] theorem setWindow_cnt (w : Nat) (x : Window) (s : State) : (setWindow w x s).cnt = s.cnt := rfl
@[simp] theorem setWindow_obs (w : Nat) (x : Window) (s : State) : (setWindow w x s).obs = s.obs := rfl
@[simp] theorem setWindow_pool (w : Nat) (x : Window) (s : State) : (setWindow w x s).pool = s.pool := rfl
@[simp] theorem setWindow_xlt (w : Nat) (x : Window) (s : State) : (setWindow w x s).xlt = s.xlt := rfl
@[simp] theorem setWindow_dir (w : Nat) (x : Window) (s : State) : (setWindow w x s).dir = s.dir := rfl
@[simp] theorem setWindow_mem (w : Nat) (x : Window) (s : State) : (setWindow w x s).mem = s.mem := rfl
@[simp] theorem setWindow_rof (w : Nat) (x : Window) (s : State) : (setWindow w x s).rof = s.rof := rfl
@[simp] theorem setWindow_e2e (w : Nat) (x : Window) (s : State) : (setWindow w x s).e2e = s.e2e := rfl
@[simp] theorem setWindow_que (w : Nat) (x : Window) (s : State) : (setWindow w x s).que = s.que := rfl
@[simp] theorem setWindow_core (w : Nat) (x : Window) (s : State) : (setWindow w x s).core = s.core := rfl
@[simp] theorem setWindow_sch (w : Nat) (x : Window) (s : State) : (setWindow w x s).sch = s.sch := rfl
@[simp] theorem setWindow_cxl (w : Nat) (x : Window) (s : State) : (setWindow w x s).cxl = s.cxl := rfl
@[simp] theorem setWindow_sec (w : Nat) (x : Window) (s : State) : (setWindow w x s).sec = s.sec := rfl
@[simp] theorem setWindow_fen (w : Nat) (x : Window) (s : State) : (setWindow w x s).fen = s.fen := rfl
@[simp] theorem setWindow_pair (w : Nat) (x : Window) (s : State) : (setWindow w x s).pair = s.pair := rfl
@[simp] theorem setWindow_clk (w : Nat) (x : Window) (s : State) : (setWindow w x s).clk = s.clk := rfl
@[simp] theorem setWindow_map (w : Nat) (x : Window) (s : State) : (setWindow w x s).map = s.map := rfl
@[simp] theorem window_setWindow (w j : Nat) (x : Window) (s : State) :
    window (setWindow w x s) j = if j = w then x else window s j := tget_tput _ _ _ _ _

@[simp] theorem setCore_pending (n : Nat) (x : Core) (s : State) : (setCore n x s).pending = s.pending := rfl
@[simp] theorem setCore_out (n : Nat) (x : Core) (s : State) : (setCore n x s).out = s.out := rfl
@[simp] theorem setCore_time (n : Nat) (x : Core) (s : State) : (setCore n x s).time = s.time := rfl
@[simp] theorem setCore_free (n : Nat) (x : Core) (s : State) : (setCore n x s).free = s.free := rfl
@[simp] theorem setCore_grade (n : Nat) (x : Core) (s : State) : (setCore n x s).grade = s.grade := rfl
@[simp] theorem setCore_cnt (n : Nat) (x : Core) (s : State) : (setCore n x s).cnt = s.cnt := rfl
@[simp] theorem setCore_obs (n : Nat) (x : Core) (s : State) : (setCore n x s).obs = s.obs := rfl
@[simp] theorem setCore_pool (n : Nat) (x : Core) (s : State) : (setCore n x s).pool = s.pool := rfl
@[simp] theorem setCore_xlt (n : Nat) (x : Core) (s : State) : (setCore n x s).xlt = s.xlt := rfl
@[simp] theorem setCore_dir (n : Nat) (x : Core) (s : State) : (setCore n x s).dir = s.dir := rfl
@[simp] theorem setCore_mem (n : Nat) (x : Core) (s : State) : (setCore n x s).mem = s.mem := rfl
@[simp] theorem setCore_rof (n : Nat) (x : Core) (s : State) : (setCore n x s).rof = s.rof := rfl
@[simp] theorem setCore_e2e (n : Nat) (x : Core) (s : State) : (setCore n x s).e2e = s.e2e := rfl
@[simp] theorem setCore_que (n : Nat) (x : Core) (s : State) : (setCore n x s).que = s.que := rfl
@[simp] theorem setCore_nm (n : Nat) (x : Core) (s : State) : (setCore n x s).nm = s.nm := rfl
@[simp] theorem setCore_sch (n : Nat) (x : Core) (s : State) : (setCore n x s).sch = s.sch := rfl
@[simp] theorem setCore_cxl (n : Nat) (x : Core) (s : State) : (setCore n x s).cxl = s.cxl := rfl
@[simp] theorem setCore_sec (n : Nat) (x : Core) (s : State) : (setCore n x s).sec = s.sec := rfl
@[simp] theorem setCore_fen (n : Nat) (x : Core) (s : State) : (setCore n x s).fen = s.fen := rfl
@[simp] theorem setCore_pair (n : Nat) (x : Core) (s : State) : (setCore n x s).pair = s.pair := rfl
@[simp] theorem setCore_clk (n : Nat) (x : Core) (s : State) : (setCore n x s).clk = s.clk := rfl
@[simp] theorem setCore_map (n : Nat) (x : Core) (s : State) : (setCore n x s).map = s.map := rfl
@[simp] theorem coreOf_setCore (n j : Nat) (x : Core) (s : State) :
    coreOf (setCore n x s) j = if j = n then x else coreOf s j := tget_tput _ _ _ _ _

@[simp] theorem setPwrq_pending (q : Nat) (x : PwrQ) (s : State) : (setPwrq q x s).pending = s.pending := rfl
@[simp] theorem setPwrq_out (q : Nat) (x : PwrQ) (s : State) : (setPwrq q x s).out = s.out := rfl
@[simp] theorem setPwrq_time (q : Nat) (x : PwrQ) (s : State) : (setPwrq q x s).time = s.time := rfl
@[simp] theorem setPwrq_free (q : Nat) (x : PwrQ) (s : State) : (setPwrq q x s).free = s.free := rfl
@[simp] theorem setPwrq_grade (q : Nat) (x : PwrQ) (s : State) : (setPwrq q x s).grade = s.grade := rfl
@[simp] theorem setPwrq_cnt (q : Nat) (x : PwrQ) (s : State) : (setPwrq q x s).cnt = s.cnt := rfl
@[simp] theorem setPwrq_obs (q : Nat) (x : PwrQ) (s : State) : (setPwrq q x s).obs = s.obs := rfl
@[simp] theorem setPwrq_pool (q : Nat) (x : PwrQ) (s : State) : (setPwrq q x s).pool = s.pool := rfl
@[simp] theorem setPwrq_xlt (q : Nat) (x : PwrQ) (s : State) : (setPwrq q x s).xlt = s.xlt := rfl
@[simp] theorem setPwrq_dir (q : Nat) (x : PwrQ) (s : State) : (setPwrq q x s).dir = s.dir := rfl
@[simp] theorem setPwrq_mem (q : Nat) (x : PwrQ) (s : State) : (setPwrq q x s).mem = s.mem := rfl
@[simp] theorem setPwrq_rof (q : Nat) (x : PwrQ) (s : State) : (setPwrq q x s).rof = s.rof := rfl
@[simp] theorem setPwrq_e2e (q : Nat) (x : PwrQ) (s : State) : (setPwrq q x s).e2e = s.e2e := rfl
@[simp] theorem setPwrq_que (q : Nat) (x : PwrQ) (s : State) : (setPwrq q x s).que = s.que := rfl
@[simp] theorem setPwrq_nm (q : Nat) (x : PwrQ) (s : State) : (setPwrq q x s).nm = s.nm := rfl
@[simp] theorem setPwrq_core (q : Nat) (x : PwrQ) (s : State) : (setPwrq q x s).core = s.core := rfl
@[simp] theorem setPwrq_cxl (q : Nat) (x : PwrQ) (s : State) : (setPwrq q x s).cxl = s.cxl := rfl
@[simp] theorem setPwrq_sec (q : Nat) (x : PwrQ) (s : State) : (setPwrq q x s).sec = s.sec := rfl
@[simp] theorem setPwrq_fen (q : Nat) (x : PwrQ) (s : State) : (setPwrq q x s).fen = s.fen := rfl
@[simp] theorem setPwrq_pair (q : Nat) (x : PwrQ) (s : State) : (setPwrq q x s).pair = s.pair := rfl
@[simp] theorem setPwrq_clk (q : Nat) (x : PwrQ) (s : State) : (setPwrq q x s).clk = s.clk := rfl
@[simp] theorem setPwrq_map (q : Nat) (x : PwrQ) (s : State) : (setPwrq q x s).map = s.map := rfl
@[simp] theorem pwrq_setPwrq (q j : Nat) (x : PwrQ) (s : State) :
    pwrq (setPwrq q x s) j = if j = q then x else pwrq s j := tget_tput _ _ _ _ _

@[simp] theorem setCxlPort_pending (p : Nat) (x : CxlPort) (s : State) : (setCxlPort p x s).pending = s.pending := rfl
@[simp] theorem setCxlPort_out (p : Nat) (x : CxlPort) (s : State) : (setCxlPort p x s).out = s.out := rfl
@[simp] theorem setCxlPort_time (p : Nat) (x : CxlPort) (s : State) : (setCxlPort p x s).time = s.time := rfl
@[simp] theorem setCxlPort_free (p : Nat) (x : CxlPort) (s : State) : (setCxlPort p x s).free = s.free := rfl
@[simp] theorem setCxlPort_grade (p : Nat) (x : CxlPort) (s : State) : (setCxlPort p x s).grade = s.grade := rfl
@[simp] theorem setCxlPort_cnt (p : Nat) (x : CxlPort) (s : State) : (setCxlPort p x s).cnt = s.cnt := rfl
@[simp] theorem setCxlPort_obs (p : Nat) (x : CxlPort) (s : State) : (setCxlPort p x s).obs = s.obs := rfl
@[simp] theorem setCxlPort_pool (p : Nat) (x : CxlPort) (s : State) : (setCxlPort p x s).pool = s.pool := rfl
@[simp] theorem setCxlPort_xlt (p : Nat) (x : CxlPort) (s : State) : (setCxlPort p x s).xlt = s.xlt := rfl
@[simp] theorem setCxlPort_dir (p : Nat) (x : CxlPort) (s : State) : (setCxlPort p x s).dir = s.dir := rfl
@[simp] theorem setCxlPort_mem (p : Nat) (x : CxlPort) (s : State) : (setCxlPort p x s).mem = s.mem := rfl
@[simp] theorem setCxlPort_rof (p : Nat) (x : CxlPort) (s : State) : (setCxlPort p x s).rof = s.rof := rfl
@[simp] theorem setCxlPort_e2e (p : Nat) (x : CxlPort) (s : State) : (setCxlPort p x s).e2e = s.e2e := rfl
@[simp] theorem setCxlPort_que (p : Nat) (x : CxlPort) (s : State) : (setCxlPort p x s).que = s.que := rfl
@[simp] theorem setCxlPort_nm (p : Nat) (x : CxlPort) (s : State) : (setCxlPort p x s).nm = s.nm := rfl
@[simp] theorem setCxlPort_core (p : Nat) (x : CxlPort) (s : State) : (setCxlPort p x s).core = s.core := rfl
@[simp] theorem setCxlPort_sch (p : Nat) (x : CxlPort) (s : State) : (setCxlPort p x s).sch = s.sch := rfl
@[simp] theorem setCxlPort_sec (p : Nat) (x : CxlPort) (s : State) : (setCxlPort p x s).sec = s.sec := rfl
@[simp] theorem setCxlPort_fen (p : Nat) (x : CxlPort) (s : State) : (setCxlPort p x s).fen = s.fen := rfl
@[simp] theorem setCxlPort_pair (p : Nat) (x : CxlPort) (s : State) : (setCxlPort p x s).pair = s.pair := rfl
@[simp] theorem setCxlPort_clk (p : Nat) (x : CxlPort) (s : State) : (setCxlPort p x s).clk = s.clk := rfl
@[simp] theorem setCxlPort_map (p : Nat) (x : CxlPort) (s : State) : (setCxlPort p x s).map = s.map := rfl
@[simp] theorem cxlPort_setCxlPort (p j : Nat) (x : CxlPort) (s : State) :
    cxlPort (setCxlPort p x s) j = if j = p then x else cxlPort s j := tget_tput _ _ _ _ _

@[simp] theorem setLogDev_pending (d : Nat) (x : LogDev) (s : State) : (setLogDev d x s).pending = s.pending := rfl
@[simp] theorem setLogDev_out (d : Nat) (x : LogDev) (s : State) : (setLogDev d x s).out = s.out := rfl
@[simp] theorem setLogDev_time (d : Nat) (x : LogDev) (s : State) : (setLogDev d x s).time = s.time := rfl
@[simp] theorem setLogDev_free (d : Nat) (x : LogDev) (s : State) : (setLogDev d x s).free = s.free := rfl
@[simp] theorem setLogDev_grade (d : Nat) (x : LogDev) (s : State) : (setLogDev d x s).grade = s.grade := rfl
@[simp] theorem setLogDev_cnt (d : Nat) (x : LogDev) (s : State) : (setLogDev d x s).cnt = s.cnt := rfl
@[simp] theorem setLogDev_obs (d : Nat) (x : LogDev) (s : State) : (setLogDev d x s).obs = s.obs := rfl
@[simp] theorem setLogDev_pool (d : Nat) (x : LogDev) (s : State) : (setLogDev d x s).pool = s.pool := rfl
@[simp] theorem setLogDev_xlt (d : Nat) (x : LogDev) (s : State) : (setLogDev d x s).xlt = s.xlt := rfl
@[simp] theorem setLogDev_dir (d : Nat) (x : LogDev) (s : State) : (setLogDev d x s).dir = s.dir := rfl
@[simp] theorem setLogDev_mem (d : Nat) (x : LogDev) (s : State) : (setLogDev d x s).mem = s.mem := rfl
@[simp] theorem setLogDev_rof (d : Nat) (x : LogDev) (s : State) : (setLogDev d x s).rof = s.rof := rfl
@[simp] theorem setLogDev_e2e (d : Nat) (x : LogDev) (s : State) : (setLogDev d x s).e2e = s.e2e := rfl
@[simp] theorem setLogDev_que (d : Nat) (x : LogDev) (s : State) : (setLogDev d x s).que = s.que := rfl
@[simp] theorem setLogDev_nm (d : Nat) (x : LogDev) (s : State) : (setLogDev d x s).nm = s.nm := rfl
@[simp] theorem setLogDev_core (d : Nat) (x : LogDev) (s : State) : (setLogDev d x s).core = s.core := rfl
@[simp] theorem setLogDev_sch (d : Nat) (x : LogDev) (s : State) : (setLogDev d x s).sch = s.sch := rfl
@[simp] theorem setLogDev_sec (d : Nat) (x : LogDev) (s : State) : (setLogDev d x s).sec = s.sec := rfl
@[simp] theorem setLogDev_fen (d : Nat) (x : LogDev) (s : State) : (setLogDev d x s).fen = s.fen := rfl
@[simp] theorem setLogDev_pair (d : Nat) (x : LogDev) (s : State) : (setLogDev d x s).pair = s.pair := rfl
@[simp] theorem setLogDev_clk (d : Nat) (x : LogDev) (s : State) : (setLogDev d x s).clk = s.clk := rfl
@[simp] theorem setLogDev_map (d : Nat) (x : LogDev) (s : State) : (setLogDev d x s).map = s.map := rfl
@[simp] theorem logDev_setLogDev (d j : Nat) (x : LogDev) (s : State) :
    logDev (setLogDev d x s) j = if j = d then x else logDev s j := tget_tput _ _ _ _ _

@[simp] theorem setTenant_pending (t : Nat) (x : Tenant) (s : State) : (setTenant t x s).pending = s.pending := rfl
@[simp] theorem setTenant_out (t : Nat) (x : Tenant) (s : State) : (setTenant t x s).out = s.out := rfl
@[simp] theorem setTenant_time (t : Nat) (x : Tenant) (s : State) : (setTenant t x s).time = s.time := rfl
@[simp] theorem setTenant_free (t : Nat) (x : Tenant) (s : State) : (setTenant t x s).free = s.free := rfl
@[simp] theorem setTenant_grade (t : Nat) (x : Tenant) (s : State) : (setTenant t x s).grade = s.grade := rfl
@[simp] theorem setTenant_cnt (t : Nat) (x : Tenant) (s : State) : (setTenant t x s).cnt = s.cnt := rfl
@[simp] theorem setTenant_obs (t : Nat) (x : Tenant) (s : State) : (setTenant t x s).obs = s.obs := rfl
@[simp] theorem setTenant_pool (t : Nat) (x : Tenant) (s : State) : (setTenant t x s).pool = s.pool := rfl
@[simp] theorem setTenant_xlt (t : Nat) (x : Tenant) (s : State) : (setTenant t x s).xlt = s.xlt := rfl
@[simp] theorem setTenant_dir (t : Nat) (x : Tenant) (s : State) : (setTenant t x s).dir = s.dir := rfl
@[simp] theorem setTenant_mem (t : Nat) (x : Tenant) (s : State) : (setTenant t x s).mem = s.mem := rfl
@[simp] theorem setTenant_rof (t : Nat) (x : Tenant) (s : State) : (setTenant t x s).rof = s.rof := rfl
@[simp] theorem setTenant_e2e (t : Nat) (x : Tenant) (s : State) : (setTenant t x s).e2e = s.e2e := rfl
@[simp] theorem setTenant_que (t : Nat) (x : Tenant) (s : State) : (setTenant t x s).que = s.que := rfl
@[simp] theorem setTenant_nm (t : Nat) (x : Tenant) (s : State) : (setTenant t x s).nm = s.nm := rfl
@[simp] theorem setTenant_core (t : Nat) (x : Tenant) (s : State) : (setTenant t x s).core = s.core := rfl
@[simp] theorem setTenant_sch (t : Nat) (x : Tenant) (s : State) : (setTenant t x s).sch = s.sch := rfl
@[simp] theorem setTenant_cxl (t : Nat) (x : Tenant) (s : State) : (setTenant t x s).cxl = s.cxl := rfl
@[simp] theorem setTenant_fen (t : Nat) (x : Tenant) (s : State) : (setTenant t x s).fen = s.fen := rfl
@[simp] theorem setTenant_pair (t : Nat) (x : Tenant) (s : State) : (setTenant t x s).pair = s.pair := rfl
@[simp] theorem setTenant_clk (t : Nat) (x : Tenant) (s : State) : (setTenant t x s).clk = s.clk := rfl
@[simp] theorem setTenant_map (t : Nat) (x : Tenant) (s : State) : (setTenant t x s).map = s.map := rfl
@[simp] theorem tenant_setTenant (t j : Nat) (x : Tenant) (s : State) :
    tenant (setTenant t x s) j = if j = t then x else tenant s j := tget_tput _ _ _ _ _

@[simp] theorem setSealed_pending (e : Nat) (x : Sealed) (s : State) : (setSealed e x s).pending = s.pending := rfl
@[simp] theorem setSealed_out (e : Nat) (x : Sealed) (s : State) : (setSealed e x s).out = s.out := rfl
@[simp] theorem setSealed_time (e : Nat) (x : Sealed) (s : State) : (setSealed e x s).time = s.time := rfl
@[simp] theorem setSealed_free (e : Nat) (x : Sealed) (s : State) : (setSealed e x s).free = s.free := rfl
@[simp] theorem setSealed_grade (e : Nat) (x : Sealed) (s : State) : (setSealed e x s).grade = s.grade := rfl
@[simp] theorem setSealed_cnt (e : Nat) (x : Sealed) (s : State) : (setSealed e x s).cnt = s.cnt := rfl
@[simp] theorem setSealed_obs (e : Nat) (x : Sealed) (s : State) : (setSealed e x s).obs = s.obs := rfl
@[simp] theorem setSealed_pool (e : Nat) (x : Sealed) (s : State) : (setSealed e x s).pool = s.pool := rfl
@[simp] theorem setSealed_xlt (e : Nat) (x : Sealed) (s : State) : (setSealed e x s).xlt = s.xlt := rfl
@[simp] theorem setSealed_dir (e : Nat) (x : Sealed) (s : State) : (setSealed e x s).dir = s.dir := rfl
@[simp] theorem setSealed_mem (e : Nat) (x : Sealed) (s : State) : (setSealed e x s).mem = s.mem := rfl
@[simp] theorem setSealed_rof (e : Nat) (x : Sealed) (s : State) : (setSealed e x s).rof = s.rof := rfl
@[simp] theorem setSealed_e2e (e : Nat) (x : Sealed) (s : State) : (setSealed e x s).e2e = s.e2e := rfl
@[simp] theorem setSealed_que (e : Nat) (x : Sealed) (s : State) : (setSealed e x s).que = s.que := rfl
@[simp] theorem setSealed_nm (e : Nat) (x : Sealed) (s : State) : (setSealed e x s).nm = s.nm := rfl
@[simp] theorem setSealed_core (e : Nat) (x : Sealed) (s : State) : (setSealed e x s).core = s.core := rfl
@[simp] theorem setSealed_sch (e : Nat) (x : Sealed) (s : State) : (setSealed e x s).sch = s.sch := rfl
@[simp] theorem setSealed_cxl (e : Nat) (x : Sealed) (s : State) : (setSealed e x s).cxl = s.cxl := rfl
@[simp] theorem setSealed_fen (e : Nat) (x : Sealed) (s : State) : (setSealed e x s).fen = s.fen := rfl
@[simp] theorem setSealed_pair (e : Nat) (x : Sealed) (s : State) : (setSealed e x s).pair = s.pair := rfl
@[simp] theorem setSealed_clk (e : Nat) (x : Sealed) (s : State) : (setSealed e x s).clk = s.clk := rfl
@[simp] theorem setSealed_map (e : Nat) (x : Sealed) (s : State) : (setSealed e x s).map = s.map := rfl
@[simp] theorem sealedOf_setSealed (e j : Nat) (x : Sealed) (s : State) :
    sealedOf (setSealed e x s) j = if j = e then x else sealedOf s j := tget_tput _ _ _ _ _

@[simp] theorem setQuad_pending (q : Nat) (x : Quad) (s : State) : (setQuad q x s).pending = s.pending := rfl
@[simp] theorem setQuad_out (q : Nat) (x : Quad) (s : State) : (setQuad q x s).out = s.out := rfl
@[simp] theorem setQuad_time (q : Nat) (x : Quad) (s : State) : (setQuad q x s).time = s.time := rfl
@[simp] theorem setQuad_free (q : Nat) (x : Quad) (s : State) : (setQuad q x s).free = s.free := rfl
@[simp] theorem setQuad_grade (q : Nat) (x : Quad) (s : State) : (setQuad q x s).grade = s.grade := rfl
@[simp] theorem setQuad_cnt (q : Nat) (x : Quad) (s : State) : (setQuad q x s).cnt = s.cnt := rfl
@[simp] theorem setQuad_obs (q : Nat) (x : Quad) (s : State) : (setQuad q x s).obs = s.obs := rfl
@[simp] theorem setQuad_pool (q : Nat) (x : Quad) (s : State) : (setQuad q x s).pool = s.pool := rfl
@[simp] theorem setQuad_xlt (q : Nat) (x : Quad) (s : State) : (setQuad q x s).xlt = s.xlt := rfl
@[simp] theorem setQuad_dir (q : Nat) (x : Quad) (s : State) : (setQuad q x s).dir = s.dir := rfl
@[simp] theorem setQuad_mem (q : Nat) (x : Quad) (s : State) : (setQuad q x s).mem = s.mem := rfl
@[simp] theorem setQuad_rof (q : Nat) (x : Quad) (s : State) : (setQuad q x s).rof = s.rof := rfl
@[simp] theorem setQuad_e2e (q : Nat) (x : Quad) (s : State) : (setQuad q x s).e2e = s.e2e := rfl
@[simp] theorem setQuad_que (q : Nat) (x : Quad) (s : State) : (setQuad q x s).que = s.que := rfl
@[simp] theorem setQuad_nm (q : Nat) (x : Quad) (s : State) : (setQuad q x s).nm = s.nm := rfl
@[simp] theorem setQuad_core (q : Nat) (x : Quad) (s : State) : (setQuad q x s).core = s.core := rfl
@[simp] theorem setQuad_sch (q : Nat) (x : Quad) (s : State) : (setQuad q x s).sch = s.sch := rfl
@[simp] theorem setQuad_cxl (q : Nat) (x : Quad) (s : State) : (setQuad q x s).cxl = s.cxl := rfl
@[simp] theorem setQuad_sec (q : Nat) (x : Quad) (s : State) : (setQuad q x s).sec = s.sec := rfl
@[simp] theorem setQuad_pair (q : Nat) (x : Quad) (s : State) : (setQuad q x s).pair = s.pair := rfl
@[simp] theorem setQuad_clk (q : Nat) (x : Quad) (s : State) : (setQuad q x s).clk = s.clk := rfl
@[simp] theorem setQuad_map (q : Nat) (x : Quad) (s : State) : (setQuad q x s).map = s.map := rfl
@[simp] theorem quad_setQuad (q j : Nat) (x : Quad) (s : State) :
    quad (setQuad q x s) j = if j = q then x else quad s j := tget_tput _ _ _ _ _

@[simp] theorem setVc_pending (p v : Nat) (x : VcState) (s : State) : (setVc p v x s).pending = s.pending := rfl
@[simp] theorem setVc_out (p v : Nat) (x : VcState) (s : State) : (setVc p v x s).out = s.out := rfl
@[simp] theorem setVc_time (p v : Nat) (x : VcState) (s : State) : (setVc p v x s).time = s.time := rfl
@[simp] theorem setVc_free (p v : Nat) (x : VcState) (s : State) : (setVc p v x s).free = s.free := rfl
@[simp] theorem setVc_grade (p v : Nat) (x : VcState) (s : State) : (setVc p v x s).grade = s.grade := rfl
@[simp] theorem setVc_cnt (p v : Nat) (x : VcState) (s : State) : (setVc p v x s).cnt = s.cnt := rfl
@[simp] theorem setVc_obs (p v : Nat) (x : VcState) (s : State) : (setVc p v x s).obs = s.obs := rfl
@[simp] theorem setVc_pool (p v : Nat) (x : VcState) (s : State) : (setVc p v x s).pool = s.pool := rfl
@[simp] theorem setVc_xlt (p v : Nat) (x : VcState) (s : State) : (setVc p v x s).xlt = s.xlt := rfl
@[simp] theorem setVc_dir (p v : Nat) (x : VcState) (s : State) : (setVc p v x s).dir = s.dir := rfl
@[simp] theorem setVc_mem (p v : Nat) (x : VcState) (s : State) : (setVc p v x s).mem = s.mem := rfl
@[simp] theorem setVc_e2e (p v : Nat) (x : VcState) (s : State) : (setVc p v x s).e2e = s.e2e := rfl
@[simp] theorem setVc_que (p v : Nat) (x : VcState) (s : State) : (setVc p v x s).que = s.que := rfl
@[simp] theorem setVc_nm (p v : Nat) (x : VcState) (s : State) : (setVc p v x s).nm = s.nm := rfl
@[simp] theorem setVc_core (p v : Nat) (x : VcState) (s : State) : (setVc p v x s).core = s.core := rfl
@[simp] theorem setVc_sch (p v : Nat) (x : VcState) (s : State) : (setVc p v x s).sch = s.sch := rfl
@[simp] theorem setVc_cxl (p v : Nat) (x : VcState) (s : State) : (setVc p v x s).cxl = s.cxl := rfl
@[simp] theorem setVc_sec (p v : Nat) (x : VcState) (s : State) : (setVc p v x s).sec = s.sec := rfl
@[simp] theorem setVc_fen (p v : Nat) (x : VcState) (s : State) : (setVc p v x s).fen = s.fen := rfl
@[simp] theorem setVc_pair (p v : Nat) (x : VcState) (s : State) : (setVc p v x s).pair = s.pair := rfl
@[simp] theorem setVc_clk (p v : Nat) (x : VcState) (s : State) : (setVc p v x s).clk = s.clk := rfl
@[simp] theorem setVc_map (p v : Nat) (x : VcState) (s : State) : (setVc p v x s).map = s.map := rfl
@[simp] theorem setWdw_pending (d k : Nat) (x : Wdw) (s : State) : (setWdw d k x s).pending = s.pending := rfl
@[simp] theorem setWdw_out (d k : Nat) (x : Wdw) (s : State) : (setWdw d k x s).out = s.out := rfl
@[simp] theorem setWdw_time (d k : Nat) (x : Wdw) (s : State) : (setWdw d k x s).time = s.time := rfl
@[simp] theorem setWdw_free (d k : Nat) (x : Wdw) (s : State) : (setWdw d k x s).free = s.free := rfl
@[simp] theorem setWdw_grade (d k : Nat) (x : Wdw) (s : State) : (setWdw d k x s).grade = s.grade := rfl
@[simp] theorem setWdw_cnt (d k : Nat) (x : Wdw) (s : State) : (setWdw d k x s).cnt = s.cnt := rfl
@[simp] theorem setWdw_obs (d k : Nat) (x : Wdw) (s : State) : (setWdw d k x s).obs = s.obs := rfl
@[simp] theorem setWdw_pool (d k : Nat) (x : Wdw) (s : State) : (setWdw d k x s).pool = s.pool := rfl
@[simp] theorem setWdw_xlt (d k : Nat) (x : Wdw) (s : State) : (setWdw d k x s).xlt = s.xlt := rfl
@[simp] theorem setWdw_dir (d k : Nat) (x : Wdw) (s : State) : (setWdw d k x s).dir = s.dir := rfl
@[simp] theorem setWdw_mem (d k : Nat) (x : Wdw) (s : State) : (setWdw d k x s).mem = s.mem := rfl
@[simp] theorem setWdw_rof (d k : Nat) (x : Wdw) (s : State) : (setWdw d k x s).rof = s.rof := rfl
@[simp] theorem setWdw_e2e (d k : Nat) (x : Wdw) (s : State) : (setWdw d k x s).e2e = s.e2e := rfl
@[simp] theorem setWdw_que (d k : Nat) (x : Wdw) (s : State) : (setWdw d k x s).que = s.que := rfl
@[simp] theorem setWdw_nm (d k : Nat) (x : Wdw) (s : State) : (setWdw d k x s).nm = s.nm := rfl
@[simp] theorem setWdw_core (d k : Nat) (x : Wdw) (s : State) : (setWdw d k x s).core = s.core := rfl
@[simp] theorem setWdw_sch (d k : Nat) (x : Wdw) (s : State) : (setWdw d k x s).sch = s.sch := rfl
@[simp] theorem setWdw_sec (d k : Nat) (x : Wdw) (s : State) : (setWdw d k x s).sec = s.sec := rfl
@[simp] theorem setWdw_fen (d k : Nat) (x : Wdw) (s : State) : (setWdw d k x s).fen = s.fen := rfl
@[simp] theorem setWdw_pair (d k : Nat) (x : Wdw) (s : State) : (setWdw d k x s).pair = s.pair := rfl
@[simp] theorem setWdw_clk (d k : Nat) (x : Wdw) (s : State) : (setWdw d k x s).clk = s.clk := rfl
@[simp] theorem setWdw_map (d k : Nat) (x : Wdw) (s : State) : (setWdw d k x s).map = s.map := rfl

@[simp] theorem advance_pending (now : Nat) (s : State) : (advance now s).pending = s.pending := rfl
@[simp] theorem advance_out (now : Nat) (s : State) : (advance now s).out = s.out := rfl
@[simp] theorem advance_free (now : Nat) (s : State) : (advance now s).free = s.free := rfl
@[simp] theorem advance_grade (now : Nat) (s : State) : (advance now s).grade = s.grade := rfl
@[simp] theorem advance_cnt (now : Nat) (s : State) : (advance now s).cnt = s.cnt := rfl
@[simp] theorem advance_obs (now : Nat) (s : State) : (advance now s).obs = s.obs := rfl
@[simp] theorem advance_pool (now : Nat) (s : State) : (advance now s).pool = s.pool := rfl
@[simp] theorem advance_xlt (now : Nat) (s : State) : (advance now s).xlt = s.xlt := rfl
@[simp] theorem advance_dir (now : Nat) (s : State) : (advance now s).dir = s.dir := rfl
@[simp] theorem advance_mem (now : Nat) (s : State) : (advance now s).mem = s.mem := rfl
@[simp] theorem advance_rof (now : Nat) (s : State) : (advance now s).rof = s.rof := rfl
@[simp] theorem advance_e2e (now : Nat) (s : State) : (advance now s).e2e = s.e2e := rfl
@[simp] theorem advance_que (now : Nat) (s : State) : (advance now s).que = s.que := rfl
@[simp] theorem advance_nm (now : Nat) (s : State) : (advance now s).nm = s.nm := rfl
@[simp] theorem advance_core (now : Nat) (s : State) : (advance now s).core = s.core := rfl
@[simp] theorem advance_sch (now : Nat) (s : State) : (advance now s).sch = s.sch := rfl
@[simp] theorem advance_cxl (now : Nat) (s : State) : (advance now s).cxl = s.cxl := rfl
@[simp] theorem advance_sec (now : Nat) (s : State) : (advance now s).sec = s.sec := rfl
@[simp] theorem advance_fen (now : Nat) (s : State) : (advance now s).fen = s.fen := rfl
@[simp] theorem advance_pair (now : Nat) (s : State) : (advance now s).pair = s.pair := rfl
@[simp] theorem advance_clk (now : Nat) (s : State) : (advance now s).clk = s.clk := rfl
@[simp] theorem advance_map (now : Nat) (s : State) : (advance now s).map = s.map := rfl
@[simp] theorem advance_time (now : Nat) (s : State) : (advance now s).time = max s.time now := rfl

@[simp] theorem cntAdd_pending (f n i k : Nat) (s : State) : (cntAdd f n i k s).pending = s.pending := rfl
@[simp] theorem bump_pending (f n i : Nat) (s : State) : (bump f n i s).pending = s.pending := rfl
@[simp] theorem cntAdd_out (f n i k : Nat) (s : State) : (cntAdd f n i k s).out = s.out := rfl
@[simp] theorem bump_out (f n i : Nat) (s : State) : (bump f n i s).out = s.out := rfl
@[simp] theorem cntAdd_time (f n i k : Nat) (s : State) : (cntAdd f n i k s).time = s.time := rfl
@[simp] theorem bump_time (f n i : Nat) (s : State) : (bump f n i s).time = s.time := rfl
@[simp] theorem cntAdd_free (f n i k : Nat) (s : State) : (cntAdd f n i k s).free = s.free := rfl
@[simp] theorem bump_free (f n i : Nat) (s : State) : (bump f n i s).free = s.free := rfl
@[simp] theorem cntAdd_grade (f n i k : Nat) (s : State) : (cntAdd f n i k s).grade = s.grade := rfl
@[simp] theorem bump_grade (f n i : Nat) (s : State) : (bump f n i s).grade = s.grade := rfl
@[simp] theorem cntAdd_obs (f n i k : Nat) (s : State) : (cntAdd f n i k s).obs = s.obs := rfl
@[simp] theorem bump_obs (f n i : Nat) (s : State) : (bump f n i s).obs = s.obs := rfl
@[simp] theorem cntAdd_pool (f n i k : Nat) (s : State) : (cntAdd f n i k s).pool = s.pool := rfl
@[simp] theorem bump_pool (f n i : Nat) (s : State) : (bump f n i s).pool = s.pool := rfl
@[simp] theorem cntAdd_xlt (f n i k : Nat) (s : State) : (cntAdd f n i k s).xlt = s.xlt := rfl
@[simp] theorem bump_xlt (f n i : Nat) (s : State) : (bump f n i s).xlt = s.xlt := rfl
@[simp] theorem cntAdd_dir (f n i k : Nat) (s : State) : (cntAdd f n i k s).dir = s.dir := rfl
@[simp] theorem bump_dir (f n i : Nat) (s : State) : (bump f n i s).dir = s.dir := rfl
@[simp] theorem cntAdd_mem (f n i k : Nat) (s : State) : (cntAdd f n i k s).mem = s.mem := rfl
@[simp] theorem bump_mem (f n i : Nat) (s : State) : (bump f n i s).mem = s.mem := rfl
@[simp] theorem cntAdd_rof (f n i k : Nat) (s : State) : (cntAdd f n i k s).rof = s.rof := rfl
@[simp] theorem bump_rof (f n i : Nat) (s : State) : (bump f n i s).rof = s.rof := rfl
@[simp] theorem cntAdd_e2e (f n i k : Nat) (s : State) : (cntAdd f n i k s).e2e = s.e2e := rfl
@[simp] theorem bump_e2e (f n i : Nat) (s : State) : (bump f n i s).e2e = s.e2e := rfl
@[simp] theorem cntAdd_que (f n i k : Nat) (s : State) : (cntAdd f n i k s).que = s.que := rfl
@[simp] theorem bump_que (f n i : Nat) (s : State) : (bump f n i s).que = s.que := rfl
@[simp] theorem cntAdd_nm (f n i k : Nat) (s : State) : (cntAdd f n i k s).nm = s.nm := rfl
@[simp] theorem bump_nm (f n i : Nat) (s : State) : (bump f n i s).nm = s.nm := rfl
@[simp] theorem cntAdd_core (f n i k : Nat) (s : State) : (cntAdd f n i k s).core = s.core := rfl
@[simp] theorem bump_core (f n i : Nat) (s : State) : (bump f n i s).core = s.core := rfl
@[simp] theorem cntAdd_sch (f n i k : Nat) (s : State) : (cntAdd f n i k s).sch = s.sch := rfl
@[simp] theorem bump_sch (f n i : Nat) (s : State) : (bump f n i s).sch = s.sch := rfl
@[simp] theorem cntAdd_cxl (f n i k : Nat) (s : State) : (cntAdd f n i k s).cxl = s.cxl := rfl
@[simp] theorem bump_cxl (f n i : Nat) (s : State) : (bump f n i s).cxl = s.cxl := rfl
@[simp] theorem cntAdd_sec (f n i k : Nat) (s : State) : (cntAdd f n i k s).sec = s.sec := rfl
@[simp] theorem bump_sec (f n i : Nat) (s : State) : (bump f n i s).sec = s.sec := rfl
@[simp] theorem cntAdd_fen (f n i k : Nat) (s : State) : (cntAdd f n i k s).fen = s.fen := rfl
@[simp] theorem bump_fen (f n i : Nat) (s : State) : (bump f n i s).fen = s.fen := rfl
@[simp] theorem cntAdd_pair (f n i k : Nat) (s : State) : (cntAdd f n i k s).pair = s.pair := rfl
@[simp] theorem bump_pair (f n i : Nat) (s : State) : (bump f n i s).pair = s.pair := rfl
@[simp] theorem cntAdd_clk (f n i k : Nat) (s : State) : (cntAdd f n i k s).clk = s.clk := rfl
@[simp] theorem bump_clk (f n i : Nat) (s : State) : (bump f n i s).clk = s.clk := rfl
@[simp] theorem cntAdd_map (f n i k : Nat) (s : State) : (cntAdd f n i k s).map = s.map := rfl
@[simp] theorem bump_map (f n i : Nat) (s : State) : (bump f n i s).map = s.map := rfl

@[simp] theorem badAccess_pending (d : Nat) (w : Bool) (o : Nat) (s : State) : (badAccess d w o s).pending = s.pending := rfl
@[simp] theorem badAccess_out (d : Nat) (w : Bool) (o : Nat) (s : State) : (badAccess d w o s).out = s.out := rfl
@[simp] theorem badAccess_time (d : Nat) (w : Bool) (o : Nat) (s : State) : (badAccess d w o s).time = s.time := rfl
@[simp] theorem badAccess_free (d : Nat) (w : Bool) (o : Nat) (s : State) : (badAccess d w o s).free = s.free := rfl
@[simp] theorem badAccess_grade (d : Nat) (w : Bool) (o : Nat) (s : State) : (badAccess d w o s).grade = s.grade := rfl
@[simp] theorem badAccess_cnt (d : Nat) (w : Bool) (o : Nat) (s : State) : (badAccess d w o s).cnt = s.cnt := rfl
@[simp] theorem badAccess_obs (d : Nat) (w : Bool) (o : Nat) (s : State) : (badAccess d w o s).obs = s.obs := rfl
@[simp] theorem badAccess_pool (d : Nat) (w : Bool) (o : Nat) (s : State) : (badAccess d w o s).pool = s.pool := rfl
@[simp] theorem badAccess_xlt (d : Nat) (w : Bool) (o : Nat) (s : State) : (badAccess d w o s).xlt = s.xlt := rfl
@[simp] theorem badAccess_dir (d : Nat) (w : Bool) (o : Nat) (s : State) : (badAccess d w o s).dir = s.dir := rfl
@[simp] theorem badAccess_mem (d : Nat) (w : Bool) (o : Nat) (s : State) : (badAccess d w o s).mem = s.mem := rfl
@[simp] theorem badAccess_rof (d : Nat) (w : Bool) (o : Nat) (s : State) : (badAccess d w o s).rof = s.rof := rfl
@[simp] theorem badAccess_e2e (d : Nat) (w : Bool) (o : Nat) (s : State) : (badAccess d w o s).e2e = s.e2e := rfl
@[simp] theorem badAccess_que (d : Nat) (w : Bool) (o : Nat) (s : State) : (badAccess d w o s).que = s.que := rfl
@[simp] theorem badAccess_nm (d : Nat) (w : Bool) (o : Nat) (s : State) : (badAccess d w o s).nm = s.nm := rfl
@[simp] theorem badAccess_core (d : Nat) (w : Bool) (o : Nat) (s : State) : (badAccess d w o s).core = s.core := rfl
@[simp] theorem badAccess_sch (d : Nat) (w : Bool) (o : Nat) (s : State) : (badAccess d w o s).sch = s.sch := rfl
@[simp] theorem badAccess_cxl (d : Nat) (w : Bool) (o : Nat) (s : State) : (badAccess d w o s).cxl = s.cxl := rfl
@[simp] theorem badAccess_sec (d : Nat) (w : Bool) (o : Nat) (s : State) : (badAccess d w o s).sec = s.sec := rfl
@[simp] theorem badAccess_fen (d : Nat) (w : Bool) (o : Nat) (s : State) : (badAccess d w o s).fen = s.fen := rfl
@[simp] theorem badAccess_pair (d : Nat) (w : Bool) (o : Nat) (s : State) : (badAccess d w o s).pair = s.pair := rfl
@[simp] theorem badAccess_clk (d : Nat) (w : Bool) (o : Nat) (s : State) : (badAccess d w o s).clk = s.clk := rfl

/-! Counters. -/

/-- A counter after an increase: it saturates, and every other counter stays (R457). -/
theorem cntGet_cntAdd (f n i k f' n' i' : Nat) (s : State) :
    cntGet (cntAdd f n i k s) f' n' i' =
      if cntKey f' n' i' = cntKey f n i then min (2 ^ 64 - 1) (cntGet s f n i + k) else cntGet s f' n' i' := by
  simp only [cntGet, cntAdd, tget_tmod, satAdd]

/-! Outputs. -/

/-- An output appends to what was sent, waits for an acknowledgement, or is gated; nothing else changes. -/
theorem emit_frame (o : Out) (s : State) : emit o s = { s with out := (emit o s).out, pair := (emit o s).pair } := by
  unfold emit; split
  · split
    · rfl
    · split <;> rfl
  · rfl

/-- An output that no gate holds back is sent at once. -/
theorem emit_free {o : Out} {s : State} (h : gatedKind s o = false) : emit o s = { s with out := o :: s.out } := by
  simp [emit, h]

@[simp] theorem fmDone_eq (st : Status) (vals : List Nat) (s : State) : fmDone st vals s = { s with out := .fm st vals :: s.out } :=
  emit_free rfl

@[simp] theorem alert_eq (k : Alert) (vals : List Nat) (s : State) : alert k vals s = { s with out := .alert k vals :: s.out } :=
  emit_free rfl

/-! The recorder. -/

/-- A record changes the recorder alone. -/
theorem logPush_frame (r : LogRec) (s : State) : logPush r s = { s with obs := (logPush r s).obs } := by
  unfold logPush; split <;> rfl

theorem recordAs_frame (short : Bool) (k sub : Nat) (b : List Nat) (s : State) :
    recordAs short k sub b s = { s with obs := (recordAs short k sub b s).obs } := by
  unfold recordAs
  simp only
  split
  · split <;> rfl
  · exact logPush_frame _ s

theorem event_frame (c : Nat) (b : List Nat) (s : State) : event c b s = { s with obs := (event c b s).obs } :=
  recordAs_frame false 3 c b s

/-! Guards. -/

theorem live_of {s t : State} (h : halted s = false) : live s t = t := by simp [live, h]
theorem live_halted {s t : State} (h : halted s = true) : live s t = s := by simp [live, h]

@[simp] theorem when_true (f : State → State) (s : State) : when true f s = f s := rfl
@[simp] theorem when_false (f : State → State) (s : State) : when false f s = s := rfl

@[simp] theorem forEach_nil {α : Type} (f : α → State → State) (s : State) : forEach [] f s = s := rfl
@[simp] theorem forEach_cons {α : Type} (a : α) (l : List α) (f : α → State → State) (s : State) :
    forEach (a :: l) f s = forEach l f (f a s) := rfl

/-- What each turn of a loop keeps, the loop keeps. -/
theorem forEach_keeps {α : Type} {P : State → Prop} {f : α → State → State} (l : List α) {s : State}
    (hf : ∀ a s, P s → P (f a s)) (h : P s) : P (forEach l f s) := by
  induction l generalizing s with
  | nil => exact h
  | cons a r ih => exact ih (hf a s h)

end Sys2Proof.Machine
end

