-- ==== Sys2Proof/WellFormed.lean ====
section
/-! DEFINITION. Well-formed commands: what a command can carry when it reaches the block. Values that the block itself tests and
refuses are well-formed. -/

namespace Sys2Proof

/-- Pool time has 64 bits (R9). -/
def timeOk (t : Nat) : Bool := decide (t < 2 ^ 64)

/-- A packet carries at most 4,096 bytes of payload (Table 11.4). -/
def packetOk (p : Packet) : Bool := decide (p.payload.length ≤ 4096)

/-- A participant of Table 2.2. -/
def partOk : Part → Bool
  | .ld n => decide (n < 64)
  | .ep n => decide (n < 65536)
  | .grp n => decide (n < 1024)

/-- An owner of Table 5.1. -/
def ownerForm : Owner → Bool
  | .host d => decide (d < 64)
  | .endpoint i => decide (i < 65536)
  | .pool => true

/-- A tether's object: an extent or a group of the device. -/
def objOk : TetherObj → Bool
  | .extent e => decide (e < 16384)
  | .group g => decide (g < 1024)
  | .attach e => decide (e < 16384)

/-- Host physical addresses name whole lines. -/
def hpaOk (a : Nat) : Bool := a % 64 == 0

/-- An answer to a recall: a packet, or a whole line of a host. -/
def answererOk : Answerer → Bool
  | .rof _ p => packetOk p
  | .host _ hpa data _ => hpaOk hpa && (data.length == 0 || data.length == 64)

/-- An allocation names addresses of 48 bits. -/
def extentReqOk (a : ExtentReq) : Bool :=
  decide (a.pvaBase < 2 ^ 48) && a.overrides.all (fun x => partOk x.1)

/-- A register access of at most 8 bytes within its BAR (Table 19.1). -/
def accessOk (a : RegAccess) : Bool :=
  decide (1 ≤ a.size) && decide (a.size ≤ 8) &&
  match a.place with
  | .bar0 o => decide (o < 0x1000000)
  | .bar2 o => decide (o < 0x10000)
  | .bar4 o => decide (o < 0x1000)
  | .biEnable => true

/-- The well-formed commands. -/
def wellFormed (i : Instr) : Bool :=
  match i with
  | .straitLost _ now => timeOk now
  | .straitRestored _ now => timeOk now
  | .anchorFailover now => timeOk now
  | .fenceStatusSample now => timeOk now
  | .allocateExtent _ a => extentReqOk a
  | .extentZeroFillComplete _ => true
  | .extentWithdrawalDrained _ => true
  | .extentScrubComplete _ => true
  | .releaseExtent _ _ => true
  | .balloonGrow _ _ => true
  | .balloonShrink _ _ => true
  | .rightsChange _ _ ov => ov.all (fun x => partOk x.1)
  | .setTetherQuota _ _ => true
  | .setTetherPeriod h _ => partOk h
  | .pmmBeat _ _ => true
  | .tetherDeadlineTick now => timeOk now
  | .releaseTether h o _ => partOk h && objOk o
  | .createKite _ _ _ _ => true
  | .setKiteAttribute _ _ => true
  | .kitePublish _ slot => decide (slot < 2 ^ 32)
  | .kitePublishDrained _ => true
  | .kiteAttach _ slot => decide (slot < 2 ^ 32)
  | .kiteDetach _ slot => decide (slot < 2 ^ 32)
  | .kiteReclaim _ slot => decide (slot < 2 ^ 32)
  | .walkResult _ _ _ who _ _ _ ents => partOk who && decide (ents.length ≤ 3)
  | .invalidation _ _ lo hi now => decide (lo ≤ hi) && decide (hi ≤ 2 ^ 48) && timeOk now
  | .invalidationComplete _ _ lo hi => decide (lo ≤ hi) && decide (hi ≤ 2 ^ 48)
  | .drainBoundExpiry _ _ lo hi now => decide (lo ≤ hi) && decide (hi ≤ 2 ^ 48) && timeOk now
  | .tableSwitch _ _ now => timeOk now
  | .atsTranslationCompletion _ pasid _ _ hpa _ _ => decide (pasid < 2 ^ 20) && hpaOk hpa
  | .atsInvalidateRequest _ pasid _ _ itag now => decide (pasid < 2 ^ 20) && decide (itag < 32) && timeOk now
  | .atsInvalidateComplete _ itag => decide (itag < 32)
  | .atsInvalBoundExpiry _ itag now => decide (itag < 32) && timeOk now
  | .faultTailWrite _ _ => true
  | .rdonce _ p => packetOk p
  | .rdshared _ p => packetOk p
  | .rdown _ p => packetOk p
  | .upgrade _ p => packetOk p
  | .wrline _ p => packetOk p
  | .wrpart _ p => packetOk p
  | .wrback _ p => packetOk p
  | .cleanEvict _ tag hpa => decide (tag < 65536) && hpaOk hpa
  | .atomic _ p => packetOk p
  | .recallMiss a => answererOk a
  | .recallAck a => answererOk a
  | .recallData a => answererOk a
  | .lineQueueServe l => decide (l < 2 ^ 35)
  | .recallTimeoutFirst l now => decide (l < 2 ^ 35) && timeOk now
  | .recallTimeoutSecond l now => decide (l < 2 ^ 35) && timeOk now
  | .biconflict _ tag => decide (tag < 65536)
  | .cxlMemRead _ tag hpa _ => decide (tag < 65536) && hpaOk hpa
  | .cxlMemWrite _ tag hpa _ data _ => decide (tag < 65536) && hpaOk hpa && data.length == 64
  | .cxlMemInv _ tag hpa => decide (tag < 65536) && hpaOk hpa
  | .mergeHoldExpiry l now => decide (l < 2 ^ 35) && timeOk now
  | .sqTailDoorbell _ _ _ => true
  | .cqHeadDoorbell _ _ _ => true
  | .heartbeatDoorbell _ _ _ => true
  | .reservedKindDoorbell _ _ _ => true
  | .foreignDoorbell _ => true
  | .doorbellPacket _ p => packetOk p
  | .poolDoorbellRead _ => true
  | .descriptorFetch _ => true
  | .ringReadFailed _ => true
  | .nop _ slot => decide (slot < 2 ^ 32)
  | .reservedOpcode _ slot => decide (slot < 2 ^ 32)
  | .fill _ slot => decide (slot < 2 ^ 32)
  | .copy _ slot => decide (slot < 2 ^ 32)
  | .compare _ slot => decide (slot < 2 ^ 32)
  | .gather _ slot => decide (slot < 2 ^ 32)
  | .scatter _ slot => decide (slot < 2 ^ 32)
  | .reduce _ slot => decide (slot < 2 ^ 32)
  | .stripeStart _ slot _ _ => decide (slot < 2 ^ 32)
  | .nmDescriptorComplete _ slot => decide (slot < 2 ^ 32)
  | .nmFirstFailureKnown _ slot => decide (slot < 2 ^ 32)
  | .coalesceTimerExpiry _ now => timeOk now
  | .descriptorTimeLimitExpiry _ slot now => decide (slot < 2 ^ 32) && timeOk now
  | .job _ slot => decide (slot < 2 ^ 32)
  | .jobHeaderRead _ slot => decide (slot < 2 ^ 32)
  | .jobImageRead _ slot => decide (slot < 2 ^ 32)
  | .jobDigestComputed _ slot => decide (slot < 2 ^ 32)
  | .resume _ slot => decide (slot < 2 ^ 32)
  | .discard _ slot => decide (slot < 2 ^ 32)
  | .jobPreempt _ slot => decide (slot < 2 ^ 32)
  | .jobComplete _ slot => decide (slot < 2 ^ 32)
  | .queueEnable _ => true
  | .queueDisable _ => true
  | .queueRestart _ => true
  | .groupBind _ _ o _ dbPva => ownerForm o && decide (dbPva < 2 ^ 48)
  | .groupRelease _ => true
  | .groupQuiesceDrained _ => true
  | .groupRearm _ => true
  | .groupReleaseDrained _ => true
  | .reduceWr _ p => packetOk p
  | .reduceWrW _ p => packetOk p
  | .rwinAssign _ _ => true
  | .rwinArm _ _ => true
  | .rwinArmFillDone _ now => timeOk now
  | .rwinDisarm _ => true
  | .rwinDisarmDone _ => true
  | .collectiveDeadlineExpiry _ now => timeOk now
  | .salu _ _ => true
  | .branch _ _ => true
  | .sync _ _ => true
  | .barrier _ _ => true
  | .barrierRelease _ now => timeOk now
  | .commit _ _ => true
  | .heldEffectsIssue _ _ => true
  | .commitComplete _ slot => decide (slot < 2 ^ 32)
  | .endOp _ _ => true
  | .tload _ _ => true
  | .tstore _ _ => true
  | .treduce _ _ => true
  | .treducew _ _ => true
  | .tatomic _ _ => true
  | .tcopy _ _ => true
  | .mma _ _ => true
  | .accrd _ _ => true
  | .accwr _ _ => true
  | .vbin _ _ => true
  | .vfma _ _ => true
  | .vfunc _ _ => true
  | .vrowred _ _ => true
  | .vbcast _ _ => true
  | .vcvt _ _ => true
  | .racc _ _ => true
  | .tileOpComplete _ _ now => timeOk now
  | .coreFence _ _ now => timeOk now
  | .coreFenceTest _ slot => decide (slot < 2 ^ 32)
  | .setSrControls _ _ => true
  | .waitWatchdogExpiry _ _ now => timeOk now
  | .objAssign _ _ => true
  | .objRegister _ _ => true
  | .objDeregister _ _ => true
  | .semSet _ who _ _ _ => decide (who < 2 ^ 128)
  | .chanRelease _ who _ => decide (who < 2 ^ 128)
  | .objMark _ who _ => decide (who < 2 ^ 128)
  | .objRelease _ who _ => decide (who < 2 ^ 128)
  | .vfStep _ now => timeOk now
  | .energyBucketTick _ _ now => timeOk now
  | .classOverrunWindow _ now => timeOk now
  | .schedulerTick _ now => timeOk now
  | .classCreditTick _ now => timeOk now
  | .queueSampleTick now => timeOk now
  | .clearMax _ => true
  | .sensorSample _ _ _ now => timeOk now
  | .throttleStepTimer _ now => timeOk now
  | .railEmergency _ now => timeOk now
  | .pwrAlertN _ now => timeOk now
  | .emergencyClear _ _ now => timeOk now
  | .opCapRaise _ now => timeOk now
  | .activationRequest _ now => timeOk now
  | .deferralTick now => timeOk now
  | .deferralExpiry now => timeOk now
  | .setOpReq _ _ => true
  | .setBudget _ _ _ => true
  | .setClass _ _ _ => true
  | .setGroupClass _ _ => true
  | .setSchCtrl _ _ _ => true
  | .setContract _ _ _ _ _ _ _ _ => true
  | .setMembership _ _ _ => true
  | .rofPortEnable _ => true
  | .rofPortDisable _ => true
  | .setPortConfig _ _ => true
  | .setVcPartition _ _ _ => true
  | .setRoute _ _ => true
  | .setMcast _ _ _ _ => true
  | .setRofCtrl _ _ _ _ => true
  | .probeEmit _ now => timeOk now
  | .partnerDetected _ now => timeOk now
  | .receiveLock _ _ now => timeOk now
  | .trainingComplete _ now => timeOk now
  | .trainLimitExpiry _ now => timeOk now
  | .lossOfSignal _ now => timeOk now
  | .fullRetrain _ _ => true
  | .frameReceive _ p _ _ _ _ now => packetOk p && timeOk now
  | .frameTransmit _ _ now => timeOk now
  | .credit _ counts => counts.length == 8
  | .creditReturnTimer _ now => timeOk now
  | .laneSet _ _ => true
  | .laneReady _ _ => true
  | .laneFault _ _ => true
  | .auditTimer _ now => timeOk now
  | .audit _ counts => counts.length == 8
  | .auditAck _ counts => counts.length == 8
  | .retrain _ _ now => timeOk now
  | .retrainAck _ counts => counts.length == 8
  | .retrainDrainExpiry _ now => timeOk now
  | .train _ _ _ _ _ => true
  | .keyx _ _ _ _ data => data.length == 22
  | .controlWordDiscard w => w.bytes.length == 32
  | .widthNarrow _ => true
  | .widthWiden _ => true
  | .laneParkExpiry _ _ now => timeOk now
  | .forward _ p => packetOk p
  | .multicast _ p => packetOk p
  | .tetherbeat _ p => packetOk p
  | .resetnotice _ p => packetOk p
  | .declareEndpointReset _ => true
  | .unmatchedResponse _ p => packetOk p
  | .responseReceived _ p => packetOk p
  | .recallReceived _ p => packetOk p
  | .ack _ p => packetOk p
  | .ackTimer _ now => timeOk now
  | .resendreq _ p => packetOk p
  | .resendTimer _ _ now => timeOk now
  | .resendLimitExpiry _ _ now => timeOk now
  | .flowSilenceExpiry _ now => timeOk now
  | .sendContextRetire _ now => timeOk now
  | .receiveContextRetire _ now => timeOk now
  | .reasmTimeout _ _ now => timeOk now
  | .atomicRetentionExpiry _ _ _ now => timeOk now
  | .quietPeriodEnd now => timeOk now
  | .timeExchangeTimer _ now => timeOk now
  | .timePacket _ p now => packetOk p && timeOk now
  | .setTimeTree _ _ _ _ _ => true
  | .setE2eCtrl _ _ _ _ => true
  | .cxlLinkTrained _ _ width rate _ _ now => decide (width ≤ 16) && decide (rate ≤ 64) && timeOk now
  | .linkDown _ now => timeOk now
  | .linkDownScanComplete _ now => timeOk now
  | .conventionalReset _ now => timeOk now
  | .resetLd _ => true
  | .bindLd _ _ => true
  | .portEnable _ _ _ now => timeOk now
  | .grantExtent _ _ _ => true
  | .revokeGrant _ _ => true
  | .hdmDecoderCommit _ _ _ _ hpa _ => hpaOk hpa
  | .hdmDecoderDecommit _ _ => true
  | .initiateDynamicCapacityAdd _ _ => true
  | .addDynamicCapacityResponse _ _ _ => true
  | .dcResponseTimeout _ _ now => timeOk now
  | .initiateDynamicCapacityRelease _ _ _ => true
  | .releaseDynamicCapacity _ _ => true
  | .cut _ _ => true
  | .cutComplete _ _ => true
  | .dmaReadComplete _ data _ => data.length == 64
  | .identifyMemoryDevice _ => true
  | .getEventRecords _ _ => true
  | .clearEventRecords _ _ _ _ => true
  | .getEventInterruptPolicy _ => true
  | .setEventInterruptPolicy _ _ => true
  | .getHealthInfo _ => true
  | .getPoisonList _ => true
  | .getDynamicCapacityConfiguration _ => true
  | .getDynamicCapacityExtentList _ => true
  | .unsupportedMailboxCommand _ => true
  | .getLdInfo _ => true
  | .getLdAllocations _ => true
  | .setLdAllocations => true
  | .getQosControl => true
  | .setQosControl _ _ => true
  | .getQosStatus => true
  | .getQosAllocatedBw _ => true
  | .setQosAllocatedBw _ _ _ => true
  | .getQosBwLimit _ => true
  | .setQosBwLimit _ _ _ => true
  | .getDcdInfo => true
  | .getHostDcRegionConfiguration _ => true
  | .getDcRegionExtentLists _ => true
  | .setDcRegionConfiguration => true
  | .stackRefresh _ _ now => timeOk now
  | .stackTempRead _ _ => true
  | .parityAlert _ _ now => timeOk now
  | .patrolScrubRead r => decide (r.ppa < 2 ^ 41)
  | .patrolPeriodEnd now => timeOk now
  | .retireStack _ _ => true
  | .stackFailure _ _ => true
  | .retirementStart _ => true
  | .migrationGranule _ _ _ _ => true
  | .reinterleave _ _ _ => true
  | .reinterleaveGranule => true
  | .reinterleaveSwitch _ now => timeOk now
  | .directoryHandover l => decide (l < 2 ^ 35)
  | .reinterleaveComplete => true
  | .setMemCtrl _ _ _ _ => true
  | .errTailWrite _ => true
  | .getEvidence nonce _ now => nonce.length == 48 && timeOk now
  | .releaseKeyExpiry _ now => timeOk now
  | .releaseKey _ _ now => timeOk now
  | .loadSealed _ _ pva _ => decide (pva < 2 ^ 48)
  | .loadComplete _ => true
  | .createTenant _ _ now => timeOk now
  | .rekeyTenant _ now => timeOk now
  | .rekeySweepGranule _ => true
  | .rekeySweepComplete _ now => timeOk now
  | .removeTenant _ now => timeOk now
  | .outstandingCountersZero _ now => timeOk now
  | .revokedSlotEmpty _ => true
  | .drainAlertExpiry _ now => timeOk now
  | .tenantScrubComplete _ now => timeOk now
  | .tlsConnect _ _ _ _ _ _ now => timeOk now
  | .tlsHandshakeTimeout _ now => timeOk now
  | .tlsIdleTimeout _ last now => timeOk last && timeOk now
  | .firmwareTransfer _ _ _ _ _ _ now => timeOk now
  | .firmwareActivate _ now => timeOk now
  | .installBcr _ _ _ => true
  | .authoriseRollback _ _ now => timeOk now
  | .fenceCore _ _ now => timeOk now
  | .engineHoldExpiry _ _ now => timeOk now
  | .fenceQuadrant _ _ now => timeOk now
  | .fenceOpticalEngine _ _ now => timeOk now
  | .fenceCxlPort _ _ now => timeOk now
  | .unfence _ _ => true
  | .islandRejoin _ now => timeOk now
  | .pairEnable _ _ _ _ _ _ _ _ _ => true
  | .pairDisable => true
  | .pairLead now => timeOk now
  | .pairResilver now => timeOk now
  | .interlockClassify _ _ now => timeOk now
  | .interlockAbsent now => timeOk now
  | .ownReadbackAbsent now => timeOk now
  | .waitingHoldoffExpiry now => timeOk now
  | .outputGateHoldExpiry now => timeOk now
  | .orderRecordSilence now => timeOk now
  | .emptyOrderRecordTimer now => timeOk now
  | .order _ p _ _ => packetOk p
  | .orderack _ p => packetOk p
  | .digest _ p _ _ => packetOk p
  | .digestLate now => timeOk now
  | .inputfetch _ p => packetOk p
  | .inputdata _ p inp _ => packetOk p && packetOk inp
  | .linerepair _ p => packetOk p
  | .resilverdata _ p => packetOk p
  | .resilverGranuleSend now => timeOk now
  | .resilverCopyEnd now => timeOk now
  | .resilverstate _ p _ => packetOk p
  | .pllLock _ now => timeOk now
  | .pllLockLoss _ now => timeOk now
  | .refclkLoss now => timeOk now
  | .dividerStep _ now => timeOk now
  | .gateCloseRequest _ _ _ => true
  | .gateOpen _ _ => true
  | .aonOscillatorStable => true
  | .aonOscillatorTimeout => true
  | .aonClkLost now => timeOk now
  | .operatingHourTick => true
  | .overTemperatureTrip now => timeOk now
  | .supplyLoss _ now => timeOk now
  | .wakeN _ ticks => timeOk ticks
  | .coldReset _ now => timeOk now
  | .resetCold _ now => timeOk now
  | .warmReset _ now => timeOk now
  | .resetWarm _ now => timeOk now
  | .deviceWatchdogRefresh now => timeOk now
  | .deviceWatchdogExpiry now => timeOk now
  | .resetRelease ticks => timeOk ticks
  | .stackTrainingDone codes => codes.length == 32
  | .powerOnFillDone => true
  | .bootFlashRead _ _ _ _ _ _ _ now => timeOk now
  | .deviceRelease _ now => timeOk now
  | .enterDormant _ now => timeOk now
  | .resetCounters _ _ _ who => decide (who < 2 ^ 128)
  | .metricSample _ now => timeOk now
  | .periodEnd now => timeOk now
  | .clearRecorder _ _ now => timeOk now
  | .clearEraseDone now => timeOk now
  | .readRecorder _ _ => true
  | .recWindow _ _ _ who => decide (who < 2 ^ 128)
  | .recPeriod _ _ => true
  | .obsSelect _ _ _ _ _ _ => true
  | .freezeN _ now => timeOk now
  | .bypass => true
  | .idcode => true
  | .samplePreload => true
  | .extest => true
  | .scanSelect _ => true
  | .scanDump => true
  | .cursorWrite _ _ => true
  | .setPriv _ _ => true
  | .registerWrite a => accessOk a
  | .faPresenceChange _ _ => true
  | .avsTimeout _ now => timeOk now
  | .supplyReturn _ ticks => timeOk ticks
  | .laneLockLoss _ _ now => timeOk now
  | .sequenceQuarantineExpiry _ now => timeOk now
  | .parityAlertClear _ now => timeOk now
  | .directoryScan l => decide (l < 2 ^ 35)

end Sys2Proof
end

