-- ==== Sys2Proof/Tests/Slice0.lean ====
section
/-! SUPPORT. Tests: an ill-formed command for each check of `wellFormed`, values that the spec works out, and for each
obligation with hypotheses a `witness_` theorem: states and operands that meet all the hypotheses of each of its clauses. -/

namespace Sys2Proof.Tests

open Sys2Proof.Machine Sys2Proof.Safety

set_option linter.unusedVariables false
set_option maxRecDepth 100000
set_option Elab.async false

/-! Ill-formed commands, one for each check of `wellFormed`. -/

theorem test_time_ill_formed : wellFormed (.straitRestored 0 (2 ^ 64)) = false := by decide

theorem test_ticks_ill_formed : wellFormed (.wakeN true (2 ^ 64)) = false := by decide

theorem test_last_ill_formed : wellFormed (.tlsIdleTimeout 0 (2 ^ 64) 0) = false := by decide

/-- A packet that is right but for what a test changes. -/
def wOnePkt : Packet :=
  { dst := 1, src := 2, typ := 0, vc := 0, length := 0, seq := 0, keyEpoch := 0, tenant := 0, birth := 0, arg0 := 0, crc := 0 }

theorem test_packet_ill_formed :
    wellFormed (.rdonce 0 { wOnePkt with payload := List.replicate 4097 0 }) = false := by decide +kernel

theorem test_packet_well_formed : wellFormed (.rdonce 0 wOnePkt) = true := by decide

theorem test_answer_ill_formed : wellFormed (.recallAck (.host 0 64 [7] false)) = false := by decide

theorem test_participant_ill_formed : wellFormed (.setTetherPeriod (.grp 1024) 5) = false := by decide

theorem test_tether_object_ill_formed : wellFormed (.releaseTether (.ld 2) (.extent 16384) true) = false := by decide

theorem test_rights_ill_formed : wellFormed (.rightsChange 3 {} [(.ld 64, {})]) = false := by decide

theorem test_extent_ill_formed :
    wellFormed (.allocateExtent 3 { tenant := 1, pvaBase := 2 ^ 48, blocks := 1 }) = false := by decide

theorem test_range_ill_formed : wellFormed (.invalidation 0 1 5 4 0) = false := by decide

theorem test_range_end_ill_formed : wellFormed (.invalidation 0 1 5 (2 ^ 48 + 1) 0) = false := by decide

theorem test_walk_ill_formed :
    wellFormed (.walkResult 0 1 0 (.ld 2) true true .read [(0, true), (0, true), (0, true), (0, true)]) = false := by decide

theorem test_walker_ill_formed : wellFormed (.walkResult 0 1 0 (.ep 65536) true true .read []) = false := by decide

theorem test_pasid_ill_formed : wellFormed (.atsTranslationCompletion 0 (2 ^ 20) 0 0 64 true 1) = false := by decide

theorem test_host_address_ill_formed : wellFormed (.atsTranslationCompletion 0 1 0 0 65 true 1) = false := by decide

theorem test_itag_ill_formed : wellFormed (.atsInvalidateRequest 0 1 0 0 32 0) = false := by decide

theorem test_tag_ill_formed : wellFormed (.biconflict 0 65536) = false := by decide

theorem test_line_ill_formed : wellFormed (.lineQueueServe (2 ^ 35)) = false := by decide

theorem test_line_data_ill_formed : wellFormed (.cxlMemWrite 0 1 64 0 [1, 2] false) = false := by decide

theorem test_slot_ill_formed : wellFormed (.nop 9 (2 ^ 32)) = false := by decide

theorem test_owner_ill_formed : wellFormed (.groupBind 1 1 (.endpoint 65536) 0 0) = false := by decide

theorem test_doorbell_page_ill_formed : wellFormed (.groupBind 1 1 .pool 0 (2 ^ 48)) = false := by decide

theorem test_sealed_address_ill_formed : wellFormed (.loadSealed .operator 2 (2 ^ 48) 3) = false := by decide

theorem test_who_ill_formed : wellFormed (.semSet .operator (2 ^ 128) 3 4 5) = false := by decide

theorem test_credits_ill_formed : wellFormed (.credit 0 [1, 2]) = false := by decide

theorem test_key_part_ill_formed : wellFormed (.keyx 0 1 2 3 [4]) = false := by decide

theorem test_link_width_ill_formed : wellFormed (.cxlLinkTrained 0 3 17 64 false 16 0) = false := by decide

theorem test_link_rate_ill_formed : wellFormed (.cxlLinkTrained 0 3 16 65 false 16 0) = false := by decide

theorem test_scrub_address_ill_formed : wellFormed (.patrolScrubRead { ppa := 2 ^ 41 }) = false := by decide

theorem test_nonce_ill_formed : wellFormed (.getEvidence [1] none 0) = false := by decide

theorem test_training_ill_formed : wellFormed (.stackTrainingDone [0, 1]) = false := by decide

theorem test_access_ill_formed :
    (wellFormed (.registerWrite { ld := 2, place := .bar0 0, size := 9 }),
      wellFormed (.registerWrite { ld := 2, place := .bar0 0, size := 0 }),
      wellFormed (.registerWrite { ld := 2, place := .bar0 0x1000000 }),
      wellFormed (.registerWrite { ld := 2, place := .bar2 0x10000 }),
      wellFormed (.registerWrite { ld := 2, place := .bar4 0x1000 })) = (false, false, false, false, false) := by decide

theorem test_access_well_formed :
    wellFormed (.registerWrite { ld := 2, place := .bar2 0x308, write := some 1 }) = true := by decide

/-! Values that the spec works out. -/

/-- R314: the CRC-32C of the ASCII bytes 123456789. -/
theorem test_crc32c : crc32c [49, 50, 51, 52, 53, 54, 55, 56, 57] = 0xE3069283#32 := by decide

/-- R29: the hidden tag area of a DP4032-64. -/
theorem test_tag_area : tagBase { State.reset with grade := 64 } = 0x01FE00000000 := by decide

/-- R211: element 1 of an FP6 row is bits [7:6] of byte 0 and bits [3:0] of byte 1. -/
theorem test_fp6_element : (rowCodes 3 (0x40 :: 0x0A :: List.replicate 94 0))[1]? = some 0x29 := by decide

/-- Table 19.9, step 9: word 6 of queue 97 reads its state and fault. -/
theorem test_queue_word_place :
    (regAt (setQueue 97 { st := .running } .reset) 0 0x0111870).map (·.2) = some 1 := by decide +kernel

/-- Table 19.9, step 8: CFG of group 12 reads its quadrant. -/
theorem test_group_place :
    (regAt (setGroup 12 { quadrant := 1 } .reset) 0 0x01000C0).map (·.2 / 2 ^ 10 % 4) = some 1 := by decide +kernel

/-! The step. -/

/-- An empty queue idles. -/
theorem test_step_idles : Machine.step .reset = .next { State.reset with time := 1 } := by rfl

/-- The front command runs with the rest of the queue behind it. -/
theorem test_step_runs_front :
    (Machine.step { State.reset with pending := [.bypass, .nop 9 0] }) = exec .bypass { State.reset with pending := [.nop 9 0] } := rfl

/-- No row of the table has bits, so no word spells a command. -/
theorem test_no_word_spells : (decodeTableWord 8 0x60, State.reset.withFetchWord 8 0x60) = (none, .reset) := rfl

/-! The invariants at reset. -/

theorem test_reset_memory_canonical : MemoryCanonical .reset := by decide

theorem test_reset_anchor_legal : AnchorLegal .reset := by decide

/-! Small states for the witnesses. -/

/-- A tenant with one mapped extent of two blocks, and a member endpoint. -/
def wBase : State :=
  { State.reset with
    pool := { members := [(7, 1)]
              extents := [(1, { st := .active, tenant := 1, blocks := [0, 1]
                                rights := { read := true, write := true, reduce := true, atomic := true } })] }
    sec := { endpointBase := 4, tenants := [(1, { st := .active })] } }

/-- A packet of endpoint 7 to quadrant 0, with its CRC. -/
def wPkt (typ vc : Nat) (arg0 : BitVec 64) (pay : List Byte) : Packet :=
  let p : Packet := { dst := 4, src := 7, typ := BitVec.ofNat 8 typ, vc := BitVec.ofNat 3 vc, last := true
                      length := BitVec.ofNat 13 pay.length, seq := 0, keyEpoch := 0, tenant := 1, birth := 0
                      pktCount := 1, arg0 := arg0, crc := 0, payload := pay }
  { p with crc := packetCrc p }

/-- `wBase` with a host window of logical device 2 onto the extent, at host address 0. -/
def wHost : State :=
  { wBase with
    cxl := { lds := [(2, { tenant := 1, bound := true })]
             wins := [(64, { st := .open_, extent := 1, size := 2, mode := 2 })] } }

/-- A near-memory or kite descriptor's 64 bytes: opcode and header, then the rest. -/
def wDesc (op : Nat) (rest : List Byte) : List Byte :=
  BitVec.ofNat 8 op :: (List.replicate 15 0 ++ rest ++ List.replicate (48 - rest.length) 0)

/-- Group 1 of host 2, with its tether, and queue 9 RUNNING on a translated ring; `fl` is in flight. -/
def wQueue (fl : List Desc) : State :=
  { wBase with
    pool := { wBase.pool with
      quotas := [(1, 100)]
      tethers := [{ holder := .grp 1, obj := .group 1, tenant := 1 }]
      leases := [(.grp 1, { periodMs := 1000 })] }
    xlt := { units := [(0, { atc := [{ ld := 2, pasid := 0, page := 0, size := 4096, hpa := 0x7000
                                       draining := false }] })] }
    que := { groups := [(1, { tenant := 1, owner := .host 2, st := .active })]
             queues := [(9, { st := .running, enable := true, sqTail := 1, stamps := [3], flight := fl })] }
    cxl := { ports := [(0, { linkState := 2 })], lds := [(2, { tenant := 1, bound := true })] } }


/-- An operation word: OPC, FA, FB, FD, MODE, A, B, D, X. -/
def wOp (op fa fb fd mode a b d x : Nat) : BitVec 128 :=
  BitVec.ofNat 128 (op + fa * 2 ^ 8 + fb * 2 ^ 12 + fd * 2 ^ 16 + mode * 2 ^ 20 + a * 2 ^ 48 + b * 2 ^ 64 + d * 2 ^ 80 +
    x * 2 ^ 96)

/-- Job 1 of `wQueue`'s queue 9, slot 0, running on core 3 with operation `w`. -/
def wJob (w : BitVec 128) : Job :=
  { group := 1, queue := 9, slot := 0, tag := 0, imagePva := 0, argPva := 0, width := 1, phase := .running
    program := [w, 6], cores := [3], coreStoreBytes := 1048576, args := [4096]
    binds := [2, 6, 0, 0, 0, 0, 0, 0, 0, 16, 0, 0, 0, 0, 0, 0] }

/-- Core 3 runs that job in one context, with registers 1 and 2 and some of its store and accumulators set. -/
def wCore (w : BitVec 128) : State :=
  let s := wQueue [{ slot := 0, bytes := wDesc 0x10 [], started := true, job := some 1 }]
  { s with
    que := { s.que with jobs := [(1, some (wJob w))] }
    core := { cores := [(3, { job := some 1, ctxs := [(0, { st := .ready, regs := [(1, 5), (2, 64)] })]
                              store := [(3, 7), (131, 0x40)], acc := [(0, 0x3F800000)] })] } }

/-- The same descriptor with its job in another state, on no core. -/
def wJobIn (op : Nat) (rest : List Byte) (j : Job) : State :=
  let s := wQueue [{ slot := 0, bytes := wDesc op rest, started := true, job := some 1 }]
  { s with que := { s.que with jobs := [(1, some j)] } }

/-- The header of an image of 528 bytes: one END at 320, one binding slot at 512. -/
def wHeader : List Byte :=
  [68, 74, 79, 66, 1, 0, 0, 0, 16, 2, 0, 0, 0, 0, 0, 0, 0, 1, 0, 0, 80, 0, 0, 0, 0, 2, 0, 0, 0, 0, 0, 0, 0, 2, 0, 0, 1, 0, 0, 1, 0, 0, 0, 0, 1, 0, 160, 0]
    ++ List.replicate 208 0

/-- The memory that holds that image at address 0. -/
def wImageMem : List Host.Cell := [(0, 68), (1, 74), (2, 79), (3, 66), (4, 1), (8, 16), (9, 2), (17, 1), (20, 80), (25, 2), (33, 2), (36, 1), (39, 1), (44, 1), (46, 160), (320, 6), (512, 2), (513, 6)]

/-- The sections of a small image, of 96 bytes: one END and one binding slot. -/
def wImage : List Byte :=
  List.replicate 64 0 ++ [6] ++ List.replicate 15 0 ++ [2, 6, 0, 0, 0, 0, 0, 0] ++ List.replicate 8 0

/-- What a header says of them. -/
def wSections : List Byte :=
  leBytes 8 0 ++ leBytes 4 96 ++ leBytes 8 0 ++ leBytes 4 80 ++ leBytes 8 0 ++ leBytes 4 80 ++ leBytes 2 1

/-- They lie in memory at address 0, and their job is about to read them. -/
def wImaged : State :=
  let s := wJobIn 0x10 [] { wJob 6 with phase := .image, cores := [], header := wSections, argPva := 1024 }
  { s with mem := { s.mem with bytes := [(64, 6), (80, 2), (81, 6)] } }

/-- `wImaged` once the engine is ready, has read the image, and has read the arguments. -/
def wImaged1 : State := (engReady (queueActor wImaged 9 (some 0)) [(0, 96), (1024, 8)] wImaged).2

@[inherit_doc wImaged1] def wImaged2 : State := (engRead (queueActor wImaged 9 (some 0)) 0 96 wImaged1).2

@[inherit_doc wImaged1] def wImaged3 : State := (engRead (queueActor wImaged 9 (some 0)) 1024 8 wImaged2).2

/-- `wHost` with port 0 up at CXL 3.1 and 16 logical devices. -/
def wLink : State := setCxlPort 0 { linkState := 2, version := 3, width := 16, rateGts := 64, ldCount := 16, enable := true } wHost

/-- `wLink` with extent 1 a balloon of three blocks at most, and logical device 2 using dynamic capacity. -/
def wBalloon : State :=
  setLogDev 2 { tenant := 1, bound := true, dcd := true } (setExtent 1
    { st := .active, tenant := 1, blocks := [0, 1],
      kind := .balloon, maxBlocks := 3, minBlocks := 1 } wLink)

/-- `wBase` as one device of a pair, its pair ports 0 and 32 up. -/
def wPair (st : PairSt) : State :=
  { wBase with
    rof := { wBase.rof with ports := [(0, { pair := true, st := .up }), (32, { pair := true, st := .up })] }
    pair := { enable := true, st := st, ownOk := true, gateOpen := true } }

/-- A packet of the partner. -/
def wPairPkt (typ vc : Nat) (arg0 : BitVec 64) (arg1 : BitVec 16) (pay : List Byte) : Packet :=
  let p : Packet := { dst := 0, src := 1, typ := BitVec.ofNat 8 typ, vc := BitVec.ofNat 3 vc, last := true
                      length := BitVec.ofNat 13 pay.length, seq := 0, keyEpoch := 0, tenant := 0, birth := 0
                      pktCount := 1, arg0 := arg0, arg1 := arg1, crc := 0, payload := pay }
  { p with crc := packetCrc p }

/-- The same with its pair ports dark. -/
def wDark (st : PairSt) : State :=
  { wPair st with rof := { wBase.rof with ports := [(0, { pair := true }), (32, { pair := true })] } }

theorem wSome_getD {A : Type} {o : Option A} (d : A) (h : o.isSome = true) : o = some (o.getD d) := by
  cases o <;> simp_all

/-- Reset with one block in use, spread over the device. -/
def wOneBlock : State :=
  { State.reset with mem := { State.reset.mem with blocks := [(5, { valid := true, extent := 1, grainLog2 := 12 })] } }

theorem wPairPkt_crcOk (typ vc : Nat) (a : BitVec 64) (b : BitVec 16) (pay : List Byte) :
    crcOk (wPairPkt typ vc a b pay) = true := decide_eq_true rfl

/-! The witnesses, named after their obligations. -/

theorem witness_ExtentCommandsComplete :
    (∃ (e : Fin 16384) (a : ExtentReq) (s s1 : State) (bs : List Nat), Managed s ∧ (extent s e.val).st = .free ∧ allocOk s a = true ∧ tenantLive s a.tenant.val = true ∧ allocBlocks a.blocks e.val a.light a.place a.grainLog2 s = some (bs, s1)) ∧
    (∃ (e : Fin 16384) (s : State), Running s ∧ (extent s e.val).st = .preparing) ∧
    (∃ (e : Fin 16384) (s : State), Running s ∧ (extent s e.val).st = .releasing ∧ drainPending s (extent s e.val).tenant (extentLo (extent s e.val)) (extentHi (extent s e.val)) = false ∧ drainPending s (extent s e.val).tenant (shrinkLo (extent s e.val)) (shrinkHi (extent s e.val)) = false) ∧
    (∃ (e : Fin 16384) (s : State), Running s ∧ (extent s e.val).st = .scrubbing) ∧
    (∃ (e : Fin 16384) (forced : Bool) (s : State), Managed s ∧ releasable (extent s e.val) = true ∧ ((forced = true ∨ (extent s e.val).st ≠ .current ∧ (extent s e.val).st ≠ .superseded)) ∧ extentTethers s e.val = [] ∧ windowsOn s e.val = [] ∧ (extent s e.val).releaseAfterCut = false ∧ ((∀ c ∈ s.pool.kites, ∀ y, c.2 = some y → y.held = none)) ∧ (∀ o ∈ s.cxl.dcOps, o.extent ≠ e.val)) ∧
    (∃ (e : Fin 16384) (n : Nat) (s s1 : State) (bs : List Nat), Managed s ∧ (extent s e.val).st = .active ∧ (extent s e.val).kind = .balloon ∧ (extent s e.val).growing = [] ∧ hostHolds s e.val = false ∧ n ≠ 0 ∧ (extent s e.val).blocks.length + n ≤ (extent s e.val).maxBlocks ∧ allocBlocks n e.val (extent s e.val).light (extent s e.val).place (extent s e.val).grainLog2 s = some (bs, s1)) ∧
    (∃ (e : Fin 16384) (n : Nat) (s : State), Managed s ∧ (extent s e.val).st = .active ∧ (extent s e.val).kind = .balloon ∧ (extent s e.val).shrinking = [] ∧ hostHolds s e.val = false ∧ n ≠ 0 ∧ n ≤ (extent s e.val).blocks.length ∧ leastBlocks (extent s e.val) ≤ (extent s e.val).blocks.length - n) ∧
    (∃ (e : Fin 16384) (r : Rights) (ov : List (Part × Rights)) (s : State), Managed s ∧ (extent s e.val).st = .active ∧ ov.length ≤ 16) :=
  ⟨⟨2, { tenant := 1, pvaBase := 0, blocks := 2 }, { wBase with pool := {} }, ((allocBlocks 2 2 false .deviceWide 12 { wBase with pool := {} }).getD ([], wBase)).2, [0, 1], by decide +kernel⟩,
   ⟨1, setExtent 1 { extent wBase 1 with st := .preparing } { wBase with mem := { wBase.mem with bytes := [(5, 7), (900000000, 3)] } }, by decide +kernel⟩,
   ⟨1, setExtent 1 { extent wBase 1 with st := .releasing } wBase, by decide +kernel⟩,
   ⟨1, setExtent 1 { extent wBase 1 with st := .scrubbing } { wBase with mem := { wBase.mem with bytes := [(5, 7), (900000000, 3)] } }, by decide +kernel⟩,
   ⟨1, false, wBase, by decide +kernel⟩,
   ⟨1, 1, setExtent 1 { st := .active, tenant := 1, kind := .balloon, maxBlocks := 9 } wBase, ((allocBlocks 1 1 false .deviceWide 12 (setExtent 1 { st := .active, tenant := 1, kind := .balloon, maxBlocks := 9 } wBase)).getD ([], wBase)).2, [0], by decide +kernel⟩,
   ⟨1, 1, setExtent 1 { extent wBase 1 with kind := .balloon, minBlocks := 1 } wBase, by decide +kernel⟩,
   ⟨1, { read := true }, [], wBase, by decide +kernel⟩⟩

theorem witness_TetherCommandsComplete :
    (∃ (k : Fin 1024) (n : Nat) (s : State), Managed s ∧ ((tput 0 s.pool.quotas k.val n).map (·.2)).foldl (· + ·) 0 ≤ 65536) ∧
    (∃ (h : Part) (ms : Nat) (s : State), Managed s ∧ 100 ≤ ms ∧ ms ≤ 60000) ∧
    (∃ (h : Part) (ms : Nat) (s : State), Managed s ∧ (ms < 100 ∨ 60000 < ms)) ∧
    (∃ (d : Fin 64) (tag : BitVec 32) (s : State), Running s ∧ writesIgnored s d.val = false) ∧
    (∃ (now : Nat) (s : State), ((∀ g, tethersOf s (.grp g) ≠ 0 → (lease s (.grp g)).late = none ∧ ((lease s (.grp g)).lapsed = false → max s.time now ≤ leaseEnd (lease s (.grp g))))) ∧ Running s) ∧
    (∃ (now g : Nat) (l : Lease) (s : State), Running s ∧ s.pool.leases = [(.grp g, l)] ∧ l.lapsed = false ∧ l.late = none ∧ tethersOf s (.grp g) ≠ 0 ∧ leaseEnd l < max s.time now ∧ (group s g).st = .active ∧ s.que.jobs = [] ∧ (group s g).held = []) ∧
    (∃ (now d a : Nat) (l : Lease) (s : State), Running s ∧ s.pool.leases = [(.ld d, l)] ∧ l.lapsed = false ∧ l.late = some a ∧ tethersOf s (.ld d) ≠ 0 ∧ leaseEnd l < max s.time now) ∧
    (∃ (h : Part) (o : TetherObj) (forced : Bool) (s : State), ((∀ d e, h = .ld d → o = .extent e ∨ o = .attach e → windowsOn s e = [])) ∧ Managed s ∧ (∃ x ∈ s.pool.tethers, x.holder = h ∧ x.obj = o) ∧ ((lease s h).lapsed = true ∨ forced = true)) ∧
    (∃ (k : Fin 4096) (c : Fin 1024) (sl keep : Bool) (s : State), Managed s ∧ kite s k.val = none) ∧
    (∃ (k : Fin 4096) (keep : Bool) (s : State) (y : Kite), Managed s ∧ kite s k.val = some y) ∧
    (∃ (i : Fin 65536) (c : Fin 1024) (s : State), Managed s ∧ (i.val, c.val) ∉ s.pool.members ∧ s.pool.members.length < 65536) :=
  ⟨⟨3, 50, wBase, by decide +kernel⟩,
   ⟨.ld 2, 200, wBase, by decide +kernel⟩,
   ⟨.ld 2, 99, wBase, by decide +kernel⟩,
   ⟨2, 77, wHost, by decide +kernel⟩,
   ⟨5, wBase, (fun g h => nomatch h), by decide +kernel⟩,
   ⟨2000000000, 1, { periodMs := 1000 }, wQueue [], by decide +kernel⟩,
   ⟨2000000000, 2, 1500000000, { periodMs := 1000, late := some 1500000000 }, { wHost with pool := { wHost.pool with tethers := [{ holder := .ld 2, obj := .extent 1, tenant := 1 }], leases := [(.ld 2, { periodMs := 1000, late := some 1500000000 })] } }, by decide +kernel⟩,
   ⟨.grp 1, .group 1, true, wQueue [], by simp, by decide +kernel⟩,
   ⟨5, 1, false, true, wBase, by decide +kernel⟩,
   ⟨5, true, setKite 5 (some { tenant := 1 }) wBase, { tenant := 1 }, by decide +kernel⟩,
   ⟨9, 1, wBase, by decide +kernel⟩⟩

theorem witness_PortCommandsComplete :
    (∃ (n : Fin 64) (s : State), Managed s ∧ (port s n.val).st = .disabled ∧ portFenced s n.val = false) ∧
    (∃ (n : Fin 64) (s : State), Managed s ∧ (port s n.val).pair = false ∧ (port s n.val).txq = []) ∧
    (∃ (n : Fin 64) (c : PortConfig) (s : State), Managed s ∧ (port s n.val).st ≠ .up) ∧
    (∃ (n : Fin 64) (c : PortConfig) (s : State), Managed s ∧ (port s n.val).st = .up ∧ goodLanes (configured (port s n.val) c) ≠ []) ∧
    (∃ (n : Fin 64) (v : Fin 8) (words : BitVec 16) (s : State), Managed s ∧ (if v.val = 7 then 8 else 130) ≤ words.toNat ∧ (((List.range 8).filter (fun u => u != v.val)).map (rxWords s n.val)).foldl (· + ·) 0 + words.toNat ≤ 16384) ∧
    (∃ (n : Fin 64) (v : Fin 8) (words : BitVec 16) (s : State), Managed s ∧ (words.toNat < (if v.val = 7 then 8 else 130) ∨ 16384 < (((List.range 8).filter (fun u => u != v.val)).map (rxWords s n.val)).foldl (· + ·) 0 + words.toNat)) ∧
    (∃ (d : BitVec 16) (ports : BitVec 64) (s : State), Managed s) ∧
    (∃ (g : Fin 4096) (ports : BitVec 64) (valid loc : Bool) (s : State), Managed s) ∧
    (∃ (a u : BitVec 16) (d : BitVec 10) (l : BitVec 16) (s : State), Managed s) ∧
    (∃ (n : Fin 64) (now : Nat) (s : State), Running s ∧ (port s n.val).st = .probing) ∧
    (∃ (n : Fin 64) (now : Nat) (s : State), Running s ∧ (port s n.val).st = .probing) ∧
    (∃ (n : Fin 64) (lane : Fin 16) (now : Nat) (s : State), Running s ∧ (port s n.val).st = .lighting ∧ (port s n.val).rxReady ||| ((1#16 <<< lane.val) &&& ~~~(port s n.val).laneFault &&& ~~~(port s n.val).laneDisable) ≠ 0) ∧
    (∃ (n : Fin 64) (lane : Fin 16) (now : Nat) (s : State), Running s ∧ ((port s n.val).st = .training ∨ (port s n.val).st = .up)) ∧
    (∃ (n : Fin 64) (now : Nat) (s : State), Running s ∧ (port s n.val).st = .training ∧ (port s n.val).pair = false ∧ (port s n.val).keyAgreed = true ∧ (port s n.val).trainSeen = true ∧ (port s n.val).creditSeen = true ∧ goodLanes (port s n.val) ≠ [] ∧ (port s n.val).rxReady ≠ 0) ∧
    (∃ (n : Fin 64) (now : Nat) (s : State), Running s ∧ (port s n.val).pair = false ∧ (port s n.val).txq = [] ∧ ((port s n.val).st = .lighting ∨ (port s n.val).st = .training) ∧ (port s n.val).stateTime + 1000000 * trainLimitMs s ≤ max s.time now) ∧
    (∃ (n : Fin 64) (now : Nat) (s : State), Running s ∧ (port s n.val).pair = false ∧ (port s n.val).txq = [] ∧ ((port s n.val).st = .lighting ∨ (port s n.val).st = .training ∨ (port s n.val).st = .up)) ∧
    (∃ (n : Fin 64) (s : State), Managed s ∧ (port s n.val).pair = false ∧ (port s n.val).txq = [] ∧ (port s n.val).st = .up) :=
  ⟨⟨3, .reset, by decide +kernel⟩,
   ⟨3, setVc 3 2 { txAvail := 9 } (setPort 3 { st := .up, enable := true, lit := 0xF } .reset), by decide +kernel⟩,
   ⟨63, { pair := true, widthPolicy := 2, minWidthLog2 := 3, srcCheck := true, srcBase := 4, srcMask := 0xFFFC, laneDisable := 1, parkHoldUs := 7 }, .reset, by decide +kernel⟩,
   ⟨63, { pair := false, widthPolicy := 2, minWidthLog2 := 3, srcCheck := true, srcBase := 4, srcMask := 0xFFFC, laneDisable := 1, parkHoldUs := 7 }, setPort 63 { st := .up, lit := 0xFFFF, partnerReady := 0xFFFF, rxReady := 0xFFFF, txMask := 0xFFFF } .reset, by decide +kernel⟩,
   ⟨5, 0, 130, .reset, by decide +kernel⟩,
   ⟨5, 7, 7, .reset, by decide +kernel⟩,
   ⟨65535, 6, .reset, by decide +kernel⟩,
   ⟨4095, 6, true, false, .reset, by decide +kernel⟩,
   ⟨1, 2, 3, 4, .reset, by decide +kernel⟩,
   ⟨9, 70, setPort 9 { st := .probing } .reset, by decide +kernel⟩,
   ⟨9, 70, setPort 9 { st := .probing, laneDisable := 1 } .reset, by decide +kernel⟩,
   ⟨9, 15, 70, setPort 9 { st := .lighting } .reset, by decide +kernel⟩,
   ⟨9, 15, 70, setPort 9 { st := .up, laneFault := 0x8000 } .reset, by decide +kernel⟩,
   ⟨9, 70, setPort 9 { st := .training, keyAgreed := true, trainSeen := true, creditSeen := true, partnerReady := 0xFF0, rxReady := 0xF0, lit := 0xFFFF } .reset, by decide +kernel⟩,
   ⟨9, 2000000, setPort 9 { st := .training, lit := 1 } .reset, by decide +kernel⟩,
   ⟨9, 2000000, setPort 9 { st := .up, lit := 1 } .reset, by decide +kernel⟩,
   ⟨9, setPort 9 { st := .up, lit := 1, keyAgreed := true } .reset, by decide +kernel⟩⟩

theorem witness_FrameCommandsComplete :
    (∃ (n : Fin 64) (p : Packet) (idle errs : List Nat) (f : BitVec 32) (now : Nat) (s : State), Running s ∧ (port s n.val).st = .up ∧ (port s n.val).fctrRx = f.toNat ∧ (∀ e ∈ idle, e ≤ 2) ∧ (∀ e ∈ errs, e ≤ 1)) ∧
    (∃ (n : Fin 64) (p : Packet) (idle errs : List Nat) (ok tagOk : Bool) (f : BitVec 32) (now : Nat) (s : State), Running s ∧ (port s n.val).st = .up ∧ ((2 ∈ errs ∨ ok = false))) ∧
    (∃ (n : Fin 64) (p : Packet) (idle errs : List Nat) (f : BitVec 32) (now : Nat) (s : State), Running s ∧ (port s n.val).st = .up ∧ (port s n.val).fctrRx = f.toNat ∧ (∀ e ∈ idle, e ≤ 2) ∧ (∀ e ∈ errs, e ≤ 1) ∧ (port s n.val).tagFails < 2) ∧
    (∃ (n : Fin 64) (v : Fin 8) (now : Nat) (f : TxFrame) (s : State), Running s ∧ (port s n.val).st = .up ∧ (port s n.val).retraining = false ∧ headFrame (port s n.val) v.val = some f ∧ f.entry = none ∧ f.pkt.mcast = false ∧ frameWords f.pkt ≤ (vcOf s n.val v.val).txAvail ∧ (port s n.val).fctrTx + 1 < 2 ^ 63 ∧ gated s = false ∧ awaitsAck s = false) ∧
    (∃ (n : Fin 64) (c : List (BitVec 16)) (s : State), Running s ∧ (port s n.val).st = .up ∧ c.length = 8) ∧
    (∃ (n : Fin 64) (c : List (BitVec 16)) (s : State), Running s ∧ (port s n.val).st = .training ∧ c.length = 8) ∧
    (∃ (n : Fin 64) (now v : Nat) (s : State), Running s ∧ (port s n.val).st = .up ∧ v < 8 ∧ (vcOf s n.val v).owed ≠ 0) ∧
    (∃ (n : Fin 64) (now : Nat) (s : State), Running s ∧ (port s n.val).st = .up ∧ (port s n.val).auditAt + 1000 * auditUs s ≤ max s.time now) ∧
    (∃ (n : Fin 64) (c : List (BitVec 16)) (s : State), Running s ∧ (port s n.val).st = .up ∧ (port s n.val).rxq = [] ∧ (port s n.val).audits = [] ∧ (port s n.val).rxRetrain = none) ∧
    (∃ (n : Fin 64) (c : List (BitVec 16)) (s : State), Running s ∧ (port s n.val).st = .up ∧ (port s n.val).auditSent ≠ [] ∧ c.length = 8) ∧
    (∃ (n : Fin 64) (now : Nat) (s : State), Running s ∧ (port s n.val).st = .up ∧ (port s n.val).rxq = [] ∧ (port s n.val).audits = []) ∧
    (∃ (n : Fin 64) (now : Nat) (s : State), Running s ∧ (port s n.val).st = .up ∧ (port s n.val).pair = false ∧ (port s n.val).txq = []) ∧
    (∃ (n : Fin 64) (c : List (BitVec 16)) (s : State), Running s ∧ (port s n.val).retraining = true ∧ c.length = 8) ∧
    (∃ (n : Fin 64) (now at_ mark : Nat) (f : RxFrame) (s : State), Running s ∧ (port s n.val).rxRetrain = some (at_, mark) ∧ (port s n.val).rxq = [f] ∧ f.id < mark ∧ at_ + 1000 * retrainDrainUs s ≤ max s.time now) :=
  ⟨⟨9, { dst := 4, src := 7, typ := 0x13, vc := 1, last := true, length := 0, seq := 0, keyEpoch := 0, tenant := 0, birth := 0, arg0 := 0, crc := 0, payload := [] }, [1, 2, 0], [0, 1], 12, 70, setPort 9 { st := .up, fctrRx := 12, tagFails := 2 } .reset, by decide +kernel⟩,
   ⟨9, { dst := 4, src := 7, typ := 0x13, vc := 1, last := true, length := 0, seq := 0, keyEpoch := 0, tenant := 0, birth := 0, arg0 := 0, crc := 0, payload := [] }, [3], [2, 1], true, true, 12, 70, setPort 9 { st := .up } .reset, by decide +kernel⟩,
   ⟨9, { dst := 4, src := 7, typ := 0x13, vc := 1, last := true, length := 0, seq := 0, keyEpoch := 0, tenant := 0, birth := 0, arg0 := 0, crc := 0, payload := [] }, [], [1], 12, 70, setPort 9 { st := .up, fctrRx := 12, tagFails := 1 } .reset, by decide +kernel⟩,
   ⟨9, 1, 70, { pkt := { dst := 4, src := 7, typ := 0x13, vc := 1, last := true, length := 0, seq := 0, keyEpoch := 0, tenant := 0, birth := 0, arg0 := 0, crc := 0, payload := [] }, entry := none }, setVc 9 1 { txAvail := 2 } (setPort 9 { st := .up, txq := [{ pkt := { dst := 4, src := 7, typ := 0x13, vc := 1, last := true, length := 0, seq := 0, keyEpoch := 0, tenant := 0, birth := 0, arg0 := 0, crc := 0, payload := [] }, entry := none }] } .reset), by decide +kernel⟩,
   ⟨9, [1, 2, 3, 4, 5, 6, 7, 8], setVc 9 7 { txAvail := 65530 } (setPort 9 { st := .up } .reset), by decide +kernel⟩,
   ⟨9, [1, 2, 3, 4, 5, 6, 7, 8], setPort 9 { st := .training } .reset, by decide +kernel⟩,
   ⟨9, 70, 6, setVc 9 6 { owed := 3 } (setPort 9 { st := .up } .reset), by decide +kernel⟩,
   ⟨9, 10000000, setVc 9 6 { sent := 3 } (setPort 9 { st := .up } .reset), by decide +kernel⟩,
   ⟨9, [], setVc 9 6 { recvd := 3 } (setPort 9 { st := .up } .reset), by decide +kernel⟩,
   ⟨9, [1, 2, 3, 4, 5, 6, 7, 8], setVc 9 0 { txWindow := 10 } (setPort 9 { st := .up, auditSent := [4, 2, 3, 4, 5, 6, 7, 8] } .reset), by decide +kernel⟩,
   ⟨9, 70, setPort 9 { st := .up, rxq := [] } .reset, by decide +kernel⟩,
   ⟨9, 70, setPort 9 { st := .up } .reset, by decide +kernel⟩,
   ⟨9, [1, 2, 3, 4, 5, 6, 7, 8], setPort 9 { st := .up, retraining := true } .reset, by decide +kernel⟩,
   ⟨9, 100000, 0, 5, { id := 4, pkt := { dst := 4, src := 7, typ := 0x13, vc := 1, last := true, length := 0, seq := 0, keyEpoch := 0, tenant := 0, birth := 0, arg0 := 0, crc := 0, payload := [] }, time := 0, fwd := true, loc := false }, setPort 9 { st := .up, rxRetrain := some (0, 5), rxq := [{ id := 4, pkt := { dst := 4, src := 7, typ := 0x13, vc := 1, last := true, length := 0, seq := 0, keyEpoch := 0, tenant := 0, birth := 0, arg0 := 0, crc := 0, payload := [] }, time := 0, fwd := true, loc := false }] } .reset, by decide +kernel⟩⟩

theorem witness_LaneCommandsComplete :
    (∃ (n : Fin 64) (m : BitVec 16) (s : State), Running s ∧ (lanesOf m).length ≠ 0 ∧ widthFor (lanesOf m).length = (lanesOf m).length) ∧
    (∃ (n : Fin 64) (m : BitVec 16) (s : State), Running s ∧ widthFor (lanesOf m).length ≠ (lanesOf m).length) ∧
    (∃ (n : Fin 64) (m : BitVec 16) (s : State), Running s ∧ (port s n.val).st ≠ .up) ∧
    (∃ (n : Fin 64) (m : BitVec 16) (s : State), Running s ∧ (port s n.val).st = .up ∧ goodLanes { port s n.val with partnerReady := m } ≠ []) ∧
    (∃ (n : Fin 64) (m : BitVec 16) (s : State), Running s ∧ (port s n.val).st = .up ∧ (port s n.val).pair = false ∧ (port s n.val).txq = [] ∧ goodLanes { port s n.val with partnerReady := m } = []) ∧
    (∃ (n : Fin 64) (m : BitVec 16) (s : State), Running s ∧ (port s n.val).st ≠ .up) ∧
    (∃ (n : Fin 64) (m : BitVec 16) (s : State), Running s ∧ (port s n.val).st = .up ∧ goodLanes { port s n.val with txFault := m } ≠ []) ∧
    (∃ (n : Fin 64) (m : BitVec 16) (s : State), Running s ∧ (port s n.val).st = .up ∧ (port s n.val).pair = false ∧ (port s n.val).txq = [] ∧ goodLanes { port s n.val with txFault := m } = []) ∧
    (∃ (n : Fin 64) (lane : Fin 16) (now : Nat) (s : State), Running s ∧ ((port s n.val).st = .training ∨ ((port s n.val).st = .up ∧ (port s n.val).rxMask &&& ((port s n.val).rxReady &&& ~~~(1#16 <<< lane.val)) ≠ 0))) ∧
    (∃ (n : Fin 64) (lane : Fin 16) (now : Nat) (s : State), Running s ∧ (port s n.val).st = .up ∧ (port s n.val).pair = false ∧ (port s n.val).txq = [] ∧ (port s n.val).rxMask &&& ((port s n.val).rxReady &&& ~~~(1#16 <<< lane.val)) = 0) ∧
    (∃ (n : Fin 64) (s : State), Running s ∧ (port s n.val).st = .up ∧ (port s n.val).widthPolicy = 1 ∧ minWidth (port s n.val) < (lanesOf (port s n.val).txMask).length) ∧
    (∃ (n : Fin 64) (s : State), Running s ∧ (port s n.val).st = .up ∧ (port s n.val).widthPolicy = 1 ∧ 2 * (lanesOf (port s n.val).txMask).length ≤ 16 ∧ goodLanes (port s n.val) ≠ [] ∧ widthFor (2 * (lanesOf (port s n.val).txMask).length) = 2 * (lanesOf (port s n.val).txMask).length ∧ 2 * (lanesOf (port s n.val).txMask).length ≤ (goodLanes (port s n.val)).length) ∧
    (∃ (n : Fin 64) (s : State), Running s ∧ (port s n.val).st = .up ∧ (port s n.val).widthPolicy = 1 ∧ goodLanes (port s n.val) ≠ [] ∧ (∀ i ∈ lanesOf (port s n.val).txMask, i ∈ goodLanes (port s n.val)) ∧ widthFor (goodLanes (port s n.val)).length = (lanesOf (port s n.val).txMask).length ∧ 2 * (lanesOf (port s n.val).txMask).length ≤ (lanesOf (~~~(port s n.val).txFault &&& ~~~(port s n.val).laneDisable)).length ∧ 2 * (lanesOf (port s n.val).txMask).length ≤ 16) ∧
    (∃ (n : Fin 64) (lane : Fin 16) (now u : Nat) (s : State), Running s ∧ tget none (port s n.val).parked lane.val = some u ∧ u + 1000 * (port s n.val).parkHoldUs ≤ max s.time now) ∧
    (∃ (n : Fin 64) (id : BitVec 16) (pair side : Bool) (ready : BitVec 16) (s : State), Running s ∧ (port s n.val).st = .training ∧ pair = (port s n.val).pair ∧ ((pair = true → side ≠ s.sec.side)) ∧ ((pair = false → id.toNat ≠ endpointOf s (n.val / 16))) ∧ (((port s n.val).ephemeral = none ∨ (port s n.val).keyParts = []))) ∧
    (∃ (n : Fin 64) (id : BitVec 16) (pair side : Bool) (ready : BitVec 16) (s : State), Running s ∧ (port s n.val).st = .training ∧ pair ≠ (port s n.val).pair ∧ (port s n.val).pair = false ∧ (port s n.val).txq = []) ∧
    (∃ (n : Fin 64) (id : BitVec 16) (side : Bool) (ready : BitVec 16) (s : State), Running s ∧ (port s n.val).st = .training ∧ (port s n.val).pair = false ∧ id.toNat = endpointOf s (n.val / 16) ∧ (port s n.val).txq = []) ∧
    (∃ (n : Fin 64) (part : Fin 4) (index total : BitVec 16) (d : List Byte) (s : State), Running s ∧ (port s n.val).st = .training ∧ part.val ≠ 3 ∧ index < total ∧ (port s n.val).keyParts = [] ∧ 2 ≤ total) ∧
    (∃ (n : Fin 64) (part : Fin 4) (index total : BitVec 16) (d : List Byte) (e : Nat) (s : State), Running s ∧ (port s n.val).st = .training ∧ part.val ≠ 3 ∧ index < total ∧ (port s n.val).ephemeral = some e ∧ (port s n.val).trainSeen = true ∧ (port s n.val).keyAgreed = false ∧ (port s n.val).keySigned = false ∧ (keyPart { port s n.val with keyParts := aset (part.val, index.toNat) (total.toNat, slice d 0 22) (port s n.val).keyParts } 0).isSome = true ∧ keyPart { port s n.val with keyParts := aset (part.val, index.toNat) (total.toNat, slice d 0 22) (port s n.val).keyParts } 1 = none) ∧
    (∃ (n : Fin 64) (w : List Byte) (s : State), Running s ∧ ctrlBad w = true) ∧
    (∃ (n : Fin 64) (w : List Byte) (s : State), ctrlBad w = false) ∧
    (∃ (n : Fin 64) (m : Nat) (p : Packet) (s : State), Running s ∧ p.mcast = false ∧ termQuadrant s n.val p = none ∧ srcOk (port s n.val) p = true ∧ ageOf s p ≤ 976 ∧ choosePort s (n.val / 16) p (some n.val) = some m ∧ (port s n.val).rxq = []) ∧
    (∃ (n : Fin 64) (p : Packet) (s : State), Running s ∧ p.mcast = false ∧ termQuadrant s n.val p = none ∧ srcOk (port s n.val) p = true ∧ ageOf s p ≤ 976 ∧ candidates s p.dst.toNat (some n.val) = [] ∧ (port s n.val).rxq = []) ∧
    (∃ (n : Fin 64) (p : Packet) (ports : BitVec 64) (loc : Bool) (s : State), Running s ∧ p.mcast = true ∧ p.dst.toNat < 4096 ∧ tget (0#64, false, false) s.rof.mcast p.dst.toNat = (ports, true, loc) ∧ srcOk (port s n.val) p = true ∧ ageOf s p ≤ 976 ∧ (port s n.val).rxq = []) :=
  ⟨⟨9, 0xF, .reset, by decide +kernel⟩,
   ⟨9, 0x7, .reset, by decide +kernel⟩,
   ⟨9, 0xF, .reset, by decide +kernel⟩,
   ⟨9, 0x7, setPort 9 { st := .up, lit := 0xFFFF, txMask := 0xF, partnerReady := 0xFF } .reset, by decide +kernel⟩,
   ⟨9, 0, setPort 9 { st := .up, lit := 0xFFFF, txMask := 0xF, partnerReady := 0xFF } .reset, by decide +kernel⟩,
   ⟨9, 0xF, .reset, by decide +kernel⟩,
   ⟨9, 0x2, setPort 9 { st := .up, lit := 0xFFFF, txMask := 0xF, partnerReady := 0xFF } .reset, by decide +kernel⟩,
   ⟨9, 0xFFFF, setPort 9 { st := .up, lit := 0xFFFF, txMask := 0xF, partnerReady := 0xFF } .reset, by decide +kernel⟩,
   ⟨9, 3, 70, setPort 9 { st := .up, rxReady := 0xF, rxMask := 0xF } .reset, by decide +kernel⟩,
   ⟨9, 3, 70, setPort 9 { st := .up, rxReady := 0xF, rxMask := 0x8 } .reset, by decide +kernel⟩,
   ⟨9, setPort 9 { st := .up, lit := 0xFFFF, widthPolicy := 1, txMask := 0xF, partnerReady := 0xF } .reset, by decide +kernel⟩,
   ⟨9, setPort 9 { st := .up, lit := 0xFFFF, widthPolicy := 1, txMask := 0x3, partnerReady := 0xFF } .reset, by decide +kernel⟩,
   ⟨9, setPort 9 { st := .up, lit := 0x3, widthPolicy := 1, txMask := 0x3, partnerReady := 0x3 } .reset, by decide +kernel⟩,
   ⟨9, 3, 2000000, 5, setPort 9 { st := .up, lit := 0xF, parked := [(3, some 5)] } .reset, by decide +kernel⟩,
   ⟨9, 700, false, true, 0xFF, setPort 9 { st := .training } .reset, by decide +kernel⟩,
   ⟨9, 700, true, true, 0xFF, setPort 9 { st := .training, lit := 7 } .reset, by decide +kernel⟩,
   ⟨9, BitVec.ofNat 16 (endpointOf .reset 0), true, 0xFF, setPort 9 { st := .training, lit := 7 } .reset, by decide +kernel⟩,
   ⟨9, 1, 0, 2, [1, 2, 3], setPort 9 { st := .training } .reset, by decide +kernel⟩,
   ⟨9, 0, 4, 5, [1, 2, 3], 0, setPort 9 { st := .training, trainSeen := true, ephemeral := some 0, keyParts := [((0, 0), (5, [0])), ((0, 1), (5, [1])), ((0, 2), (5, [2])), ((0, 3), (5, [3]))] } .reset, by decide +kernel⟩,
   ⟨9, [], .reset, by decide +kernel⟩,
   ⟨9, ctrlWord 7 [0], .reset, by decide +kernel⟩,
   ⟨9, 40, { dst := 4, src := 7, typ := 0x13, vc := 1, last := true, length := 0, seq := 0, keyEpoch := 0, tenant := 0, birth := 0, arg0 := 0, crc := 0, payload := [] }, { (setPort 40 { st := .up } (setPort 9 { st := .up } .reset)) with rof := { (setPort 40 { st := .up } (setPort 9 { st := .up } .reset)).rof with route := [(4, 1099511627776)] } }, by decide +kernel⟩,
   ⟨9, { dst := 4, src := 7, typ := 0x13, vc := 1, last := true, length := 0, seq := 0, keyEpoch := 0, tenant := 0, birth := 0, arg0 := 0, crc := 0, payload := [] }, .reset, by decide +kernel⟩,
   ⟨9, { dst := 4, src := 7, typ := 0x13, vc := 1, last := true, mcast := true, length := 0, seq := 0, keyEpoch := 0, tenant := 0, birth := 0, arg0 := 0, crc := 0, payload := [] }, 0x600, false, { (setPort 10 { st := .up } (setPort 9 { st := .up } .reset)) with rof := { (setPort 10 { st := .up } (setPort 9 { st := .up } .reset)).rof with mcast := [(4, (0x600, true, false))] } }, by decide +kernel⟩⟩

theorem witness_RequestCommandsComplete :
    (∃ (n : Fin 64) (p : Packet) (q ppa : Nat) (s : State), Running s ∧ Passes n.val p q s = true ∧ p.typ = 0x01 ∧ p.pktCount.toNat ≤ 1 ∧ p.mcast = false ∧ s.e2e.send = [] ∧ s.fen.fencedBlocks = [] ∧ argPva p % 64 + (field p.arg0.toNat 48 12 + 1) ≤ 64 ∧ (translate (n.val / 16) p.tenant.toNat (argPva p) (.ep p.src.toNat) .port .read s).1.toOption.map (·.1) = some ppa ∧ ppa % 64 = argPva p % 64 ∧ IdleLine s (n.val / 16) (ppa / 64)) ∧
    (∃ (n : Fin 64) (p : Packet) (q ppa : Nat) (s : State), Running s ∧ Passes n.val p q s = true ∧ p.typ = 0x02 ∧ p.pktCount.toNat ≤ 1 ∧ p.mcast = false ∧ s.e2e.send = [] ∧ s.fen.fencedBlocks = [] ∧ argPva p % 64 = 0 ∧ (translate (n.val / 16) p.tenant.toNat (argPva p) (.ep p.src.toNat) .port .read s).1.toOption.map (·.1) = some ppa ∧ ppa % 64 = 0 ∧ IdleLine s (n.val / 16) (ppa / 64)) ∧
    (∃ (n : Fin 64) (p : Packet) (q ppa : Nat) (s : State), Running s ∧ Passes n.val p q s = true ∧ p.typ = 0x03 ∧ p.pktCount.toNat ≤ 1 ∧ p.mcast = false ∧ s.e2e.send = [] ∧ s.fen.fencedBlocks = [] ∧ argPva p % 64 = 0 ∧ (translate (n.val / 16) p.tenant.toNat (argPva p) (.ep p.src.toNat) .port .own s).1.toOption.map (·.1) = some ppa ∧ ppa % 64 = 0 ∧ IdleLine s (n.val / 16) (ppa / 64)) ∧
    (∃ (n : Fin 64) (p : Packet) (q ppa : Nat) (s : State), Running s ∧ Passes n.val p q s = true ∧ p.typ = 0x04 ∧ p.pktCount.toNat ≤ 1 ∧ p.mcast = false ∧ s.e2e.send = [] ∧ s.fen.fencedBlocks = [] ∧ argPva p % 64 = 0 ∧ (translate (n.val / 16) p.tenant.toNat (argPva p) (.ep p.src.toNat) .port .own s).1.toOption.map (·.1) = some ppa ∧ ppa % 64 = 0 ∧ IdleLine s (n.val / 16) (ppa / 64)) ∧
    (∃ (n : Fin 64) (p : Packet) (q ppa : Nat) (s : State), Running s ∧ Passes n.val p q s = true ∧ p.typ = 0x30 ∧ p.pktCount.toNat ≤ 1 ∧ p.mcast = false ∧ s.e2e.send = [] ∧ s.fen.fencedBlocks = [] ∧ argPva p % 64 = 0 ∧ p.payload.length = 64 ∧ (translate (n.val / 16) p.tenant.toNat (argPva p) (.ep p.src.toNat) .port .write s).1.toOption.map (·.1) = some ppa ∧ ppa % 64 = 0 ∧ IdleLine s (n.val / 16) (ppa / 64)) ∧
    (∃ (n : Fin 64) (p : Packet) (q ppa : Nat) (s : State), Running s ∧ Passes n.val p q s = true ∧ p.typ = 0x31 ∧ p.pktCount.toNat ≤ 1 ∧ p.mcast = false ∧ s.e2e.send = [] ∧ s.fen.fencedBlocks = [] ∧ argPva p % 64 = 0 ∧ (translate (n.val / 16) p.tenant.toNat (argPva p) (.ep p.src.toNat) .port .write s).1.toOption.map (·.1) = some ppa ∧ ppa % 64 = 0 ∧ IdleLine s (n.val / 16) (ppa / 64)) ∧
    (∃ (n : Fin 64) (p : Packet) (q l : Nat) (s : State), Running s ∧ Passes n.val p q s = true ∧ p.typ = 0x2B ∧ p.pktCount.toNat ≤ 1 ∧ p.mcast = false ∧ s.e2e.send = [] ∧ s.fen.fencedBlocks = [] ∧ wbLine s p.tenant.toNat (argPva p) = some l ∧ recallLine s (.ep p.src.toNat) (pktAddr p) = none ∧ line s l = { dir := { st := .o, ptrs := [.ep p.src.toNat] } } ∧ s.mem.migs = [] ∧ (stack s (pcOf s (64 * l) / 64)).failedPcs = [] ∧ reachesHome s (n.val / 16) (homeOf s (64 * l)) = true) ∧
    (∃ (n : Fin 64) (p : Packet) (q ppa : Nat) (s : State), Running s ∧ Passes n.val p q s = true ∧ p.typ = 0x05 ∧ p.pktCount.toNat ≤ 1 ∧ p.mcast = false ∧ s.e2e.send = [] ∧ s.fen.fencedBlocks = [] ∧ s.e2e.retained = [] ∧ atomValid (field p.arg0.toNat 48 8) = true ∧ argPva p % max 1 (atomBytes (field p.arg0.toNat 48 8)) = 0 ∧ argPva p % 64 + atomBytes (field p.arg0.toNat 48 8) ≤ 64 ∧ (translate (n.val / 16) p.tenant.toNat (argPva p) (.ep p.src.toNat) .port .atomic s).1.toOption.map (·.1) = some ppa ∧ ppa % 64 = argPva p % 64 ∧ IdleLine s (n.val / 16) (ppa / 64)) :=
  ⟨⟨3, wPkt 0x01 0 0x0007000000000010 [], 0, 16, wBase, by decide +kernel⟩,
   ⟨3, wPkt 0x02 0 0x40 [], 0, 64, wBase, by decide +kernel⟩,
   ⟨3, wPkt 0x03 0 0x40 [], 0, 64, wBase, by decide +kernel⟩,
   ⟨3, wPkt 0x04 0 0x40 [], 0, 64, wBase, by decide +kernel⟩,
   ⟨3, wPkt 0x30 4 0x40 ((List.range 64).map (BitVec.ofNat 8)), 0, 64, wBase, by decide +kernel⟩,
   ⟨3, wPkt 0x31 4 0x40 ([5, 0, 0, 0, 0, 0, 0, 0x80] ++ (List.range 64).map (fun i => BitVec.ofNat 8 (i + 1))), 0, 64, wBase, by decide +kernel⟩,
   ⟨3, wPkt 0x2B 3 0x40 ((List.range 64).map (BitVec.ofNat 8)), 0, 1, setLine 1 { dir := { st := .o, ptrs := [.ep 7] } } wBase, by decide +kernel⟩,
   ⟨3, wPkt 0x05 0 0x0013000000000048 ([9, 0, 0, 0, 0, 0, 0, 0] ++ [5, 0, 0, 0, 0, 0, 0, 0] ++ List.replicate 24 0), 0, 72, wBase, by decide +kernel⟩⟩

theorem witness_HomeEventCommandsComplete :
    (∃ (d : Fin 64) (tag hpa pva l : Nat) (s : State), Running s ∧ hostPva s d.val hpa = some pva ∧ wbLine s (logDev s d.val).tenant pva = some l ∧ quietLine (line s l) = true ∧ (line s l).buf = none ∧ (line s l).dir.st = .s ∧ (line s l).dir.coarse = false ∧ tenantGone s (logDev s d.val).tenant = false ∧ s.dir.lines.length < 16 ∧ s.dir.scans = [] ∧ s.dir.waitIn = [] ∧ s.dir.due = [] ∧ s.mem.migs = [] ∧ homeReachable s (homeOf s (64 * l)) = true ∧ entryServes s (d.val / 16) = true ∧ gated s = false ∧ awaitsAck s = false) ∧
    (∃ (d : Fin 64) (tag hpa : Nat) (s : State), Running s ∧ hostPva s d.val hpa = none ∧ gated s = false ∧ awaitsAck s = false) ∧
    (∃ (d : Fin 64) (hpa l : Nat) (s : State), Running s ∧ recallLine s (.ld d.val) (hostAddr s d.val hpa) = some l ∧ s.mem.migs = [] ∧ reachesHome s (d.val / 16) (homeOf s (64 * l)) = true ∧ (line s l).recalls.map (·.holder) = [Part.ld d.val] ∧ (line s l).cur = none ∧ (line s l).dir.st ≠ .u) ∧
    (∃ (d : Fin 64) (hpa l : Nat) (s : State), Running s ∧ recallLine s (.ld d.val) (hostAddr s d.val hpa) = some l ∧ s.mem.migs = [] ∧ reachesHome s (d.val / 16) (homeOf s (64 * l)) = true ∧ (line s l).recalls.map (·.holder) = [Part.ld d.val] ∧ (line s l).cur = none) ∧
    (∃ (d : Fin 64) (hpa l : Nat) (b : List Byte) (s : State), Running s ∧ b.length = 64 ∧ recallLine s (.ld d.val) (hostAddr s d.val hpa) = some l ∧ s.mem.migs = [] ∧ reachesHome s (d.val / 16) (homeOf s (64 * l)) = true ∧ (stack s (pcOf s (64 * l) / 64)).failedPcs = [] ∧ ownsLine (line s l) (.ld d.val) = true ∧ (line s l).recalls.map (·.holder) = [Part.ld d.val] ∧ (line s l).cur = none ∧ (line s l).dir.st ≠ .u) ∧
    (∃ (d : Fin 64) (hpa l : Nat) (b : List Byte) (s : State), Running s ∧ recallLine s (.ld d.val) (hostAddr s d.val hpa) = some l ∧ s.mem.migs = [] ∧ reachesHome s (d.val / 16) (homeOf s (64 * l)) = true ∧ ownsLine (line s l) (.ld d.val) = false ∧ (line s l).recalls.map (·.holder) = [Part.ld d.val] ∧ (line s l).cur = none ∧ (line s l).dir.st ≠ .u) ∧
    (∃ (l : Nat) (r : LineReq) (s : State), Running s ∧ line s l = { queue := [r] } ∧ r.kind = .wrLine ∧ r.poison = false ∧ r.data.length = 64 ∧ s.dir.scans = [] ∧ s.dir.waitIn = [] ∧ s.mem.migs = [] ∧ tenantGone s r.tenant = false ∧ tget none s.dir.pends r.pend = none ∧ (stack s (pcOf s (64 * l) / 64)).failedPcs = [] ∧ NothingDue s) ∧
    (∃ (l now : Nat) (s : State), Running s ∧ (line s l).recalls ≠ [] ∧ (line s l).dir.st ≠ .u ∧ (line s l).recallTime + 1000 * recallTimeoutUs s (homeOf s (64 * l)) ≤ max s.time now) ∧
    (∃ (l now : Nat) (s : State), Running s ∧ (line s l).recalls ≠ [] ∧ (line s l).dir.st = .u ∧ (line s l).cur = none ∧ (line s l).queue = [] ∧ s.mem.migs = [] ∧ (line s l).recallTime + 1000 * recallTimeoutUs s (homeOf s (64 * l)) ≤ max s.time now) ∧
    (∃ (d : Fin 64) (tag : Nat) (s : State), Running s ∧ gated s = false ∧ awaitsAck s = false) ∧
    (∃ (l now : Nat) (e : MergeEnt) (s : State), Running s ∧ tget none s.mem.merge l = some e ∧ e.mask = 2 ^ 64 - 1 ∧ e.data.length = 64 ∧ e.time + 1000 ≤ max s.time now ∧ s.mem.migs = [] ∧ (stack s (pcOf s (64 * l) / 64)).failedPcs = []) :=
  ⟨⟨2, 9, 64, 64, 1, setLine 1 { dir := { st := .s, ptrs := [.ld 2, .ep 7] } } wHost, by decide +kernel⟩,
   ⟨2, 9, 0x40000000, wHost, by decide +kernel⟩,
   ⟨2, 64, 1, setLine 1 { dir := { st := .o, ptrs := [.ld 2] }, recalls := [{ holder := .ld 2, share := false, tenant := 1, pva := 64, hpa := 64 }] } wHost, by decide +kernel⟩,
   ⟨2, 64, 1, setLine 1 { dir := { st := .u, ptrs := [.ld 2] }, recalls := [{ holder := .ld 2, share := false, tenant := 1, pva := 64, hpa := 64 }] } wHost, by decide +kernel⟩,
   ⟨2, 64, 1, (List.range 64).map (BitVec.ofNat 8), setLine 1 { dir := { st := .o, ptrs := [.ld 2] }, recalls := [{ holder := .ld 2, share := false, tenant := 1, pva := 64, hpa := 64 }] } wHost, by decide +kernel⟩,
   ⟨2, 64, 1, (List.range 64).map (BitVec.ofNat 8), setLine 1 { dir := { st := .s, ptrs := [.ld 2, .ep 7] }, recalls := [{ holder := .ld 2, share := false, tenant := 1, pva := 64, hpa := 64 }] } wHost, by decide +kernel⟩,
   ⟨1, { kind := .wrLine, who := .ep 7, tenant := 1, pva := 64, entryQ := 0, data := (List.range 64).map (BitVec.ofNat 8), pend := 5 }, setLine 1 { queue := [{ kind := .wrLine, who := .ep 7, tenant := 1, pva := 64, entryQ := 0, data := (List.range 64).map (BitVec.ofNat 8), pend := 5 }] } wBase, by decide +kernel⟩,
   ⟨1, 2000000000, setLine 1 { dir := { st := .o, ptrs := [.ld 2] }, recalls := [{ holder := .ld 2, share := false, tenant := 1, pva := 64, hpa := 64 }] } wHost, by decide +kernel⟩,
   ⟨1, 2000000000, setLine 1 { dir := { st := .u, ptrs := [.ld 2], dirtyPossible := true }, recalls := [{ holder := .ld 2, share := false, tenant := 1, pva := 64, hpa := 64 }] } wHost, by decide +kernel⟩,
   ⟨2, 9, .reset, by decide +kernel⟩,
   ⟨1, 1000, { mask := 2 ^ 64 - 1, data := (List.range 64).map (BitVec.ofNat 8), time := 0, writer := .ep 7, tenant := 1 }, { wBase with mem := { wBase.mem with merge := [(1, some { mask := 2 ^ 64 - 1, data := (List.range 64).map (BitVec.ofNat 8), time := 0, writer := .ep 7, tenant := 1 })] } }, by decide +kernel⟩⟩

theorem witness_TranslationCommandsComplete :
    (∃ (q : Fin 4) (c : Fin 1024) (pva : BitVec 48) (who : Part) (port adm : Bool) (acc : Access) (ents : List (BitVec 64 × Bool)) (level : Nat) (e : Pte) (s : State), Running s ∧ walkEntries s 0 ents = .leaf level e ∧ leafCheck (runEntry s c.val pva.toNat level e).leaf who (if port then .port else .inPool adm) acc = none) ∧
    (∃ (q : Fin 4) (c : Fin 1024) (pva : BitVec 48) (who : Part) (port adm : Bool) (acc : Access) (ents : List (BitVec 64 × Bool)) (s : State), Running s ∧ walkEntries s 0 ents = .fault .notPresent 0 ∧ (xunit s q.val).faultHead + 1 ≠ (xunit s q.val).faultTail) ∧
    (∃ (q : Fin 4) (c : Fin 1024) (lo hi now : Nat) (v : Inval) (s : State), Running s ∧ s.xlt.invals = [v] ∧ awaits q.val c.val lo hi v = true) ∧
    (∃ (q : Fin 4) (c : Fin 1024) (lo hi : Nat) (v : Inval) (s : State), Running s ∧ s.xlt.invals = [v] ∧ inProgress q.val c.val lo hi v = true ∧ s.dir.lines = [] ∧ s.dir.waitIn = [] ∧ s.cxl.wins = [] ∧ v.isSwitch = false ∧ ((∀ k, k < 4 → k ≠ q.val → k ∈ v.done))) ∧
    (∃ (q : Fin 4) (c : Fin 1024) (lo hi now at_ : Nat) (v : Inval) (r : LineReq) (s : State), Running s ∧ s.xlt.invals = [v] ∧ inProgress q.val c.val lo hi v = true ∧ tget none v.reached q.val = some at_ ∧ v.withdraws = true ∧ q.val ∉ v.bounded ∧ at_ + 1000 * drainBoundUs s q.val ≤ max s.time now ∧ s.dir.lines = [] ∧ s.dir.waitIn.map (·.2.2) = [r] ∧ drainBeat q.val v r = true ∧ r.owner = none ∧ tget none s.dir.pends r.pend = none ∧ (xunit s q.val).faultHead + 1 ≠ (xunit s q.val).faultTail ∧ NothingDue s) ∧
    (∃ (c : Fin 1024) (root : BitVec 26) (now : Nat) (s : State), Running s ∧ (roots s c.val).switchPending = false) ∧
    (∃ (d : Fin 64) (pasid page size hpa : Nat) (n : Fin 8192) (s : State), Running s) ∧
    (∃ (d : Fin 64) (pasid page size itag now : Nat) (s : State), Running s) ∧
    (∃ (d : Fin 64) (itag : Nat) (v : AtsInval) (s : State), Running s ∧ atsFind s d.val itag = some v ∧ s.cxl.dmaReads = [] ∧ gated s = false ∧ awaitsAck s = false) ∧
    (∃ (d : Fin 64) (itag now : Nat) (v : AtsInval) (s : State), Running s ∧ atsFind s d.val itag = some v ∧ s.cxl.dmaReads = [] ∧ v.time + 1000 * drainBoundUs s (d.val / 16) ≤ max s.time now ∧ gated s = false ∧ awaitsAck s = false) ∧
    (∃ (q : Fin 4) (data : BitVec 64) (s : State), Running s) :=
  ⟨⟨2, 5, 0x1000, .ep 7, true, false, .read, [(7, false)], 0, pteOf 7, wBase, by decide +kernel⟩,
   ⟨2, 5, 0x1000, .ep 7, true, false, .write, [(0, false)], wBase, by decide +kernel⟩,
   ⟨2, 1, 0, 0x20000000, 70, { tenant := 1, lo := 0, hi := 0x20000000, withdraws := true }, { (setXunit 2 { tlb := [{ tenant := 1, pva := 0, size := 268435456, sel := false, draining := false, leaf := { rights := {}, sealed := false, light := false, run := 2, level := 1, ppa := 0, extent := 1, overrides := [] } }] } wBase) with xlt := { (setXunit 2 { tlb := [{ tenant := 1, pva := 0, size := 268435456, sel := false, draining := false, leaf := { rights := {}, sealed := false, light := false, run := 2, level := 1, ppa := 0, extent := 1, overrides := [] } }] } wBase).xlt with invals := [{ tenant := 1, lo := 0, hi := 0x20000000, withdraws := true }] } }, by decide +kernel⟩,
   ⟨2, 1, 0, 0x20000000, { tenant := 1, lo := 0, hi := 0x20000000, withdraws := true, reached := [(2, some 5)], done := [0, 1, 3] }, { wBase with xlt := { wBase.xlt with invals := [{ tenant := 1, lo := 0, hi := 0x20000000, withdraws := true, reached := [(2, some 5)], done := [0, 1, 3] }] } }, by decide +kernel⟩,
   ⟨2, 1, 0, 0x20000000, 2000000000, 5, { tenant := 1, lo := 0, hi := 0x20000000, withdraws := true, reached := [(2, some 5)], beats := [(2, 9)] }, { kind := .wrLine, who := .ep 7, tenant := 1, pva := 64, entryQ := 2 }, { wBase with xlt := { wBase.xlt with invals := [{ tenant := 1, lo := 0, hi := 0x20000000, withdraws := true, reached := [(2, some 5)], beats := [(2, 9)] }] }, dir := { waitIn := [(1, 0, { kind := .wrLine, who := .ep 7, tenant := 1, pva := 64, entryQ := 2 })] }, fen := { quads := [] } }, by decide +kernel⟩,
   ⟨5, 77, 70, .reset, by decide +kernel⟩,
   ⟨2, 5, 0x1000, 4096, 0x7000, 9, .reset, by decide +kernel⟩,
   ⟨2, 5, 0x1000, 4096, 3, 70, setXunit 0 { atc := [{ ld := 2, pasid := 5, page := 0x1000, size := 4096, hpa := 0x7000, draining := false }] } .reset, by decide +kernel⟩,
   ⟨2, 3, { ld := 2, pasid := 5, page := 0x1000, size := 4096, itag := 3, time := 0, reads := [] }, setXunit 0 { atsInvals := [{ ld := 2, pasid := 5, page := 0x1000, size := 4096, itag := 3, time := 0, reads := [] }] } .reset, by decide +kernel⟩,
   ⟨2, 3, 2000000000, { ld := 2, pasid := 5, page := 0x1000, size := 4096, itag := 3, time := 0, reads := [] }, setXunit 0 { atsInvals := [{ ld := 2, pasid := 5, page := 0x1000, size := 4096, itag := 3, time := 0, reads := [] }] } .reset, by decide +kernel⟩,
   ⟨2, 0x10500, setXunit 2 { overflow := true } .reset, by decide +kernel⟩⟩

theorem witness_DoorbellCommandsComplete :
    (∃ (n : Fin 8192) (v : BitVec 32) (s : State), Running s ∧ (group s (n.val / 8)).st = .active ∧ (group s (n.val / 8)).revoking = false ∧ s.time ≤ leaseEnd (lease s (.grp (n.val / 8))) ∧ (v - (queue s n.val).sqHead).toNat ≤ sqSize (queue s n.val)) ∧
    (∃ (n : Fin 8192) (v : BitVec 32) (s : State), Running s ∧ (group s (n.val / 8)).st = .active ∧ (group s (n.val / 8)).revoking = false ∧ s.time ≤ leaseEnd (lease s (.grp (n.val / 8))) ∧ (v - (queue s n.val).cqHead).toNat ≤ cqHeld (queue s n.val)) ∧
    (∃ (n : Fin 8192) (v : BitVec 32) (s : State), Running s ∧ (group s (n.val / 8)).st = .active ∧ (group s (n.val / 8)).revoking = false ∧ s.time ≤ leaseEnd (lease s (.grp (n.val / 8))) ∧ tethersOf s (.grp (n.val / 8)) ≠ 0) ∧
    (∃ (n : Fin 8192) (v : BitVec 32) (r : BitVec 30) (s : State), Running s ∧ (group s (n.val / 8)).st = .active ∧ (group s (n.val / 8)).revoking = false ∧ s.time ≤ leaseEnd (lease s (.grp (n.val / 8))) ∧ (queue s n.val).st = .running) ∧
    (∃ (n : Fin 8192) (s : State), Running s) ∧
    (∃ (port : Fin 64) (p : Packet) (q : Nat) (s : State), Running s ∧ Passes port.val p q s = true ∧ p.typ = 0x40 ∧ p.arg0.toNat < 8192 ∧ ownedBy s (p.arg0.toNat / 8) p.src.toNat = true ∧ (group s (p.arg0.toNat / 8)).st = .active ∧ (group s (p.arg0.toNat / 8)).revoking = false ∧ s.time ≤ leaseEnd (lease s (.grp (p.arg0.toNat / 8))) ∧ dbKind (BitVec.ofNat 64 (leNat p.payload)) = 0 ∧ dbValid (queue s p.arg0.toNat) (BitVec.ofNat 64 (leNat p.payload)) = true) ∧
    (∃ (g : Fin 1024) (i : Fin 8) (d : List Byte) (s : State), Running s ∧ (group s g.val).owner = .pool ∧ (group s g.val).st = .active ∧ (group s g.val).revoking = false ∧ (group s g.val).dbMask = 2 ^ i.val ∧ s.time ≤ leaseEnd (lease s (.grp g.val)) ∧ (engRead (queueActor s (8 * g.val) none) ((group s g.val).dbPva / 64 * 64) 64 s).1 = .got d none ∧ dbKind (BitVec.ofNat 64 (leAt d (8 * i.val) 8)) = 0 ∧ dbValid (queue s (8 * g.val + i.val)) (BitVec.ofNat 64 (leAt d (8 * i.val) 8)) = true) ∧
    (∃ (n : Fin 8192) (ld h : Nat) (s : State), Running s ∧ canFetch s n.val = true ∧ s.pair.st = .solo ∧ (queue s n.val).placement = 0 ∧ (group s (n.val / 8)).owner = .host ld ∧ hostLinkUp s ld = true ∧ dmaRoom s (ld / 16) = true ∧ dmaOf s n.val = none ∧ hostXlat s ld (queue s n.val).pasid ((queue s n.val).sqBase + 64 * ((queue s n.val).sqHead.toNat % sqSize (queue s n.val))) = some h) ∧
    (∃ (n : Fin 8192) (s : State), Running s ∧ (queue s n.val).fetching = true ∧ (queue s n.val).st = .running) ∧
    (∃ (n : Fin 8192) (slot ld h : Nat) (d : Desc) (s : State), Running s ∧ descAt s n.val slot = some d ∧ dOpcode d = 0x01 ∧ descError d = none ∧ mayStart s n.val slot = true ∧ RingOpen s n.val ld h ∧ unordered s (complOf n.val d .ok) = false) ∧
    (∃ (n : Fin 8192) (slot k ld h : Nat) (d : Desc) (s : State), Running s ∧ descAt s n.val slot = some d ∧ descError d = some k ∧ mayStart s n.val slot = true ∧ RingOpen s n.val ld h ∧ unordered s (complOf n.val d .policed) = false) ∧
    (∃ (n : Fin 8192) (now ld : Nat) (s : State), Running s ∧ 0 < (queue s n.val).coalesced ∧ 0 < (queue s n.val).coalesceUs ∧ (queue s n.val).coalesceSince + 1000 * (queue s n.val).coalesceUs ≤ max s.time now ∧ (queue s n.val).notifyKind = 1 ∧ (group s (n.val / 8)).owner = .host ld ∧ gated s = false ∧ awaitsAck s = false) ∧
    (∃ (n : Fin 8192) (slot now ld h : Nat) (d : Desc) (s : State), Running s ∧ descAt s n.val slot = some d ∧ d.job = none ∧ d.started = true ∧ 2 ≤ dOpcode d ∧ dOpcode d ≤ 7 ∧ dLimitUs s n.val d ≠ 0 ∧ d.startTime + 1000 * dLimitUs s n.val d ≤ max s.time now ∧ RingOpen s n.val ld h ∧ unordered s (complOf n.val d .timeout) = false) :=
  ⟨⟨9, 5, wQueue [], by decide +kernel⟩,
   ⟨9, 0, wQueue [], by decide +kernel⟩,
   ⟨9, 5, wQueue [], by decide +kernel⟩,
   ⟨9, 5, 0, wQueue [], by decide +kernel⟩,
   ⟨9, .reset, by decide +kernel⟩,
   ⟨3, wPkt 0x40 6 9 [5, 0, 0, 0, 0, 0, 0, 0], 0, setGroup 1 { tenant := 1, owner := .endpoint 7, st := .active } wBase, by decide +kernel⟩,
   ⟨1, 1, [0, 0, 0, 0, 0, 0, 0, 0, 5, 0, 0, 0, 0, 0, 0, 0] ++ List.replicate 48 0, setGroup 1 { tenant := 1, owner := .pool, st := .active, dbPva := 64, dbMask := 2 } { wBase with mem := { wBase.mem with bytes := [(72, 5)] } }, by decide +kernel⟩,
   ⟨9, 2, 0x7000, wQueue [], by decide +kernel⟩,
   ⟨9, setQueue 9 { st := .running, fetching := true } (wQueue []), by decide +kernel⟩,
   ⟨9, 0, 2, 0x7000, { slot := 0, bytes := wDesc 1 [] }, wQueue [{ slot := 0, bytes := wDesc 1 [] }], by decide +kernel⟩,
   ⟨9, 0, 1, 2, 0x7000, { slot := 0, bytes := wDesc 0x30 [] }, wQueue [{ slot := 0, bytes := wDesc 0x30 [] }], by decide +kernel⟩,
   ⟨9, 5000, 2, setQueue 9 { st := .running, notifyKind := 1, msixVector := 7, coalesced := 1, coalesceUs := 5 } (wQueue []), by decide +kernel⟩,
   ⟨9, 0, 2000000, 2, 0x7000, { slot := 0, bytes := wDesc 2 [], started := true, stripes := 2, stripesDone := [0] }, setQueue 9 { queue (wQueue [{ slot := 0, bytes := wDesc 2 [], started := true, stripes := 2, stripesDone := [0] }]) 9 with defaultLimitMs := 1 } (wQueue []), by decide +kernel⟩⟩

theorem witness_GroupCommandsComplete :
    (∃ (n : Fin 8192) (s : State), Running s ∧ (group s (n.val / 8)).st ≠ .unbound ∧ ownerIgnored s n.val = false ∧ (queue s n.val).st = .disabled ∧ ringOk (queue s n.val) = true) ∧
    (∃ (n : Fin 8192) (s : State), Running s ∧ (group s (n.val / 8)).st ≠ .unbound ∧ ownerIgnored s n.val = false ∧ (queue s n.val).st = .running ∧ inFlight (queue s n.val) = 0) ∧
    (∃ (n : Fin 8192) (s : State), Running s ∧ (group s (n.val / 8)).st ≠ .unbound ∧ ownerIgnored s n.val = false ∧ (queue s n.val).st = .stopped ∧ (group s (n.val / 8)).held = []) ∧
    (∃ (g c : Fin 1024) (o : Owner) (q : Fin 4) (db : Nat) (s : State), Managed s ∧ (group s g.val).st = .unbound ∧ ownerOk s c.val o db = true ∧ tenantLive s c.val = true ∧ (s.pool.tethers.filter (fun x => x.tenant == c.val)).length < tget 0 s.pool.quotas c.val ∧ tethersOf s (.grp g.val) < 65535 ∧ s.pool.tethers.length < 65536) ∧
    (∃ (g : Fin 1024) (s : State), Managed s ∧ (group s g.val).st = .active ∧ s.que.jobs = [] ∧ s.core.objs = []) ∧
    (∃ (g : Fin 1024) (s : State), Running s ∧ (group s g.val).st = .quiescing ∧ groupBusy s g.val = false ∧ allDelivered s g.val = true ∧ (group s g.val).renewSeen = false) ∧
    (∃ (g : Fin 1024) (s : State), Running s ∧ (group s g.val).st = .quiescing ∧ groupBusy s g.val = false ∧ allDelivered s g.val = true ∧ (group s g.val).renewSeen = true ∧ s.que.jobs = []) ∧
    (∃ (g : Fin 1024) (s : State), Managed s ∧ (group s g.val).st = .orphaned ∧ s.que.jobs = [] ∧ s.core.objs = [] ∧ (group s g.val).held = [] ∧ (∀ n ∈ queuesOf g.val, (queue s n).flight = [])) ∧
    (∃ (g : Fin 1024) (s : State), Running s ∧ (group s g.val).st = .releasing ∧ s.que.jobs = [] ∧ (∀ n ∈ queuesOf g.val, (queue s n).flight = []) ∧ tethersOf s (.grp g.val) = 0) :=
  ⟨⟨10, wQueue [], by decide +kernel⟩,
   ⟨9, wQueue [], by decide +kernel⟩,
   ⟨9, setQueue 9 { st := .stopped, fault := 3 } (wQueue []), by decide +kernel⟩,
   ⟨4, 1, .host 2, 3, 0, wQueue [], by decide +kernel⟩,
   ⟨1, wQueue [], by decide +kernel⟩,
   ⟨1, setGroup 1 { tenant := 1, owner := .host 2, st := .quiescing } (wQueue []), by decide +kernel⟩,
   ⟨1, setGroup 1 { tenant := 1, owner := .host 2, st := .quiescing, renewSeen := true } (wQueue []), by decide +kernel⟩,
   ⟨1, setGroup 1 { tenant := 1, owner := .host 2, st := .orphaned } (wQueue []), by decide +kernel⟩,
   ⟨1, setGroup 1 { tenant := 1, owner := .host 2, st := .releasing } { wQueue [] with pool := wBase.pool }, by decide +kernel⟩⟩

theorem witness_KiteCommandsComplete :
    (∃ (n : Fin 8192) (slot : Nat) (d : Desc) (y : Kite) (s : State), Running s ∧ descAt s n.val slot = some d ∧ dOpcode d = 0x20 ∧ mayStart s n.val slot = true ∧ kdClean d = true ∧ kdKite d < 4096 ∧ kite s (kdKite d) = some y ∧ y.tenant = (group s (n.val / 8)).tenant ∧ homeReachable s (kdKite d % 4) = true ∧ y.held = none ∧ y.sealed = false ∧ (extent s (kdExtent d)).st = .active ∧ (extent s (kdExtent d)).kind = .ordinary ∧ (extent s (kdExtent d)).tenant = y.tenant ∧ kdExtent d < 16384 ∧ y.version = kdVersion d ∧ kdVersion d ≠ 2 ^ 64 - 1) ∧
    (∃ (k : Fin 4096) (e n slot ld h : Nat) (d : Desc) (y : Kite) (s : State), Running s ∧ kite s k.val = some y ∧ y.held = some (e, n, slot) ∧ y.waiting = [] ∧ y.extent = none ∧ s.dir.lines = [] ∧ drainPending s (extent s e).tenant (extentLo (extent s e)) (extentHi (extent s e)) = false ∧ (extent s e).releaseWaits = false ∧ descAt s n slot = some d ∧ unordered s (complOf n d .ok) = false ∧ RingOpen s n ld h) ∧
    (∃ (n : Fin 8192) (slot e ld h : Nat) (d : Desc) (y : Kite) (s : State), Running s ∧ descAt s n.val slot = some d ∧ dOpcode d = 0x21 ∧ mayStart s n.val slot = true ∧ kdClean d = true ∧ kdKite d < 4096 ∧ kite s (kdKite d) = some y ∧ y.tenant = (group s (n.val / 8)).tenant ∧ homeReachable s (kdKite d % 4) = true ∧ y.held = none ∧ kdCurrent d = true ∧ y.version ≠ 0 ∧ y.extent = some e ∧ (extent s e).st = .current ∧ (s.pool.tethers.filter (fun x => x.tenant == y.tenant)).length < tget 0 s.pool.quotas y.tenant ∧ tethersOf s (.grp (n.val / 8)) < 65535 ∧ s.pool.tethers.length < 65536 ∧ unordered s (complOf n.val d .ok) = false ∧ RingOpen s n.val ld h) ∧
    (∃ (n : Fin 8192) (slot e ld h : Nat) (d : Desc) (y : Kite) (s : State), Running s ∧ descAt s n.val slot = some d ∧ dOpcode d = 0x22 ∧ mayStart s n.val slot = true ∧ kdClean d = true ∧ kdKite d < 4096 ∧ kite s (kdKite d) = some y ∧ y.tenant = (group s (n.val / 8)).tenant ∧ homeReachable s (kdKite d % 4) = true ∧ y.held = none ∧ versionExt s (kdKite d) (kdVersion d) isVersionSt = some e ∧ s.pool.tethers.any (fun x => x.holder == .grp (n.val / 8) && x.obj == .attach e) = true ∧ unordered s (complOf n.val d .ok) = false ∧ RingOpen s n.val ld h) ∧
    (∃ (n : Fin 8192) (slot e ld h : Nat) (d : Desc) (y : Kite) (s : State), Running s ∧ descAt s n.val slot = some d ∧ dOpcode d = 0x23 ∧ mayStart s n.val slot = true ∧ kdClean d = true ∧ kdKite d < 4096 ∧ kite s (kdKite d) = some y ∧ y.tenant = (group s (n.val / 8)).tenant ∧ homeReachable s (kdKite d % 4) = true ∧ y.held = none ∧ y.keepRetired = true ∧ y.sealed = false ∧ versionExt s (kdKite d) (kdVersion d) (fun st => decide (st = .retired)) = some e ∧ unordered s (complOf n.val d .ok) = false ∧ RingOpen s n.val ld h) :=
  ⟨⟨9, 0, { slot := 0, bytes := wDesc 0x20 ([5, 0] ++ List.replicate 14 0 ++ [1]) }, { tenant := 1 }, setKite 5 (some { tenant := 1 }) (wQueue [{ slot := 0, bytes := wDesc 0x20 ([5, 0] ++ List.replicate 14 0 ++ [1]) }]), by decide +kernel⟩,
   ⟨5, 1, 9, 0, 2, 0x7000, { slot := 0, bytes := wDesc 0x20 ([5, 0] ++ List.replicate 14 0 ++ [1]) }, { tenant := 1, held := some (1, 9, 0) }, setKite 5 (some { tenant := 1, held := some (1, 9, 0) }) (wQueue [{ slot := 0, bytes := wDesc 0x20 ([5, 0] ++ List.replicate 14 0 ++ [1]) }]), by decide +kernel⟩,
   ⟨9, 0, 1, 2, 0x7000, { slot := 0, bytes := wDesc 0x21 [5, 0, 1] }, { tenant := 1, version := 3, extent := some 1 }, setExtent 1 { extent wBase 1 with st := .current, kite := some 5, version := 3 } (setKite 5 (some { tenant := 1, version := 3, extent := some 1 }) (wQueue [{ slot := 0, bytes := wDesc 0x21 [5, 0, 1] }])), by decide +kernel⟩,
   ⟨9, 0, 1, 2, 0x7000, { slot := 0, bytes := wDesc 0x22 ([5, 0] ++ List.replicate 6 0 ++ [3]) }, { tenant := 1, version := 3, extent := some 1 }, setExtent 1 { extent wBase 1 with st := .current, kite := some 5, version := 3 } (setKite 5 (some { tenant := 1, version := 3, extent := some 1 }) { wQueue [{ slot := 0, bytes := wDesc 0x22 ([5, 0] ++ List.replicate 6 0 ++ [3]) }] with pool := { wBase.pool with tethers := [{ holder := .grp 1, obj := .attach 1, tenant := 1 }] } }), by decide +kernel⟩,
   ⟨9, 0, 1, 2, 0x7000, { slot := 0, bytes := wDesc 0x23 ([5, 0] ++ List.replicate 6 0 ++ [3]) }, { tenant := 1, version := 4, keepRetired := true }, setExtent 1 { extent wBase 1 with st := .retired, kite := some 5, version := 3, readOnly := true } (setKite 5 (some { tenant := 1, version := 4, keepRetired := true }) (wQueue [{ slot := 0, bytes := wDesc 0x23 ([5, 0] ++ List.replicate 6 0 ++ [3]) }])), by decide +kernel⟩⟩

theorem witness_NearMemoryCommandsComplete :
    (∃ (n : Fin 8192) (slot : Nat) (d : Desc) (s : State), Running s ∧ descAt s n.val slot = some d ∧ dOpcode d = 0x02 ∧ descError d = none ∧ mayStart s n.val slot = true ∧ nmMisaligned d = false ∧ nmTotal d ≠ 0) ∧
    (∃ (n : Fin 8192) (slot : Nat) (d : Desc) (s : State), Running s ∧ descAt s n.val slot = some d ∧ dOpcode d = 0x03 ∧ descError d = none ∧ mayStart s n.val slot = true ∧ nmTotal d ≠ 0) ∧
    (∃ (n : Fin 8192) (slot : Nat) (d : Desc) (s : State), Running s ∧ descAt s n.val slot = some d ∧ dOpcode d = 0x04 ∧ descError d = none ∧ mayStart s n.val slot = true ∧ nmMisaligned d = false ∧ nmTotal d ≠ 0) ∧
    (∃ (n : Fin 8192) (slot : Nat) (d : Desc) (s : State), Running s ∧ descAt s n.val slot = some d ∧ dOpcode d = 0x05 ∧ descError d = none ∧ mayStart s n.val slot = true ∧ nmMisaligned d = false ∧ nmTotal d ≠ 0) ∧
    (∃ (n : Fin 8192) (slot : Nat) (d : Desc) (s : State), Running s ∧ descAt s n.val slot = some d ∧ dOpcode d = 0x06 ∧ descError d = none ∧ mayStart s n.val slot = true ∧ nmMisaligned d = false ∧ nmTotal d ≠ 0) ∧
    (∃ (n : Fin 8192) (slot : Nat) (d : Desc) (s : State), Running s ∧ descAt s n.val slot = some d ∧ dOpcode d = 0x07 ∧ descError d = none ∧ mayStart s n.val slot = true ∧ nmMisaligned d = false ∧ nmTotal d ≠ 0) ∧
    (∃ (n : Fin 8192) (slot ppa : Nat) (c : Fin 160) (d : Desc) (s : State), Running s ∧ descAt s n.val slot = some d ∧ dOpcode d = 0x02 ∧ d.started = true ∧ d.stripes = 1 ∧ d.stripesDone = [] ∧ d.running = [] ∧ d.cut = [] ∧ d.stopped = false ∧ d.diff = none ∧ d.failure = none ∧ nByte d 32 = 0 ∧ nA d % 64 = 0 ∧ nB d = 64 ∧ placed s (group s (n.val / 8)) d 0 c.val = true ∧ (translate (c.val / 40) (group s (n.val / 8)).tenant (nA d) (.grp (n.val / 8)) (.inPool false) .write s).1.toOption.map (·.1) = some ppa ∧ ppa % 64 = 0 ∧ IdleLine s (c.val / 40) (ppa / 64) ∧ s.pair.st = .solo ∧ tenantGone s (group s (n.val / 8)).tenant = false) ∧
    (∃ (n : Fin 8192) (slot : Nat) (d : Desc) (s : State), Running s ∧ descAt s n.val slot = some d ∧ d.failure.isSome = true) ∧
    (∃ (n : Fin 8192) (slot ld h : Nat) (d : Desc) (s : State), Running s ∧ descAt s n.val slot = some d ∧ d.stripes ≠ 0 ∧ d.failure = none ∧ d.diff = none ∧ ((∀ i, i < d.stripes → i ∈ d.stripesDone)) ∧ (nmOpen s n.val slot).isEmpty = true ∧ unordered s (complOf n.val d .ok) = false ∧ RingOpen s n.val ld h) ∧
    (∃ (n : Fin 8192) (slot ld h m : Nat) (x y : Byte) (d : Desc) (s : State), Running s ∧ descAt s n.val slot = some d ∧ dOpcode d = 0x04 ∧ d.stripes ≠ 0 ∧ d.failure = none ∧ d.diff = some (m, x, y) ∧ m / 1048576 * 1048576 ≤ donePrefix d ∧ (nmOpen s n.val slot).isEmpty = true ∧ unordered s (complOf n.val d .ok) = false ∧ RingOpen s n.val ld h) ∧
    (∃ (n : Fin 8192) (slot ld h pos : Nat) (st : Status) (d : Desc) (s : State), Running s ∧ descAt s n.val slot = some d ∧ d.stripes ≠ 0 ∧ diffWins d = false ∧ d.failure = some (pos, st, []) ∧ d.stopped = true ∧ (nmOpen s n.val slot).isEmpty = true ∧ unordered s (complOf n.val d st) = false ∧ RingOpen s n.val ld h) :=
  ⟨⟨9, 0, { slot := 0, bytes := wDesc 2 (List.replicate 8 0 ++ [64]) }, wQueue [{ slot := 0, bytes := wDesc 2 (List.replicate 8 0 ++ [64]) }], by decide +kernel⟩,
   ⟨9, 0, { slot := 0, bytes := wDesc 3 ([64] ++ List.replicate 15 0 ++ [64]) }, wQueue [{ slot := 0, bytes := wDesc 3 ([64] ++ List.replicate 15 0 ++ [64]) }], by decide +kernel⟩,
   ⟨9, 0, { slot := 0, bytes := wDesc 4 ([64] ++ List.replicate 15 0 ++ [65]) }, wQueue [{ slot := 0, bytes := wDesc 4 ([64] ++ List.replicate 15 0 ++ [65]) }], by decide +kernel⟩,
   ⟨9, 0, { slot := 0, bytes := wDesc 5 (List.replicate 24 0 ++ [4, 0, 0, 0, 3]) }, wQueue [{ slot := 0, bytes := wDesc 5 (List.replicate 24 0 ++ [4, 0, 0, 0, 3]) }], by decide +kernel⟩,
   ⟨9, 0, { slot := 0, bytes := wDesc 6 (List.replicate 24 0 ++ [4, 0, 0, 0, 3]) }, wQueue [{ slot := 0, bytes := wDesc 6 (List.replicate 24 0 ++ [4, 0, 0, 0, 3]) }], by decide +kernel⟩,
   ⟨9, 0, { slot := 0, bytes := wDesc 7 (List.replicate 16 0 ++ [64, 0, 0, 0, 0, 0, 0, 0, 37, 2]) }, wQueue [{ slot := 0, bytes := wDesc 7 (List.replicate 16 0 ++ [64, 0, 0, 0, 0, 0, 0, 0, 37, 2]) }], by decide +kernel⟩,
   ⟨9, 0, 64, 3, { slot := 0, bytes := wDesc 2 ([64] ++ List.replicate 7 0 ++ [64] ++ List.replicate 15 0 ++ [1, 2, 3, 4, 5, 6, 7, 8]), started := true, stripes := 1 }, wQueue [{ slot := 0, bytes := wDesc 2 ([64] ++ List.replicate 7 0 ++ [64] ++ List.replicate 15 0 ++ [1, 2, 3, 4, 5, 6, 7, 8]), started := true, stripes := 1 }], by decide +kernel⟩,
   ⟨9, 0, { slot := 0, bytes := wDesc 2 [], started := true, stripes := 1, failure := some (0, .poison, []) }, wQueue [{ slot := 0, bytes := wDesc 2 [], started := true, stripes := 1, failure := some (0, .poison, []) }], by decide +kernel⟩,
   ⟨9, 0, 2, 0x7000, { slot := 0, bytes := wDesc 2 (List.replicate 8 0 ++ [64]), started := true, stripes := 1, stripesDone := [0] }, wQueue [{ slot := 0, bytes := wDesc 2 (List.replicate 8 0 ++ [64]), started := true, stripes := 1, stripesDone := [0] }], by decide +kernel⟩,
   ⟨9, 0, 2, 0x7000, 3, 60, 61, { slot := 0, bytes := wDesc 4 ([64] ++ List.replicate 15 0 ++ [64]), started := true, stripes := 1, stripesDone := [0], diff := some (3, 60, 61) }, wQueue [{ slot := 0, bytes := wDesc 4 ([64] ++ List.replicate 15 0 ++ [64]), started := true, stripes := 1, stripesDone := [0], diff := some (3, 60, 61) }], by decide +kernel⟩,
   ⟨9, 0, 2, 0x7000, 5, .poison, { slot := 0, bytes := wDesc 2 (List.replicate 8 0 ++ [64]), started := true, stripes := 1, stopped := true, failure := some (5, .poison, []) }, wQueue [{ slot := 0, bytes := wDesc 2 (List.replicate 8 0 ++ [64]), started := true, stripes := 1, stopped := true, failure := some (5, .poison, []) }], by decide +kernel⟩⟩

theorem witness_WindowCommandsComplete :
    (∃ (n : Fin 64) (p : Packet) (q ppa : Nat) (s : State), Running s ∧ Passes n.val p q s = true ∧ p.typ = 0x38 ∧ p.pktCount.toNat ≤ 1 ∧ p.mcast = false ∧ s.e2e.send = [] ∧ s.fen.fencedBlocks = [] ∧ redValid (field p.arg0.toNat 48 8) = true ∧ p.payload ≠ [] ∧ p.payload.length % redSrcBytes (field p.arg0.toNat 48 8) = 0 ∧ argPva p % redDstBytes (field p.arg0.toNat 48 8) = 0 ∧ argPva p % 64 + p.payload.length / redSrcBytes (field p.arg0.toNat 48 8) * redDstBytes (field p.arg0.toNat 48 8) ≤ 64 ∧ (translate (n.val / 16) p.tenant.toNat (argPva p) (.ep p.src.toNat) .port .reduce s).1.toOption.map (·.1) = some ppa ∧ ppa % 64 = argPva p % 64 ∧ IdleLine s (n.val / 16) (ppa / 64)) ∧
    (∃ (n : Fin 64) (p : Packet) (q ppa : Nat) (s : State), Running s ∧ Passes n.val p q s = true ∧ p.typ = 0x39 ∧ p.pktCount.toNat ≤ 1 ∧ p.mcast = false ∧ s.e2e.send = [] ∧ (window s (field p.arg0.toNat 32 10)).st = .armed ∧ (window s (field p.arg0.toNat 32 10)).disarming = false ∧ (window s (field p.arg0.toNat 32 10)).tenant = p.tenant.toNat ∧ p.arg1.toNat = (window s (field p.arg0.toNat 32 10)).generation.toNat % 65536 ∧ 2 ≤ (window s (field p.arg0.toNat 32 10)).contributors ∧ field p.arg0.toNat 42 12 < (window s (field p.arg0.toNat 32 10)).contributors ∧ field p.arg0.toNat 0 32 < chunkCount (window s (field p.arg0.toNat 32 10)) ∧ 8 ≤ (window s (field p.arg0.toNat 32 10)).chunkLog2 ∧ (window s (field p.arg0.toNat 32 10)).chunkLog2 ≤ 12 ∧ (window s (field p.arg0.toNat 32 10)).dstPva % chunkBytes (window s (field p.arg0.toNat 32 10)) = 0 ∧ redValid (window s (field p.arg0.toNat 32 10)).red = true ∧ p.payload.length * redDstBytes (window s (field p.arg0.toNat 32 10)).red = chunkBytes (window s (field p.arg0.toNat 32 10)) * redSrcBytes (window s (field p.arg0.toNat 32 10)).red ∧ tget 0 (window s (field p.arg0.toNat 32 10)).bitmap (field p.arg0.toNat 0 32) = 0 ∧ (translate (n.val / 16) p.tenant.toNat ((window s (field p.arg0.toNat 32 10)).dstPva + field p.arg0.toNat 0 32 * chunkBytes (window s (field p.arg0.toNat 32 10))) (.ep p.src.toNat) .port .reduce s).1.toOption.map (·.1) = some ppa ∧ ppa % 64 = 0 ∧ OpenMemory s ∧ NothingDue s ∧ ((∀ l, ppa / 64 ≤ l → l < ppa / 64 + 64 → isLight s (64 * l) = false ∧ keyHeld s (64 * l) = true ∧ l ≠ bitmapLine s (contribOf p) ppa)) ∧ isLight s (64 * bitmapLine s (contribOf p) ppa) = false ∧ keyHeld s (64 * bitmapLine s (contribOf p) ppa) = true) ∧
    (∃ (w c : Fin 1024) (s : State), Managed s ∧ winFree (window s w.val) = true) ∧
    (∃ (w : Fin 1024) (c : BitVec 13) (s : State), Running s ∧ winFree (window s w.val) = true ∧ armFault (setWindow w.val { window s w.val with contributors := c.toNat } s) w.val { window s w.val with contributors := c.toNat } = 0 ∧ tget false s.e2e.collValid w.val = false ∧ (window s w.val).init = false) ∧
    (∃ (w : Fin 1024) (c : BitVec 13) (b : Nat) (s : State), Running s ∧ winFree (window s w.val) = true ∧ armFault (setWindow w.val { window s w.val with contributors := c.toNat } s) w.val { window s w.val with contributors := c.toNat } = 0 ∧ tget false s.e2e.collValid w.val = false ∧ (window s w.val).init = true ∧ OpenMemory s ∧ tenantGone s (window s w.val).tenant = false ∧ b % 64 = 0 ∧ ((∀ i, i < (window s w.val).length / 64 → (leafAt s (window s w.val).tenant ((window s w.val).dstPva + 64 * i)).map (fun x => x.2.ppa + ((window s w.val).dstPva + 64 * i - x.1)) = some (b + 64 * i) ∧ isLight s (b + 64 * i) = false ∧ keyHeld s (b + 64 * i) = true))) ∧
    (∃ (w : Fin 1024) (now : Nat) (s : State), Running s ∧ (window s w.val).st = .arming ∧ (window s w.val).disarming = false ∧ fillOpen s w.val = false) ∧
    (∃ (w : Fin 1024) (s : State), Running s ∧ (window s w.val).st = .armed ∧ (window s w.val).disarming = false ∧ (window s w.val).partialDone = false ∧ tget false s.e2e.collValid w.val = false ∧ tget 0 s.e2e.collMissing w.val = 0) ∧
    (∃ (w : Fin 1024) (s : State), Running s ∧ (window s w.val).disarming = true ∧ contribOpen s w.val = false) ∧
    (∃ (w : Fin 1024) (now : Nat) (s : State), Running s ∧ (window s w.val).st = .armed ∧ tget 0 s.e2e.collDeadline w.val ≠ 0 ∧ (window s w.val).armTime + 1000 * tget 0 s.e2e.collDeadline w.val ≤ max s.time now ∧ (window s w.val).partialDone = false ∧ tget false s.e2e.collValid w.val = false ∧ tget 0 s.e2e.collMissing w.val = 0) :=
  ⟨⟨3, wPkt 0x38 5 0x0025000000000040 [5, 0, 0, 0, 7, 0, 0, 0], 0, 64, wBase, by decide +kernel⟩,
   ⟨3, (fun p : Packet => { p with crc := packetCrc p }) { wPkt 0x39 5 0x0000080500000000 (List.replicate 64 [5, 0, 0, 0]).flatten with arg1 := 1 }, 0, 256, setWindow 5 { tenant := 1, st := .armed, dstPva := 256, length := 512, chunkLog2 := 8, red := 0x25, contributors := 3, generation := 1 } wBase, by decide +kernel⟩,
   ⟨5, 1, wBase, by decide +kernel⟩,
   ⟨5, 3, setWindow 5 { tenant := 1, dstPva := 256, length := 512, chunkLog2 := 8, red := 0x25 } wBase, by decide +kernel⟩,
   ⟨5, 3, 256, setWindow 5 { tenant := 1, dstPva := 256, length := 256, chunkLog2 := 8, red := 0x25, init := true } wBase, by decide +kernel⟩,
   ⟨5, 77, setWindow 5 { st := .arming, init := false } wBase, by decide +kernel⟩,
   ⟨5, setWindow 5 { st := .armed } wBase, by decide +kernel⟩,
   ⟨5, setWindow 5 { st := .armed, disarming := true } wBase, by decide +kernel⟩,
   ⟨5, 7000, setWindow 5 { st := .armed } { wBase with e2e := { wBase.e2e with collDeadline := [(5, 3)] } }, by decide +kernel⟩⟩

theorem witness_JobCommandsComplete :
    (∃ (n : Fin 8192) (slot : Nat) (d : Desc) (s : State), Running s ∧ descAt s n.val slot = some d ∧ dOpcode d = 0x10 ∧ descError d = none ∧ mayStart s n.val slot = true ∧ leAt d.bytes 16 8 % 4096 = 0 ∧ leAt d.bytes 24 8 % 8 = 0) ∧
    (∃ (n : Fin 8192) (slot jid : Nat) (j : Job) (h : List Byte) (s : State), (engRead (queueActor s n.val (some slot)) j.imagePva 256 s).1 = .got h none ∧ Running s ∧ jobAt s n.val slot = some (jid, j) ∧ j.phase = .header ∧ headerOkJob h = true ∧ leAt h 44 2 ≤ j.width ∧ j.width ≤ leAt h 46 2 ∧ j.width ≤ coresInService s) ∧
    (∃ (n : Fin 8192) (slot jid : Nat) (j : Job) (img args : List Byte) (s s1 s2 s3 : State), engReady (queueActor s n.val (some slot)) [(j.imagePva, leAt j.header 8 4), (j.argPva, 8 * leAt j.header 36 2)] s = (true, s1) ∧ engRead (queueActor s n.val (some slot)) j.imagePva (leAt j.header 8 4) s1 = (.got img none, s2) ∧ engRead (queueActor s n.val (some slot)) j.argPva (8 * leAt j.header 36 2) s2 = (.got args none, s3) ∧ Running s ∧ jobAt s n.val slot = some (jid, j) ∧ j.phase = .image ∧ 80 ≤ leAt j.header 20 4 ∧ leAt j.header 20 4 % 16 = 0 ∧ (slice img (leAt j.header 16 4) (leAt j.header 20 4)).length = leAt j.header 20 4 ∧ bindsOk (slice img (leAt j.header 32 4) (16 * leAt j.header 36 2)) = true ∧ programOk { n := (programOf (slice img (leAt j.header 16 4) (leAt j.header 20 4))).2.length, storeBytes := j.coreStoreBytes, bindCount := leAt j.header 36 2, contexts := j.contexts, nonIdem := j.nonIdem, kinds := (List.range (leAt j.header 36 2)).map (fun i => leAt (slice img (leAt j.header 32 4) (16 * leAt j.header 36 2)) (16 * i) 1) } (programOf (slice img (leAt j.header 16 4) (leAt j.header 20 4))).1 (programOf (slice img (leAt j.header 16 4) (leAt j.header 20 4))).2 = true ∧ ((∀ i, i < leAt j.header 36 2 → leAt args (8 * i) 8 % 2 ^ leAt (slice img (leAt j.header 32 4) (16 * leAt j.header 36 2)) (16 * i + 1) 1 = 0)) ∧ digestKey s j = none) ∧
    (∃ (n : Fin 8192) (slot jid : Nat) (j : Job) (s : State), Running s ∧ jobAt s n.val slot = some (jid, j) ∧ j.phase = .digest ∧ digestKey s j = none ∧ j.digest.toNat = leAt j.header 64 48 ∧ (group s j.group).st = .active) ∧
    (∃ (n : Fin 8192) (slot jid : Nat) (j : Job) (d : Desc) (s : State), Running s ∧ descAt s n.val slot = some d ∧ dOpcode d = 0x11 ∧ descError d = none ∧ mayStart s n.val slot = true ∧ handleJob s n.val (leAt d.bytes 16 4) = some (jid, j) ∧ s.que.jobs = [(jid, some j)]) ∧
    (∃ (n : Fin 8192) (slot jid ld h : Nat) (j : Job) (d : Desc) (s : State), Running s ∧ descAt s n.val slot = some d ∧ dOpcode d = 0x12 ∧ descError d = none ∧ mayStart s n.val slot = true ∧ handleJob s n.val (leAt d.bytes 16 4) = some (jid, j) ∧ s.que.jobs = [(jid, some j)] ∧ j.record.map (·.1) = some (leAt d.bytes 16 4 % 4096) ∧ unordered s (complOf n.val d .ok) = false ∧ RingOpen s n.val ld h) ∧
    (∃ (n : Fin 8192) (slot jid m : Nat) (j : Job) (s : State), Running s ∧ jobAt s n.val slot = some (jid, j) ∧ j.phase = .running ∧ j.cores = [m] ∧ (coreOf s m).job = some jid ∧ arrivals (coreOf s m) = j.commits ∧ j.issuing = none ∧ j.fences = []) ∧
    (∃ (n : Fin 8192) (slot jid m ld h : Nat) (j : Job) (s : State), Running s ∧ jobAt s n.val slot = some (jid, j) ∧ j.phase = .running ∧ j.cores = [m] ∧ (coreOf s m).job = some jid ∧ liveCtxs (coreOf s m) = [] ∧ (coreOf s m).engines = [] ∧ j.newSnaps = [] ∧ j.issuing = none ∧ j.waits = [] ∧ j.effects = [] ∧ j.record = none ∧ s.dir.lines = [] ∧ s.dir.waitIn = [] ∧ RingOpen s j.queue ld h) :=
  ⟨⟨9, 0, { slot := 0, bytes := wDesc 0x10 [0, 16] }, wQueue [{ slot := 0, bytes := wDesc 0x10 [0, 16] }], by decide +kernel⟩,
   ⟨9, 0, 1, { wJob 6 with phase := .header, cores := [] }, wHeader, let s := wJobIn 0x10 [] { wJob 6 with phase := .header, cores := [] }; { s with mem := { s.mem with bytes := wImageMem } }, rfl, by decide +kernel⟩,
   ⟨9, 0, 1, { wJob 6 with phase := .image, cores := [], header := wSections, argPva := 1024 }, wImage, List.replicate 8 0, wImaged, wImaged1, wImaged2, wImaged3, (Prod.ext (by decide +kernel) rfl), (Prod.ext (by decide +kernel) rfl), (Prod.ext (by decide +kernel) rfl), by decide +kernel⟩,
   ⟨9, 0, 1, { wJob 6 with phase := .digest, cores := [], digest := 0 }, wJobIn 0x10 [] { wJob 6 with phase := .digest, cores := [], digest := 0 }, by decide +kernel⟩,
   ⟨9, 0, 1, { wJob 6 with phase := .paused, cores := [], record := some (7, 1) }, { slot := 0, bytes := wDesc 0x11 [7, 16] }, let s := wJobIn 0x10 [] { wJob 6 with phase := .paused, cores := [], record := some (7, 1) }; setQueue 9 { st := .running, flight := [{ slot := 0, bytes := wDesc 0x11 [7, 16] }] } { s with que := { s.que with recordGen := [(7, 1)], recordJob := [(7, some 1)] } }, by decide +kernel⟩,
   ⟨9, 0, 1, 2, 0x7000, { wJob 6 with phase := .paused, cores := [], record := some (7, 1) }, { slot := 0, bytes := wDesc 0x12 [7, 16] }, let s := wJobIn 0x10 [] { wJob 6 with phase := .paused, cores := [], record := some (7, 1) }; setQueue 9 { st := .running, flight := [{ slot := 0, bytes := wDesc 0x12 [7, 16] }] } { s with que := { s.que with recordGen := [(7, 1)], recordJob := [(7, some 1)] } }, by decide +kernel⟩,
   ⟨9, 0, 1, 3, wJob 6, wCore 6, by decide +kernel⟩,
   ⟨9, 0, 1, 3, 2, 0x7000, wJob 6, setCore 3 { job := some 1, ctxs := [(0, { st := .ended })] } (wCore 6), by decide +kernel⟩⟩

theorem witness_CommitCommandsComplete :
    (∃ (n : Fin 8192) (slot jid m : Nat) (j : Job) (s : State), Running s ∧ jobAt s n.val slot = some (jid, j) ∧ j.phase = .running ∧ j.cores = [m] ∧ j.fences = [] ∧ j.waits = [] ∧ j.effects = [] ∧ j.signals = [] ∧ arrivedAt (coreOf s m) (j.commits + 1) = true ∧ nothingWaits s j (j.commits + 1) = true ∧ tget [] j.newSnaps ((j.commits + 1) * 256) ≠ [] ∧ s.dir.lines = [] ∧ s.dir.waitIn = [] ∧ s.pair.st = .solo) ∧
    (∃ (n : Fin 160) (jid p ppa : Nat) (e : HeldEff) (j : Job) (s : State), Running s ∧ jobOn s n.val = some (jid, j) ∧ coreFenced s n.val = false ∧ j.phase = .running ∧ j.fences = [] ∧ j.issuing = none ∧ j.cores = [n.val] ∧ (coreOf s n.val).rank = 0 ∧ arrivedAt (coreOf s n.val) (j.commits + 1) = true ∧ j.effects = [e] ∧ e.isAtomic = true ∧ e.rank = 0 ∧ e.commit = j.commits + 1 ∧ e.ctx < j.contexts ∧ e.rows = [p] ∧ e.issued = 0 ∧ e.answers = [] ∧ j.waits = [] ∧ e.signal = none ∧ atomValid e.op = true ∧ p % 64 + atomBytes e.op ≤ 64 ∧ OpenMemory s ∧ s.dir.answers = [] ∧ Maps s (n.val / 40) (group s j.group).tenant p (atomBytes e.op) (.grp j.group) (moveActor s (effTurn jid j e) p).via .atomic ppa) ∧
    (∃ (n : Fin 8192) (slot jid m : Nat) (f : FenceRec) (j : Job) (s : State), Running s ∧ jobAt s n.val slot = some (jid, j) ∧ j.phase = .stopping ∧ j.why = .preempt ∧ j.fences = [f] ∧ f.held ≤ f.issued ∧ j.cores = [m] ∧ (coreOf s m).job = some jid ∧ (coreOf s m).frozen = true ∧ j.newSnaps = [] ∧ j.effects = [] ∧ j.waits = [] ∧ j.issuing = none ∧ s.dir.lines = [] ∧ s.dir.waitIn = []) ∧
    (∃ (fixed : Bool) (seed : BitVec 64) (s : State), Managed s) ∧
    (∃ (n : Fin 160) (cause : Fin 8) (now : Nat) (s : State), Running s ∧ cause.val ≠ 0 ∧ tget 0 s.fen.coreCause n.val = 0) ∧
    (∃ (n : Fin 160) (cause : Fin 8) (now jid : Nat) (j : Job) (s : State), Running s ∧ cause.val ≠ 0 ∧ tget 0 s.fen.coreCause n.val = 0 ∧ jobOn s n.val = some (jid, j) ∧ j.phase = .running ∧ n.val ∈ j.cores) ∧
    (∃ (n : Fin 160) (c : Fin 8) (now jid ld h : Nat) (j : Job) (s : State), Running s ∧ jobOn s n.val = some (jid, j) ∧ (expired (advance now s) j).head? = some (n.val, c.val) ∧ j.issuing = none ∧ j.record = none ∧ s.dir.waitIn = [] ∧ RingOpen s j.queue ld h) :=
  ⟨⟨9, 0, 1, 3, { wJob 6 with newSnaps := [(256, [{ pc := 1, regs := [] }])] }, let s := wCore 6; setCore 3 { job := some 1, arrived := 1, ctxs := [(0, { st := .ready, commits := 1 })] } { s with que := { s.que with jobs := [(1, some { wJob 6 with newSnaps := [(256, [{ pc := 1, regs := [] }])] })] } }, by decide +kernel⟩,
   ⟨3, 1, 4096, 4096, { rank := 0, commit := 1, ctx := 0, isAtomic := true, rows := [4096], op := 0x13, opA := 9 }, { wJob 6 with effects := [{ rank := 0, commit := 1, ctx := 0, isAtomic := true, rows := [4096], op := 0x13, opA := 9 }] }, let s := wCore 6; setCore 3 { job := some 1, arrived := 1, ctxs := [(0, { st := .ready, commits := 1 })] } { s with que := { s.que with jobs := [(1, some { wJob 6 with effects := [{ rank := 0, commit := 1, ctx := 0, isAtomic := true, rows := [4096], op := 0x13, opA := 9 }] })] } }, by decide +kernel⟩,
   ⟨9, 0, 1, 3, { core := 3, rank := 0, time := 0, commit := none, held := 0, issued := 0, partialBytes := 0, pva := 0 }, { wJob 6 with phase := .stopping, why := .preempt, fences := [{ core := 3, rank := 0, time := 0, commit := none, held := 0, issued := 0, partialBytes := 0, pva := 0 }] }, let s := wCore 6; setCore 3 { coreOf s 3 with frozen := true } { s with que := { s.que with jobs := [(1, some { wJob 6 with phase := .stopping, why := .preempt, fences := [{ core := 3, rank := 0, time := 0, commit := none, held := 0, issued := 0, partialBytes := 0, pva := 0 }] })] } }, by decide +kernel⟩,
   ⟨true, 77, .reset, by decide +kernel⟩,
   ⟨3, 2, 50, .reset, by decide +kernel⟩,
   ⟨3, 2, 50, 1, wJob 6, wCore 6, by decide +kernel⟩,
   ⟨3, 0, 2000000000, 1, 2, 0x7000, wJob 6, setCore 3 { job := some 1, ctxs := [(0, { st := .ready, waitSince := some 5, waitCause := 1, waitNumber := 4 })] } (wCore 6), by decide +kernel⟩⟩

theorem witness_SequencerCommandsComplete :
    (∃ (n : Fin 160) (c : Fin 8) (r : Turn) (s : State), Running s ∧ Dispatches s n.val c.val r .salu) ∧
    (∃ (n : Fin 160) (c : Fin 8) (r : Turn) (s : State), Running s ∧ Dispatches s n.val c.val r .branch) ∧
    (∃ (n : Fin 160) (c : Fin 8) (k : Nat) (r : Turn) (s : State), Running s ∧ Dispatches s n.val c.val r .sync ∧ tWe r.w = false ∧ tSignal r.w = some k ∧ tget 0 (coreOf s n.val).sems k < 255) ∧
    (∃ (n : Fin 160) (c : Fin 8) (r : Turn) (s : State), Running s ∧ Dispatches s n.val c.val r .sync ∧ tWe r.w = true ∧ tSignal r.w = none) ∧
    (∃ (n : Fin 160) (c : Fin 8) (r : Turn) (s : State), Running s ∧ Dispatches s n.val c.val r .barrier ∧ r.j.width ≠ 1) ∧
    (∃ (p : Fin 16) (now jid : Nat) (j : Job) (s : State), Running s ∧ (chanOf s p.val).job = some jid ∧ job s jid = some j ∧ 0 < (chanOf s p.val).members ∧ (chanOf s p.val).members ≤ (chanOf s p.val).arrived.length) ∧
    (∃ (n : Fin 160) (c : Fin 8) (r : Turn) (s : State), Running s ∧ Dispatches s n.val c.val r .commit ∧ r.j.phase = .running) ∧
    (∃ (n : Fin 160) (r : Turn) (s : State), Running s ∧ Dispatches s n.val 0 r .commit ∧ r.j.phase = .running ∧ r.j.contexts = 1 ∧ (coreOf s n.val).ctxs = [(0, r.x)] ∧ r.x.marks = [] ∧ (coreOf s n.val).arrived = r.x.commits) ∧
    (∃ (n : Fin 160) (c : Fin 8) (r : Turn) (s : State), Running s ∧ Dispatches s n.val c.val r .ended ∧ r.j.phase = .running) :=
  ⟨⟨3, 0, { n := 3, i := 0, jid := 1, j := wJob (wOp 1 0 0 0 1 1 2 4 0), x := { st := .ready, regs := [(1, 5), (2, 64)] }, w := wOp 1 0 0 0 1 1 2 4 0 }, wCore (wOp 1 0 0 0 1 1 2 4 0), by decide +kernel⟩,
   ⟨3, 0, { n := 3, i := 0, jid := 1, j := wJob (wOp 2 0 0 0 2 1 2 0 1), x := { st := .ready, regs := [(1, 5), (2, 64)] }, w := wOp 2 0 0 0 2 1 2 0 1 }, wCore (wOp 2 0 0 0 2 1 2 0 1), by decide +kernel⟩,
   ⟨3, 0, 5, { n := 3, i := 0, jid := 1, j := wJob (wOp 3 0 0 0 0 0 0 0 0 + 0x2C00000000), x := { st := .ready, regs := [(1, 5), (2, 64)] }, w := wOp 3 0 0 0 0 0 0 0 0 + 0x2C00000000 }, wCore (wOp 3 0 0 0 0 0 0 0 0 + 0x2C00000000), by decide +kernel⟩,
   ⟨3, 0, { n := 3, i := 0, jid := 1, j := wJob (wOp 3 0 0 0 0 0 0 0 0 + 0x58000000), x := { st := .ready }, w := wOp 3 0 0 0 0 0 0 0 0 + 0x58000000 }, setCore 3 { job := some 1, ctxs := [(0, { st := .ready })], sems := [(5, 2)] } (wCore (wOp 3 0 0 0 0 0 0 0 0 + 0x58000000)), by decide +kernel⟩,
   ⟨3, 0, { n := 3, i := 0, jid := 1, j := { wJob (wOp 4 0 0 0 0 0 0 0 5) with width := 2 }, x := { st := .ready }, w := wOp 4 0 0 0 0 0 0 0 5 }, let s := wCore 6; setCore 3 { job := some 1, ctxs := [(0, { st := .ready })] } { s with que := { s.que with jobs := [(1, some { wJob (wOp 4 0 0 0 0 0 0 0 5) with width := 2 })] } }, by decide +kernel⟩,
   ⟨6, 70, 1, { wJob 6 with width := 2 }, let s := wCore 6; { s with que := { s.que with jobs := [(1, some { wJob 6 with width := 2 })] }, core := { s.core with cores := [(3, { job := some 1, ctxs := [(0, { st := .barrier 5, pc := 1 })] })], chans := [(6, { job := some 1, logical := 5, members := 1, arrived := [3] })] } }, by decide +kernel⟩,
   ⟨3, 0, { n := 3, i := 0, jid := 1, j := wJob (wOp 5 0 0 0 0 0 0 0 1), x := { st := .ready, regs := [(1, 5), (2, 64)] }, w := wOp 5 0 0 0 0 0 0 0 1 }, wCore (wOp 5 0 0 0 0 0 0 0 1), by decide +kernel⟩,
   ⟨3, { n := 3, i := 0, jid := 1, j := wJob (wOp 5 0 0 0 0 0 0 0 1), x := { st := .ready, regs := [(1, 5), (2, 64)] }, w := wOp 5 0 0 0 0 0 0 0 1 }, wCore (wOp 5 0 0 0 0 0 0 0 1), by decide +kernel⟩,
   ⟨3, 0, { n := 3, i := 0, jid := 1, j := wJob 6, x := { st := .ready, regs := [(1, 5), (2, 64)] }, w := 6 }, wCore 6, by decide +kernel⟩⟩

theorem witness_MoveCommandsComplete :
    (∃ (n : Fin 160) (c : Fin 8) (ppa : Nat) (r : Turn) (s : State), Running s ∧ Dispatches s n.val c.val r .tload ∧ (coreOf s n.val).engines = [] ∧ tMode r.w = 0 ∧ tMoveRows r.w = 1 ∧ fmtOk (tFd r.w) = true ∧ rowOff r 0 + rowBytesOf (tFd r.w) ≤ slotBytes r.j (tSlot r.w) ∧ OpenMemory s ∧ Maps s (n.val / 40) (group s r.j.group).tenant (slotArg r.j (tSlot r.w) + rowOff r 0) (rowBytesOf (tFd r.w)) (.grp r.j.group) (moveActor s r (slotArg r.j (tSlot r.w) + rowOff r 0)).via .read ppa ∧ gmacOk s (group s r.j.group).tenant (slotArg r.j (tSlot r.w) + rowOff r 0) (rowBytesOf (tFd r.w)) = true) ∧
    (∃ (n : Fin 160) (c : Fin 8) (r : Turn) (s : State), Running s ∧ Dispatches s n.val c.val r .tload ∧ (coreOf s n.val).engines = [] ∧ tMode r.w = 1 ∧ tMoveRows r.w = 1 ∧ rowOff r 0 + rowBytesOf (tFd r.w) ≤ r.j.consts.length) ∧
    (∃ (n : Fin 160) (c : Fin 8) (ppa : Nat) (r : Turn) (s : State), Running s ∧ Dispatches s n.val c.val r .tstore ∧ (coreOf s n.val).engines = [] ∧ tMoveRows r.w = 1 ∧ fmtOk (tFa r.w) = true ∧ rowOff r 0 + rowBytesOf (tFa r.w) ≤ slotBytes r.j (tSlot r.w) ∧ OpenMemory s ∧ Maps s (n.val / 40) (group s r.j.group).tenant (slotArg r.j (tSlot r.w) + rowOff r 0) (rowBytesOf (tFa r.w)) (.grp r.j.group) (moveActor s r (slotArg r.j (tSlot r.w) + rowOff r 0)).via .write ppa) ∧
    (∃ (n : Fin 160) (c : Fin 8) (r : Turn) (s : State), Running s ∧ Dispatches s n.val c.val r .treduce ∧ tMoveRows r.w = 1 ∧ redValid (tRed r.w) = true ∧ rowOff r 0 + 128 * redDstBytes (tRed r.w) ≤ slotBytes r.j (tSlot r.w) ∧ (slotArg r.j (tSlot r.w) + rowOff r 0) % redDstBytes (tRed r.w) = 0 ∧ (slotArg r.j (tSlot r.w) + rowOff r 0) % 4096 + 128 * redDstBytes (tRed r.w) ≤ 4096) ∧
    (∃ (n : Fin 160) (c : Fin 8) (r : Turn) (s : State), Running s ∧ Dispatches s n.val c.val r .tatomic ∧ atomValid (tRed r.w) = true ∧ atomBytes (tRed r.w) ≤ 8 ∧ (sreg r.x (tR1 r.w)).toNat + atomBytes (tRed r.w) ≤ slotBytes r.j (tSlot r.w) ∧ (slotArg r.j (tSlot r.w) + (sreg r.x (tR1 r.w)).toNat) % atomBytes (tRed r.w) = 0) ∧
    (∃ (n : Fin 160) (c : Fin 8) (ppa : Nat) (x : Window) (r : Turn) (s : State), Running s ∧ Dispatches s n.val c.val r .treducew ∧ (coreOf s n.val).engines = [] ∧ window s (tWindow r.w) = x ∧ x.st = .armed ∧ x.disarming = false ∧ x.tenant = (group s r.j.group).tenant ∧ (sreg r.x (tR3 r.w)).toNat % 65536 = x.generation.toNat % 65536 ∧ 2 ≤ x.contributors ∧ (sreg r.x (tR2 r.w)).toNat < x.contributors ∧ (sreg r.x (tR1 r.w)).toNat < chunkCount x ∧ 8 ≤ x.chunkLog2 ∧ x.chunkLog2 ≤ 12 ∧ x.dstPva % chunkBytes x = 0 ∧ redValid x.red = true ∧ tget 0 x.bitmap (sreg r.x (tR1 r.w)).toNat = 0 ∧ 128 * tA r.w + chunkBytes x / redDstBytes x.red * redSrcBytes x.red ≤ r.j.coreStoreBytes ∧ r.j.waits = [] ∧ OpenMemory s ∧ NothingDue s ∧ s.dir.answers = [] ∧ isLight s (64 * bitmapLine s (moveContrib r) ppa) = false ∧ keyHeld s (64 * bitmapLine s (moveContrib r) ppa) = true ∧ ((∀ l, ppa / 64 ≤ l → l < ppa / 64 + chunkBytes x / 64 → l ≠ bitmapLine s (moveContrib r) ppa)) ∧ Maps s (n.val / 40) x.tenant (x.dstPva + (sreg r.x (tR1 r.w)).toNat * chunkBytes x) (chunkBytes x) (.grp r.j.group) (.inPool false) .reduce ppa) ∧
    (∃ (n : Fin 160) (c : Fin 8) (r : Turn) (s : State), Running s ∧ Dispatches s n.val c.val r .tcopy ∧ (coreOf s n.val).engines = []) :=
  ⟨⟨3, 0, 4096, { n := 3, i := 0, jid := 1, j := wJob (wOp 0x10 0 0 4 0 0 0 16 0), x := { st := .ready, regs := [(1, 5), (2, 64)] }, w := wOp 0x10 0 0 4 0 0 0 16 0 }, let s := wCore (wOp 0x10 0 0 4 0 0 0 16 0); { s with mem := { s.mem with bytes := [(4099, 9), (4223, 8)] } }, by decide +kernel⟩,
   ⟨3, 0, { n := 3, i := 0, jid := 1, j := { wJob (wOp 0x10 0 0 4 1 0 0 16 0) with consts := List.replicate 200 3 }, x := { st := .ready }, w := wOp 0x10 0 0 4 1 0 0 16 0 }, let s := wCore 6; setCore 3 { job := some 1, ctxs := [(0, { st := .ready })] } { s with que := { s.que with jobs := [(1, some { wJob (wOp 0x10 0 0 4 1 0 0 16 0) with consts := List.replicate 200 3 })] } }, by decide +kernel⟩,
   ⟨3, 0, 4096, { n := 3, i := 0, jid := 1, j := wJob (wOp 0x11 4 0 0 0 0 0 0 0), x := { st := .ready, regs := [(1, 5), (2, 64)] }, w := wOp 0x11 4 0 0 0 0 0 0 0 }, wCore (wOp 0x11 4 0 0 0 0 0 0 0), by decide +kernel⟩,
   ⟨3, 0, { n := 3, i := 0, jid := 1, j := wJob (wOp 0x12 0 0 0 0 0 0x25 0 0), x := { st := .ready, regs := [(1, 5), (2, 64)] }, w := wOp 0x12 0 0 0 0 0 0x25 0 0 }, wCore (wOp 0x12 0 0 0 0 0 0x25 0 0), by decide +kernel⟩,
   ⟨3, 0, { n := 3, i := 0, jid := 1, j := wJob (wOp 0x14 0 0 0 0 0 0x13 7 0x1040000), x := { st := .ready, regs := [(1, 5), (2, 64)] }, w := wOp 0x14 0 0 0 0 0 0x13 7 0x1040000 }, wCore (wOp 0x14 0 0 0 0 0 0x13 7 0x1040000), by decide +kernel⟩,
   ⟨3, 0, 256, { st := .armed, tenant := 1, dstPva := 256, length := 512, chunkLog2 := 8, red := 0x25, contributors := 30, generation := 1 }, { n := 3, i := 0, jid := 1, j := wJob (wOp 0x13 0 0 0 0 0 5 0 0x308400), x := { st := .ready, regs := [(2, 5), (3, 1)] }, w := wOp 0x13 0 0 0 0 0 5 0 0x308400 }, setCore 3 { job := some 1, ctxs := [(0, { st := .ready, regs := [(2, 5), (3, 1)] })] } (setWindow 5 { st := .armed, tenant := 1, dstPva := 256, length := 512, chunkLog2 := 8, red := 0x25, contributors := 30, generation := 1 } (wCore (wOp 0x13 0 0 0 0 0 5 0 0x308400))), by decide +kernel⟩,
   ⟨3, 0, { n := 3, i := 0, jid := 1, j := wJob (wOp 0x15 0 0 0 0 0 0 9 2), x := { st := .ready, regs := [(1, 5), (2, 64)] }, w := wOp 0x15 0 0 0 0 0 0 9 2 }, wCore (wOp 0x15 0 0 0 0 0 0 9 2), by decide +kernel⟩⟩

theorem witness_ArithmeticCommandsComplete :
    (∃ (n : Fin 160) (c : Fin 8) (r : Turn) (s : State), Running s ∧ Dispatches s n.val c.val r .mma ∧ (coreOf s n.val).engines = []) ∧
    (∃ (n : Fin 160) (c : Fin 8) (r : Turn) (s : State), Running s ∧ Dispatches s n.val c.val r .accrd ∧ (coreOf s n.val).engines = []) ∧
    (∃ (n : Fin 160) (c : Fin 8) (r : Turn) (s : State), Running s ∧ Dispatches s n.val c.val r .accwr ∧ (coreOf s n.val).engines = []) ∧
    (∃ (n : Fin 160) (c : Fin 8) (r : Turn) (s : State), Running s ∧ Dispatches s n.val c.val r .vbin ∧ (coreOf s n.val).engines = []) ∧
    (∃ (n : Fin 160) (c : Fin 8) (r : Turn) (s : State), Running s ∧ Dispatches s n.val c.val r .vfma ∧ (coreOf s n.val).engines = []) ∧
    (∃ (n : Fin 160) (c : Fin 8) (r : Turn) (s : State), Running s ∧ Dispatches s n.val c.val r .vfunc ∧ (coreOf s n.val).engines = []) ∧
    (∃ (n : Fin 160) (c : Fin 8) (r : Turn) (s : State), Running s ∧ Dispatches s n.val c.val r .vrowred ∧ (coreOf s n.val).engines = []) ∧
    (∃ (n : Fin 160) (c : Fin 8) (r : Turn) (s : State), Running s ∧ Dispatches s n.val c.val r .vbcast ∧ (coreOf s n.val).engines = []) ∧
    (∃ (n : Fin 160) (c : Fin 8) (r : Turn) (s : State), Running s ∧ Dispatches s n.val c.val r .vcvt ∧ (coreOf s n.val).engines = []) ∧
    (∃ (n : Fin 160) (c : Fin 8) (r : Turn) (s : State), Running s ∧ Dispatches s n.val c.val r .racc ∧ (coreOf s n.val).engines = []) ∧
    (∃ (n : Fin 160) (e : Fin 5) (now jid : Nat) (o : EngOp) (l : List EngOp) (j : Job) (s : State), Running s ∧ tget [] (coreOf s n.val).engines e.val = o :: l ∧ jobOn s n.val = some (jid, j) ∧ j.waits = [] ∧ j.effects = [] ∧ o.signal = none ∧ o.waits = false) :=
  ⟨⟨3, 0, { n := 3, i := 0, jid := 1, j := wJob (wOp 0x20 4 4 0 0 0 8 0 0), x := { st := .ready, regs := [(1, 5), (2, 64)] }, w := wOp 0x20 4 4 0 0 0 8 0 0 }, wCore (wOp 0x20 4 4 0 0 0 8 0 0), by decide +kernel⟩,
   ⟨3, 0, { n := 3, i := 0, jid := 1, j := wJob (wOp 0x21 0 0 8 4 0 0 16 0), x := { st := .ready, regs := [(1, 5), (2, 64)] }, w := wOp 0x21 0 0 8 4 0 0 16 0 }, wCore (wOp 0x21 0 0 8 4 0 0 16 0), by decide +kernel⟩,
   ⟨3, 0, { n := 3, i := 0, jid := 1, j := wJob (wOp 0x22 0 0 0 0 0 0 0 0), x := { st := .ready, regs := [(1, 5), (2, 64)] }, w := wOp 0x22 0 0 0 0 0 0 0 0 }, wCore (wOp 0x22 0 0 0 0 0 0 0 0), by decide +kernel⟩,
   ⟨3, 0, { n := 3, i := 0, jid := 1, j := wJob (wOp 0x30 8 8 8 0 0 8 16 0), x := { st := .ready, regs := [(1, 5), (2, 64)] }, w := wOp 0x30 8 8 8 0 0 8 16 0 }, wCore (wOp 0x30 8 8 8 0 0 8 16 0), by decide +kernel⟩,
   ⟨3, 0, { n := 3, i := 0, jid := 1, j := wJob (wOp 0x31 8 8 8 0 0 8 16 0), x := { st := .ready, regs := [(1, 5), (2, 64)] }, w := wOp 0x31 8 8 8 0 0 8 16 0 }, wCore (wOp 0x31 8 8 8 0 0 8 16 0), by decide +kernel⟩,
   ⟨3, 0, { n := 3, i := 0, jid := 1, j := wJob (wOp 0x32 8 8 8 0 0 0 16 0), x := { st := .ready, regs := [(1, 5), (2, 64)] }, w := wOp 0x32 8 8 8 0 0 0 16 0 }, wCore (wOp 0x32 8 8 8 0 0 0 16 0), by decide +kernel⟩,
   ⟨3, 0, { n := 3, i := 0, jid := 1, j := wJob (wOp 0x33 8 8 8 0 0 0 16 0), x := { st := .ready, regs := [(1, 5), (2, 64)] }, w := wOp 0x33 8 8 8 0 0 0 16 0 }, wCore (wOp 0x33 8 8 8 0 0 0 16 0), by decide +kernel⟩,
   ⟨3, 0, { n := 3, i := 0, jid := 1, j := wJob (wOp 0x34 8 8 8 0 0 8 16 0), x := { st := .ready, regs := [(1, 5), (2, 64)] }, w := wOp 0x34 8 8 8 0 0 8 16 0 }, wCore (wOp 0x34 8 8 8 0 0 8 16 0), by decide +kernel⟩,
   ⟨3, 0, { n := 3, i := 0, jid := 1, j := wJob (wOp 0x35 8 0 7 0 0 0 16 0), x := { st := .ready, regs := [(1, 5), (2, 64)] }, w := wOp 0x35 8 0 7 0 0 0 16 0 }, wCore (wOp 0x35 8 0 7 0 0 0 16 0), by decide +kernel⟩,
   ⟨3, 0, { n := 3, i := 0, jid := 1, j := wJob (wOp 0x40 0 0 0 0 0 0x25 16 0), x := { st := .ready, regs := [(1, 5), (2, 64)] }, w := wOp 0x40 0 0 0 0 0 0x25 16 0 }, wCore (wOp 0x40 0 0 0 0 0 0x25 16 0), by decide +kernel⟩,
   ⟨3, 2, 90, 1, { ctx := 0, count := 4, rows := 1, signal := none }, [], wJob 6, setCore 3 { job := some 1, engines := [(2, [{ ctx := 0, count := 4, rows := 1, signal := none }])] } (wCore 6), by decide +kernel⟩⟩

theorem witness_SyncCommandsComplete :
    (∃ (o c : Fin 1024) (s : State), Managed s ∧ (syncObj s o.val).st = 0 ∧ (syncObj s o.val).reading = false) ∧
    (∃ (o : Fin 1024) (b : List Byte) (s : State), Running s ∧ hasHost s (syncObj s o.val).tenant = false ∧ (syncObj s o.val).st = 0 ∧ (syncObj s o.val).wordPva % 8 = 0 ∧ (syncObj s o.val).memListPva % 4 = 0 ∧ (syncObj s o.val).members ≠ 0 ∧ (syncObj s o.val).members ≤ 256 ∧ wordOk s (syncObj s o.val) = true ∧ membersUsed s + (syncObj s o.val).members ≤ 16384 ∧ (engRead (objActor s (syncObj s o.val)) (syncObj s o.val).memListPva (4 * (syncObj s o.val).members) s).1 = .got b none ∧ (memberList b (syncObj s o.val).members).all memberOk = true) ∧
    (∃ (o : Fin 1024) (s : State), Running s ∧ hasHost s (syncObj s o.val).tenant = false ∧ (syncObj s o.val).st ≠ 0) ∧
    (∃ (who : Nat) (n : Fin 160) (k : Fin 64) (v : Fin 256) (s : State), Managed s) ∧
    (∃ (who : Nat) (p : Fin 16) (jid : Nat) (j : Job) (s : State), Managed s ∧ (chanOf s p.val).job = some jid ∧ job s jid = some j) ∧
    (∃ (who : Nat) (o : Fin 1024) (l : Nat) (s : State), Managed s ∧ (syncObj s o.val).st ≠ 0 ∧ wbLine s (syncObj s o.val).tenant (syncObj s o.val).wordPva = some l ∧ (syncObj s o.val).wordPva % 8 = 0 ∧ IdleLine s (homeOf s (64 * l)) l ∧ s.pair.st = .solo ∧ tenantGone s (syncObj s o.val).tenant = false) ∧
    (∃ (who : Nat) (o : Fin 1024) (l : Nat) (s : State), Managed s ∧ (syncObj s o.val).st ≠ 0 ∧ wbLine s (syncObj s o.val).tenant (syncObj s o.val).wordPva = some l ∧ (syncObj s o.val).wordPva % 8 = 0 ∧ IdleLine s (homeOf s (64 * l)) l ∧ s.pair.st = .solo ∧ tenantGone s (syncObj s o.val).tenant = false) ∧
    (∃ (n : Fin 64) (o : Nat) (p : Packet) (q : Nat) (x : SyncObj) (s : State), Running s ∧ Passes n.val p q s = true ∧ p.typ = 0x43 ∧ s.core.objs = [(o, x)] ∧ x.st = 1 ∧ memberEntry 1 p.src.toNat ∈ x.list) ∧
    (∃ (i : Fin 65536) (s : State), Managed s) :=
  ⟨⟨5, 1, .reset, by decide +kernel⟩,
   ⟨5, [2, 0, 0, 0, 7, 0, 1, 0], setObj 5 { wordPva := 64, tenant := 1, memListPva := 128, members := 2 } { wBase with mem := { wBase.mem with bytes := [(128, 2), (132, 7), (134, 1)] } }, by decide +kernel⟩,
   ⟨5, setObj 5 { wordPva := 64, tenant := 1, st := 1, list := [3] } wBase, by decide +kernel⟩,
   ⟨77, 3, 5, 200, .reset, by decide +kernel⟩,
   ⟨77, 6, 1, { wJob 6 with width := 2 }, let s := wCore 6; { s with que := { s.que with jobs := [(1, some { wJob 6 with width := 2 })] }, core := { s.core with cores := [(3, { job := some 1, ctxs := [(0, { st := .barrier 5, pc := 1 })] })], chans := [(6, { job := some 1, logical := 5, members := 2 })] } }, by decide +kernel⟩,
   ⟨77, 5, 1, setObj 5 { wordPva := 64, tenant := 1, st := 1 } wBase, by decide +kernel⟩,
   ⟨77, 5, 1, setObj 5 { wordPva := 64, tenant := 1, st := 1 } { wBase with mem := { wBase.mem with bytes := [(64, 9), (71, 3)] } }, by decide +kernel⟩,
   ⟨3, 5, wPkt 0x43 6 0 [], 0, { wordPva := 64, tenant := 1, st := 1, list := [65543] }, setObj 5 { wordPva := 64, tenant := 1, st := 1, list := [65543] } wBase, by decide +kernel⟩,
   ⟨7, setObj 5 { wordPva := 64, tenant := 1, st := 1, list := [65543] } wBase, by decide +kernel⟩⟩

theorem witness_SchedulerCommandsComplete :
    (∃ (q : Fin 4) (now jid : Nat) (cs : List Nat) (j : Job) (s : State), Running s ∧ admissionOpen (advance now s) = true ∧ quadServes s q.val = true ∧ s.que.jobs = [(jid, some j)] ∧ j.phase = .ready ∧ j.quiesced = false ∧ j.quadrant = q.val ∧ (group s j.group).st = .active ∧ 0 ≤ creditOf s (classOf s j.group) ∧ j.width ≤ coresInService s ∧ placement (advance now s) j = some cs) ∧
    (∃ (l : List (Nat × Nat)) (now : Nat) (s : State), Running s) ∧
    (∃ (now : Nat) (s : State), Running s) ∧
    (∃ (n : Fin 8192) (s : State), Running s ∧ (group s (n.val / 8)).st ≠ .unbound ∧ ownerIgnored s n.val = false) ∧
    (∃ (c : Fin 256) (rate : BitVec 16) (burst : BitVec 32) (s : State), Managed s) ∧
    (∃ (g : Fin 1024) (c : Fin 256) (s : State), Managed s) ∧
    (∃ (a f : BitVec 16) (m : BitVec 8) (s : State), Managed s) ∧
    (∃ (k : Fin 4096) (c : Fin 1024) (anyT : Bool) (p : Fin 64) (anyP : Bool) (rate burst : BitVec 32) (s : State), Managed s ∧ 4128 ≤ burst.toNat ∧ s.sch.contracts = []) ∧
    (∃ (k : Fin 4096) (c : Fin 1024) (anyT : Bool) (p : Fin 64) (anyP valid : Bool) (rate burst : BitVec 32) (s : State), Managed s ∧ valid = true ∧ burst.toNat < 4128) :=
  ⟨⟨0, 50, 1, [0], { wJob 6 with phase := .ready, cores := [] }, let s := wJobIn 0x10 [] { wJob 6 with phase := .ready, cores := [] }; { s with clk := { s.clk with phase := .released } }, by decide +kernel⟩,
   ⟨[(0, 3)], 50, .reset, by decide +kernel⟩,
   ⟨5000, wQueue [], by decide +kernel⟩,
   ⟨9, wQueue [], by decide +kernel⟩,
   ⟨5, 128, 500, .reset, by decide +kernel⟩,
   ⟨1, 5, .reset, by decide +kernel⟩,
   ⟨20, 500, 7, .reset, by decide +kernel⟩,
   ⟨3, 1, false, 5, false, 1000, 9000, .reset, by decide +kernel⟩,
   ⟨3, 1, false, 5, false, true, 1000, 4127, .reset, by decide +kernel⟩⟩

theorem witness_PowerCommandsComplete :
    (∃ (q : Fin 4) (now : Nat) (s : State), Running s ∧ (pwrq s q.val).divider < opDivider (max (pwrq s q.val).opReq (pwrq s q.val).opCap)) ∧
    (∃ (q : Fin 4) (now : Nat) (s : State), Running s ∧ opDivider (max (pwrq s q.val).opReq (pwrq s q.val).opCap) ≤ (pwrq s q.val).divider ∧ (pwrq s q.val).voltMv < opMv (max (pwrq s q.val).opReq (pwrq s q.val).opCap)) ∧
    (∃ (q : Fin 4) (uj now : Nat) (s : State), Running s) ∧
    (∃ (q : Fin 4) (now n jid : Nat) (j : Job) (s : State), Running s ∧ 40 * q.val ≤ n ∧ n < 40 * q.val + 40 ∧ jobOn s n = some (jid, j)) ∧
    (∃ (q : Fin 4) (tj : BitVec 12) (w : BitVec 10) (now : Nat) (s : State), Running s) ∧
    (∃ (q : Fin 4) (now : Nat) (s : State), Running s ∧ (pwrq s q.val).tjThrottle = true ∧ 380 ≤ (pwrq s q.val).tj ∧ (pwrq s q.val).stepAt + 100000 ≤ max s.time now) ∧
    (∃ (q : Fin 4) (now a : Nat) (s : State), Running s ∧ (pwrq s q.val).railSince = some a ∧ a + 10000 ≤ max s.time now ∧ (pwrq s q.val).emergRail = false) ∧
    (∃ (now : Nat) (s : State), Running s) ∧
    (∃ (now : Nat) (s : State), Running s) ∧
    (∃ (q : Fin 4) (now : Nat) (s : State), Running s ∧ (pwrq s q.val).emergThermal = true ∧ (pwrq s q.val).emergRail = false ∧ (pwrq s q.val).emergAlert = false ∧ (pwrq s q.val).throttle = false ∧ (pwrq s q.val).tj < 360 ∧ tget 0 (pwrq s q.val).causeAt 0 + 10000000 ≤ max s.time now) ∧
    (∃ (q : Fin 4) (now a : Nat) (s : State), Running s ∧ (pwrq s q.val).raiseFrom = some a ∧ inEmergency (pwrq s q.val) = false ∧ (pwrq s q.val).throttle = false ∧ a + 1000000 ≤ max s.time now) ∧
    (∃ (q k : Fin 4) (s : State), Managed s) ∧
    (∃ (q : Fin 4) (w mj : BitVec 10) (s : State), Managed s ∧ 1 ≤ mj.toNat ∧ mj.toNat ≤ 1000) ∧
    (∃ (q : Fin 4) (w mj : BitVec 10) (s : State), Managed s ∧ (mj.toNat = 0 ∨ 1000 < mj.toNat)) ∧
    (∃ (now : Nat) (pkg : Nat × BitVec 384) (s : State), Managed s ∧ s.sch.actState = 0 ∧ tget none s.sec.slots (1 - s.sec.selector) = some pkg ∧ anyEmerg s = true) ∧
    (∃ (now : Nat) (pkg : Nat × BitVec 384) (s : State), Managed s ∧ s.sch.actState = 0 ∧ tget none s.sec.slots (1 - s.sec.selector) = some pkg ∧ anyEmerg s = false ∧ refusing s pkg.2 = none) ∧
    (∃ (now : Nat) (pkg : Nat × BitVec 384) (s : State), Running s ∧ s.sch.actState = 1 ∧ s.sch.actPkg = some pkg ∧ anyEmerg s = false ∧ refusing s pkg.2 = none) ∧
    (∃ (now : Nat) (s : State), Running s ∧ s.sch.actState = 1 ∧ s.sch.actSince + 60000000000 ≤ max s.time now) :=
  ⟨⟨1, 50, setPwrq 1 { opReq := 2, divider := 4, voltMv := 800 } .reset, by decide +kernel⟩,
   ⟨1, 50, setPwrq 1 { opReq := 0, divider := 8, voltMv := 790 } .reset, by decide +kernel⟩,
   ⟨1, 900, 50, .reset, by decide +kernel⟩,
   ⟨0, 10000, 3, 1, wJob 6, wCore 6, by decide +kernel⟩,
   ⟨1, 425, 300, 50, .reset, by decide +kernel⟩,
   ⟨1, 100000, setPwrq 1 { tjThrottle := true, tj := 390, opCap := 1 } .reset, by decide +kernel⟩,
   ⟨1, 20000, 5000, setPwrq 1 { railSince := some 5000 } .reset, by decide +kernel⟩,
   ⟨70, .reset, by decide +kernel⟩,
   ⟨70, setPwrq 2 { emergAlert := true } { State.reset with sch := { State.reset.sch with alertN := true } }, by decide +kernel⟩,
   ⟨1, 10000000, setPwrq 1 { emergThermal := true, opCap := 3 } .reset, by decide +kernel⟩,
   ⟨1, 2000000, 7, setPwrq 1 { opCap := 2, raiseFrom := some 7 } .reset, by decide +kernel⟩,
   ⟨1, 3, .reset, by decide +kernel⟩,
   ⟨1, 500, 1000, .reset, by decide +kernel⟩,
   ⟨1, 500, 1001, .reset, by decide +kernel⟩,
   ⟨70, (3, 0), setPwrq 1 { emergRail := true } { State.reset with sec := { State.reset.sec with slots := [(1, some (3, 0))] } }, by decide +kernel⟩,
   ⟨70, (3, 0), { State.reset with sec := { State.reset.sec with slots := [(1, some (3, 0))] } }, by decide +kernel⟩,
   ⟨70, (3, 0), { State.reset with sch := { State.reset.sch with actState := 1, actPkg := some (3, 0) } }, by decide +kernel⟩,
   ⟨60000000000, { State.reset with sch := { State.reset.sch with actState := 1, actPkg := some (3, 0) } }, by decide +kernel⟩⟩

theorem witness_CxlCommandsComplete :
    (∃ (d : Fin 64) (tag hpa : Nat) (m : Fin 3) (g ppa : Nat) (w : Wdw) (s : State), Running s ∧ ldUp s d.val = true ∧ s.pair.st = .solo ∧ openHit s d.val hpa = some (g, w) ∧ w.mode = 2 ∧ (translate (d.val / 16) (logDev s d.val).tenant ((hostPva s d.val hpa).getD 0 / 64 * 64) (.ld d.val) .port (readKind m.val).2 s).1.toOption.map (·.1) = some ppa ∧ ppa % 64 = 0 ∧ IdleLine s (d.val / 16) (ppa / 64) ∧ tenantGone s (logDev s d.val).tenant = false) ∧
    (∃ (d : Fin 64) (tag hpa : Nat) (mask : BitVec 64) (data : List Byte) (g ppa : Nat) (w : Wdw) (s : State), Running s ∧ ldUp s d.val = true ∧ s.pair.st = .solo ∧ openHit s d.val hpa = some (g, w) ∧ wbTarget s d.val hpa = none ∧ (translate (d.val / 16) (logDev s d.val).tenant ((hostPva s d.val hpa).getD 0 / 64 * 64) (.ld d.val) .port .write s).1.toOption.map (·.1) = some ppa ∧ ppa % 64 = 0 ∧ IdleLine s (d.val / 16) (ppa / 64) ∧ tenantGone s (logDev s d.val).tenant = false) ∧
    (∃ (d : Fin 64) (tag hpa : Nat) (g ppa : Nat) (w : Wdw) (s : State), Running s ∧ ldUp s d.val = true ∧ s.pair.st = .solo ∧ openHit s d.val hpa = some (g, w) ∧ w.mode = 2 ∧ (translate (d.val / 16) (logDev s d.val).tenant ((hostPva s d.val hpa).getD 0 / 64 * 64) (.ld d.val) .port .own s).1.toOption.map (·.1) = some ppa ∧ ppa % 64 = 0 ∧ IdleLine s (d.val / 16) (ppa / 64) ∧ tenantGone s (logDev s d.val).tenant = false) ∧
    (∃ (p v : Fin 4) (width rate : Nat) (sw : Bool) (n : Fin 17) (now : Nat) (s : State), Running s ∧ (cxlPort s p.val).linkState = 1 ∧ width ∈ [4, 8, 16] ∧ v.val ≠ 0 ∧ (rate = 32 ∨ (rate = 64 ∧ v.val = 3))) ∧
    (∃ (p v : Fin 4) (width rate : Nat) (sw : Bool) (n : Fin 17) (now : Nat) (s : State), Running s ∧ (cxlPort s p.val).linkState = 1 ∧ (width ∉ [4, 8, 16] ∨ rate ∉ [32, 64] ∨ v.val = 0 ∨ (rate = 64 ∧ v.val ≠ 3))) ∧
    (∃ (p : Fin 4) (now : Nat) (s : State), Running s ∧ (cxlPort s p.val).linkState = 2) ∧
    (∃ (p : Fin 4) (now a : Nat) (s : State), Running s ∧ (cxlPort s p.val).downAt = some a ∧ s.dir.lines = [] ∧ (cxlPort s p.val).linkState = 3) ∧
    (∃ (p : Fin 4) (now a : Nat) (s : State), Running s ∧ (cxlPort s p.val).downAt = some a ∧ s.dir.lines = [] ∧ (cxlPort s p.val).linkState = 0 ∧ mayTrain s p.val = true) ∧
    (∃ (l : Nat) (c : Scan) (s : State), Running s ∧ s.dir.scans = [c] ∧ c.dead = true ∧ scanHits s c l = true ∧ (line s l).recalls = [] ∧ (line s l).dir.st = .s ∧ (line s l).dir.coarse = false) ∧
    (∃ (l : Nat) (c : Scan) (s : State), Running s ∧ s.dir.scans = [c] ∧ c.dead = true ∧ scanHits s c l = true ∧ (line s l).recalls = [] ∧ (line s l).dir.st = .o) ∧
    (∃ (p : Fin 4) (now : Nat) (s : State), Running s ∧ (cxlPort s p.val).linkState = 2) ∧
    (∃ (d : Fin 64) (s : State), Managed s) ∧
    (∃ (d : Fin 64) (c : Fin 1024) (s : State), Managed s ∧ grantsOf s d.val = [] ∧ tethersOf s (.ld d.val) = 0 ∧ tenantLive s c.val = true) ∧
    (∃ (p : Fin 4) (m : Bool) (dc : Option (BitVec 16)) (now : Nat) (s : State), Managed s ∧ (cxlPort s p.val).downAt = none ∧ (cxlPort s p.val).linkState ≠ 2 ∧ tget false s.fen.fencedCxl p.val = false ∧ (quad s p.val).faultFenced = false ∧ s.clk.phase = .released ∧ gated s = false) ∧
    (∃ (p : Fin 4) (m : Bool) (dc : Option (BitVec 16)) (now : Nat) (s : State), Managed s ∧ (cxlPort s p.val).linkState ≠ 2) ∧
    (∃ (i : Nat) (b : List Byte) (r : DmaRead) (s : State), Running s ∧ s.cxl.dmaReads = [r] ∧ r.id = i ∧ r.discard = false ∧ s.pair.st = .solo ∧ (queue s r.queue).fetching = true ∧ (queue s r.queue).st = .running ∧ (group s (r.queue / 8)).st = .active ∧ (group s (r.queue / 8)).revoking = false) :=
  ⟨⟨2, 9, 64, 1, 0, 64, { st := .open_, extent := 1, size := 2, mode := 2 }, wLink, by decide +kernel⟩,
   ⟨2, 9, 64, 0xF0, List.replicate 64 7, 0, 64, { st := .open_, extent := 1, size := 2, mode := 2 }, wLink, by decide +kernel⟩,
   ⟨2, 9, 64, 0, 64, { st := .open_, extent := 1, size := 2, mode := 2 }, wLink, by decide +kernel⟩,
   ⟨1, 3, 16, 64, true, 5, 90, setCxlPort 1 { linkState := 1, mldAllow := true } .reset, by decide +kernel⟩,
   ⟨1, 3, 2, 64, true, 5, 90, setCxlPort 1 { linkState := 1, mldAllow := true } .reset, by decide +kernel⟩,
   ⟨0, 90, { wQueue [] with cxl := wLink.cxl }, by decide +kernel⟩,
   ⟨0, 90, 70, setCxlPort 0 { linkState := 3, downAt := some 70 } .reset, by decide +kernel⟩,
   ⟨0, 90, 70, setCxlPort 0 { linkState := 0, downAt := some 70, enable := true } { State.reset with clk := { State.reset.clk with phase := .released } }, by decide +kernel⟩,
   ⟨1, { q := 0, ld := 2, extent := none, dead := true }, { State.reset with dir := { State.reset.dir with lines := [(1, { dir := { st := .s, ptrs := [.ld 2, .ep 7] } })], scans := [{ q := homeOf .reset 64, ld := 2, extent := none, dead := true }] } }, by decide +kernel⟩,
   ⟨1, { q := 0, ld := 2, extent := none, dead := true }, { State.reset with dir := { State.reset.dir with lines := [(1, { dir := { st := .o, ptrs := [.ld 2] } })], scans := [{ q := homeOf .reset 64, ld := 2, extent := none, dead := true }] } }, by decide +kernel⟩,
   ⟨0, 90, wLink, by decide +kernel⟩,
   ⟨2, wLink, by decide +kernel⟩,
   ⟨5, 1, wBase, by decide +kernel⟩,
   ⟨1, false, some 250, 90, { State.reset with clk := { State.reset.clk with phase := .released } }, by decide +kernel⟩,
   ⟨1, false, none, 90, .reset, by decide +kernel⟩,
   ⟨4, wDesc 1 [], { id := 4, ld := 2, queue := 9, pasid := 0, addr := 0 }, { setQueue 9 { st := .running, fetching := true, stamps := [3] } (wQueue []) with cxl := { (wQueue []).cxl with dmaReads := [{ id := 4, ld := 2, queue := 9, pasid := 0, addr := 0 }] } }, by decide +kernel⟩⟩

theorem witness_GrantCommandsComplete :
    (∃ (d : Fin 64) (e : Fin 16384) (m : Fin 3) (g b : Nat) (s : State), Managed s ∧ grantable (extent s e.val) = true ∧ (extent s e.val).kind ≠ .balloon ∧ (extent s e.val).kite = none ∧ (logDev s d.val).bound = true ∧ (logDev s d.val).dcd = false ∧ (extent s e.val).tenant = (logDev s d.val).tenant ∧ m.val ≠ 2 ∧ lowest 32 (fun g => decide ((wdw s d.val g).st = .empty)) = some g ∧ findDpa s d.val (extent s e.val).blocks.length = some b ∧ (s.pool.tethers.filter (fun x => x.tenant == (extent s e.val).tenant)).length < tget 0 s.pool.quotas (extent s e.val).tenant ∧ tethersOf s (.ld d.val) < 65535 ∧ s.pool.tethers.length < 65536) ∧
    (∃ (d : Fin 64) (g : Fin 32) (s : State), Managed s ∧ (wdw s d.val g.val).st = .granted ∧ (logDev s d.val).dcd = false ∧ (wdw s d.val g.val).attach = false ∧ (extent s (wdw s d.val g.val).extent).kite = none ∧ { holder := .ld d.val, obj := .extent (wdw s d.val g.val).extent, tenant := (logDev s d.val).tenant } ∈ s.pool.tethers ∧ (∀ o ∈ s.cxl.dcOps, o.extent ≠ (wdw s d.val g.val).extent)) ∧
    (∃ (d : Fin 64) (g : Fin 32) (s : State), Managed s ∧ (wdw s d.val g.val).st = .open_) ∧
    (∃ (d : Fin 64) (k : Fin 32) (dpa size hpa g : Nat) (w : Wdw) (s : State), Running s ∧ ldUp s d.val = true ∧ decoderBusy s d.val k.val = false ∧ (grantsOf s d.val).find? (fun x => decide (dpa = x.2.dpaBase * blockBytes) && decide (size = x.2.size * blockBytes)) = some (g, w) ∧ w.st = .granted ∧ w.opening = none ∧ w.mode = 1) ∧
    (∃ (d : Fin 64) (k : Fin 32) (dpa size hpa : Nat) (s : State), Running s ∧ ldUp s d.val = true ∧ decoderBusy s d.val k.val = false ∧ (grantsOf s d.val).find? (fun x => decide (dpa = x.2.dpaBase * blockBytes) && decide (size = x.2.size * blockBytes)) = none) ∧
    (∃ (d : Fin 64) (k : Fin 32) (g : Nat) (w : Wdw) (s : State), Running s ∧ (grantsOf s d.val).find? (fun x => ((decide (x.2.st = .open_) || decide (x.2.st = .cut)) && x.2.decoder == k.val) || x.2.opening.any (fun y => y.1 == k.val)) = some (g, w) ∧ w.st = .open_) ∧
    (∃ (e : Fin 16384) (n : Nat) (bs : List Nat) (s1 s : State), Managed s ∧ (extent s e.val).st = .active ∧ (extent s e.val).kind = .balloon ∧ (extent s e.val).growing = [] ∧ windowsOn s e.val ≠ [] ∧ dcOf s e.val false = none ∧ dcOf s e.val true = none ∧ cutsOn s e.val = false ∧ n ≠ 0 ∧ (extent s e.val).blocks.length + n ≤ (extent s e.val).maxBlocks ∧ allocBlocks n e.val (extent s e.val).light (extent s e.val).place (extent s e.val).grainLog2 s = some (bs, s1)) ∧
    (∃ (d : Fin 64) (e : Fin 16384) (dl : Nat) (o : DcOp) (s : State), Running s ∧ ldUp s d.val = true ∧ versionOf s d.val = 3 ∧ s.cxl.dcOps = [o] ∧ o.extent = e.val ∧ o.add = true ∧ o.sent = true ∧ o.grant = none ∧ o.wait = [(d.val, dl)]) ∧
    (∃ (e : Fin 16384) (now d dl : Nat) (o : DcOp) (s : State), Running s ∧ s.cxl.dcOps = [o] ∧ o.extent = e.val ∧ o.add = true ∧ o.sent = true ∧ o.reported = false ∧ o.grant = none ∧ o.wait = [(d, dl)] ∧ dl ≤ max s.time now) ∧
    (∃ (e : Fin 16384) (n d g : Nat) (s : State), Managed s ∧ windowsOn s e.val = [(d, g)] ∧ cutsOn s e.val = false ∧ (extent s e.val).st = .active ∧ (extent s e.val).kind = .balloon ∧ (extent s e.val).shrinking = [] ∧ s.cxl.dcOps = [] ∧ n ≠ 0 ∧ n ≤ (extent s e.val).blocks.length ∧ leastBlocks (extent s e.val) ≤ (extent s e.val).blocks.length - n ∧ gated s = false ∧ awaitsAck s = false) ∧
    (∃ (e : Fin 16384) (n : Nat) (s : State), Managed s ∧ windowsOn s e.val ≠ [] ∧ cutsOn s e.val = false ∧ (∀ w ∈ windowsOn s e.val, (wdw s w.1 w.2).st = .open_)) ∧
    (∃ (e : Fin 16384) (n d g : Nat) (s : State), Managed s ∧ windowsOn s e.val = [(d, g)] ∧ cutsOn s e.val = false ∧ (wdw s d g).st = .granted ∧ (∀ o ∈ s.cxl.dcOps, o.extent ≠ e.val) ∧ (extent s e.val).kite = none) ∧
    (∃ (d : Fin 64) (e : Fin 16384) (dl : Nat) (o : DcOp) (s : State), Running s ∧ ldUp s d.val = true ∧ versionOf s d.val = 3 ∧ s.cxl.dcOps = [o] ∧ o.extent = e.val ∧ o.add = false ∧ o.sent = true ∧ o.grant = none ∧ o.wait = [(d.val, dl)] ∧ s.core.objs = []) ∧
    (∃ (e : Fin 16384) (p : Fin 4) (s : State), Running s ∧ ((∀ w ∈ windowsOn s e.val, w.1 / 16 = p.val → (wdw s w.1 w.2).ordered = true → (wdw s w.1 w.2).st ≠ .granted))) ∧
    (∃ (e : Fin 16384) (p : Fin 4) (d g : Nat) (s : State), Running s ∧ windowsOn s e.val = [(d, g)] ∧ d / 16 = p.val ∧ (wdw s d g).ordered = true ∧ (wdw s d g).st = .granted ∧ (wdw s d g).revoked = false ∧ (wdw s d g).extent = e.val ∧ (extent s e.val).releaseAfterCut = false) ∧
    (∃ (d : Fin 64) (g : Fin 32) (s : State), Running s ∧ (wdw s d.val g.val).st = .cut ∧ (wdw s d.val g.val).cutting = true ∧ (wdw s d.val g.val).revoked = false ∧ 2 ≤ versionOf s d.val ∧ (extent s (wdw s d.val g.val).extent).releaseAfterCut = false ∧ s.dir.lines = [] ∧ (∀ o ∈ s.cxl.dcOps, o.extent ≠ (wdw s d.val g.val).extent)) :=
  ⟨⟨3, 1, 1, 0, 0, let s := setLogDev 3 { tenant := 1, bound := true } wLink; { s with pool := { s.pool with quotas := [(1, 10)] } }, by decide +kernel⟩,
   ⟨2, 0, setWdw 2 0 { st := .granted, extent := 1, size := 2 } { wLink with pool := { wLink.pool with tethers := [{ holder := .ld 2, obj := .extent 1, tenant := 1 }] } }, by decide +kernel⟩,
   ⟨2, 0, wLink, by decide +kernel⟩,
   ⟨2, 4, 0, 268435456, 1073741824, 0, { st := .granted, extent := 1, size := 1, mode := 1 }, setWdw 2 0 { st := .granted, extent := 1, size := 1, mode := 1 } wLink, by decide +kernel⟩,
   ⟨2, 4, 0, 999, 1073741824, wLink, by decide +kernel⟩,
   ⟨2, 0, 0, { st := .open_, extent := 1, size := 2, mode := 2 }, wLink, by decide +kernel⟩,
   ⟨1, 1, [0], ((allocBlocks 1 1 false .deviceWide 12 wBalloon).getD ([], wBalloon)).2, wBalloon, by decide +kernel⟩,
   ⟨2, 1, 900, { extent := 1, add := true, blocks := [7], sent := true, wait := [(2, 900)] }, { setExtent 1 { extent wBalloon 1 with growing := [7] } wBalloon with cxl := { wBalloon.cxl with dcOps := [{ extent := 1, add := true, blocks := [7], sent := true, wait := [(2, 900)] }] } }, by decide +kernel⟩,
   ⟨1, 950, 2, 900, { extent := 1, add := true, blocks := [7], sent := true, wait := [(2, 900)] }, { setExtent 1 { extent wBalloon 1 with growing := [7] } wBalloon with cxl := { wBalloon.cxl with dcOps := [{ extent := 1, add := true, blocks := [7], sent := true, wait := [(2, 900)] }] } }, by decide +kernel⟩,
   ⟨1, 1, 2, 0, wBalloon, by decide +kernel⟩,
   ⟨1, 0, wBalloon, by decide +kernel⟩,
   ⟨1, 0, 2, 0, setWdw 2 0 { st := .granted, extent := 1, size := 2 } wBalloon, by decide +kernel⟩,
   ⟨2, 1, 900, { extent := 1, add := false, blocks := [1], sent := true, wait := [(2, 900)] }, { wBalloon with cxl := { wBalloon.cxl with dcOps := [{ extent := 1, add := false, blocks := [1], sent := true, wait := [(2, 900)] }] } }, by decide +kernel⟩,
   ⟨1, 0, setWdw 2 0 { st := .open_, extent := 1, size := 2, mode := 2, ordered := true } wLink, by decide +kernel⟩,
   ⟨1, 0, 2, 0, setWdw 2 0 { st := .granted, extent := 1, size := 2, ordered := true } wLink, by decide +kernel⟩,
   ⟨2, 0, setWdw 2 0 { st := .cut, extent := 1, size := 2, mode := 2, cutting := true } wLink, by decide +kernel⟩⟩

theorem witness_MailboxCommandsComplete :
    (∃ (d : Fin 64) (s : State), Running s ∧ ldUp s d.val = true ∧ 2 ≤ versionOf s d.val) ∧
    (∃ (d : Fin 64) (k : Fin 4) (s : State), Running s ∧ ldUp s d.val = true ∧ 2 ≤ versionOf s d.val) ∧
    (∃ (d : Fin 64) (k : Fin 4) (hs : List Nat) (s : State), Running s ∧ ldUp s d.val = true ∧ 2 ≤ versionOf s d.val) ∧
    (∃ (d : Fin 64) (k : Fin 4) (hs : List Nat) (s : State), Running s ∧ ldUp s d.val = true ∧ 2 ≤ versionOf s d.val ∧ (∀ h ∈ hs, ∃ r ∈ eventLog s d.val k.val, r.1 = h)) ∧
    (∃ (d : Fin 64) (v : BitVec 32) (s : State), Running s ∧ ldUp s d.val = true ∧ 2 ≤ versionOf s d.val ∧ v.toNat % 4 ≤ 1 ∧ v.toNat / 256 % 4 ≤ 1 ∧ v.toNat / 65536 % 4 ≤ 1 ∧ v.toNat / 16777216 % 4 ≤ 1) ∧
    (∃ (d : Fin 64) (s : State), Running s ∧ ldUp s d.val = true ∧ 2 ≤ versionOf s d.val) ∧
    (∃ (d : Fin 64) (s : State), Running s ∧ ldUp s d.val = true ∧ versionOf s d.val = 3) ∧
    (∃ (d : Fin 64) (s : State), Running s ∧ ldUp s d.val = true ∧ versionOf s d.val = 2) ∧
    (∃ (d : Fin 64) (s : State), Running s ∧ versionOf s d.val = 1) :=
  ⟨⟨2, wLink, by decide +kernel⟩,
   ⟨2, 1, { wLink with cxl := { wLink.cxl with events := [(9, [(5, 2, [77])])] } }, by decide +kernel⟩,
   ⟨2, 1, [], { wLink with cxl := { wLink.cxl with events := [(9, [(5, 2, [77])])] } }, by decide +kernel⟩,
   ⟨2, 1, [5], { wLink with cxl := { wLink.cxl with events := [(9, [(5, 2, [77]), (6, 2, [77])])] } }, by decide +kernel⟩,
   ⟨2, 0x01000100, wLink, by decide +kernel⟩,
   ⟨2, { wLink with mem := { wLink.mem with poison := [(3, true)] } }, by decide +kernel⟩,
   ⟨2, wBalloon, by decide +kernel⟩,
   ⟨2, setCxlPort 0 { linkState := 2, version := 2, width := 16, rateGts := 32, ldCount := 16, enable := true } wLink, by decide +kernel⟩,
   ⟨2, setCxlPort 0 { linkState := 2, version := 1, width := 16, rateGts := 32, ldCount := 1, enable := true } wLink, by decide +kernel⟩⟩

theorem witness_FmApiCommandsComplete :
    (∃ (p : Fin 4) (s : State), Managed s) ∧
    (∃ (s : State), Managed s) ∧
    (∃ (high low : Nat) (s : State), Managed s ∧ low ≤ high ∧ high ≤ 100) ∧
    (∃ (high low : Nat) (s : State), Managed s ∧ (high < low ∨ 100 < high)) ∧
    (∃ (s : State), Managed s) ∧
    (∃ (p : Fin 4) (k : Nat) (vs : List Nat) (s : State), Managed s ∧ k + vs.length ≤ (cxlPort s p.val).ldCount ∧ (∀ v ∈ vs, v ≤ 255)) ∧
    (∃ (p : Fin 4) (k : Nat) (vs : List Nat) (s : State), Managed s ∧ k + vs.length ≤ (cxlPort s p.val).ldCount ∧ (∀ v ∈ vs, v ≤ 255)) ∧
    (∃ (d : Fin 64) (s : State), Managed s ∧ (logDev s d.val).dcd = true) ∧
    (∃ (d : Fin 64) (s : State), Managed s ∧ (logDev s d.val).dcd = false) :=
  ⟨⟨0, wLink, by decide +kernel⟩,
   ⟨wLink, by decide +kernel⟩,
   ⟨90, 40, .reset, by decide +kernel⟩,
   ⟨40, 90, .reset, by decide +kernel⟩,
   ⟨.reset, by decide +kernel⟩,
   ⟨0, 2, [7, 9], wLink, by decide +kernel⟩,
   ⟨0, 2, [7, 9], wLink, by decide +kernel⟩,
   ⟨2, wBalloon, by decide +kernel⟩,
   ⟨2, wLink, by decide +kernel⟩⟩

theorem witness_StackCommandsComplete :
    (∃ (pc : Fin 2048) (b : Fin 16) (now : Nat) (s : State), Running s) ∧
    (∃ (n : Fin 32) (c : BitVec 8) (s : State), Running s) ∧
    (∃ (c : Fin 1024) (i : Fin 64) (now : Nat) (f : Nat × Nat) (s : State), Running s ∧ (chan s c.val).retry[i.val]? = some f) ∧
    (∃ (c : Fin 1024) (now a : Nat) (s : State), Running s ∧ (chan s c.val).alert = some a ∧ (chan s c.val).repeats < 3) ∧
    (∃ (c : Fin 1024) (now a : Nat) (s : State), Running s ∧ (chan s c.val).alert = some a ∧ 3 ≤ (chan s c.val).repeats ∧ s.mem.errHead + 1 ≠ s.mem.errTail) ∧
    (∃ (a errs : Nat) (g : Option (BitVec 10 × BitVec 10)) (s : State), Running s ∧ a < capacity s ∧ tget none s.mem.merge (a / 64) = none ∧ stackServes s ((storedAt s (64 * (a / 64))).1 / 64) = true ∧ (stack s ((storedAt s (64 * (a / 64))).1 / 64)).selfRefresh = false ∧ (stack s ((storedAt s (64 * (a / 64))).1 / 64)).failedPcs = [] ∧ tget 0 s.mem.lineErr (a / 64) + errs = 0) ∧
    (∃ (a errs : Nat) (g : Option (BitVec 10 × BitVec 10)) (s : State), Running s ∧ a < capacity s ∧ tget none s.mem.merge (a / 64) = none ∧ stackServes s ((storedAt s (64 * (a / 64))).1 / 64) = true ∧ (stack s ((storedAt s (64 * (a / 64))).1 / 64)).selfRefresh = false ∧ (stack s ((storedAt s (64 * (a / 64))).1 / 64)).failedPcs = [] ∧ isLight s (64 * (a / 64)) = false ∧ tget 0 s.mem.lineErr (a / 64) + errs ≠ 0 ∧ tget 0 s.mem.lineErr (a / 64) + errs ≤ 3 ∧ tget false s.mem.poison (a / 64) = false ∧ tget 0 s.mem.rowCe ((storedAt s (64 * (a / 64))).1 * 1048576 + rowKey (storedAt s (64 * (a / 64))).2) + 1 < max 1 s.mem.ceRemap) ∧
    (∃ (a errs : Nat) (g : Option (BitVec 10 × BitVec 10)) (s : State), Running s ∧ a < capacity s ∧ tget none s.mem.merge (a / 64) = none ∧ stackServes s ((storedAt s (64 * (a / 64))).1 / 64) = true ∧ (stack s ((storedAt s (64 * (a / 64))).1 / 64)).selfRefresh = false ∧ isLight s (64 * (a / 64)) = false ∧ 4 ≤ tget 0 s.mem.lineErr (a / 64) + errs ∧ tget 0 s.mem.lineErr (a / 64) + errs ≤ 5) ∧
    (∃ (a errs : Nat) (g : Option (BitVec 10 × BitVec 10)) (s : State), capacity s ≤ a) ∧
    (∃ (now : Nat) (s : State), Running s) ∧
    (∃ (h : BitVec 8) (a : BitVec 16) (c m : BitVec 8) (s : State), Managed s) ∧
    (∃ (d : BitVec 64) (s : State), Running s) :=
  ⟨⟨5, 3, 33000000, { State.reset with mem := { State.reset.mem with openRows := [(83, some 4)], acts := [(83, [(4, 7)])] } }, by decide +kernel⟩,
   ⟨5, 91, .reset, by decide +kernel⟩,
   ⟨5, 1, 90, (7, 3), setChan 5 { retry := [(8, 1), (7, 3)], failing := some (7, 3), repeats := 1 } .reset, by decide +kernel⟩,
   ⟨5, 90, 80, setChan 5 { retry := [(8, 1), (7, 3)], failing := some (7, 3), repeats := 1, alert := some 80 } .reset, by decide +kernel⟩,
   ⟨5, 90, 80, setChan 5 { retry := [(8, 1), (7, 3)], failing := some (7, 3), repeats := 3, alert := some 80 } .reset, by decide +kernel⟩,
   ⟨640, 0, some (5, 6), .reset, by decide +kernel⟩,
   ⟨640, 1, none, { State.reset with mem := { State.reset.mem with lineErr := [(10, 2)] } }, by decide +kernel⟩,
   ⟨640, 5, none, .reset, by decide +kernel⟩,
   ⟨0x1000000000000, 0, none, .reset, by decide +kernel⟩,
   ⟨90, .reset, by decide +kernel⟩,
   ⟨12, 4096, 3, 50, .reset, by decide +kernel⟩,
   ⟨0x10500, { State.reset with mem := { State.reset.mem with errOverflow := true } }, by decide +kernel⟩⟩

theorem witness_MigrationCommandsComplete :
    (∃ (n : Fin 32) (k : Nat) (m : Tbl (Option (Nat × Nat))) (s : State), retMap s n.val = some m ∧ Managed s ∧ (stack s n.val).st = .inService ∧ retSlot s n.val = some k) ∧
    (∃ (n : Fin 32) (s : State), Managed s ∧ (stack s n.val).st = .inService ∧ (retSlot s n.val = none ∨ retMap s n.val = none)) ∧
    (∃ (n : Fin 32) (l : List (Fin 64)) (s : State), Running s ∧ ((stack s n.val).st = .inService ∨ (stack s n.val).st = .degraded)) ∧
    (∃ (n : Fin 32) (l : List (Fin 64)) (s : State), Running s ∧ (stack s n.val).st = .retiring) ∧
    (∃ (n : Fin 32) (k : Nat) (m : Tbl (Option (Nat × Nat))) (s : State), retMap s n.val = some m ∧ Running s ∧ ((stack s n.val).st = .degraded ∨ (stack s n.val).st = .failed) ∧ retSlot s n.val = some k) ∧
    (∃ (k : Fin 4) (b : Nat) (i : Fin 64) (g : Nat) (x : Nat × Nat) (s : State), Running s ∧ (mig s k.val).st = 1 ∧ tget none (mig s k.val).map b = some x ∧ g < 8 * blockFrames (block s b) ∧ i.val * 65536 + 8 * (block s b).frame + g ∉ (mig s k.val).movedSet ∧ s.mem.merge = [] ∧ s.mem.lineErr = [] ∧ (s.mem.stk.all (fun c => c.2.failedPcs.isEmpty)) = true ∧ (mig s k.val).moved + 1 < (mig s k.val).total) ∧
    (∃ (k : Fin 4) (b : Nat) (i : Fin 64) (g : Nat) (x : Nat × Nat) (s : State), Running s ∧ (mig s k.val).st = 1 ∧ tget none (mig s k.val).map b = some x ∧ g < 8 * blockFrames (block s b) ∧ i.val * 65536 + 8 * (block s b).frame + g ∉ (mig s k.val).movedSet ∧ s.mem.merge = [] ∧ s.mem.lineErr = [] ∧ (s.mem.stk.all (fun c => c.2.failedPcs.isEmpty)) = true ∧ (mig s k.val).total ≤ (mig s k.val).moved + 1) ∧
    (∃ (e : Fin 16384) (pl : Placement) (g : Nat) (bs : List Nat) (s1 s : State), Managed s ∧ s.mem.migs = [] ∧ ((extent s e.val).st = .active ∨ (extent s e.val).st = .sealed) ∧ windowIn s (extent s e.val) = false ∧ 8 ≤ g ∧ g ≤ 16 ∧ allocBlocks (extent s e.val).blocks.length e.val (extent s e.val).light pl g s = some (bs, s1)) ∧
    (∃ (a b : Nat) (s : State), Running s ∧ (mig s 4).st = 1 ∧ (mig s 4).switched = false ∧ (mig s 4).moved < (mig s 4).total ∧ ((∀ k, k < 4 → (mig s k).st ≠ 1)) ∧ (extent s (mig s 4).extent).blocks[(mig s 4).moved / 16384]? = some a ∧ (mig s 4).targets[(mig s 4).moved / 16384]? = some b ∧ a ≠ b ∧ s.mem.merge = [] ∧ s.mem.lineErr = [] ∧ s.mem.poison = [] ∧ (s.mem.stk.all (fun c => c.2.failedPcs.isEmpty)) = true ∧ s.pair.copying = false) ∧
    (∃ (k : Nat) (s : State), Running s ∧ (mig s 4).st = 1 ∧ (mig s 4).switched = false ∧ (mig s 4).moved < (mig s 4).total ∧ k < 4 ∧ (mig s k).st = 1) ∧
    (∃ (root : BitVec 26) (now : Nat) (s : State), Running s ∧ (mig s 4).st = 1 ∧ (mig s 4).switched = false ∧ (mig s 4).total ≤ (mig s 4).moved ∧ (roots s (extent s (mig s 4).extent).tenant).switchPending = false) ∧
    (∃ (l n : Nat) (s : State), Running s ∧ targetLine s l = some n ∧ n ≠ l ∧ (mig s 4).switched = true ∧ l ∉ (mig s 4).handed ∧ busy (line s l) = false ∧ (line s l).queue = [] ∧ s.mem.merge = []) ∧
    (∃ (s : State), Running s ∧ (mig s 4).st ≠ 0 ∧ (mig s 4).switched = true ∧ s.dir.lines = [] ∧ (roots s (extent s (mig s 4).extent).tenant).switchPending = false) :=
  ⟨⟨3, 0, (retMap wOneBlock 3).getD [], wOneBlock, (wSome_getD [] (by decide +kernel)), by decide +kernel⟩,
   ⟨3, setMig 0 { st := 1, stack := 1 } (setMig 1 { st := 1, stack := 2 } .reset), by decide +kernel⟩,
   ⟨3, [2, 5], setStack 3 { st := .degraded, failedPcs := [5] } .reset, by decide +kernel⟩,
   ⟨3, [2, 5], setStack 3 { st := .retiring } .reset, by decide +kernel⟩,
   ⟨3, 0, (retMap (setStack 3 { st := .failed } wOneBlock) 3).getD [], setStack 3 { st := .failed } wOneBlock, (wSome_getD [] (by decide +kernel)), by decide +kernel⟩,
   ⟨1, 0, 4, 2, (2, 3), setMig 1 { st := 1, stack := 3, total := 512, map := [(0, some (2, 3))] } (setBlock 0 { valid := true, grainLog2 := 12 } .reset), by decide +kernel⟩,
   ⟨1, 0, 4, 2, (2, 3), setMig 1 { st := 1, stack := 3, total := 512, moved := 511, map := [(0, some (2, 3))] } (setBlock 0 { valid := true, grainLog2 := 12 } .reset), by decide +kernel⟩,
   ⟨1, .deviceWide, 13, [2, 3], ((allocBlocks 2 1 false .deviceWide 13 (setBlock 0 { valid := true, extent := 1 } (setBlock 1 { valid := true, extent := 1, frame := 1 } wBase))).getD ([], wBase)).2, setBlock 0 { valid := true, extent := 1 } (setBlock 1 { valid := true, extent := 1, frame := 1 } wBase), by decide +kernel⟩,
   ⟨0, 2, setMig 4 { st := 1, extent := 1, total := 32768, moved := 3, targets := [2, 3] } { wBase with mem := { wBase.mem with bytes := [(49153, 7)] } }, by decide +kernel⟩,
   ⟨1, setMig 1 { st := 1, stack := 3 } (setMig 4 { st := 1, extent := 1, total := 32768, targets := [2, 3] } wBase), by decide +kernel⟩,
   ⟨77, 90, setMig 4 { st := 1, extent := 1, total := 32768, moved := 32768, targets := [2, 3], grainLog2 := 13 } wBase, by decide +kernel⟩,
   ⟨5, 8388613, setMig 4 { st := 1, extent := 1, total := 32768, moved := 32768, targets := [2, 3], switched := true, old := [0, 1] } { wBase with dir := { wBase.dir with lines := [(5, { dir := { st := .s, ptrs := [.ld 2] } })] } }, by decide +kernel⟩,
   ⟨setMig 4 { st := 1, extent := 1, total := 32768, moved := 32768, targets := [2, 3], switched := true, old := [0, 1] } { wBase with mem := { wBase.mem with bytes := [(49153, 7)] } }, by decide +kernel⟩⟩

theorem witness_SecurityCommandsComplete :
    (∃ (nonce : List Byte) (now : Nat) (r : BitVec 384) (s : State), Managed s ∧ s.sec.identityFault = false ∧ s.sec.ak = some r) ∧
    (∃ (nonce : List Byte) (e : Fin 16384) (now : Nat) (r : BitVec 384) (s : State), Managed s ∧ s.sec.identityFault = false ∧ s.sec.ak = some r ∧ (extent s e.val).st = .sealedEmpty) ∧
    (∃ (e : Fin 16384) (now k : Nat) (s : State), Running s ∧ (sealedOf s e.val).releaseKey = some k ∧ (sealedOf s e.val).signedAt + 60000000000 ≤ max s.time now) ∧
    (∃ (b : List Byte) (now : Nat) (s : State), Managed s) ∧
    (∃ (e : Fin 16384) (pva n : Nat) (key : List Byte) (s1 s : State), Managed s ∧ (extent s e.val).st = .sealedEmpty ∧ (sealedOf s e.val).contentKey = some key ∧ n ≤ (extent s e.val).blocks.length * 65536 ∧ engReady (loadActor e.val (extent s e.val).tenant) [(pva, 4096 * n + 16 * n)] s = (true, s1)) ∧
    (∃ (e : Fin 16384) (pva n : Nat) (key : List Byte) (s : State), Managed s ∧ (extent s e.val).st = .sealedEmpty ∧ (sealedOf s e.val).contentKey = some key ∧ (extent s e.val).blocks.length * 65536 < n) ∧
    (∃ (e : Fin 16384) (s : State), Running s ∧ (extent s e.val).st = .loading ∧ (sealedOf s e.val).loadFailed = false) ∧
    (∃ (e : Fin 16384) (s : State), Running s ∧ (extent s e.val).st = .loading ∧ (sealedOf s e.val).loadFailed = true) ∧
    (∃ (p : Fin 2) (k : Nat) (r : Role) (d : BitVec 384) (now : Nat) (s : State), Running s ∧ servesPort s p.val = true ∧ tget none s.sec.sessions k = none ∧ sessionCount s < 16 ∧ servesRole s r = true) ∧
    (∃ (p : Fin 2) (k : Nat) (rs : List Role) (d : BitVec 384) (w : Bool) (now : Nat) (s : State), Running s ∧ servesPort s p.val = true ∧ tget none s.sec.sessions k = none ∧ (16 ≤ sessionCount s ∨ (w = true ∧ rs.length ≠ 1))) ∧
    (∃ (k now : Nat) (x : Session) (s : State), Running s ∧ tget none s.sec.sessions k = some x ∧ x.role = none ∧ x.start + 10000000000 ≤ max s.time now) ∧
    (∃ (k last now : Nat) (x : Session) (s : State), Running s ∧ tget none s.sec.sessions k = some x ∧ max x.last last + 600000000000 ≤ max s.time now) ∧
    (∃ (l : BitVec 32) (d g : BitVec 384) (tg : Bool) (sig : List Byte) (now : Nat) (s : State), Managed s) ∧
    (∃ (now l : Nat) (d : BitVec 384) (s : State), Running s ∧ s.sch.actState = 2 ∧ s.sch.actPkg = some (l, d)) ∧
    (∃ (now l : Nat) (d : BitVec 384) (s : State), Running s ∧ s.sch.actState = 2 ∧ s.sch.actPkg = some (l, d)) ∧
    (∃ (b : List Byte) (g : BitVec 384) (s : State), anchorServes s = true) ∧
    (∃ (l : BitVec 32) (now : Nat) (s : State), Managed s) ∧
    (∃ (r r' : Role) (b : List Byte) (e : Fin 16384) (pva n : Nat) (l : BitVec 32) (d g : BitVec 384) (tg : Bool) (sig : List Byte) (now : Nat) (s : State), Managed s ∧ r ≠ .operator ∧ r' ≠ .custodian) :=
  ⟨⟨[1, 2, 3], 90, 9, { State.reset with sec := { State.reset.sec with ak := some 9 } }, by decide +kernel⟩,
   ⟨[1, 2, 3], 1, 90, 9, setExtent 1 { st := .sealedEmpty, tenant := 1, blocks := [0] } { wBase with sec := { wBase.sec with ak := some 9 } }, by decide +kernel⟩,
   ⟨1, 60000000090, 4, { wBase with sec := { wBase.sec with sealeds := [(1, { releaseKey := some 4, nonce := [1], signedAt := 90 })] } }, by decide +kernel⟩,
   ⟨[7], 90, wBase, by decide +kernel⟩,
   ⟨1, 0, 2, [7], ((engReady (loadActor 1 1) [(0, 8224)] (setExtent 1 { st := .sealedEmpty, tenant := 1, blocks := [0] } { wBase with sec := { wBase.sec with sealeds := [(1, { contentKey := some [7] })] } }))).2, setExtent 1 { st := .sealedEmpty, tenant := 1, blocks := [0] } { wBase with sec := { wBase.sec with sealeds := [(1, { contentKey := some [7] })] } }, by decide +kernel⟩,
   ⟨1, 0, 65537, [7], setExtent 1 { st := .sealedEmpty, tenant := 1, blocks := [0] } { wBase with sec := { wBase.sec with sealeds := [(1, { contentKey := some [7] })] } }, by decide +kernel⟩,
   ⟨1, setExtent 1 { st := .loading, tenant := 1, blocks := [0] } { wBase with sec := { wBase.sec with sealeds := [(1, { contentKey := some [7] })] } }, by decide +kernel⟩,
   ⟨1, setExtent 1 { st := .loading, tenant := 1, blocks := [0] } { wBase with sec := { wBase.sec with sealeds := [(1, { contentKey := some [7], loadFailed := true })] } }, by decide +kernel⟩,
   ⟨0, 5, .auditor, 99, 90, .reset, by decide +kernel⟩,
   ⟨0, 5, [], 99, true, 90, .reset, by decide +kernel⟩,
   ⟨5, 10000000050, { role := none, start := 50, last := 50, port := 0 }, { State.reset with sec := { State.reset.sec with sessions := [(5, some { role := none, start := 50, last := 50, port := 0 })] } }, by decide +kernel⟩,
   ⟨5, 90, 600000000090, { role := some .auditor, start := 50, last := 50, port := 0 }, { State.reset with sec := { State.reset.sec with sessions := [(5, some { role := some .auditor, start := 50, last := 50, port := 0 })] } }, by decide +kernel⟩,
   ⟨5, 77, 78, true, [1], 90, .reset, by decide +kernel⟩,
   ⟨90, 5, 77, { State.reset with sch := { State.reset.sch with actState := 2, actPkg := some (5, 77), actPause := true } }, by decide +kernel⟩,
   ⟨90, 5, 77, { State.reset with sch := { State.reset.sch with actState := 2, actPkg := some (5, 77), actPause := true } }, by decide +kernel⟩,
   ⟨[1], 78, .reset, by decide +kernel⟩,
   ⟨5, 90, .reset, by decide +kernel⟩,
   ⟨.auditor, .operator, [7], 1, 0, 0, 5, 77, 78, true, [1], 90, .reset, by decide +kernel⟩⟩

theorem witness_TenantCommandsComplete :
    (∃ (c : Fin 1024) (m : Bool) (now : Nat) (s : State), Managed s ∧ (tenant s c.val).st = .free) ∧
    (∃ (c : Fin 1024) (now : Nat) (s : State), Managed s ∧ (tenant s c.val).st = .active ∧ slotOf (tenant s c.val) (((tenant s c.val).epoch + 1) % 256) = .empty) ∧
    (∃ (e : Fin 16384) (s : State), Running s ∧ (tenant s (extent s e.val).tenant).st = .rekeying ∧ (extent s e.val).st ≠ .free ∧ (extent s e.val).swept < sweepEnd (extent s e.val)) ∧
    (∃ (c : Fin 1024) (now : Nat) (s : State), Running s ∧ (tenant s c.val).st = .rekeying ∧ (∀ e ∈ extentsOf s c.val, sweepEnd (extent s e) ≤ (extent s e).swept)) ∧
    (∃ (c : Fin 1024) (s : State), Running s ∧ tenantLive s c.val = true ∧ slotOf (tenant s c.val) ((tenant s c.val).epoch + 1) = .revoking ∧ oldEpochWork s c.val = false) ∧
    (∃ (c : Fin 1024) (now : Nat) (s : State), Managed s ∧ tenantLive s c.val = true) ∧
    (∃ (c : Fin 1024) (now : Nat) (s : State), Running s ∧ (tenant s c.val).st = .revoking ∧ outstandingSum s c.val = 0) ∧
    (∃ (c : Fin 1024) (now q : Nat) (s : State), Running s ∧ (tenant s c.val).st = .revoking ∧ (tenant s c.val).alerted = false ∧ (tenant s c.val).removedAt + 10000000 ≤ max s.time now ∧ allBlocks.filter (fun b => decide (outstanding s c.val b.1 b.2 ≠ 0)) = [(1, q)]) ∧
    (∃ (c : Fin 1024) (now : Nat) (s : State), Running s ∧ (tenant s c.val).st = .scrubbing ∧ extentsOf s c.val = []) :=
  ⟨⟨5, true, 90, .reset, by decide +kernel⟩,
   ⟨1, 90, setExtent 1 { st := .active, tenant := 1, blocks := [0], swept := 7 } wBase, by decide +kernel⟩,
   ⟨1, setExtent 1 { st := .active, tenant := 1, blocks := [0], sweep := [0] } { wBase with sec := { wBase.sec with tenants := [(1, { st := .rekeying })] } }, by decide +kernel⟩,
   ⟨1, 90, setExtent 1 { st := .active, tenant := 1, blocks := [0], sweep := [0], swept := 16384 } { wBase with sec := { wBase.sec with tenants := [(1, { st := .rekeying, epoch := 3 })] } }, by decide +kernel⟩,
   ⟨1, { wBase with sec := { wBase.sec with tenants := [(1, { st := .active, epoch := 3, slotEven := .revoking, slotOdd := .active })] } }, by decide +kernel⟩,
   ⟨1, 90, wQueue [{ slot := 0, bytes := wDesc 1 [], started := true }], by decide +kernel⟩,
   ⟨1, 90, { wBase with sec := { wBase.sec with tenants := [(1, { st := .revoking, slotEven := .revoking })], sealeds := [(1, { contentKey := some [7] })] } }, by decide +kernel⟩,
   ⟨1, 10000090, 0, let s := wQueue [{ slot := 0, bytes := wDesc 1 [], started := true }]; { s with sec := { s.sec with tenants := [(1, { st := .revoking, removedAt := 90 })] } }, by decide +kernel⟩,
   ⟨1, 90, let s := wQueue []; { s with sec := { s.sec with tenants := [(1, { st := .scrubbing })] }, pool := { s.pool with extents := [] } }, by decide +kernel⟩⟩

theorem witness_FenceCommandsComplete :
    (∃ (i : Fin 6) (now : Nat) (s : State), Running s ∧ tget false s.fen.straitLost i.val = false ∧ s.fen.anchor ≠ none ∧ outside { s with fen := { s.fen with straitLost := tput false s.fen.straitLost i.val true } } = []) ∧
    (∃ (i : Fin 6) (now q : Nat) (s : State), Running s ∧ tget false s.fen.straitLost i.val = false ∧ s.fen.anchor ≠ none ∧ q ∈ outside { s with fen := { s.fen with straitLost := tput false s.fen.straitLost i.val true } }) ∧
    (∃ (i : Fin 6) (now : Nat) (s : State), Running s ∧ tget false s.fen.straitLost i.val = true) ∧
    (∃ (now a : Nat) (s : State), Running s ∧ a < 4 ∧ fenceCode s a = .anchor) ∧
    (∃ (now : Nat) (s : State), Running s ∧ ((∀ q, q < 4 → fenceCode s q ≠ .anchor)) ∧ mayFailOver s = false) ∧
    (∃ (now : Nat) (s : State), Running s ∧ mayFailOver s = true) ∧
    (∃ (n : Fin 160) (now : Nat) (s : State), Running s) ∧
    (∃ (n : Fin 160) (c : Fin 6) (now : Nat) (s : State), Running s ∧ c.val ≠ 0 ∧ ((c.val = 4 → anchorServes s = true)) ∧ tget 0 s.fen.coreCause n.val = 0) ∧
    (∃ (n : Fin 160) (e : Fin 5) (now : Nat) (s : State), Running s ∧ tget [] (coreOf s n.val).engines e.val ≠ [] ∧ tget 0 (coreOf s n.val).busyAt e.val + 1000000 ≤ max s.time now ∧ tget 0 s.fen.coreCause n.val = 0) ∧
    (∃ (q : Fin 4) (now : Nat) (s : State), Managed s ∧ (quad s q.val).faultFenced = false) ∧
    (∃ (e : Fin 16) (now : Nat) (s : State), Managed s ∧ tget false s.fen.fencedOe e.val = false) ∧
    (∃ (p : Fin 4) (now : Nat) (s : State), Managed s ∧ tget false s.fen.fencedCxl p.val = false) ∧
    (∃ (k : Fin 4) (n : Nat) (s : State), Managed s ∧ (k.val, n) ∈ s.fen.repair) ∧
    (∃ (q : Fin 4) (now : Nat) (s : State), Running s ∧ (quad s q.val).positionFenced = true ∧ s.fen.anchor ≠ none ∧ (quad s q.val).island ≠ [] ∧ (∀ p ∈ (quad s q.val).island, p ∈ straitReach s ((anchorSeat s).getD 0))) :=
  ⟨⟨2, 90, .reset, by decide +kernel⟩,
   ⟨0, 90, 1, { wBase with fen := { wBase.fen with straitLost := [(3, true), (4, true)] } }, by decide +kernel⟩,
   ⟨2, 90, { State.reset with fen := { State.reset.fen with straitLost := [(2, true)] } }, by decide +kernel⟩,
   ⟨90, 0, .reset, by decide +kernel⟩,
   ⟨90, { State.reset with fen := { State.reset.fen with anchor := none } }, by decide +kernel⟩,
   ⟨90, setQuad 0 { faultFenced := true } { State.reset with sec := { State.reset.sec with sessions := [(1, some { role := none, start := 0, last := 0, port := 0 }), (2, some { role := none, start := 0, last := 0, port := 1 })] } }, by decide +kernel⟩,
   ⟨3, 90, .reset, by decide +kernel⟩,
   ⟨3, 4, 90, wCore (wOp 3 0 0 0 0 0 0 0 0), by decide +kernel⟩,
   ⟨3, 1, 1000000, setCore 3 { coreOf .reset 3 with engines := [(1, [{ ctx := 0, count := 1, rows := 1, signal := none }])] } .reset, by decide +kernel⟩,
   ⟨1, 90, wLink, by decide +kernel⟩,
   ⟨2, 90, setPort 9 { st := .up } .reset, by decide +kernel⟩,
   ⟨0, 90, wLink, by decide +kernel⟩,
   ⟨0, 3, { State.reset with fen := { State.reset.fen with repair := [(0, 3)] } }, by decide +kernel⟩,
   ⟨1, 90, { (setQuad 1 { positionFenced := true, island := [1] } .reset) with fen := { (setQuad 1 { positionFenced := true, island := [1] } .reset).fen with coreCause := [(41, 7), (42, 4)] } }, by decide +kernel⟩⟩

theorem witness_PairCommandsComplete :
    (∃ (g0 g1 g2 g3 : Fin 4096) (s : State), Managed s ∧ s.pair.st = .solo ∧ s.sec.pairCapable = true ∧ pairPortsOk s = true) ∧
    (∃ (g0 g1 g2 g3 : Fin 4096) (s : State), Managed s ∧ s.pair.st ≠ .solo) ∧
    (∃ (s : State), Managed s) ∧
    (∃ (now : Nat) (s : State), Managed s ∧ s.pair.st = .waiting) ∧
    (∃ (now : Nat) (s : State), Managed s ∧ (s.pair.st = .passive ∨ s.pair.st = .suspect) ∧ s.pair.partner = .absent) ∧
    (∃ (now : Nat) (s : State), Managed s ∧ (s.pair.st = .standbySync ∨ s.pair.st = .suspect ∨ s.pair.st = .passive) ∧ s.pair.partner = .hz4096) ∧
    (∃ (x : Pattern) (now : Nat) (s : State), Running s) ∧
    (∃ (now : Nat) (s : State), Running s) ∧
    (∃ (now : Nat) (s : State), Running s ∧ s.pair.st = .active) ∧
    (∃ (now : Nat) (s : State), Running s ∧ s.pair.st = .waiting ∧ pairUp s = true) ∧
    (∃ (now : Nat) (s : State), Running s ∧ s.pair.st = .standby ∧ s.pair.lastRecv + 10000000 ≤ max s.time now) ∧
    (∃ (now : Nat) (s : State), Running s ∧ s.pair.st = .standby ∧ max s.time now < s.pair.lastRecv + 10000000) ∧
    (∃ (now : Nat) (s : State), Running s ∧ s.pair.st ≠ .solo) ∧
    (∃ (now : Nat) (s : State), Running s ∧ s.pair.st = .waiting ∧ s.pair.partner ≠ .hz4096 ∧ (s.pair.memoryCurrent = true ∨ s.pair.lead = true) ∧ max s.pair.stateTime s.pair.partnerActiveAt + (if s.sec.side then 20000000 else 10000000) ≤ max s.time now) ∧
    (∃ (now : Nat) (s : State), Running s ∧ s.pair.st = .active ∧ s.pair.gateOpen = false ∧ s.pair.driveActive + 1000000 ≤ max s.time now) ∧
    (∃ (now : Nat) (s : State), Running s ∧ s.pair.st = .standby ∧ s.pair.lastRecv + 10000000 ≤ max s.time now ∧ s.pair.partner = .hz4096) ∧
    (∃ (now : Nat) (s : State), Running s ∧ s.pair.st = .standby ∧ s.pair.lastRecv + 10000000 ≤ max s.time now ∧ s.pair.partner = .absent) :=
  ⟨⟨1, 2, 3, 4, { wPair .solo with sec := { wBase.sec with pairCapable := true } }, by decide +kernel⟩,
   ⟨1, 2, 3, 4, wPair .waiting, by decide +kernel⟩,
   ⟨wPair .passive, by decide +kernel⟩,
   ⟨90, wPair .waiting, by decide +kernel⟩,
   ⟨90, wPair .suspect, by decide +kernel⟩,
   ⟨90, { wPair .passive with pair := { (wPair .passive).pair with partner := .hz4096, mark := 7 } }, by decide +kernel⟩,
   ⟨.hz4096, 90, wPair .active, by decide +kernel⟩,
   ⟨90, wPair .active, by decide +kernel⟩,
   ⟨90, wPair .active, by decide +kernel⟩,
   ⟨90, wPair .waiting, by decide +kernel⟩,
   ⟨10000000, wPair .standby, by decide +kernel⟩,
   ⟨10000000, { wPair .standby with pair := { (wPair .standby).pair with lastRecv := 5 } }, by decide +kernel⟩,
   ⟨90, wPair .active, by decide +kernel⟩,
   ⟨20000000, { wPair .waiting with pair := { (wPair .waiting).pair with lead := true } }, by decide +kernel⟩,
   ⟨1000000, { wPair .active with pair := { (wPair .active).pair with gateOpen := false } }, by decide +kernel⟩,
   ⟨10000000, { wPair .standby with pair := { (wPair .standby).pair with partner := .hz4096 } }, by decide +kernel⟩,
   ⟨10000000, wPair .standby, by decide +kernel⟩⟩

theorem witness_ResilverCommandsComplete :
    (∃ (now : Nat) (s : State), Running s ∧ s.pair.st = .active ∧ s.pair.follower ≠ 0 ∧ s.pair.lastSent + 10000 ≤ max s.time now) ∧
    (∃ (n : Fin 64) (p : Packet) (tm l : Nat) (d : List Byte) (s : State), Running s ∧ PairPasses n.val p 0x50 s = true ∧ s.pair.st = .standby ∧ s.pair.recs = [] ∧ s.mem.migs = [] ∧ (s.mem.stk.all (fun c => c.2.failedPcs.isEmpty)) = true) ∧
    (∃ (n : Fin 64) (p : Packet) (s : State), Running s ∧ PairPasses n.val p 0x51 s = true ∧ s.pair.st = .active ∧ p.arg0.toNat ≠ 0 ∧ s.pair.snapshotAt = none ∧ s.pair.early = []) ∧
    (∃ (n : Fin 64) (p : Packet) (s : State), Running s ∧ PairPasses n.val p 0x51 s = true ∧ s.pair.st = .active ∧ s.pair.partner = .hz1024 ∧ p.arg0 = 0 ∧ leAt p.payload 8 8 = 0) ∧
    (∃ (n : Fin 64) (p : Packet) (r : Nat) (s : State), Running s ∧ PairPasses n.val p 0x51 s = true ∧ s.pair.st = .active ∧ s.pair.snapshotAt = some r ∧ r ≤ min s.pair.sent (max s.pair.acked p.arg0.toNat) ∧ leAt p.payload 8 8 ≠ 0 ∧ s.pair.early = []) ∧
    (∃ (n : Fin 64) (p : Packet) (ls : List Nat) (bad : Bool) (u : DigestUnit) (s : State), Running s ∧ PairPasses n.val p 0x52 s = true ∧ s.pair.st = .active ∧ s.pair.follower = 2 ∧ s.pair.units = [u] ∧ u.q = leAt p.payload 0 8 ∧ u.unit = leAt p.payload 8 8 ∧ u.crc = leAt p.payload 16 8 ∧ s.que.unverified = []) ∧
    (∃ (n : Fin 64) (p : Packet) (ls : List Nat) (u : DigestUnit) (s : State), Running s ∧ PairPasses n.val p 0x52 s = true ∧ s.pair.st = .active ∧ s.pair.follower = 2 ∧ s.pair.units = [u] ∧ u.q = leAt p.payload 0 8 ∧ u.unit = leAt p.payload 8 8 ∧ u.crc ≠ leAt p.payload 16 8 ∧ ownBad s ls = false ∧ s.que.unverified = []) ∧
    (∃ (now : Nat) (s : State), Running s ∧ s.pair.st = .active ∧ s.pair.follower = 2 ∧ s.pair.early = [] ∧ s.que.unverified = [] ∧ s.pair.units.any (fun u => decide (u.time + 100000 < max s.time now)) = true) ∧
    (∃ (n : Fin 64) (p : Packet) (q : Nat) (k : Nat × Packet) (s : State), Running s ∧ PairPasses n.val p 0x53 s = true ∧ s.pair.st = .active ∧ s.pair.kept = [k] ∧ pairLink s = some q ∧ isInput (p.arg0.toNat / 2 ^ 24 % 2 ^ 16) (p.arg0.toNat / 2 ^ 40 % 8) (p.arg0.toNat % 2 ^ 24) k.2 = true) ∧
    (∃ (n : Fin 64) (p x : Packet) (m : Fin 64) (s : State), Running s ∧ PairPasses n.val p 0x54 s = true ∧ (s.pair.st = .standby ∨ s.pair.st = .standbySync) ∧ s.pair.recs = [] ∧ s.pair.inputs.any (fun y => y.2.src == x.src && y.2.vc == x.vc && y.2.seq == x.seq) = false) ∧
    (∃ (n : Fin 64) (p : Packet) (s : State), Running s ∧ PairPasses n.val p 0x57 s = true ∧ p.payload.length = 64 ∧ p.arg0.toNat / 64 < gradeBlocks s.grade * 4194304 ∧ tget false s.mem.poison (p.arg0.toNat / 64) = true ∧ s.mem.migs = [] ∧ (s.mem.stk.all (fun c => c.2.failedPcs.isEmpty)) = true) ∧
    (∃ (now g : Nat) (s : State), Running s ∧ s.pair.st = .active ∧ s.pair.follower = 1 ∧ s.pair.copying = true ∧ s.pair.snapshotDue = false ∧ s.pair.dirty = [] ∧ nextGranule s s.pair.mark = some g ∧ s.mem.merge = [] ∧ s.mem.lineErr = [] ∧ s.mem.poison = [] ∧ s.mem.tags = [] ∧ (s.mem.stk.all (fun c => c.2.failedPcs.isEmpty)) = true) ∧
    (∃ (n : Fin 64) (p : Packet) (s : State), PairPasses n.val p 0x55 s = true ∧ Running s ∧ s.pair.st = .standbySync ∧ p.payload.length = 4096 ∧ p.arg0.toNat / 16384 < gradeBlocks s.grade * 16384 ∧ s.pair.chunks = [] ∧ s.mem.migs = [] ∧ (s.mem.stk.all (fun c => c.2.failedPcs.isEmpty)) = true) ∧
    (∃ (now : Nat) (s : State), Running s ∧ s.pair.st = .active ∧ s.pair.follower = 1 ∧ s.pair.copying = true ∧ s.pair.dirty = [] ∧ s.pair.inTransit = [] ∧ s.pair.snapshotAt = none ∧ nextGranule s s.pair.mark = none ∧ runningJobs s = []) ∧
    (∃ (n : Fin 64) (p : Packet) (x : Snapshot) (tm : Nat) (s : State), Running s ∧ PairPasses n.val p 0x56 s = true ∧ s.pair.st = .standbySync ∧ s.pair.recs = [(s.pair.applied + 1, tm, .snapshot)]) :=
  ⟨⟨90000, { wDark .active with pair := { (wPair .active).pair with follower := 2, sent := 4 } }, by decide +kernel⟩,
   ⟨0, wPairPkt 0x50 4 5 0 [], 90, 3, List.replicate 64 7, { wPair .standby with pair := { (wPair .standby).pair with applied := 4 } }, by decide +kernel⟩,
   ⟨0, wPairPkt 0x51 6 3 0 [], { wPair .active with pair := { (wPair .active).pair with follower := 2, sent := 4 } }, by decide +kernel⟩,
   ⟨0, wPairPkt 0x51 6 0 0 [5], { wDark .active with pair := { (wPair .active).pair with partner := .hz1024, dirty := [9] } }, by decide +kernel⟩,
   ⟨0, wPairPkt 0x51 6 4 0 (leBytes 8 5 ++ leBytes 8 1), 3, { wPair .active with pair := { (wPair .active).pair with follower := 1, sent := 4, snapshotAt := some 3, copying := true } }, by decide +kernel⟩,
   ⟨0, wPairPkt 0x52 6 3 0 (leBytes 8 1 ++ leBytes 8 3 ++ leBytes 8 99), [], false, { q := 1, unit := 3, crc := 99, time := 0 }, { wPair .active with pair := { (wPair .active).pair with follower := 2, units := [{ q := 1, unit := 3, crc := 99, time := 0 }] } }, by decide +kernel⟩,
   ⟨0, wPairPkt 0x52 6 3 0 (leBytes 8 1 ++ leBytes 8 3 ++ leBytes 8 98), [], { q := 1, unit := 3, crc := 99, time := 0 }, { wDark .active with pair := { (wPair .active).pair with follower := 2, units := [{ q := 1, unit := 3, crc := 99, time := 0 }] } }, by decide +kernel⟩,
   ⟨100001, { wDark .active with pair := { (wPair .active).pair with follower := 2, units := [{ q := 1, unit := 3, crc := 99, time := 0 }] } }, by decide +kernel⟩,
   ⟨0, wPairPkt 0x53 6 0x60007000009 0 [], 0, (4, { wPkt 0x30 6 64 [] with seq := 9 }), { wPair .active with pair := { (wPair .active).pair with kept := [(4, { wPkt 0x30 6 64 [] with seq := 9 })] } }, by decide +kernel⟩,
   ⟨0, wPairPkt 0x54 4 0 0 [], wPkt 0x30 4 64 [], 5, wPair .standby, by decide +kernel⟩,
   ⟨0, wPairPkt 0x57 4 192 0 (List.replicate 64 7), { wPair .active with mem := { (wPair .active).mem with poison := [(3, true)] } }, by decide +kernel⟩,
   ⟨90, 3, { wPair .active with mem := { (wPair .active).mem with blocks := [(0, { valid := true })] }, pair := { (wPair .active).pair with follower := 1, copying := true, mark := 3 } }, by decide +kernel⟩,
   ⟨0, wPairPkt 0x55 4 49152 2 (List.replicate 4096 7), wPair .standbySync, by simp only [PairPasses, wPairPkt_crcOk, Bool.and_true]; decide +kernel, by decide +kernel⟩,
   ⟨90, { wDark .active with pair := { (wPair .active).pair with follower := 1, copying := true, sent := 4, mark := 134217728 } }, by decide +kernel⟩,
   ⟨0, wPairPkt 0x56 4 0 0 [], {}, 90, { wPair .standbySync with pair := { (wPair .standbySync).pair with applied := 4, recs := [(5, 90, .snapshot)] } }, by decide +kernel⟩⟩

theorem witness_ClockCommandsComplete :
    (∃ (q : Fin 4) (now : Nat) (s : State), Running s) ∧
    (∃ (q : Fin 4) (now : Nat) (s : State), Running s) ∧
    (∃ (now : Nat) (s : State), Running s) ∧
    (∃ (q : Fin 4) (now : Nat) (s : State), Running s ∧ (qclock s q.val).pllLock = true) ∧
    (∃ (q : Fin 4) (g : Fin 64) (idle : Bool) (s : State), Running s ∧ ((∀ h ∈ allGates, gateParent h = some g.val → gateClosed s q.val h = true)) ∧ gateIdle s q.val g.val idle = true) ∧
    (∃ (q : Fin 4) (g : Fin 64) (idle : Bool) (h : Nat) (s : State), Running s ∧ h ∈ allGates ∧ gateParent h = some g.val ∧ gateClosed s q.val h = false) ∧
    (∃ (q : Fin 4) (g : Fin 64) (s : State), Running s) ∧
    (∃ (s : State), s.clk.aonOscOk = false ∧ s.clk.phase ≠ .dead ∧ s.clk.aonClkLost = false) ∧
    (∃ (s : State), s.clk.aonOscOk = false ∧ (s.clk.phase = .inReset ∨ s.clk.phase = .starting)) ∧
    (∃ (now : Nat) (s : State), Running s ∧ s.clk.aonOscOk = true) ∧
    (∃ (s : State), s.clk.aonOscOk = true ∧ railGone s 0 = false) ∧
    (∃ (now : Nat) (s : State), Running s) ∧
    (∃ (now : Nat) (s : State), Running s) ∧
    (∃ (now : Nat) (s : State), s.clk.phase = .dormant) ∧
    (∃ (ticks : Nat) (s : State), railGone s 1 = true ∧ s.clk.wakePending = false) ∧
    (∃ (ticks : Nat) (s : State), railGone s 0 = true ∧ s.clk.wakePending = false ∧ s.clk.phase = .inReset) ∧
    (∃ (ticks : Nat) (s : State), s.clk.phase = .dormant ∧ railGone s 0 = false ∧ railGone s 2 = false ∧ s.clk.coldNext = false) ∧
    (∃ (q : Fin 4) (now : Nat) (s : State), Running s ∧ (quad s q.val).faultFenced = false) :=
  ⟨⟨1, 90, .reset, by decide +kernel⟩,
   ⟨1, 90, wLink, by decide +kernel⟩,
   ⟨90, wLink, by decide +kernel⟩,
   ⟨1, 90, { State.reset with clk := { State.reset.clk with q := [(1, { pllLock := true, divUncore := 20, divControl := 16 })] } }, by decide +kernel⟩,
   ⟨1, 48, true, .reset, by decide +kernel⟩,
   ⟨1, 0, true, 1, .reset, by decide +kernel⟩,
   ⟨1, 9, { State.reset with clk := { State.reset.clk with q := [(1, { closed := [(0, true), (1, true), (9, true), (10, true)] })] } }, by decide +kernel⟩,
   ⟨{ State.reset with clk := { State.reset.clk with phase := .inReset, flashHours := 7, flashCycles := 3 } }, by decide +kernel⟩,
   ⟨{ State.reset with clk := { State.reset.clk with phase := .inReset } }, by decide +kernel⟩,
   ⟨90, { wPair .active with clk := { (wPair .active).clk with aonOscOk := true } }, by decide +kernel⟩,
   ⟨{ State.reset with clk := { State.reset.clk with aonOscOk := true, operatingHours := 9 } }, by decide +kernel⟩,
   ⟨90, wLink, by decide +kernel⟩,
   ⟨90, wLink, by decide +kernel⟩,
   ⟨90, { State.reset with clk := { State.reset.clk with phase := .dormant, memoryKept := true } }, by decide +kernel⟩,
   ⟨500, { State.reset with clk := { State.reset.clk with phase := .inReset, railLost := [(1, true)], cmpSupply := false } }, by decide +kernel⟩,
   ⟨500, { State.reset with clk := { State.reset.clk with phase := .inReset, railLost := [(0, true)], powerCycles := 4 } }, by decide +kernel⟩,
   ⟨40000, { State.reset with clk := { State.reset.clk with phase := .dormant, dormantN := true, holdTime := 100, holdTicks := 7232, memoryKept := true } }, by decide +kernel⟩,
   ⟨1, 90, .reset, by decide +kernel⟩⟩

theorem witness_ResetCommandsComplete :
    (∃ (c : Fin 4) (now : Nat) (s : State), s.clk.phase ≠ .tripped ∧ s.clk.phase ≠ .dead ∧ s.sch.actState = 0) ∧
    (∃ (now : Nat) (s : State), Managed s ∧ s.sch.actState = 0) ∧
    (∃ (f : Bool) (now : Nat) (s : State), Running s ∧ s.clk.phase = .released ∧ s.que.jobs = [] ∧ s.mem.merge = [] ∧ ((∀ p, p < 4 → (cxlPort s p).linkState ≠ 2)) ∧ (∀ c ∈ s.dir.lines, c.2.queue = [])) ∧
    (∃ (now : Nat) (s : State), Managed s ∧ s.clk.phase = .released) ∧
    (∃ (now : Nat) (s : State), Running s) ∧
    (∃ (now : Nat) (s : State), Running s ∧ s.clk.phase = .released ∧ s.clk.watchdogAt + 10000000000 ≤ max s.time now) ∧
    (∃ (ticks : Nat) (s : State), s.clk.phase = .inReset ∧ s.clk.resetCold = true ∧ s.clk.aonOscOk = true ∧ ((∀ r, r < 5 → railGone s r = false))) ∧
    (∃ (ticks : Nat) (s : State), s.clk.phase = .inReset ∧ s.clk.resetCold = false) ∧
    (∃ (l : List (Fin 4)) (s : State), s.clk.phase = .starting ∧ s.clk.trained = false) ∧
    (∃ (s : State), s.clk.phase = .starting ∧ s.clk.trained = true ∧ s.mem.fillDone = false) ∧
    (∃ (a b c : BitVec 2) (x y : Option (Nat × BitVec 384)) (r : List Byte) (ok : Bool) (now l : Nat) (d : BitVec 384) (s : State), s.sec.keysZeroised = false ∧ s.clk.phase = .starting ∧ a &&& flashReached s ≠ 0 ∧ b &&& flashReached s ≠ 0 ∧ tget none s.sec.slots s.sec.selector = some (l, d) ∧ s.sec.selector ≤ 1) ∧
    (∃ (now : Nat) (s : State), Running s ∧ mayRelease s = true ∧ s.fen.unfenced = [] ∧ twf {} s.fen.quads = true) ∧
    (∃ (now : Nat) (s : State), Managed s ∧ s.clk.phase = .released ∧ mayRest s = true) ∧
    (∃ (now : Nat) (s : State), Managed s ∧ (s.clk.phase ≠ .released ∨ mayRest s = false)) :=
  ⟨⟨1, 90, wQueue [], by decide +kernel⟩,
   ⟨90, wQueue [], by decide +kernel⟩,
   ⟨true, 90, let s := wBase; { s with clk := { s.clk with phase := .released }, mem := { s.mem with bytes := [(5, 7)] } }, by decide +kernel⟩,
   ⟨90, let s := wQueue []; { s with clk := { s.clk with phase := .released } }, by decide +kernel⟩,
   ⟨90, .reset, by decide +kernel⟩,
   ⟨10000000000, let s := wQueue []; { s with clk := { s.clk with phase := .released } }, by decide +kernel⟩,
   ⟨500, { State.reset with clk := { State.reset.clk with phase := .inReset, aonOscOk := true } }, by decide +kernel⟩,
   ⟨40000, { State.reset with clk := { State.reset.clk with phase := .inReset, resetCold := false, holdTime := 100, holdTicks := 7232 } }, by decide +kernel⟩,
   ⟨[0, 1, 3], .reset, by decide +kernel⟩,
   ⟨{ State.reset with clk := { State.reset.clk with trained := true }, mem := { State.reset.mem with bytes := [(5, 7)], poison := [(3, true)] } }, by decide +kernel⟩,
   ⟨1, 2, 3, none, none, [], true, 90, 5, 77, { State.reset with sec := { State.reset.sec with slots := [(0, some (5, 77))] } }, by decide +kernel⟩,
   ⟨90, { State.reset with clk := { State.reset.clk with firmwareOk := true, bcrOk := true, trained := true, q := [(0, { pllLock := true }), (1, { pllLock := true }), (2, { pllLock := true }), (3, { pllLock := true })] }, mem := { State.reset.mem with fillDone := true } }, by decide +kernel⟩,
   ⟨90, { State.reset with clk := { State.reset.clk with phase := .released } }, by decide +kernel⟩,
   ⟨90, wQueue [{ slot := 0, bytes := wDesc 1 [], started := true }], by decide +kernel⟩⟩

theorem witness_ObserveCommandsComplete :
    (∃ (f : Fin 16) (n : Fin 64) (who : Nat) (s : State), Managed s ∧ n.val < rowInstances f.val ∧ f.val ≠ cUtil) ∧
    (∃ (n : Fin 64) (who : Nat) (s : State), Managed s ∧ n.val < 4) ∧
    (∃ (use : List Nat) (now m v : Nat) (s : State), Running s ∧ m < 24 ∧ v = min (metricNow (advance now s) use m) 65535) ∧
    (∃ (now : Nat) (s : State), Running s ∧ s.obs.periodAt + periodNs s ≤ max s.time now ∧ s.obs.clearing = false ∧ s.obs.full = false ∧ writePtr s ≤ 1000000) ∧
    (∃ (d : BitVec 384) (now : Nat) (s : State), Managed s ∧ s.obs.clearing = false) ∧
    (∃ (now : Nat) (s : State), Running s ∧ s.obs.clearing = true) ∧
    (∃ (off len : Nat) (s : State), Managed s ∧ len ≤ 65536) ∧
    (∃ (d : Fin 64) (on : Bool) (who : Nat) (s : State), Managed s) ∧
    (∃ (m : BitVec 11) (s : State), Managed s) ∧
    (∃ (k : Fin 16) (g q : Fin 4) (i : Fin 4096) (c : Bool) (s : State), Managed s ∧ (g.val ≠ 3 ∨ keysLive s = false)) ∧
    (∃ (k : Fin 16) (q : Fin 4) (i : Fin 4096) (s : State), Managed s ∧ keysLive s = true) ∧
    (∃ (now : Nat) (s : State), (s.clk.phase = .released ∨ s.clk.phase = .starting)) ∧
    (∃ (s : State), ((s.clk.phase = .inReset ∧ s.clk.resetCold = true) ∨ s.clk.phase = .frozen)) ∧
    (∃ (q : Fin 4) (s : State), s.clk.phase = .frozen) ∧
    (∃ (q : Fin 4) (s : State), s.clk.phase ≠ .inReset ∧ s.clk.phase ≠ .frozen) ∧
    (∃ (d : Fin 64) (v : BitVec 64) (s : State), Running s ∧ s.obs.windowLd.getLsbD d.val = true ∧ writesIgnored s d.val = false) :=
  ⟨⟨9, 0, 77, { State.reset with cnt := [(cntKey 9 0 5, 3), (cntKey 9 1 5, 4)] }, by decide +kernel⟩,
   ⟨2, 77, { State.reset with cnt := [(cntKey 13 2 10, 3)] }, by decide +kernel⟩,
   ⟨[1, 2, 3, 4, 5], 90, 17, 1, { State.reset with cnt := [(cntKey 13 0 10, 3)] }, by decide +kernel⟩,
   ⟨3600000000000, { State.reset with obs := { State.reset.obs with buckets := [(3, 4)] } }, by decide +kernel⟩,
   ⟨77, 90, .reset, by decide +kernel⟩,
   ⟨90, { State.reset with obs := { State.reset.obs with clearing := true, clearBody := [7], staging := [{ kind := 3, flags := 0, seq := 0, time := 5, hours := 0, cycles := 0, subject := 2, body := [1] }] } }, by decide +kernel⟩,
   ⟨16, 40, { State.reset with obs := { State.reset.obs with log := [{ kind := 3, flags := 0, seq := 0, time := 5, hours := 0, cycles := 0, subject := 2, body := [1] }] } }, by decide +kernel⟩,
   ⟨5, true, 77, .reset, by decide +kernel⟩,
   ⟨90, .reset, by decide +kernel⟩,
   ⟨3, 2, 1, 9, false, wBase, by decide +kernel⟩,
   ⟨3, 1, 9, { wBase with sec := { wBase.sec with tenants := [(1, { st := .active, slotEven := .active })] } }, by decide +kernel⟩,
   ⟨90, wCore (wOp 3 0 0 0 0 0 0 0 0), by decide +kernel⟩,
   ⟨{ State.reset with clk := { State.reset.clk with phase := .inReset } }, by decide +kernel⟩,
   ⟨2, { State.reset with clk := { State.reset.clk with phase := .frozen } }, by decide +kernel⟩,
   ⟨2, .reset, by decide +kernel⟩,
   ⟨2, 0x60, { wHost with obs := { wHost.obs with windowLd := 4 } }, by decide +kernel⟩⟩

theorem witness_RegisterCommandsComplete :
    (∃ (a : RegAccess) (o v : Nat) (sc : Scope) (s : State), Reached a s ∧ a.place = .bar0 o ∧ a.write = none ∧ a.size = 8 ∧ o % 8 = 0 ∧ isComp o = false ∧ isMsix o = false ∧ isPba o = false ∧ regAt s a.ld.val o = some (sc, v)) ∧
    (∃ (a : RegAccess) (o v : Nat) (sc : Scope) (s : State), Reached a s ∧ a.place = .bar0 o ∧ a.write = none ∧ a.size = 4 ∧ o % 4 = 0 ∧ isComp (o / 8 * 8) = false ∧ isMsix (o / 8 * 8) = false ∧ isPba (o / 8 * 8) = false ∧ regAt s a.ld.val (o / 8 * 8) = some (sc, v) ∧ mayRead s a sc = true) ∧
    (∃ (a : RegAccess) (o : Nat) (s : State), Reached a s ∧ a.place = .bar0 o ∧ a.write = none ∧ a.size = 8 ∧ o % 8 = 0 ∧ isComp o = false ∧ isMsix o = false ∧ isPba o = false ∧ regAt s a.ld.val o = none) ∧
    (∃ (a : RegAccess) (o : Nat) (s : State), Running s ∧ a.place = .bar0 o ∧ a.write = none ∧ a.mgmt = false ∧ readFits o a.size = false) ∧
    (∃ (a : RegAccess) (o : Nat) (v : BitVec 64) (s : State), Running s ∧ a.place = .bar0 o ∧ a.write = some v ∧ a.mgmt = false ∧ writesIgnored s a.ld.val = false ∧ (a.size ≠ 8 ∨ o % 8 ≠ 0)) ∧
    (∃ (a : RegAccess) (o x : Nat) (v : BitVec 64) (sc : Scope) (s : State), (∀ g, sc ≠ .owner g) ∧ Running s ∧ a.place = .bar0 o ∧ a.write = some v ∧ a.mgmt = false ∧ writesIgnored s a.ld.val = false ∧ a.size = 8 ∧ o % 8 = 0 ∧ isComp o = false ∧ isMsix o = false ∧ regAt s a.ld.val o = some (sc, x) ∧ mayWrite s a sc o = false) ∧
    (∃ (a : RegAccess) (v : BitVec 64) (s : State), Reached a s ∧ a.place = .bar0 0xA010 ∧ a.write = some v ∧ a.size = 8 ∧ writesIgnored s a.ld.val = false) ∧
    (∃ (a : RegAccess) (v : BitVec 64) (s : State), Reached a s ∧ a.place = .bar0 0xA0000 ∧ a.write = some v ∧ a.size = 8 ∧ (a.mgmt = true ∨ (s.map.priv.getLsbD a.ld.val = true ∧ writesIgnored s a.ld.val = false))) ∧
    (∃ (a : RegAccess) (n : Fin 8192) (v : BitVec 64) (s : State), Running s ∧ a.place = .bar0 (0x110000 + 64 * n.val) ∧ a.write = some v ∧ a.size = 8 ∧ a.mgmt = false ∧ writesIgnored s a.ld.val = false ∧ ownsGroup s a.ld.val (n.val / 8) = true ∧ (queue s n.val).st = .disabled) ∧
    (∃ (a : RegAccess) (n : Fin 8192) (v : BitVec 64) (s : State), Running s ∧ a.place = .bar0 (0x110000 + 64 * n.val) ∧ a.write = some v ∧ a.size = 8 ∧ a.mgmt = false ∧ writesIgnored s a.ld.val = false ∧ ownsGroup s a.ld.val (n.val / 8) = false) ∧
    (∃ (a : RegAccess) (w : Fin 1024) (v : BitVec 64) (s : State), Running s ∧ a.place = .bar0 (0x80000 + 32 * w.val) ∧ a.write = some v ∧ a.size = 8 ∧ a.mgmt = false ∧ writesIgnored s a.ld.val = false ∧ (logDev s a.ld.val).bound = true ∧ (logDev s a.ld.val).tenant = (window s w.val).tenant ∧ winFree (window s w.val) = true) ∧
    (∃ (a : RegAccess) (w : Fin 1024) (v : BitVec 64) (s : State), Reached a s ∧ a.place = .bar0 (0x831000 + 16 * w.val) ∧ a.write = some v ∧ a.size = 8 ∧ a.mgmt = true ∧ hasHost s (window s w.val).tenant = false ∧ winFree (window s w.val) = true) ∧
    (∃ (a b : RegAccess) (q : Fin 4) (v w : BitVec 64) (s : State), Reached a s ∧ Reached b s ∧ a.place = .bar0 (0x800000 + 0x100000 * q.val) ∧ a.write = some v ∧ a.size = 8 ∧ a.mgmt = true ∧ b.place = .bar0 (0x820000 + 0x100000 * q.val) ∧ b.write = some w ∧ b.size = 8 ∧ b.mgmt = true) ∧
    (∃ (a : RegAccess) (k : Fin 4096) (v : BitVec 64) (s : State), Reached a s ∧ a.place = .bar0 (0x30000 + 8 * k.val) ∧ a.write = some v ∧ a.size = 8 ∧ writesIgnored s a.ld.val = false) ∧
    (∃ (a : RegAccess) (o : Nat) (s : State), Reached a s ∧ a.place = .bar2 o ∧ a.write = none) ∧
    (∃ (a : RegAccess) (o : Nat) (v : BitVec 64) (s : State), Reached a s ∧ a.place = .bar2 o ∧ a.write = some v ∧ (a.size ≠ 8 ∨ o % 8 ≠ 0 ∨ a.mgmt = true ∨ ownsGroup s a.ld.val (o / 64) = false)) ∧
    (∃ (a : RegAccess) (k : Nat) (s : State), Reached a s ∧ a.place = .bar4 (0x100 + k) ∧ a.write = none ∧ a.size = 8 ∧ k % 8 = 0 ∧ k < 1024 ∧ s.obs.windowLd.getLsbD a.ld.val = true) ∧
    (∃ (a : RegAccess) (v : BitVec 64) (s : State), Running s ∧ a.place = .biEnable ∧ a.write = some v ∧ a.mgmt = false ∧ versionOf s a.ld.val = 3) ∧
    (∃ (a : RegAccess) (s : State), Managed s ∧ a.mgmt = true ∧ a.write ≠ none ∧ a.role ≠ .operator) ∧
    (∃ (d : Fin 64) (on : Bool) (s : State), Managed s) :=
  ⟨⟨{ ld := 2, place := .bar0 0xA008 }, 0xA008, 4, .all, { wHost with map := { wHost.map with priv := 4 } }, by decide +kernel⟩,
   ⟨{ ld := 2, place := .bar0 0xA00C, size := 4 }, 0xA00C, 4, .all, { wHost with map := { wHost.map with priv := 4 } }, by decide +kernel⟩,
   ⟨{ ld := 2, place := .bar0 0x80 }, 0x80, wHost, by decide +kernel⟩,
   ⟨{ ld := 2, place := .bar0 0x1234, size := 2 }, 0x1234, wHost, by decide +kernel⟩,
   ⟨{ ld := 2, place := .bar0 0xA0000, size := 4, write := some 7 }, 0xA0000, 7, wHost, by decide +kernel⟩,
   ⟨{ ld := 2, place := .bar0 0xA0000, write := some 7 }, 0xA0000, 1000, 7, .ctrl, wHost, (fun g h => nomatch h), by decide +kernel⟩,
   ⟨{ ld := 2, place := .bar0 0xA010, write := some 1 }, 1, { wHost with map := { wHost.map with badWrite := [(2, true)], badRead := [(2, true)] } }, by decide +kernel⟩,
   ⟨{ ld := 2, place := .bar0 0xA0000, write := some 7 }, 7, { wHost with map := { wHost.map with priv := 4 } }, by decide +kernel⟩,
   ⟨{ ld := 2, place := .bar0 0x110240, write := some 4096 }, 9, 4096, setQueue 9 {} (wQueue []), by decide +kernel⟩,
   ⟨{ ld := 3, place := .bar0 0x110240, write := some 4096 }, 9, 4096, wQueue [], by decide +kernel⟩,
   ⟨{ ld := 2, place := .bar0 0x800A0, write := some 4096 }, 5, 4096, setWindow 5 { tenant := 1 } (wQueue []), by decide +kernel⟩,
   ⟨{ ld := 2, mgmt := true, place := .bar0 0x831050, write := some 0x200900000007 }, 5, 0x200900000007, setWindow 5 { tenant := 2 } (wQueue []), by decide +kernel⟩,
   ⟨{ ld := 2, mgmt := true, place := .bar0 0x900000, write := some 9 }, { ld := 2, mgmt := true, place := .bar0 0x920000, write := some 99 }, 1, 9, 99, wHost, by decide +kernel⟩,
   ⟨{ ld := 2, place := .bar0 0x30018, write := some 77 }, 3, 77, wHost, by decide +kernel⟩,
   ⟨{ ld := 2, place := .bar2 72 }, 72, wHost, by decide +kernel⟩,
   ⟨{ ld := 3, place := .bar2 72, write := some 1 }, 72, 1, wQueue [], by decide +kernel⟩,
   ⟨{ ld := 2, place := .bar4 0x108 }, 8, { wHost with obs := { wHost.obs with windowLd := 4, cursor := [(2, 1)] } }, by decide +kernel⟩,
   ⟨{ ld := 2, place := .biEnable, write := some 1 }, 1, wLink, by decide +kernel⟩,
   ⟨{ ld := 2, mgmt := true, role := .auditor, place := .bar0 0xA0000, write := some 7 }, .reset, by decide +kernel⟩,
   ⟨5, true, .reset, by decide +kernel⟩⟩

theorem witness_TransportCommandsComplete :
    (∃ (n : Fin 64) (p : Packet) (q : Nat) (s : State), Running s ∧ Passes n.val p q s = true ∧ p.typ = 0x41 ∧ tethersOf s (.ep p.src.toNat) ≠ 0 ∧ s.time ≤ leaseEnd (lease s (.ep p.src.toNat))) ∧
    (∃ (n : Fin 64) (p : Packet) (q : Nat) (s : State), Running s ∧ Passes n.val p q s = true ∧ 0x10 ≤ p.typ.toNat ∧ p.typ.toNat ≤ 0x14 ∧ s.e2e.requests = [] ∧ s.e2e.ringWrites = []) ∧
    (∃ (n : Fin 64) (p : Packet) (q : Nat) (r : RingRead) (s : State), Running s ∧ Passes n.val p q s = true ∧ p.typ = 0x10 ∧ p.arg0.toNat % 256 = 0 ∧ 64 ≤ p.payload.length ∧ field p.arg0.toNat 32 3 = 0 ∧ s.e2e.requests = [r] ∧ r.q = q ∧ r.other = p.src.toNat ∧ r.seq = some (field p.arg0.toNat 8 24) ∧ (queue s r.queue).fetching = true ∧ (queue s r.queue).st = .running ∧ (group s (r.queue / 8)).st = .active ∧ (group s (r.queue / 8)).revoking = false) ∧
    (∃ (n : Fin 64) (p : Packet) (q : Nat) (w : RingWrite) (s : State), Running s ∧ Passes n.val p q s = true ∧ p.typ = 0x13 ∧ field p.arg0.toNat 32 3 = 4 ∧ s.e2e.ringWrites = [w] ∧ w.q = q ∧ w.other = p.src.toNat ∧ w.seq = some (field p.arg0.toNat 8 24) ∧ (∀ x ∈ s.que.queues, x.2.extOut = none ∧ x.2.posts = [])) ∧
    (∃ (n : Fin 64) (p : Packet) (q : Nat) (s : State), Running s ∧ Passes n.val p q s = true ∧ (p.typ = 0x20 ∨ p.typ = 0x21) ∧ s.e2e.send = [] ∧ s.fen.fencedBlocks = [] ∧ (∀ c ∈ s.e2e.recv, s.time < c.2.lastArrival + 4000000)) ∧
    (∃ (n : Fin 64) (p : Packet) (q : Nat) (c : SendCtx) (s : State), Running s ∧ PassesPlain n.val p q s = true ∧ p.typ = 0x44 ∧ sendCtx s (ackedFlow s n.val q p) = some c ∧ c.waiting = [] ∧ s.e2e.ringWrites = [] ∧ (∀ d ∈ s.e2e.send, d.2.stall ≠ 2) ∧ (∀ x ∈ s.que.queues, x.2.extOut = none ∧ x.2.posts = [])) ∧
    (∃ (f : Flow) (now n : Nat) (c : RecvCtx) (k : Packet) (d : Nat) (s : State), Running s ∧ recvCtx s (keyOf f) = some c ∧ c.ackDue = some d ∧ f.pair = false ∧ k = stamp (advance now s) { controlPkt s (keyOf f) tAck c.base (c.bits.map (fun i => (i + 2 ^ 24 - c.base) % 2 ^ 24)) with src := BitVec.ofNat 16 (endpointOf s f.q.val), seq := 0, pktCount := 1 } ∧ choosePort s f.q.val k none = some n) ∧
    (∃ (n : Fin 64) (p : Packet) (q : Nat) (c : SendCtx) (s : State), Running s ∧ PassesPlain n.val p q s = true ∧ p.typ = 0x45 ∧ sendCtx s (ackedFlow s n.val q p) = some c) ∧
    (∃ (n : Fin 64) (p : Packet) (q i : Nat) (s : State), Running s ∧ PassesPlain n.val p q s = true ∧ p.typ = 0x45 ∧ (List.range 1024).filter (payBit p) = [i] ∧ heldPkt s (ackedFlow s n.val q p) ((p.arg0.toNat % 2 ^ 24 + i) % 2 ^ 24) = none) ∧
    (∃ (f : Flow) (seq : BitVec 24) (now : Nat) (x : SentPkt) (s : State), Running s ∧ heldPkt s (keyOf f) seq.toNat = some x ∧ x.lastTx + 1000 * resendUs s f.q.val ≤ max s.time now) ∧
    (∃ (f : Flow) (seq : BitVec 24) (now : Nat) (x : SentPkt) (c : SendCtx) (s : State), Running s ∧ heldPkt s (keyOf f) seq.toNat = some x ∧ x.first + 1000 * resendLimitUs s f.q.val ≤ max s.time now ∧ sendCtx s (keyOf f) = some c ∧ c.waiting = [] ∧ (∀ y ∈ c.pkts, y.pkt.typ.toNat ≠ tRdOnce ∧ y.pkt.typ.toNat ≠ tWrPart) ∧ (∀ d ∈ s.e2e.send, d.2.stall ≠ 2)) ∧
    (∃ (f : Flow) (now : Nat) (c : SendCtx) (s : State), Running s ∧ sendCtx s (keyOf f) = some c ∧ c.isOpen = true ∧ c.lastAck + 2000000 ≤ max s.time now ∧ c.waiting = [] ∧ (∀ y ∈ c.pkts, y.pkt.typ.toNat ≠ tRdOnce ∧ y.pkt.typ.toNat ≠ tWrPart) ∧ (∀ d ∈ s.e2e.send, d.2.stall ≠ 2)) ∧
    (∃ (f : Flow) (now : Nat) (c : SendCtx) (s : State), Running s ∧ sendCtx s (keyOf f) = some c ∧ c.isOpen = false ∧ oldestUnacked c = none ∧ c.waiting = [] ∧ c.lastTx + 6000000 ≤ max s.time now ∧ (∀ d ∈ s.e2e.send, d.2.stall ≠ 3)) ∧
    (∃ (f : Flow) (now : Nat) (c : RecvCtx) (s : State), Running s ∧ recvCtx s (keyOf f) = some c ∧ c.lastArrival + 4000000 ≤ max s.time now) ∧
    (∃ (f : Flow) (first : BitVec 24) (now n i : Nat) (l : List Nat) (r : Reasm) (k : Packet) (s : State), Running s ∧ afind s.e2e.reasm (keyOf f, first.toNat) = some r ∧ r.lastReq + 1000 * reasmUs s f.q.val ≤ max s.time now ∧ (List.range r.pktCount).filter (fun j => !(r.got.contains j)) = i :: l ∧ (∀ j ∈ l, j < i + 1024) ∧ f.pair = false ∧ k = stamp (advance now s) { controlPkt s (keyOf f) tResendReq (first.toNat + i) (0 :: l.map (fun j => j - i)) with src := BitVec.ofNat 16 (endpointOf s f.q.val), seq := 0, pktCount := 1 } ∧ choosePort s f.q.val k none = some n) ∧
    (∃ (q : Fin 4) (src : BitVec 16) (tag : BitVec 64) (now : Nat) (r : Retained) (s : State), Running s ∧ afind s.e2e.retained (q.val, src.toNat, tag.toNat) = some r ∧ r.result.isSome = true ∧ r.time + 2000000 ≤ max s.time now) ∧
    (∃ (now u : Nat) (s : State), Running s ∧ s.e2e.quietUntil = some u ∧ u ≤ max s.time now ∧ (∀ c ∈ s.e2e.send, c.2.waiting = [])) ∧
    (∃ (f : Flow) (now : Nat) (c : SendCtx) (p : Packet) (s : State), Running s ∧ s.pair.st = .solo ∧ sendCtx s (keyOf f) = some c ∧ c.waiting = [p] ∧ c.made = true ∧ flowStall (advance now s) (keyOf f) c p = .none_) :=
  ⟨⟨3, wPkt 0x41 6 0 [], 0, { wBase with pool := { wBase.pool with tethers := [{ holder := .ep 7, obj := .extent 1, tenant := 1 }], leases := [(.ep 7, { periodMs := 1000 })] } }, by decide +kernel⟩,
   ⟨3, wPkt 0x13 1 0x0000000000000500 [], 0, wBase, by decide +kernel⟩,
   ⟨3, wPkt 0x10 1 0x0000000000000500 (List.replicate 64 7), 0, { q := 0, other := 7, addr := 64, queue := 9, seq := some 5 }, { wQueue [] with que := { (wQueue []).que with queues := [(9, { st := .running, enable := true, sqTail := 1, stamps := [3], fetching := true })] }, e2e := { requests := [{ q := 0, other := 7, addr := 64, queue := 9, seq := some 5 }] } }, by decide +kernel⟩,
   ⟨3, wPkt 0x13 1 0x0000000400000500 [], 0, { q := 0, other := 7, addr := 64, idx := 0, compl := { queue := 9, slot := 0, tag := 0, status := .ok }, seq := some 5 }, { wBase with e2e := { ringWrites := [{ q := 0, other := 7, addr := 64, idx := 0, compl := { queue := 9, slot := 0, tag := 0, status := .ok }, seq := some 5 }] } }, by decide +kernel⟩,
   ⟨3, wPkt 0x20 2 0x40 [], 0, wBase, by decide +kernel⟩,
   ⟨3, wPkt 0x44 6 0x0000000000000005 (List.replicate 128 0), 0, { isOpen := false, nextSeq := 5, pkts := [{ pkt := { wPkt 0x02 0 0x40 [] with seq := 4 }, first := 0, lastTx := 0 }] }, { wBase with e2e := { send := [({ q := 0, other := 7, vc := 0 }, { isOpen := false, nextSeq := 5, pkts := [{ pkt := { wPkt 0x02 0 0x40 [] with seq := 4 }, first := 0, lastTx := 0 }] })] } }, by decide +kernel⟩,
   ⟨{ q := 0, other := 7, vc := 0 }, 900, 3, { base := 5, bits := [7], lastArrival := 0, ackDue := some 100 }, stamp (advance 900 State.reset) { controlPkt wBase { q := 0, other := 7, vc := 0 } tAck 5 [2] with src := 4, pktCount := 1 }, 100, { wBase with e2e := { recv := [({ q := 0, other := 7, vc := 0 }, { base := 5, bits := [7], lastArrival := 0, ackDue := some 100 })] }, rof := { wBase.rof with route := [(7, 8)], ports := [(3, { st := .up })] } }, by decide +kernel⟩,
   ⟨3, wPkt 0x45 6 5 (leBytes 128 2), 0, { isOpen := true, nextSeq := 7, pkts := [{ pkt := { wPkt 0x02 0 0x40 [] with seq := 6 }, first := 0, lastTx := 0 }] }, { wBase with time := 6000, e2e := { send := [({ q := 0, other := 7, vc := 0 }, { isOpen := true, nextSeq := 7, pkts := [{ pkt := { wPkt 0x02 0 0x40 [] with seq := 6 }, first := 0, lastTx := 0 }] })] } }, by decide +kernel⟩,
   ⟨3, wPkt 0x45 6 5 (leBytes 128 2), 0, 1, wBase, by decide +kernel⟩,
   ⟨{ q := 0, other := 7, vc := 0 }, 6, 900000, { pkt := { wPkt 0x02 0 0x40 [] with seq := 6 }, first := 0, lastTx := 0 }, { wBase with e2e := { send := [({ q := 0, other := 7, vc := 0 }, { isOpen := true, nextSeq := 7, pkts := [{ pkt := { wPkt 0x02 0 0x40 [] with seq := 6 }, first := 0, lastTx := 0 }] })] } }, by decide +kernel⟩,
   ⟨{ q := 0, other := 7, vc := 0 }, 6, 900000, { pkt := { wPkt 0x02 0 0x40 [] with seq := 6 }, first := 0, lastTx := 0 }, { isOpen := true, nextSeq := 7, pkts := [{ pkt := { wPkt 0x02 0 0x40 [] with seq := 6 }, first := 0, lastTx := 0 }] }, { wBase with e2e := { send := [({ q := 0, other := 7, vc := 0 }, { isOpen := true, nextSeq := 7, pkts := [{ pkt := { wPkt 0x02 0 0x40 [] with seq := 6 }, first := 0, lastTx := 0 }] })] } }, by decide +kernel⟩,
   ⟨{ q := 0, other := 7, vc := 0 }, 2000000, { isOpen := true, nextSeq := 7, pkts := [{ pkt := { wPkt 0x02 0 0x40 [] with seq := 6 }, first := 0, lastTx := 0 }] }, { wBase with e2e := { send := [({ q := 0, other := 7, vc := 0 }, { isOpen := true, nextSeq := 7, pkts := [{ pkt := { wPkt 0x02 0 0x40 [] with seq := 6 }, first := 0, lastTx := 0 }] })] } }, by decide +kernel⟩,
   ⟨{ q := 0, other := 7, vc := 0 }, 6000000, { nextSeq := 7 }, { wBase with e2e := { send := [({ q := 0, other := 7, vc := 0 }, { nextSeq := 7 })] } }, by decide +kernel⟩,
   ⟨{ q := 0, other := 7, vc := 0 }, 4000000, { base := 7, lastArrival := 0 }, { wBase with e2e := { recv := [({ q := 0, other := 7, vc := 0 }, { base := 7, lastArrival := 0 })], reasm := [(({ q := 0, other := 7, vc := 0 }, 5), { typ := 2, tenant := 1, keyEpoch := 0, pktCount := 3, got := [0], taken := 0, lastReq := 0, pend := 0 })] } }, by decide +kernel⟩,
   ⟨{ q := 0, other := 7, vc := 0 }, 5, 900000, 3, 1, [2], { typ := 2, tenant := 1, keyEpoch := 0, pktCount := 3, got := [0], taken := 0, lastReq := 0, pend := 0 }, stamp (advance 900000 State.reset) { controlPkt wBase { q := 0, other := 7, vc := 0 } tResendReq 6 [0, 1] with src := 4, pktCount := 1 }, { wBase with e2e := { reasm := [(({ q := 0, other := 7, vc := 0 }, 5), { typ := 2, tenant := 1, keyEpoch := 0, pktCount := 3, got := [0], taken := 0, lastReq := 0, pend := 0 })] }, rof := { wBase.rof with route := [(7, 8)], ports := [(3, { st := .up })] } }, by decide +kernel⟩,
   ⟨0, 7, 9, 2000000, { tenant := 1, pva := 64, op := 0, a := [], c := [], result := some (.ok, []), time := 0 }, { wBase with e2e := { retained := [((0, 7, 9), { tenant := 1, pva := 64, op := 0, a := [], c := [], result := some (.ok, []), time := 0 })] } }, by decide +kernel⟩,
   ⟨6000000, 6000000, { wBase with e2e := { quietUntil := some 6000000, send := [({ q := 0, other := 7, vc := 0 }, { nextSeq := 7 })] } }, by decide +kernel⟩,
   ⟨{ q := 0, other := 7, vc := 0 }, 1100000, { isOpen := true, nextSeq := 7, waiting := [wPkt 0x02 0 0x40 []] }, wPkt 0x02 0 0x40 [], { wBase with e2e := { send := [({ q := 0, other := 7, vc := 0 }, { isOpen := true, nextSeq := 7, waiting := [wPkt 0x02 0 0x40 []] })] } }, by decide +kernel⟩⟩

theorem witness_PoolTimeCommandsComplete :
    (∃ (n : Fin 64) (now : Nat) (s : State), Running s ∧ (port s n.val).st = .up) ∧
    (∃ (n : Fin 64) (p : Packet) (q now : Nat) (s : State), Running s ∧ PassesPlain n.val p q (advance now s) = true ∧ p.typ = 0x48 ∧ (parentPort s ≠ some n.val ∨ s.e2e.root = true)) ∧
    (∃ (n : Fin 64) (p : Packet) (q now : Nat) (s : State), Running s ∧ PassesPlain n.val p q (advance now s) = true ∧ p.typ = 0x48 ∧ parentPort s = some n.val ∧ s.e2e.root = false ∧ leAt p.payload 0 8 ≠ 0) ∧
    (∃ (n : Fin 64) (v r : Bool) (m : Fin 64) (w : Bool) (s : State), Managed s ∧ (s.e2e.locked = false ∨ r = true)) ∧
    (∃ (n : Fin 64) (v : Bool) (m : Fin 64) (w : Bool) (s : State), Managed s ∧ s.e2e.locked = true ∧ (port s n.val).st ≠ .up ∧ (port s m.val).st ≠ .up) ∧
    (∃ (q : Fin 4) (a b : BitVec 10) (c : BitVec 8) (s : State), Managed s) :=
  ⟨⟨3, 10000, { wBase with rof := { wBase.rof with ports := [(3, { st := .up, partnerId := 9 })] } }, by decide +kernel⟩,
   ⟨3, wPkt 0x48 7 500 (List.replicate 24 0), 0, 900, wBase, by decide +kernel⟩,
   ⟨3, wPkt 0x48 7 500 (leBytes 8 100 ++ leBytes 8 200 ++ [1, 2, 0, 0, 0, 0, 0, 0]), 0, 700, { wBase with e2e := { parent := 3, parentValid := true }, rof := { wBase.rof with ports := [(3, { st := .up, partnerId := 9 })] } }, by decide +kernel⟩,
   ⟨3, true, false, 19, true, wBase, by decide +kernel⟩,
   ⟨3, true, 19, true, { wBase with e2e := { locked := true, everLocked := true } }, by decide +kernel⟩,
   ⟨2, 60, 300, 9, wBase, by decide +kernel⟩⟩

theorem witness_StepRunsFrontCommand :
    (∃ (s : State), s.pending = []) :=
  ⟨.reset, by decide +kernel⟩

theorem witness_EveryStepKeepsMemoryCanonical :
    (∃ (s t : State), step s = .next t ∧ MemoryCanonical s) :=
  ⟨{ wBase with pending := [.bypass] }, emit (.tap [0]) (tapSelect 0 wBase), rfl, by decide +kernel⟩

theorem witness_EveryStepKeepsAnchorLegal :
    (∃ (s t : State), step s = .next t ∧ AnchorLegal s) :=
  ⟨{ wBase with pending := [.bypass] }, emit (.tap [0]) (tapSelect 0 wBase), rfl, by decide +kernel⟩

theorem witness_CountersNeverFall :
    (∃ (c : Instr) (s t : State), (∀ f n i, cntGet s f n i ≤ 2 ^ 64 - 1) ∧ (∀ r f n who, c ≠ .resetCounters r f n who) ∧ twf 0 s.cnt = true) :=
  ⟨.bypass, { State.reset with clk := { State.reset.clk with phase := .released } }, emit (.tap [0]) (tapSelect 0 { State.reset with clk := { State.reset.clk with phase := .released } }), fun _ _ _ => Nat.zero_le _, nofun, by decide +kernel⟩

theorem witness_HaltedDeviceTakesNoCommand :
    (∃ (c : Instr) (s : State), halted s = true ∧ actsWhileHalted c = false) :=
  ⟨.setRoute 3 5, { State.reset with clk := { State.reset.clk with phase := .frozen } }, by decide +kernel⟩

theorem witness_OtherRolesArePoliced :
    (∃ (r : Role) (d : Fin 64) (f : Fin 16) (i : Fin 4096) (g q : Fin 4) (m : BitVec 11) (on : Bool) (who pva n : Nat) (s : State), Managed s ∧ r ≠ .operator) ∧
    (∃ (r : Role) (now : Nat) (lv : BitVec 32) (dg sg : BitVec 384) (on : Bool) (sig blob : List Byte) (s : State), Managed s ∧ r ≠ .operator) ∧
    (∃ (r : Role) (now : Nat) (lv : BitVec 32) (dg : BitVec 384) (b : List Byte) (s : State), Managed s ∧ r ≠ .custodian) :=
  ⟨⟨.auditor, 3, 2, 9, 1, 2, 30, true, 77, 4096, 8, .reset, by decide +kernel⟩,
   ⟨.auditor, 900, 4, 5, 6, true, [], [7], .reset, by decide +kernel⟩,
   ⟨.auditor, 900, 4, 5, [], .reset, by decide +kernel⟩⟩

theorem witness_AddressMapRule :
    (∃ (a : Nat) (s : State), (block s (a / 268435456)).place = .deviceWide ∧ (block s (a / 268435456)).grainLog2 ≤ 17) ∧
    (∃ (a : Nat) (q : Fin 4) (s : State), (block s (a / 268435456)).place = .localTo q ∧ (block s (a / 268435456)).grainLog2 ≤ 17) :=
  ⟨⟨0x456789AC0, { State.reset with mem := { State.reset.mem with blocks := [(69, { grainLog2 := 12, frame := 1234 })] } }, by decide +kernel⟩,
   ⟨0x10001040, 3, { State.reset with mem := { State.reset.mem with blocks := [(1, { place := .localTo 3, grainLog2 := 8, frame := 8 })] } }, by decide +kernel⟩⟩

theorem witness_AddressMapIsInjective :
    (∃ (a b : Nat) (s : State), (block s (a / 268435456)).grainLog2 ≤ 17 ∧ a / 268435456 = b / 268435456 ∧ pcOf s a = pcOf s b ∧ pcAddr s a = pcAddr s b) :=
  ⟨64, 64, .reset, by decide +kernel⟩

theorem witness_MxScaleRule :
    (∃ (code : Nat) (l : List Fp), .nan ∈ l) ∧
    (∃ (code : Nat) (l : List Fp), ((∀ n m e, .fin n m e ∈ l → m = 0)) ∧ .nan ∉ l) ∧
    (∃ (code : Nat) (l : List Fp) (x : Fp) (k emax : Int), (∀ y ∈ l, magnitude y ≤ magnitude x) ∧ (2 : ℚ) ^ k ≤ magnitude x ∧ magnitude x < (2 : ℚ) ^ (k + 1) ∧ ((code = 1 ∧ emax = 2) ∨ (code = 2 ∧ emax = 4) ∨ (code = 3 ∧ emax = 2)) ∧ .nan ∉ l ∧ x ∈ l) :=
  ⟨⟨1, [.nan, .fin false 3 0], by decide +kernel⟩,
   ⟨1, [.fin true 0 0, .inf true], by simp, by decide +kernel⟩,
   ⟨1, [.fin false 3 0], .fin false 3 0, 1, 2, by norm_num [magnitude], by norm_num [magnitude], by norm_num [magnitude], by simp, by decide +kernel⟩⟩

theorem witness_FloatCodesRoundTrip :
    (∃ (code : Nat) (f : FmtSpec) (md : Round) (x : Nat), fmtSpec code = some f ∧ x < 2 ^ (f.w + 1) ∧ fpDecode f x ≠ .nan) :=
  ⟨4, fE4M3, .near, 5, by decide +kernel⟩

theorem witness_SequenceRule :
    (∃ (q : Nat) (p : Packet) (s : State), recvCtx s (recvKey q p) = none ∧ recvCount s q < 32768) ∧
    (∃ (q : Nat) (p : Packet) (c : RecvCtx) (d : Nat) (s : State), recvCtx s (recvKey q p) = some c ∧ c.base < 2 ^ 24 ∧ d < 2 ^ 24 ∧ (c.base + d) % 2 ^ 24 = p.seq.toNat) ∧
    (∃ (q : Nat) (p : Packet) (c : RecvCtx) (s : State), recvCtx s (recvKey q p) = some c ∧ c.base < 2 ^ 24 ∧ c.bits.Nodup ∧ p.seq.toNat ∉ c.bits ∧ (∀ x ∈ p.seq.toNat :: c.bits, (x + 2 ^ 24 - c.base) % 2 ^ 24 < 1024)) :=
  ⟨⟨0, wPkt 0x02 0 0x40 [], wBase, by decide +kernel⟩,
   ⟨0, wPkt 0x02 0 0x40 [], { base := 0, lastArrival := 0 }, 0, { wBase with e2e := { recv := [({ q := 0, other := 7, vc := 0 }, { base := 0, lastArrival := 0 })] } }, by decide +kernel⟩,
   ⟨0, wPkt 0x02 0 0x40 [], { base := 0, lastArrival := 0 }, { wBase with e2e := { recv := [({ q := 0, other := 7, vc := 0 }, { base := 0, lastArrival := 0 })] } }, by decide +kernel⟩⟩

theorem witness_RouteChoiceRule :
    (∃ (q : Nat) (p : Packet) (e : Option Nat) (n : Nat) (s : State), choosePort s q p e = some n) ∧
    (∃ (q : Nat) (p : Packet) (e : Option Nat) (n : Nat) (s : State), choosePort s q p e = none ∧ n < 64) ∧
    (∃ (q : Nat) (p : Packet) (e : Option Nat) (n m : Nat) (s : State), choosePort s q p e = some n ∧ p.pin = false ∧ p.vc ≠ 7 ∧ tget 63 s.rof.lastPort q < 64 ∧ m < 64 ∧ (tget 0 s.rof.route p.dst.toNat).getLsbD m = true ∧ (port s m).st = .up ∧ e ≠ some m) :=
  ⟨⟨0, wPkt 0x02 0 0x40 [], some 5, 3, { State.reset with rof := { State.reset.rof with route := [(4, 40)], ports := [(3, { st := .up }), (5, { st := .up })] } }, by decide +kernel⟩,
   ⟨0, wPkt 0x02 0 0x40 [], none, 5, .reset, by decide +kernel⟩,
   ⟨0, wPkt 0x02 0 0x40 [], none, 3, 5, { State.reset with rof := { State.reset.rof with route := [(4, 40)], ports := [(3, { st := .up }), (5, { st := .up })] } }, by decide +kernel⟩⟩

theorem witness_TranslationStaysInTenant :
    (∃ (q ten a : Nat) (who : Part) (via : Via) (acc : Access) (ppa : Nat) (lf : Leaf) (s : State), twf {} s.pool.extents = true ∧ (xunit s q).tlb = [] ∧ (translate q ten a who via acc s).1.toOption = some (ppa, lf)) :=
  ⟨0, 1, 100, .ep 7, .port, .read, 100, ((leafAt wBase 1 100).map (·.2)).getD { rights := {}, sealed := false, light := false, run := 0, level := 0, ppa := 0, extent := 0, overrides := [] }, wBase, by decide +kernel⟩

theorem witness_RevokedWritesAreIgnored :
    (∃ (a : RegAccess) (v : BitVec 64) (o : Nat) (s : State), Running s ∧ a.mgmt = false ∧ a.write = some v ∧ (a.place = .bar0 o ∨ a.place = .bar4 o) ∧ (logDev s a.ld.val).bound = true ∧ (tenant s (logDev s a.ld.val).tenant).st ≠ .active ∧ (tenant s (logDev s a.ld.val).tenant).st ≠ .rekeying) ∧
    (∃ (a : RegAccess) (o v : Nat) (sc : Scope) (s : State), Running s ∧ a.mgmt = false ∧ a.write = none ∧ a.place = .bar0 o ∧ a.size = 8 ∧ o % 8 = 0 ∧ (logDev s a.ld.val).bound = true ∧ (tenant s (logDev s a.ld.val).tenant).st ≠ .active ∧ (tenant s (logDev s a.ld.val).tenant).st ≠ .rekeying ∧ isComp o = false ∧ isMsix o = false ∧ isPba o = false ∧ regAt s a.ld.val o = some (sc, v)) :=
  ⟨⟨{ ld := 2, place := .bar0 0xA0000, write := some 7 }, 7, 0xA0000, { wHost with sec := { wHost.sec with tenants := [(1, { st := .revoking })] } }, by decide +kernel⟩,
   ⟨{ ld := 2, place := .bar0 0xA008 }, 0xA008, 4, .all, { wHost with map := { wHost.map with priv := 4 }, sec := { wHost.sec with tenants := [(1, { st := .revoking })] } }, by decide +kernel⟩⟩

theorem witness_Bar2TakesDoorbells :
    (∃ (a : RegAccess) (o : Nat) (s : State), Reached a s ∧ a.place = .bar2 o ∧ a.write = none) ∧
    (∃ (a : RegAccess) (o : Nat) (v : BitVec 64) (s : State), Reached a s ∧ a.place = .bar2 o ∧ a.write = some v ∧ (a.size ≠ 8 ∨ o % 8 ≠ 0 ∨ ownsGroup s a.ld.val (o / 64) = false)) ∧
    (∃ (a : RegAccess) (n : Fin 8192) (v : BitVec 64) (s : State), Running s ∧ a.place = .bar2 (8 * n.val) ∧ a.write = some v ∧ a.size = 8 ∧ a.mgmt = false ∧ ownsGroup s a.ld.val (n.val / 8) = true) :=
  ⟨⟨{ ld := 2, place := .bar2 72 }, 72, wHost, by decide +kernel⟩,
   ⟨{ ld := 2, place := .bar2 76, write := some 7 }, 76, 7, wQueue [], by decide +kernel⟩,
   ⟨{ ld := 2, place := .bar2 72, write := some 1 }, 9, 1, wQueue [], by decide +kernel⟩⟩

theorem witness_ReadsChangeNothing :
    (∃ (a : RegAccess) (s : State), ((∀ o, a.place = .bar0 o → readFits o a.size = true)) ∧ Reached a s ∧ a.write = none) :=
  ⟨{ ld := 2, place := .bar0 0xA008 }, wHost, by rintro o ⟨⟩; decide, by decide +kernel⟩

end Sys2Proof.Tests
end

section
/-! SUPPORT. No command touches the queue of waiting commands or the grade (O43), and what one step runs (O39).

The proof of O43 is one frame lemma for each operation of the model that builds a state: what `queueGrade` reads of the
state it leaves is what it read before. The lemmas stand in the order of the model's files, each above the operations
that call it, and are simp lemmas, so that a caller's proof splits the branches of its definition and cites the lemmas
of what it calls. -/

namespace Sys2Proof.Machine

/-- The two parts of the state that no command changes: the queue of waiting commands and the grade. -/
def queueGrade (s : State) : List Instr × Nat := (s.pending, s.grade)

/-- A command's answer, when it is a next state, has the queue and the grade of `s`. -/
def KeepsQueueGrade (a : Ans) (s : State) : Prop := ∀ t, a = .next t → queueGrade t = queueGrade s

/-! How `queueGrade` reads a record update, a conditional and a pair. The first two are proved by `(rfl)`, not `rfl`, so
that `simp` keeps the step in its proof: under a binder it cannot see through `queueGrade`. -/

@[simp] theorem queueGrade_mk (p o t f g cnt obs pool xlt dir mem rof e2e que nm core sch cxl sec fen pair clk map) :
    queueGrade ⟨p, o, t, f, g, cnt, obs, pool, xlt, dir, mem, rof, e2e, que, nm, core, sch, cxl, sec, fen, pair, clk,
      map⟩ = (p, g) := (rfl)

@[simp] theorem pending_grade_eq (s : State) : (s.pending, s.grade) = queueGrade s := (rfl)

@[simp] theorem queueGrade_ite (c : Prop) [Decidable c] (s t : State) :
    queueGrade (if c then s else t) = if c then queueGrade s else queueGrade t := apply_ite ..

@[simp] theorem queueGrade_ite_snd {α : Type} (c : Prop) [Decidable c] (p q : α × State) :
    queueGrade (if c then p else q).2 = if c then queueGrade p.2 else queueGrade q.2 :=
  apply_ite (fun p : α × State => queueGrade p.2) ..

@[simp] theorem queueGrade_ite_snd_snd {α β : Type} (c : Prop) [Decidable c] (p q : α × β × State) :
    queueGrade (if c then p else q).2.2 = if c then queueGrade p.2.2 else queueGrade q.2.2 :=
  apply_ite (fun p : α × β × State => queueGrade p.2.2) ..

/-- The state of a pair that `split` has taken apart. -/
theorem queueGrade_of_eq {α : Type} {p : α × State} {a : α} {t : State} (h : p = (a, t)) :
    queueGrade t = queueGrade p.2 := by rw [h]

/-- The state of a triple that `split` has taken apart. -/
theorem queueGrade_of_eq₃ {α β : Type} {p : α × β × State} {a : α} {b : β} {t : State} (h : p = (a, b, t)) :
    queueGrade t = queueGrade p.2.2 := by rw [h]

/-- What holds after every state with the queue and grade of `s` holds after `t`: a proof that splits cases on what
an operation left then speaks of an opaque state, and the kernel never runs the operation. -/
theorem of_queueGrade_eq {s : State} {P : State → Prop} (t : State) (ht : queueGrade t = queueGrade s)
    (h : ∀ u, queueGrade u = queueGrade s → P u) : P t := h t ht

/-- What each turn of a fold that carries a value beside the state keeps, the fold keeps. -/
@[simp] theorem queueGrade_foldl_snd {α β : Type} (l : List β) (f : α × State → β → α × State) (p : α × State)
    (h : ∀ p b, queueGrade (f p b).2 = queueGrade p.2) : queueGrade (l.foldl f p).2 = queueGrade p.2 := by
  induction l generalizing p with
  | nil => rfl
  | cons b l ih => exact (ih (f p b)).trans (h p b)

/-! Answers of commands, and the guards of `Ops`. -/

@[simp] theorem keepsQueueGrade_next (t s : State) : KeepsQueueGrade (.next t) s ↔ queueGrade t = queueGrade s :=
  ⟨fun h => h t rfl, fun h _ ht => by cases ht; exact h⟩

@[simp] theorem keepsQueueGrade_fault (r : Fault) (s : State) : KeepsQueueGrade (.fault r) s := fun _ h => by cases h

@[simp] theorem keepsQueueGrade_ite (c : Prop) [Decidable c] (a b : Ans) (s : State) :
    KeepsQueueGrade (if c then a else b) s ↔ if c then KeepsQueueGrade a s else KeepsQueueGrade b s := by
  split <;> rfl

@[simp] theorem queueGrade_live (s t : State) :
    queueGrade (live s t) = if halted s then queueGrade s else queueGrade t := by simp [live]

@[simp] theorem queueGrade_managed (s t : State) :
    queueGrade (managed s t) = if anchorServes s then queueGrade t else queueGrade s := by simp [managed]

@[simp] theorem queueGrade_served (s t : State) : queueGrade (served s t) =
    if halted s then queueGrade s else if anchorServes s then queueGrade t else queueGrade s := by
  simp [served]

theorem keepsQueueGrade_live {s t : State} (h : queueGrade t = queueGrade s) :
    KeepsQueueGrade (.next (live s t)) s := by
  simp [h]

theorem keepsQueueGrade_served {s t : State} (h : queueGrade t = queueGrade s) :
    KeepsQueueGrade (.next (served s t)) s := by
  simp [h]

/-! Machine/Ops.lean -/

@[simp] theorem queueGrade_advance (now s) : queueGrade (advance now s) = queueGrade s := by simp [advance]
@[simp] theorem queueGrade_emit (o s) : queueGrade (emit o s) = queueGrade s := by simp [emit]
@[simp] theorem queueGrade_cntAdd (f n i k s) : queueGrade (cntAdd f n i k s) = queueGrade s := by simp [cntAdd]
@[simp] theorem queueGrade_bump (f n i s) : queueGrade (bump f n i s) = queueGrade s := by simp [bump]
@[simp] theorem queueGrade_drawWord (s) : queueGrade (drawWord s).2 = queueGrade s := by simp [drawWord]
@[simp] theorem queueGrade_drawBytes (n s) : queueGrade (drawBytes n s).2 = queueGrade s := by simp [drawBytes]
@[simp] theorem queueGrade_drawBool (s) : queueGrade (drawBool s).2 = queueGrade s := by simp [drawBool]
@[simp] theorem queueGrade_logPush (r s) : queueGrade (logPush r s) = queueGrade s := by simp [logPush]

@[simp] theorem queueGrade_recordAs (short kind subject body s) :
    queueGrade (recordAs short kind subject body s) = queueGrade s := by simp [recordAs]

@[simp] theorem queueGrade_record (kind subject body s) :
    queueGrade (record kind subject body s) = queueGrade s := by simp [record]

@[simp] theorem queueGrade_event (code body s) : queueGrade (event code body s) = queueGrade s := by simp [event]

@[simp] theorem queueGrade_actionEvent (cmd args who s) :
    queueGrade (actionEvent cmd args who s) = queueGrade s := by simp [actionEvent]

@[simp] theorem queueGrade_setXunit (q u s) : queueGrade (setXunit q u s) = queueGrade s := by simp [setXunit]
@[simp] theorem queueGrade_setRoots (t r s) : queueGrade (setRoots t r s) = queueGrade s := by simp [setRoots]
@[simp] theorem queueGrade_setExtent (e x s) : queueGrade (setExtent e x s) = queueGrade s := by simp [setExtent]
@[simp] theorem queueGrade_setKite (k x s) : queueGrade (setKite k x s) = queueGrade s := by simp [setKite]
@[simp] theorem queueGrade_setLine (l x s) : queueGrade (setLine l x s) = queueGrade s := by simp [setLine]
@[simp] theorem queueGrade_setBlock (b x s) : queueGrade (setBlock b x s) = queueGrade s := by simp [setBlock]
@[simp] theorem queueGrade_setStack (n x s) : queueGrade (setStack n x s) = queueGrade s := by simp [setStack]
@[simp] theorem queueGrade_setPort (p x s) : queueGrade (setPort p x s) = queueGrade s := by simp [setPort]
@[simp] theorem queueGrade_setVc (p v x s) : queueGrade (setVc p v x s) = queueGrade s := by simp [setVc]
@[simp] theorem queueGrade_setQueue (n x s) : queueGrade (setQueue n x s) = queueGrade s := by simp [setQueue]
@[simp] theorem queueGrade_setGroup (g x s) : queueGrade (setGroup g x s) = queueGrade s := by simp [setGroup]
@[simp] theorem queueGrade_setJob (j x s) : queueGrade (setJob j x s) = queueGrade s := by simp [setJob]
@[simp] theorem queueGrade_setWindow (w x s) : queueGrade (setWindow w x s) = queueGrade s := by simp [setWindow]
@[simp] theorem queueGrade_setCore (n x s) : queueGrade (setCore n x s) = queueGrade s := by simp [setCore]
@[simp] theorem queueGrade_setPwrq (q x s) : queueGrade (setPwrq q x s) = queueGrade s := by simp [setPwrq]
@[simp] theorem queueGrade_setCxlPort (p x s) : queueGrade (setCxlPort p x s) = queueGrade s := by simp [setCxlPort]
@[simp] theorem queueGrade_setLogDev (d x s) : queueGrade (setLogDev d x s) = queueGrade s := by simp [setLogDev]
@[simp] theorem queueGrade_setWdw (d g x s) : queueGrade (setWdw d g x s) = queueGrade s := by simp [setWdw]
@[simp] theorem queueGrade_setTenant (t x s) : queueGrade (setTenant t x s) = queueGrade s := by simp [setTenant]
@[simp] theorem queueGrade_setSealed (e x s) : queueGrade (setSealed e x s) = queueGrade s := by simp [setSealed]
@[simp] theorem queueGrade_setQuad (q x s) : queueGrade (setQuad q x s) = queueGrade s := by simp [setQuad]

@[simp] theorem queueGrade_hostLog (d k typ vals s) :
    queueGrade (hostLog d k typ vals s) = queueGrade s := by simp [hostLog]

@[simp] theorem queueGrade_badAccess (d write off s) :
    queueGrade (badAccess d write off s) = queueGrade s := by simp [badAccess]

@[simp] theorem queueGrade_forEach {α : Type} (l : List α) (f : α → State → State) (s)
    (hf : ∀ a t, queueGrade (f a t) = queueGrade t) :
    queueGrade (forEach l f s) = queueGrade s := by
  induction l generalizing s with
  | nil => rfl
  | cons a l ih => exact (ih (f a s)).trans (hf a s)

@[simp] theorem queueGrade_when (c f s)
    (hf : ∀ t, queueGrade (f t) = queueGrade t) :
    queueGrade (when c f s) = queueGrade s := by simp [when, hf]

/-! Machine/NetOps.lean -/

@[simp] theorem queueGrade_setSend (k c s) : queueGrade (setSend k c s) = queueGrade s := by simp [setSend]
@[simp] theorem queueGrade_setRecv (k c s) : queueGrade (setRecv k c s) = queueGrade s := by simp [setRecv]

@[simp] theorem queueGrade_enqueue (p pk entry s) :
    queueGrade (enqueue p pk entry s) = queueGrade s := by simp [enqueue]

@[simp] theorem queueGrade_cross (a b n s) : queueGrade (cross a b n s) = queueGrade s := by simp [cross]

@[simp] theorem queueGrade_sendBy (q p pk entry s) :
    queueGrade (sendBy q p pk entry s) = queueGrade s := by simp [sendBy]

@[simp] theorem queueGrade_routeOut (q pk entry s) : queueGrade (routeOut q pk entry s) = queueGrade s := by
  unfold routeOut
  split
  · simp
  · split <;> simp

@[simp] theorem queueGrade_sendOut (k pk s) : queueGrade (sendOut k pk s) = queueGrade s := by
  unfold sendOut
  split
  · split <;> simp
  · simp

@[simp] theorem queueGrade_noteStall (k c w s) : queueGrade (noteStall k c w s) = queueGrade s := by simp [noteStall]

@[simp] theorem queueGrade_flushN (make start n k s)
    (hmake : ∀ a t, queueGrade (make a t).2 = queueGrade t)
    (hstart : ∀ a b t, queueGrade (start a b t) = queueGrade t) :
    queueGrade (flushN make start n k s) = queueGrade s := by
  induction n generalizing s with
  | zero => rfl
  | succ n ih =>
    unfold flushN
    split
    · rfl
    · split
      · rfl
      · split <;> simp [ih, hstart, hmake]

@[simp] theorem queueGrade_joinFlow (k p s) : queueGrade (joinFlow k p s) = queueGrade s := by simp [joinFlow]

@[simp] theorem queueGrade_noteSeq (k p s) : queueGrade (noteSeq k p s) = queueGrade s := by
  unfold noteSeq
  split
  · simp only
    split <;> simp
  · split
    · simp only
      split <;> simp
    · rfl

@[simp] theorem queueGrade_launch (k p c s) : queueGrade (launch k p c s) = queueGrade s := by simp [launch]
@[simp] theorem queueGrade_newCtx (c s) : queueGrade (newCtx c s).2 = queueGrade s := by simp [newCtx]

@[simp] theorem queueGrade_sendPair (typ vc arg0 arg1 count pay s) :
    queueGrade (sendPair typ vc arg0 arg1 count pay s) = queueGrade s := by
  unfold sendPair
  split <;> simp

@[simp] theorem queueGrade_orderRec (r s) : queueGrade (orderRec r s) = queueGrade s := by simp [orderRec]

@[simp] theorem queueGrade_closeUnit (q u crc s) :
    queueGrade (closeUnit q u crc s) = queueGrade s := by simp [closeUnit]

@[simp] theorem queueGrade_feed (q owner b s) : queueGrade (feed q owner b s) = queueGrade s := by simp [feed]
@[simp] theorem queueGrade_startPkt (k p c s) : queueGrade (startPkt k p c s) = queueGrade s := by simp [startPkt]

@[simp] theorem queueGrade_openCtx (c s) : queueGrade (openCtx c s).2 = queueGrade s := by
  unfold openCtx
  split <;> simp

@[simp] theorem queueGrade_flushFlow (k s) : queueGrade (flushFlow k s) = queueGrade s := by simp [flushFlow]

@[simp] theorem queueGrade_flushStalled (q n s) :
    queueGrade (flushStalled q n s) = queueGrade s := by simp [flushStalled]

@[simp] theorem queueGrade_sendOn (k p s) : queueGrade (sendOn k p s) = queueGrade s := by simp [sendOn]
@[simp] theorem queueGrade_sendPacket (q p s) : queueGrade (sendPacket q p s) = queueGrade s := by simp [sendPacket]
@[simp] theorem queueGrade_sendPlain (k p s) : queueGrade (sendPlain k p s) = queueGrade s := by simp [sendPlain]

/-! Machine/MemOps.lean -/

@[simp] theorem queueGrade_memErr (kind line symbols w s) :
    queueGrade (memErr kind line symbols w s) = queueGrade s := by simp [memErr]

@[simp] theorem queueGrade_openRow (pc a s) : queueGrade (openRow pc a s) = queueGrade s := by simp [openRow]
@[simp] theorem queueGrade_remapRow (line w s) : queueGrade (remapRow line w s) = queueGrade s := by simp [remapRow]

@[simp] theorem queueGrade_noteCorrected (line w s) :
    queueGrade (noteCorrected line w s) = queueGrade s := by simp [noteCorrected]

@[simp] theorem queueGrade_mediaEvent (l s) : queueGrade (mediaEvent l s) = queueGrade s := by simp [mediaEvent]

@[simp] theorem queueGrade_noteUncorrectable (line w s) :
    queueGrade (noteUncorrectable line w s) = queueGrade s := by simp [noteUncorrectable]

@[simp] theorem queueGrade_noteCmd (pc cmd s) : queueGrade (noteCmd pc cmd s) = queueGrade s := by simp [noteCmd]
@[simp] theorem queueGrade_followWrite (l d s) : queueGrade (followWrite l d s) = queueGrade s := by simp [followWrite]
@[simp] theorem queueGrade_storeRaw (l d s) : queueGrade (storeRaw l d s) = queueGrade s := by simp [storeRaw]
@[simp] theorem queueGrade_poisonRaw (l s) : queueGrade (poisonRaw l s) = queueGrade s := by simp [poisonRaw]

@[simp] theorem queueGrade_storeLine (l d s) : queueGrade (storeLine l d s) = queueGrade s := by
  unfold storeLine
  split <;> simp

@[simp] theorem queueGrade_poisonLine (l s) : queueGrade (poisonLine l s) = queueGrade s := by
  unfold poisonLine
  split <;> simp

@[simp] theorem queueGrade_markSlot (bs k s) : queueGrade (markSlot bs k s) = queueGrade s := by simp [markSlot]
@[simp] theorem queueGrade_readCode (l ten w s) : queueGrade (readCode l ten w s).2 = queueGrade s := by simp [readCode]

@[simp] theorem queueGrade_readAs (l ten w s) : queueGrade (readAs l ten w s).2 = queueGrade s := by
  unfold readAs
  split
  · next h => split <;> simp [queueGrade_of_eq h]
  · simp

@[simp] theorem queueGrade_readStored (l w s) : queueGrade (readStored l w s).2 = queueGrade s := by simp [readStored]

@[simp] theorem queueGrade_mergeWriteback (l s) : queueGrade (mergeWriteback l s) = queueGrade s := by
  unfold mergeWriteback
  split
  · rfl
  · simp only
    split
    · simp
    · split <;> next h => simp [queueGrade_of_eq h]

@[simp] theorem queueGrade_mergeRoom (l s) : queueGrade (mergeRoom l s) = queueGrade s := by
  unfold mergeRoom
  simp only
  split
  · rfl
  · split <;> simp

@[simp] theorem queueGrade_mergeBytes (l mask d who ten s) :
    queueGrade (mergeBytes l mask d who ten s) = queueGrade s := by simp [mergeBytes]

@[simp] theorem queueGrade_readLine (l w s) : queueGrade (readLine l w s).2 = queueGrade s := by simp [readLine]

@[simp] theorem queueGrade_writeMasked (l mask d who ten s) :
    queueGrade (writeMasked l mask d who ten s) = queueGrade s := by simp [writeMasked]

@[simp] theorem queueGrade_zeroRange (lo hi s) : queueGrade (zeroRange lo hi s) = queueGrade s := by simp [zeroRange]
@[simp] theorem queueGrade_zeroBlocks (bs s) : queueGrade (zeroBlocks bs s) = queueGrade s := by simp [zeroBlocks]
@[simp] theorem queueGrade_fillBlocks (bs k s) : queueGrade (fillBlocks bs k s) = queueGrade s := by simp [fillBlocks]

/-! Machine/XltOps.lean -/

@[simp] theorem queueGrade_giveRoot (t s) : queueGrade (giveRoot t s) = queueGrade s := by simp [giveRoot]
@[simp] theorem queueGrade_tlbFill (q e s) : queueGrade (tlbFill q e s) = queueGrade s := by simp [tlbFill]
@[simp] theorem queueGrade_walkFill (q t pva s) : queueGrade (walkFill q t pva s) = queueGrade s := by simp [walkFill]

@[simp] theorem queueGrade_translate (q t pva who via acc s) :
    queueGrade (translate q t pva who via acc s).2 = queueGrade s := by
  unfold translate
  split
  · split <;> rfl
  · split
    · simp
    · rfl
    · split <;> simp

@[simp] theorem queueGrade_logFault (q f s) : queueGrade (logFault q f s) = queueGrade s := by simp [logFault]

@[simp] theorem queueGrade_refuse (q t pva r source sourceId s) :
    queueGrade (refuse q t pva r source sourceId s) = queueGrade s := by simp [refuse]

@[simp] theorem queueGrade_setObj (o x s) : queueGrade (setObj o x s) = queueGrade s := by simp [setObj]
@[simp] theorem queueGrade_freeObjs (p s) : queueGrade (freeObjs p s) = queueGrade s := by simp [freeObjs]

@[simp] theorem queueGrade_freeObjsIn (t lo hi s) :
    queueGrade (freeObjsIn t lo hi s) = queueGrade s := by simp [freeObjsIn]

@[simp] theorem queueGrade_orderInval (t lo hi withdraws s) :
    queueGrade (orderInval t lo hi withdraws s) = queueGrade s := by simp [orderInval]

@[simp] theorem queueGrade_settleOpenings (s) : queueGrade (settleOpenings s) = queueGrade s := by
  unfold settleOpenings
  apply queueGrade_forEach
  intro c t
  split <;> simp

@[simp] theorem queueGrade_withdrawExtent (e s) :
    queueGrade (withdrawExtent e s) = queueGrade s := by simp [withdrawExtent]

@[simp] theorem queueGrade_drainEntries (q p w s) :
    queueGrade (drainEntries q p w s) = queueGrade s := by simp [drainEntries]

@[simp] theorem queueGrade_cutMessages (q t lo hi s) :
    queueGrade (cutMessages q t lo hi s) = queueGrade s := by simp [cutMessages]

@[simp] theorem queueGrade_setInvals (l s) : queueGrade (setInvals l s) = queueGrade s := by simp [setInvals]
@[simp] theorem queueGrade_nextTurn (q s) : queueGrade (nextTurn q s) = queueGrade s := by simp [nextTurn]

@[simp] theorem queueGrade_orderSwitch (t root s) :
    queueGrade (orderSwitch t root s) = queueGrade s := by simp [orderSwitch]

/-! Machine/HomeOps.lean -/

@[simp] theorem queueGrade_sendReply (id r k st d s) : queueGrade (sendReply id r k st d s) = queueGrade s := by
  unfold sendReply
  split <;> simp

@[simp] theorem queueGrade_openPend (r k n isOpen s) :
    queueGrade (openPend r k n isOpen s).2 = queueGrade s := by simp [openPend]

@[simp] theorem queueGrade_countApplied (red home s) :
    queueGrade (countApplied red home s) = queueGrade s := by simp [countApplied]

@[simp] theorem queueGrade_contribLine (r st s) : queueGrade (contribLine r st s) = queueGrade s := by
  unfold contribLine
  split
  · simp
  · split
    · rfl
    · simp only
      split
      · simp
      · split <;> simp
  · rfl

@[simp] theorem queueGrade_closePend (id s) : queueGrade (closePend id s) = queueGrade s := by
  unfold closePend
  split <;> simp

@[simp] theorem queueGrade_markContribution (id part lines red home s) :
    queueGrade (markContribution id part lines red home s) = queueGrade s := by
  unfold markContribution
  split <;> simp

@[simp] theorem queueGrade_pendDone (id st pos b s) : queueGrade (pendDone id st pos b s) = queueGrade s := by
  unfold pendDone
  split <;> simp

@[simp] theorem queueGrade_sendRecall (l r s) : queueGrade (sendRecall l r s) = queueGrade s := by
  unfold sendRecall
  split <;> simp

@[simp] theorem queueGrade_startRecall (l hs share target req s) :
    queueGrade (startRecall l hs share target req s) = queueGrade s := by simp [startRecall]

@[simp] theorem queueGrade_answerCopies (w st old s) :
    queueGrade (answerCopies w st old s) = queueGrade s := by simp [answerCopies]

@[simp] theorem queueGrade_unretain (r st s) : queueGrade (unretain r st s) = queueGrade s := by
  unfold unretain
  split
  · split <;> simp
  · rfl

@[simp] theorem queueGrade_beatFailed (r st s) : queueGrade (beatFailed r st s) = queueGrade s := by
  unfold beatFailed
  split <;> simp

@[simp] theorem queueGrade_lineDone (r st pos b s) :
    queueGrade (lineDone r st pos b s) = queueGrade s := by simp [lineDone]

@[simp] theorem queueGrade_respond (l r st pos b s) :
    queueGrade (respond l r st pos b s) = queueGrade s := by simp [respond]

@[simp] theorem queueGrade_fetchLine (l w s) : queueGrade (fetchLine l w s).2 = queueGrade s := by
  unfold fetchLine
  split <;> simp

@[simp] theorem queueGrade_serveRead (l r s) : queueGrade (serveRead l r s) = queueGrade s := by
  unfold serveRead
  split <;> next h => simp [queueGrade_of_eq h]

@[simp] theorem queueGrade_retain (q r st old s) : queueGrade (retain q r st old s) = queueGrade s := by
  unfold retain
  split <;> simp

@[simp] theorem queueGrade_atomicOn (l r atHome d s) :
    queueGrade (atomicOn l r atHome d s).2 = queueGrade s := by simp [atomicOn]

@[simp] theorem queueGrade_doAtomics (l rs atHome s) : queueGrade (doAtomics l rs atHome s) = queueGrade s := by
  unfold doAtomics
  simp only
  split
  · rfl
  · split
    · next h => simp [queueGrade_of_eq h]
    · next h => simp [queueGrade_of_eq h]

@[simp] theorem queueGrade_settleContrib (l s) : queueGrade (settleContrib l s) = queueGrade s := by
  unfold settleContrib
  split <;> simp

@[simp] theorem queueGrade_mergeFetch (l w s) : queueGrade (mergeFetch l w s).2 = queueGrade s := by
  unfold mergeFetch
  split
  · split
    · rfl
    · split <;> next h => simp [queueGrade_of_eq h]
  · split <;> next h => simp [queueGrade_of_eq h]

@[simp] theorem queueGrade_mergePut (l r d s) : queueGrade (mergePut l r d s) = queueGrade s := by simp [mergePut]

@[simp] theorem queueGrade_mergeCombine (l r s) : queueGrade (mergeCombine l r s).2 = queueGrade s := by
  unfold mergeCombine
  split <;> next h => simp [queueGrade_of_eq h]

@[simp] theorem queueGrade_winFailed (w chunk s) :
    queueGrade (winFailed w chunk s) = queueGrade s := by simp [winFailed]

@[simp] theorem queueGrade_perform (l r atHome s) : queueGrade (perform l r atHome s) = queueGrade s := by
  unfold perform
  split
  · simp
  · simp
  · simp
  · split <;> next h => simp [queueGrade_of_eq h]
  · simp
  · rfl

@[simp] theorem queueGrade_marked (ten pva l f s)
    (hf : ∀ t, queueGrade (f t) = queueGrade t) :
    queueGrade (marked ten pva l f s) = queueGrade s := by simp [marked, hf]

@[simp] theorem queueGrade_setDir (l d s) : queueGrade (setDir l d s) = queueGrade s := by simp [setDir]
@[simp] theorem queueGrade_dropBuf (l s) : queueGrade (dropBuf l s) = queueGrade s := by simp [dropBuf]

@[simp] theorem queueGrade_allocate (l s) : queueGrade (allocate l s).2 = queueGrade s := by
  unfold allocate
  extract_lets m free
  clear_value free
  split
  · rfl
  · split
    · rfl
    · split
      · rfl
      · extract_lets t
        split
        · rfl
        · split
          extract_lets rq hs
          split
          · exact (queueGrade_bump ..).trans (queueGrade_setLine ..)
          · exact queueGrade_startRecall ..

@[simp] theorem queueGrade_orderDisarm (h r s) : queueGrade (orderDisarm h r s).2 = queueGrade s := by
  unfold orderDisarm
  split <;> simp

@[simp] theorem queueGrade_releaseHolds (beat ls s) :
    queueGrade (releaseHolds beat ls s) = queueGrade s := by simp [releaseHolds]

@[simp] theorem queueGrade_setContribution (c s) :
    queueGrade (setContribution c s) = queueGrade s := by simp [setContribution]

@[simp] theorem queueGrade_mergeFetchAll (w l s) : queueGrade (mergeFetchAll w l s).2 = queueGrade s := by
  induction l generalizing s with
  | nil => rfl
  | cons x r ih =>
    unfold mergeFetchAll
    split
    · next h => simp [queueGrade_of_eq h]
    · next h => split <;> next h' => simp [queueGrade_of_eq h', ih, queueGrade_of_eq h]

@[simp] theorem queueGrade_endTrans (l s) : queueGrade (endTrans l s) = queueGrade s := by simp [endTrans]
@[simp] theorem queueGrade_requeue (l r s) : queueGrade (requeue l r s) = queueGrade s := by simp [requeue]

@[simp] theorem queueGrade_applyContribution (l r c s) : queueGrade (applyContribution l r c s) = queueGrade s := by
  unfold applyContribution
  simp only
  split <;> next h => simp [queueGrade_of_eq h]

@[simp] theorem queueGrade_contribute (l r hold s)
    (hhold : ∀ a b t, queueGrade (hold a b t) = queueGrade t) :
    queueGrade (contribute l r hold s) = queueGrade s := by
  unfold contribute
  split <;> simp [hhold]

@[simp] theorem queueGrade_serveGone (l r s) : queueGrade (serveGone l r s) = queueGrade s := by
  unfold serveGone
  split <;> simp

@[simp] theorem queueGrade_finish (l r target atHome s) : queueGrade (finish l r target atHome s) = queueGrade s := by
  unfold finish
  split
  · simp
  · split <;> simp

@[simp] theorem queueGrade_countCoarse (l old new s) :
    queueGrade (countCoarse l old new s) = queueGrade s := by simp [countCoarse]

@[simp] theorem queueGrade_serveLine (l r s) : queueGrade (serveLine l r s) = queueGrade s := by
  unfold serveLine
  extract_lets d hs recallOr o
  have hr (dest : List Part) (share : Bool) (t : DirEntry) (r : LineReq) (u : State) :
      queueGrade (recallOr dest share t r u) = queueGrade u := by
    simp [recallOr]
  split
  · exact queueGrade_requeue ..
  · split
    · split <;> next h => simp [queueGrade_of_eq h]
    · split <;> next h => simp [queueGrade_of_eq h]
    · split <;> next h => simp [queueGrade_of_eq h]
    · exact queueGrade_finish ..
  · split
    · exact queueGrade_finish ..
    · exact queueGrade_finish ..
    · exact queueGrade_finish ..
    · simp
    · exact hr ..
    · exact hr ..
    · exact hr ..
  · split
    · split <;> simp
    · simp
    · exact queueGrade_finish ..
    · split <;> simp
    · split <;> simp
    · split <;> simp
    · exact queueGrade_startRecall ..

@[simp] theorem queueGrade_holdLine (l r s) : queueGrade (holdLine l r s) = queueGrade s := by simp [holdLine]

@[simp] theorem queueGrade_serve (l r s) : queueGrade (serve l r s) = queueGrade s := by
  unfold serve
  split <;> simp

@[simp] theorem queueGrade_recallsDone (l s) : queueGrade (recallsDone l s) = queueGrade s := by
  unfold recallsDone
  extract_lets x
  split
  · split
    · exact queueGrade_setLine ..
    · exact queueGrade_finish ..
  · split
    · exact (queueGrade_setDir ..).trans (queueGrade_endTrans ..)
    · exact (queueGrade_setDir ..).trans (queueGrade_endTrans ..)

@[simp] theorem queueGrade_absorbData (l d poisoned s) :
    queueGrade (absorbData l d poisoned s) = queueGrade s := by simp [absorbData]

@[simp] theorem queueGrade_recallAnswer (l h data poisoned s) :
    queueGrade (recallAnswer l h data poisoned s) = queueGrade s := by
  unfold recallAnswer
  split <;> simp

@[simp] theorem queueGrade_loseLine (q l s) : queueGrade (loseLine q l s) = queueGrade s := by simp [loseLine]
@[simp] theorem queueGrade_loseCopy (l sc s) : queueGrade (loseCopy l sc s) = queueGrade s := by simp [loseCopy]

@[simp] theorem queueGrade_scanOne (l sc s) : queueGrade (scanOne l sc s) = queueGrade s := by
  unfold scanOne
  split
  · rfl
  · extract_lets x h
    split
    · split
      · simp
      · split
        · exact (queueGrade_setLine ..).trans (queueGrade_loseCopy ..)
        · exact queueGrade_setLine ..
    · split
      · rfl
      · split
        exact queueGrade_startRecall ..

@[simp] theorem queueGrade_pruneScans (s) : queueGrade (pruneScans s) = queueGrade s := by simp [pruneScans]
@[simp] theorem queueGrade_scanLine (l s) : queueGrade (scanLine l s) = queueGrade s := by simp [scanLine]

@[simp] theorem queueGrade_startScans (d e dead link s) :
    queueGrade (startScans d e dead link s) = queueGrade s := by simp [startScans]

@[simp] theorem queueGrade_settleCycle (s) : queueGrade (settleCycle s) = queueGrade s := by simp [settleCycle]

@[simp] theorem queueGrade_handOver (l s) : queueGrade (handOver l s) = queueGrade s := by
  unfold handOver
  split <;> simp

@[simp] theorem queueGrade_fetchHandOver (t s) : queueGrade (fetchHandOver t s) = queueGrade s := by
  unfold fetchHandOver
  split <;> simp

@[simp] theorem queueGrade_settleBuf (l s) : queueGrade (settleBuf l s) = queueGrade s := by simp [settleBuf]

@[simp] theorem queueGrade_takeIn (l p r s) : queueGrade (takeIn l p r s) = queueGrade s := by
  unfold takeIn
  split <;> simp

@[simp] theorem queueGrade_recallAll (l s) : queueGrade (recallAll l s) = queueGrade s := by
  unfold recallAll
  extract_lets x d u
  have hu : queueGrade u = queueGrade s := by simp [u]
  split
  · simp [hu]
  · split
    · exact hu
    · split
      · simp [hu]
      · split
        exact (queueGrade_startRecall ..).trans hu

@[simp] theorem queueGrade_recallDue (l s) : queueGrade (recallDue l s) = queueGrade s := by simp [recallDue]
@[simp] theorem queueGrade_lookAt (l s) : queueGrade (lookAt l s) = queueGrade s := by simp [lookAt]
@[simp] theorem queueGrade_accept (l p r s) : queueGrade (accept l p r s) = queueGrade s := by simp [accept]

@[simp] theorem queueGrade_acceptWaiting (s) : queueGrade (acceptWaiting s) = queueGrade s := by
  unfold acceptWaiting
  split <;> simp

@[simp] theorem queueGrade_answerUnreachable (r isCxlWrite s) :
    queueGrade (answerUnreachable r isCxlWrite s) = queueGrade s := by simp [answerUnreachable]

@[simp] theorem queueGrade_deliver (l localPort r isCxlWrite s) :
    queueGrade (deliver l localPort r isCxlWrite s) = queueGrade s := by simp [deliver]

/-! Machine/Wire.lean -/

@[simp] theorem queueGrade_readBlock (errs s) : queueGrade (readBlock errs s).2 = queueGrade s := by simp [readBlock]

@[simp] theorem queueGrade_readBlocks (n l s) : queueGrade (readBlocks n l s).2 = queueGrade s := by
  induction l generalizing s with
  | nil => rfl
  | cons e r ih => simp [readBlocks, ih]

@[simp] theorem queueGrade_sendCtrl (n ctype v s) :
    queueGrade (sendCtrl n ctype v s) = queueGrade s := by simp [sendCtrl]

@[simp] theorem queueGrade_deriveAk (s) : queueGrade (deriveAk s) = queueGrade s := by simp [deriveAk]
@[simp] theorem queueGrade_sendPart (n part b s) : queueGrade (sendPart n part b s) = queueGrade s := by simp [sendPart]

/-! Machine/TransOps.lean -/

@[simp] theorem queueGrade_retrainAnswer (n s) :
    queueGrade (retrainAnswer n s) = queueGrade s := by simp [retrainAnswer]

@[simp] theorem queueGrade_settleRx (n s) : queueGrade (settleRx n s) = queueGrade s := by
  unfold settleRx
  simp only
  split <;> simp

@[simp] theorem queueGrade_freeWords (n f s) : queueGrade (freeWords n f s) = queueGrade s := by simp [freeWords]
@[simp] theorem queueGrade_updFrame (n f s) : queueGrade (updFrame n f s) = queueGrade s := by simp [updFrame]

@[simp] theorem queueGrade_takeFrame (n k s) : queueGrade (takeFrame n k s) = queueGrade s := by
  unfold takeFrame
  split <;> simp

@[simp] theorem queueGrade_forwardFrame (n k copies s) : queueGrade (forwardFrame n k copies s) = queueGrade s := by
  unfold forwardFrame
  split <;> simp

@[simp] theorem queueGrade_copyStarted (n k s) : queueGrade (copyStarted n k s) = queueGrade s := by
  unfold copyStarted
  split <;> simp

@[simp] theorem queueGrade_police (t p n s) : queueGrade (police t p n s).2 = queueGrade s := by
  unfold police
  simp only
  split <;> simp

@[simp] theorem queueGrade_noteArrival (q p accepted s) :
    queueGrade (noteArrival q p accepted s) = queueGrade s := by simp [noteArrival]

@[simp] theorem queueGrade_dropPend (id s) : queueGrade (dropPend id s) = queueGrade s := by simp [dropPend]

@[simp] theorem queueGrade_retireDue (k s) : queueGrade (retireDue k s) = queueGrade s := by
  unfold retireDue
  split <;> simp

@[simp] theorem queueGrade_noteReasm (q p s) : queueGrade (noteReasm q p s) = queueGrade s := by
  unfold noteReasm
  split
  · rfl
  · split <;> simp

@[simp] theorem queueGrade_sequenceIn (q n p s) : queueGrade (sequenceIn q n p s).2 = queueGrade s := by
  unfold sequenceIn
  split
  · rfl
  · split
    · simp only
      split <;> simp
    · simp only
      split <;> simp

@[simp] theorem queueGrade_nameInput (p s) : queueGrade (nameInput p s) = queueGrade s := by simp [nameInput]
@[simp] theorem queueGrade_holdInput (n p s) : queueGrade (holdInput n p s) = queueGrade s := by simp [holdInput]

@[simp] theorem queueGrade_terminate (n p act s)
    (hact : ∀ a t, queueGrade (act a t) = queueGrade t) :
    queueGrade (terminate n p act s) = queueGrade s := by
  unfold terminate
  split
  · rfl
  · simp only
    iterate 7 (split; · simp [hact])
    split <;> next h => simp [queueGrade_of_eq h, hact]

@[simp] theorem queueGrade_msgPend (q p k n tag s) : queueGrade (msgPend q p k n tag s).2 = queueGrade s := by
  unfold msgPend
  split
  · simp
  · split
    · simp
    · split
      next h => split <;> simp [queueGrade_of_eq h]

@[simp] theorem queueGrade_answerNow (q p k st tag s) :
    queueGrade (answerNow q p k st tag s) = queueGrade s := by simp [answerNow]

/-! Machine/QueueOps.lean -/

@[simp] theorem queueGrade_queueFault (n code s) : queueGrade (queueFault n code s) = queueGrade s := by
  unfold queueFault
  simp only
  split <;> simp

@[simp] theorem queueGrade_undeliverable (n s) : queueGrade (undeliverable n s) = queueGrade s := by
  unfold undeliverable
  simp only
  split <;> simp

@[simp] theorem queueGrade_settleDisable (n s) :
    queueGrade (settleDisable n s) = queueGrade s := by simp [settleDisable]

@[simp] theorem queueGrade_setGroupSt (g st s) : queueGrade (setGroupSt g st s) = queueGrade s := by simp [setGroupSt]

@[simp] theorem queueGrade_poolWrite (q t pva who d s owner) :
    queueGrade (poolWrite q t pva who d s owner).2 = queueGrade s := by
  unfold poolWrite
  split <;> next h => simp [queueGrade_of_eq h]

@[simp] theorem queueGrade_poolWriteAll (q t pva who d s) :
    queueGrade (poolWriteAll q t pva who d s).2 = queueGrade s := by
  unfold poolWriteAll
  apply queueGrade_foldl_snd
  intro p i
  split <;> simp

@[simp] theorem queueGrade_ringReady (n addrs s) : queueGrade (ringReady n addrs s).2 = queueGrade s := by
  unfold ringReady
  simp only
  split
  · iterate 3 (split; · rfl)
    split <;> simp
  · rfl
  · rfl
  · rfl

@[simp] theorem queueGrade_ringWrite (n addr i c d s) : queueGrade (ringWrite n addr i c d s).2 = queueGrade s := by
  unfold ringWrite
  simp only
  split
  · split
    · simp
    · split <;> simp
  · simp
  · split <;> next h => simp [queueGrade_of_eq h]
  · rfl

@[simp] theorem queueGrade_notify (n s) : queueGrade (notify n s) = queueGrade s := by
  unfold notify
  simp only
  split
  · split <;> simp
  · simp
  · split <;> next h => simp [queueGrade_of_eq h]
  · simp

@[simp] theorem queueGrade_noteNotify (n s) : queueGrade (noteNotify n s) = queueGrade s := by simp [noteNotify]
@[simp] theorem queueGrade_settlePosts (n s) : queueGrade (settlePosts n s) = queueGrade s := by simp [settlePosts]

@[simp] theorem queueGrade_writeExt (c extA i s) :
    queueGrade (writeExt c extA i s).2 = queueGrade s := by simp [writeExt]

@[simp] theorem queueGrade_writeCompl (c s) : queueGrade (writeCompl c s).2 = queueGrade s := by
  unfold writeCompl
  simp only
  split
  · next h =>
    split
    · next h' =>
      split <;> next h'' => simp [queueGrade_of_eq h'', queueGrade_of_eq h', queueGrade_of_eq h]
    · simp [queueGrade_of_eq h]
  · simp

@[simp] theorem queueGrade_retireDesc (c s) : queueGrade (retireDesc c s) = queueGrade s := by simp [retireDesc]
@[simp] theorem queueGrade_holdCompl (c s) : queueGrade (holdCompl c s) = queueGrade s := by simp [holdCompl]

@[simp] theorem queueGrade_deliverCompl (c s) : queueGrade (deliverCompl c s) = queueGrade s := by
  unfold deliverCompl
  simp only
  split
  · rfl
  · rfl
  · simp
  · iterate 3 (split; · simp)
    split <;> next h => simp [queueGrade_of_eq h]

@[simp] theorem queueGrade_flushAwaiting (n s) :
    queueGrade (flushAwaiting n s) = queueGrade s := by simp [flushAwaiting]

@[simp] theorem queueGrade_settleRing (n s) : queueGrade (settleRing n s) = queueGrade s := by
  unfold settleRing
  simp only
  split <;> simp

@[simp] theorem queueGrade_settleRings (s) : queueGrade (settleRings s) = queueGrade s := by simp [settleRings]
@[simp] theorem queueGrade_denyAwaiting (n s) : queueGrade (denyAwaiting n s) = queueGrade s := by simp [denyAwaiting]
@[simp] theorem queueGrade_redeliver (n s) : queueGrade (redeliver n s) = queueGrade s := by simp [redeliver]
@[simp] theorem queueGrade_complete (c s) : queueGrade (complete c s) = queueGrade s := by simp [complete]

@[simp] theorem queueGrade_deliverVerified (s) :
    queueGrade (deliverVerified s) = queueGrade s := by simp [deliverVerified]

@[simp] theorem queueGrade_winWrite (w pva d s) : queueGrade (winWrite w pva d s) = queueGrade s := by
  unfold winWrite
  simp only
  split <;> next h => simp [queueGrade_of_eq h]

@[simp] theorem queueGrade_winCompl (w st ext s) : queueGrade (winCompl w st ext s) = queueGrade s := by simp [winCompl]
@[simp] theorem queueGrade_windowDone (w s) : queueGrade (windowDone w s) = queueGrade s := by simp [windowDone]
@[simp] theorem queueGrade_settleWindows (s) : queueGrade (settleWindows s) = queueGrade s := by simp [settleWindows]
@[simp] theorem queueGrade_settleOrder (s) : queueGrade (settleOrder s) = queueGrade s := by simp [settleOrder]
@[simp] theorem queueGrade_setDesc (n d s) : queueGrade (setDesc n d s) = queueGrade s := by simp [setDesc]

@[simp] theorem queueGrade_scrambleLine (l off b s) :
    queueGrade (scrambleLine l off b s) = queueGrade s := by simp [scrambleLine]

@[simp] theorem queueGrade_scrambleRange (t who r s) : queueGrade (scrambleRange t who r s) = queueGrade s := by
  unfold scrambleRange
  apply queueGrade_forEach
  intro x t
  split
  · rfl
  · simp only
    split
    · rfl
    · split <;> simp

@[simp] theorem queueGrade_scrambleBeats (p s) :
    queueGrade (scrambleBeats p s) = queueGrade s := by simp [scrambleBeats]

@[simp] theorem queueGrade_leaveUndefined (n d k s) :
    queueGrade (leaveUndefined n d k s) = queueGrade s := by simp [leaveUndefined]

@[simp] theorem queueGrade_nmFinish (n d st detail ext s) :
    queueGrade (nmFinish n d st detail ext s) = queueGrade s := by simp [nmFinish]

@[simp] theorem queueGrade_startDesc (n slot s) : queueGrade (startDesc n slot s) = queueGrade s := by
  unfold startDesc
  split <;> simp

@[simp] theorem queueGrade_issueFetch (n s) : queueGrade (issueFetch n s) = queueGrade s := by
  unfold issueFetch
  split
  · simp only
    split
    · rfl
    · split <;> simp
  · rfl

@[simp] theorem queueGrade_descArrive (n d s) : queueGrade (descArrive n d s) = queueGrade s := by simp [descArrive]
@[simp] theorem queueGrade_fetchFailed (n s) : queueGrade (fetchFailed n s) = queueGrade s := by simp [fetchFailed]
@[simp] theorem queueGrade_setLease (h l s) : queueGrade (setLease h l s) = queueGrade s := by simp [setLease]

@[simp] theorem queueGrade_holdExtent (e s) : queueGrade (holdExtent e s) = queueGrade s := by
  unfold holdExtent
  simp only
  split <;> simp

@[simp] theorem queueGrade_unholdExtent (e s) : queueGrade (unholdExtent e s) = queueGrade s := by
  unfold unholdExtent
  simp only
  split <;> simp

@[simp] theorem queueGrade_addTether (t s) : queueGrade (addTether t s).2 = queueGrade s := by
  unfold addTether
  split <;> split <;> simp

@[simp] theorem queueGrade_dropTether (h o s) : queueGrade (dropTether h o s) = queueGrade s := by
  unfold dropTether
  split <;> simp

/-! Machine/EngOps.lean -/

@[simp] theorem queueGrade_locatePieces (a acc pva l s) :
    queueGrade (locatePieces a acc pva l s).2.2 = queueGrade s := by
  induction l generalizing s with
  | nil => rfl
  | cons x r ih =>
    unfold locatePieces
    split
    · next h => simp [queueGrade_of_eq h]
    · next h => simp [ih, queueGrade_of_eq h]

@[simp] theorem queueGrade_locate (a acc pva n s) :
    queueGrade (locate a acc pva n s).2.2 = queueGrade s := by simp [locate]

@[simp] theorem queueGrade_probeLoc (a x s) : queueGrade (probeLoc a x s) = queueGrade s := by simp [probeLoc]

@[simp] theorem queueGrade_engReady (a ranges s) : queueGrade (engReady a ranges s).2 = queueGrade s := by
  unfold engReady
  simp

@[simp] theorem queueGrade_readLocs (a l s) : queueGrade (readLocs a l s).2.2 = queueGrade s := by
  induction l generalizing s with
  | nil => rfl
  | cons x r ih =>
    unfold readLocs
    split <;> next h => simp [ih, queueGrade_of_eq h]

@[simp] theorem queueGrade_engRead (a pva n s) : queueGrade (engRead a pva n s).2 = queueGrade s := by
  unfold engRead
  split
  · next h => simp [queueGrade_of_eq h]
  · next h =>
    simp only
    split <;> next h' => simp [queueGrade_of_eq₃ h', queueGrade_of_eq h]

@[simp] theorem queueGrade_engWrite (a pva d s posOf) :
    queueGrade (engWrite a pva d s posOf).2.2 = queueGrade s := by simp [engWrite]

@[simp] theorem queueGrade_noteFail (a f s) : queueGrade (noteFail a f s).2.2 = queueGrade s := by
  unfold noteFail
  split <;> simp

@[simp] theorem queueGrade_drawOrder (s) : queueGrade (drawOrder s).2 = queueGrade s := by simp [drawOrder]

@[simp] theorem queueGrade_drawOrderAt (place s) :
    queueGrade (drawOrderAt place s).2 = queueGrade s := by simp [drawOrderAt]

/-! Machine/SyncOps.lean -/

@[simp] theorem queueGrade_regFail (o k s) : queueGrade (regFail o k s) = queueGrade s := by simp [regFail]

@[simp] theorem queueGrade_registerObj (o s) : queueGrade (registerObj o s) = queueGrade s := by
  unfold registerObj
  simp only
  iterate 4 (split; · simp)
  split
  · next h => simp [queueGrade_of_eq h]
  · next h => simp [queueGrade_of_eq h]
  · next h => split <;> simp [queueGrade_of_eq h]

@[simp] theorem queueGrade_settleObjs (s) : queueGrade (settleObjs s) = queueGrade s := by simp [settleObjs]

@[simp] theorem queueGrade_wordAtomic (x op operand s) : queueGrade (wordAtomic x op operand s) = queueGrade s := by
  unfold wordAtomic
  split <;> simp

@[simp] theorem queueGrade_markWord (x s) : queueGrade (markWord x s) = queueGrade s := by simp [markWord]
@[simp] theorem queueGrade_abandon (o kind id s) : queueGrade (abandon o kind id s) = queueGrade s := by simp [abandon]

@[simp] theorem queueGrade_memberReset (kind id s) :
    queueGrade (memberReset kind id s) = queueGrade s := by simp [memberReset]

@[simp] theorem queueGrade_markGroupMembers (s) : queueGrade (markGroupMembers s) = queueGrade s := by
  unfold markGroupMembers
  apply queueGrade_forEach
  intro c t
  split <;> simp

/-! Machine/Coherence.lean -/

@[simp] theorem queueGrade_deliverPieces (ppa ps mk lp s) :
    queueGrade (deliverPieces ppa ps mk lp s) = queueGrade s := by simp [deliverPieces]

@[simp] theorem queueGrade_rofRequest (n q p k acc len tag mk s pre)
    (hpre : ∀ a b t, queueGrade (pre a b t) = queueGrade t) :
    queueGrade (rofRequest n q p k acc len tag mk s pre) = queueGrade s := by
  unfold rofRequest
  simp only
  split <;> next h => simp [hpre, queueGrade_of_eq h]

@[simp] theorem queueGrade_ofType (p t f s)
    (hf : ∀ t, queueGrade (f t) = queueGrade t) :
    queueGrade (ofType p t f s) = queueGrade s := by simp [ofType, hf]

@[simp] theorem queueGrade_actRdOnce (n q p s) : queueGrade (actRdOnce n q p s) = queueGrade s := by simp [actRdOnce]

@[simp] theorem queueGrade_actCaching (n q p k acc s) :
    queueGrade (actCaching n q p k acc s) = queueGrade s := by simp [actCaching]

@[simp] theorem queueGrade_actWrLine (n q p s) : queueGrade (actWrLine n q p s) = queueGrade s := by simp [actWrLine]
@[simp] theorem queueGrade_actWrPart (n q p s) : queueGrade (actWrPart n q p s) = queueGrade s := by simp [actWrPart]

@[simp] theorem queueGrade_noteAtomic (n tag t pva op a c ppa s) :
    queueGrade (noteAtomic n tag t pva op a c ppa s) = queueGrade s := by simp [noteAtomic]

@[simp] theorem queueGrade_actAtomic (n q p s) : queueGrade (actAtomic n q p s) = queueGrade s := by
  unfold actAtomic
  apply queueGrade_ofType
  intro t
  simp only
  split
  · split
    · split <;> simp
    · simp
  · split <;> simp

@[simp] theorem queueGrade_absorbAt (e l h data poison isWb s) :
    queueGrade (absorbAt e l h data poison isWb s) = queueGrade s := by
  unfold absorbAt
  extract_lets l u x q v
  have hu : queueGrade u = queueGrade s := by simp [u]
  have hv : queueGrade v = queueGrade s := by simp [v, hu]
  split
  · split <;> simp [hu]
  · split
    · simp [hv]
    · split
      · rw [queueGrade_setDir, queueGrade_absorbData, hv]
      · split <;> simp [hv]

@[simp] theorem queueGrade_actAnswer (e h a miss s) : queueGrade (actAnswer e h a miss s) = queueGrade s := by
  unfold actAnswer
  split <;> simp

@[simp] theorem queueGrade_actData (e h a d poison isWb s) :
    queueGrade (actData e h a d poison isWb s) = queueGrade s := by
  unfold actData
  split <;> simp

@[simp] theorem queueGrade_wbCmp (q p s) : queueGrade (wbCmp q p s) = queueGrade s := by simp [wbCmp]
@[simp] theorem queueGrade_actWrBack (n q p s) : queueGrade (actWrBack n q p s) = queueGrade s := by simp [actWrBack]
@[simp] theorem execRdonce_keepsQueueGrade (n p s) : KeepsQueueGrade (execRdonce n p s) s := by simp [execRdonce]
@[simp] theorem execRdshared_keepsQueueGrade (n p s) : KeepsQueueGrade (execRdshared n p s) s := by simp [execRdshared]
@[simp] theorem execRdown_keepsQueueGrade (n p s) : KeepsQueueGrade (execRdown n p s) s := by simp [execRdown]
@[simp] theorem execUpgrade_keepsQueueGrade (n p s) : KeepsQueueGrade (execUpgrade n p s) s := by simp [execUpgrade]
@[simp] theorem execWrline_keepsQueueGrade (n p s) : KeepsQueueGrade (execWrline n p s) s := by simp [execWrline]
@[simp] theorem execWrpart_keepsQueueGrade (n p s) : KeepsQueueGrade (execWrpart n p s) s := by simp [execWrpart]
@[simp] theorem execWrback_keepsQueueGrade (n p s) : KeepsQueueGrade (execWrback n p s) s := by simp [execWrback]

@[simp] theorem execCleanEvict_keepsQueueGrade (d tag hpa s) : KeepsQueueGrade (execCleanEvict d tag hpa s) s := by
  apply keepsQueueGrade_live
  split <;> simp

@[simp] theorem execAtomic_keepsQueueGrade (n p s) : KeepsQueueGrade (execAtomic n p s) s := by simp [execAtomic]

@[simp] theorem execRecallMiss_keepsQueueGrade (a s) : KeepsQueueGrade (execRecallMiss a s) s := by
  apply keepsQueueGrade_live
  split <;> simp

@[simp] theorem execRecallAck_keepsQueueGrade (a s) : KeepsQueueGrade (execRecallAck a s) s := by
  apply keepsQueueGrade_live
  split <;> simp

@[simp] theorem execRecallData_keepsQueueGrade (a s) : KeepsQueueGrade (execRecallData a s) s := by
  apply keepsQueueGrade_live
  split <;> simp

@[simp] theorem execLineQueueServe_keepsQueueGrade (l s) : KeepsQueueGrade (execLineQueueServe l s) s := by
  unfold execLineQueueServe
  extract_lets s₀ x s₁ s₂
  have h₀ : queueGrade s₀ = queueGrade s := by simp [s₀]
  have h₁ : queueGrade s₁ = queueGrade s₀ := by
    unfold s₁
    split
    · rfl
    · split <;> simp
  simp [s₂, h₁, h₀]

@[simp] theorem execRecallTimeoutFirst_keepsQueueGrade (l now s) :
    KeepsQueueGrade (execRecallTimeoutFirst l now s) s := by simp [execRecallTimeoutFirst]

@[simp] theorem execRecallTimeoutSecond_keepsQueueGrade (l now s) :
    KeepsQueueGrade (execRecallTimeoutSecond l now s) s := by
  apply keepsQueueGrade_live
  split
  · simp
  · split
    · simp only
      split <;> simp
    · simp only
      split <;> simp

@[simp] theorem execBiconflict_keepsQueueGrade (d tag s) :
    KeepsQueueGrade (execBiconflict d tag s) s := by simp [execBiconflict]

@[simp] theorem execMergeHoldExpiry_keepsQueueGrade (l now s) : KeepsQueueGrade (execMergeHoldExpiry l now s) s := by
  apply keepsQueueGrade_live
  split <;> simp

/-! Machine/NmOps.lean -/

@[simp] theorem queueGrade_nmStart (n d s) : queueGrade (nmStart n d s) = queueGrade s := by simp [nmStart]

@[simp] theorem queueGrade_stripeWrite (a p0 pva b after s) :
    queueGrade (stripeWrite a p0 pva b after s).2 = queueGrade s := by simp [stripeWrite]

@[simp] theorem queueGrade_runFill (a d p0 p1 s) :
    queueGrade (runFill a d p0 p1 s).2 = queueGrade s := by simp [runFill]

@[simp] theorem queueGrade_runCopyUp (a d p0 p1 s) : queueGrade (runCopyUp a d p0 p1 s).2 = queueGrade s := by
  unfold runCopyUp
  split <;> next h => simp [queueGrade_of_eq h]

@[simp] theorem queueGrade_readDown (a pva l s) : queueGrade (readDown a pva l s).2.2 = queueGrade s := by
  induction l generalizing s with
  | nil => rfl
  | cons x r ih =>
    unfold readDown
    simp only
    split
    · simp
    · split
      · next h => simp [queueGrade_of_eq₃ h]
      · next h => simp [ih, queueGrade_of_eq₃ h]

@[simp] theorem queueGrade_writeDown (a pva lo top b l s) :
    queueGrade (writeDown a pva lo top b l s).2.2 = queueGrade s := by
  induction l generalizing s with
  | nil => rfl
  | cons x r ih =>
    unfold writeDown
    split
    · next h => simp [queueGrade_of_eq₃ h]
    · next h => simp [ih, queueGrade_of_eq₃ h]

@[simp] theorem queueGrade_runCopyDown (a d p0 p1 s) : queueGrade (runCopyDown a d p0 p1 s).2 = queueGrade s := by
  unfold runCopyDown
  simp only
  split <;> next h => simp [queueGrade_of_eq h]

@[simp] theorem queueGrade_runCompare (a d p0 p1 s) : queueGrade (runCompare a d p0 p1 s).2.2 = queueGrade s := by
  unfold runCompare
  extract_lets n two
  split
  · next h => simp [queueGrade_of_eq h]
  · next h =>
    split
    · next h' => simp [queueGrade_of_eq h', queueGrade_of_eq h]
    · next h' =>
      split
      next u h'' =>
        have hu : queueGrade u = queueGrade s := by
          refine (queueGrade_of_eq₃ h'').trans ?_
          split
          · split <;> next hy => simp [queueGrade_of_eq hy, queueGrade_of_eq h', queueGrade_of_eq h]
          · simp [queueGrade_of_eq h', queueGrade_of_eq h]
        simp only
        split <;> exact hu

@[simp] theorem queueGrade_readNow (a pva n s) : queueGrade (readNow a pva n s).2.2 = queueGrade s := by
  unfold readNow
  split
  next h => split <;> next h' => simp [queueGrade_of_eq₃ h', queueGrade_of_eq₃ h]

@[simp] theorem queueGrade_gatherElems (a d l s) : queueGrade (gatherElems a d l s).2.2 = queueGrade s := by
  induction l generalizing s with
  | nil => rfl
  | cons x r ih =>
    unfold gatherElems
    split
    · rfl
    · split <;> next h => simp [ih, queueGrade_of_eq₃ h]

@[simp] theorem queueGrade_readIndices (a d p0 p1 s) :
    queueGrade (readIndices a d p0 p1 s).2 = queueGrade s := by simp [readIndices]

@[simp] theorem queueGrade_runGather (a d p0 p1 s) : queueGrade (runGather a d p0 p1 s).2 = queueGrade s := by
  unfold runGather
  split
  · next h => simp [queueGrade_of_eq h]
  · next h => 
    simp only
    split <;> next h' => simp [queueGrade_of_eq h', queueGrade_of_eq h]

@[simp] theorem queueGrade_scatterParts (a d k0 b uniq l o s) :
    queueGrade (scatterParts a d k0 b uniq l o s).2 = queueGrade s := by
  induction l generalizing o s with
  | nil => rfl
  | cons x r ih =>
    simp [scatterParts, ih]

@[simp] theorem queueGrade_runScatter (a d p0 p1 s) : queueGrade (runScatter a d p0 p1 s).2 = queueGrade s := by
  unfold runScatter
  split
  · next h => simp [queueGrade_of_eq h]
  · next h => 
    simp only
    split
    · next h' => simp [queueGrade_of_eq h', queueGrade_of_eq h]
    · next h' => split <;> next h'' => simp [queueGrade_of_eq h'', queueGrade_of_eq h', queueGrade_of_eq h]

@[simp] theorem queueGrade_readSources (a off n l s) : queueGrade (readSources a off n l s).2.2 = queueGrade s := by
  induction l generalizing s with
  | nil => rfl
  | cons x r ih =>
    unfold readSources
    split <;> next h => simp [ih, queueGrade_of_eq₃ h]

@[simp] theorem queueGrade_reduceLines (a d srcs l s) : queueGrade (reduceLines a d srcs l s).2.2.2 = queueGrade s := by
  induction l generalizing s with
  | nil => rfl
  | cons x r ih =>
    unfold reduceLines
    simp only
    split
    · next h => simp [queueGrade_of_eq₃ h]
    · next h =>
      split
      · simp [queueGrade_of_eq₃ h]
      · split <;> next h' => simp [ih, queueGrade_of_eq₃ h', queueGrade_of_eq₃ h]

@[simp] theorem queueGrade_runReduce (a d p0 p1 s) : queueGrade (runReduce a d p0 p1 s).2 = queueGrade s := by
  unfold runReduce
  split
  · simp only
    split <;> next h => simp [queueGrade_of_eq h]
  · simp only
    split <;> next h => simp [queueGrade_of_eq h]

@[simp] theorem queueGrade_nmFail (a n slot i pos f s) : queueGrade (nmFail a n slot i pos f s) = queueGrade s := by
  unfold nmFail
  split
  · simp only
    split <;> simp
  · simp only
    split <;> simp

@[simp] theorem queueGrade_runStripe (a n d i s) : queueGrade (runStripe a n d i s) = queueGrade s := by
  unfold runStripe
  extract_lets p0 p1
  split
  next res diff t h =>
    have ht : queueGrade t = queueGrade s := by
      refine (queueGrade_of_eq₃ h).trans ?_
      split
      · split
        next hr => simp [queueGrade_of_eq hr]
      · split
        next hr =>
          refine (queueGrade_of_eq hr).trans ?_
          simp
      · simp
      all_goals
        split
        next hr => simp [queueGrade_of_eq hr]
    split
    · simp only
      split <;> simp [ht]
    · exact ht

/-! Machine/PairOps.lean -/

@[simp] theorem queueGrade_releaseHeld (s) : queueGrade (releaseHeld s) = queueGrade s := by simp [releaseHeld]
@[simp] theorem queueGrade_setFollower (f s) : queueGrade (setFollower f s) = queueGrade s := by simp [setFollower]

@[simp] theorem queueGrade_setPairSt (st stale s) :
    queueGrade (setPairSt st stale s) = queueGrade s := by simp [setPairSt]

@[simp] theorem queueGrade_ackMark (g s) : queueGrade (ackMark g s) = queueGrade s := by simp [ackMark]
@[simp] theorem queueGrade_sendMark (s) : queueGrade (sendMark s) = queueGrade s := by simp [sendMark]
@[simp] theorem queueGrade_beginSync (s) : queueGrade (beginSync s) = queueGrade s := by simp [beginSync]

@[simp] theorem queueGrade_pairLinkChanged (s) : queueGrade (pairLinkChanged s) = queueGrade s := by
  unfold pairLinkChanged
  split <;> split <;> simp

/-! Machine/StopOps.lean -/

@[simp] theorem queueGrade_meterOp (n fj s) : queueGrade (meterOp n fj s) = queueGrade s := by
  unfold meterOp
  simp only
  split
  · split <;> simp
  · simp

@[simp] theorem queueGrade_meterRun (n s) : queueGrade (meterRun n s) = queueGrade s := by
  unfold meterRun
  simp only
  split
  · simp
  · split <;> simp

@[simp] theorem queueGrade_flushBusy (n e s) : queueGrade (flushBusy n e s) = queueGrade s := by
  unfold flushBusy
  split <;> simp

@[simp] theorem queueGrade_flushQuad (q s) : queueGrade (flushQuad q s) = queueGrade s := by simp [flushQuad]
@[simp] theorem queueGrade_setCtx (n i x s) : queueGrade (setCtx n i x s) = queueGrade s := by simp [setCtx]
@[simp] theorem queueGrade_wake (n l s) : queueGrade (wake n l s) = queueGrade s := by simp [wake]
@[simp] theorem queueGrade_wakeSem (n k s) : queueGrade (wakeSem n k s) = queueGrade s := by simp [wakeSem]
@[simp] theorem queueGrade_signalSem (n k s) : queueGrade (signalSem n k s) = queueGrade s := by simp [signalSem]

@[simp] theorem queueGrade_signalOpt (n k s) : queueGrade (signalOpt n k s) = queueGrade s := by
  unfold signalOpt
  split <;> simp

@[simp] theorem queueGrade_setChan9 (p x s) : queueGrade (setChan9 p x s) = queueGrade s := by simp [setChan9]

@[simp] theorem queueGrade_forgetAnswers (ids s) : queueGrade (forgetAnswers ids s) = queueGrade s := by
  unfold forgetAnswers
  apply queueGrade_forEach
  intro i t
  simp only
  split <;> simp

@[simp] theorem queueGrade_leaveCores (jid s) : queueGrade (leaveCores jid s) = queueGrade s := by
  unfold leaveCores
  split
  · rfl
  · simp only
    split <;> simp

@[simp] theorem queueGrade_takeRecord (jid s) : queueGrade (takeRecord jid s).2 = queueGrade s := by
  unfold takeRecord
  split <;> simp

@[simp] theorem queueGrade_quiescePause (jid s) : queueGrade (quiescePause jid s) = queueGrade s := by
  unfold quiescePause
  split
  · next h => split <;> simp [queueGrade_of_eq h]
  · next h => simp only; split <;> simp [queueGrade_of_eq h]

@[simp] theorem queueGrade_freeRecord (r s) : queueGrade (freeRecord r s) = queueGrade s := by
  unfold freeRecord
  simp only
  split <;> simp

@[simp] theorem queueGrade_finishJob (jid st detail ext s) :
    queueGrade (finishJob jid st detail ext s) = queueGrade s := by
  unfold finishJob
  simp only
  split
  · simp
  · split <;> simp

@[simp] theorem queueGrade_freeze (n s) : queueGrade (freeze n s) = queueGrade s := by simp [freeze]
@[simp] theorem queueGrade_freezeAll (j s) : queueGrade (freezeAll j s) = queueGrade s := by simp [freezeAll]

@[simp] theorem queueGrade_endJob (jid st detail ext s) : queueGrade (endJob jid st detail ext s) = queueGrade s := by
  unfold endJob
  split
  · rfl
  · split
    · simp
    · split
      · simp
      · split <;> simp

@[simp] theorem queueGrade_dropJob (jid s) : queueGrade (dropJob jid s) = queueGrade s := by
  unfold dropJob
  simp only
  split
  · simp
  · split <;> simp

@[simp] theorem queueGrade_faultPause (jid s) : queueGrade (faultPause jid s) = queueGrade s := by
  unfold faultPause
  split
  · next h => split <;> simp [queueGrade_of_eq h]
  · next h => simp only; split <;> simp [queueGrade_of_eq h]

@[simp] theorem queueGrade_commitDone (jid n s) : queueGrade (commitDone jid n s) = queueGrade s := by
  unfold commitDone
  split <;> simp

@[simp] theorem queueGrade_settleStop (jid s) : queueGrade (settleStop jid s) = queueGrade s := by
  unfold settleStop
  split
  · rfl
  · split
    · rfl
    · split
      · simp
      · simp
      · simp
      · simp
      · simp
      · simp only
        split <;> simp

@[simp] theorem queueGrade_beginStop (jid why s) : queueGrade (beginStop jid why s) = queueGrade s := by
  unfold beginStop
  split
  · rfl
  · split
    · split <;> simp
    · simp
    · rfl

@[simp] theorem queueGrade_tileFault (jid ext s) : queueGrade (tileFault jid ext s) = queueGrade s := by
  unfold tileFault
  split
  · rfl
  · split <;> simp

@[simp] theorem queueGrade_arrive (n n' s) : queueGrade (arrive n n' s) = queueGrade s := by
  induction n generalizing s with
  | zero => rfl
  | succ n ih =>
    unfold arrive
    simp only
    split
    · rfl
    · split <;> simp [ih]

@[simp] theorem queueGrade_settleArrive (n s) : queueGrade (settleArrive n s) = queueGrade s := by
  unfold settleArrive
  simp only
  split <;> simp

@[simp] theorem queueGrade_fenceJob (n s) : queueGrade (fenceJob n s) = queueGrade s := by
  unfold fenceJob
  split <;> simp

@[simp] theorem queueGrade_fenceCommits (n n' s) : queueGrade (fenceCommits n n' s) = queueGrade s := by
  induction n generalizing s with
  | zero => rfl
  | succ n ih =>
    unfold fenceCommits
    split
    · rfl
    · simp [ih]

@[simp] theorem queueGrade_fenceTest (jid s) : queueGrade (fenceTest jid s) = queueGrade s := by
  unfold fenceTest
  split
  · rfl
  · split
    · split
      · rfl
      · split
        · simp
        · simp only
          split <;> simp
    · split
      · rfl
      · split
        · simp
        · simp only
          split <;> simp

/-! Machine/LeaseOps.lean -/

@[simp] theorem queueGrade_quiesceGroup (g s) : queueGrade (quiesceGroup g s) = queueGrade s := by
  unfold quiesceGroup
  split
  · simp only [queueGrade_ite, queueGrade_bump, queueGrade_setGroupSt, ite_self]
    refine (queueGrade_forEach _ _ _ fun c t => ?_).trans (by simp)
    split
    · rfl
    · split
      · rfl
      · split <;> simp
  · rfl

@[simp] theorem queueGrade_lapse (h s) : queueGrade (lapse h s) = queueGrade s := by
  unfold lapse
  split <;> simp

@[simp] theorem queueGrade_unquiesce (g s) : queueGrade (unquiesce g s) = queueGrade s := by
  unfold unquiesce
  refine (queueGrade_forEach _ _ _ fun c t => ?_).trans (queueGrade_forEach _ _ _ fun c t => ?_)
  · split
    · split <;> simp
    · rfl
  · split <;> simp

@[simp] theorem queueGrade_groupRenewed (g s) : queueGrade (groupRenewed g s) = queueGrade s := by
  unfold groupRenewed
  simp only
  split <;> simp

@[simp] theorem queueGrade_renewAt (h at_ s) : queueGrade (renewAt h at_ s) = queueGrade s := by
  unfold renewAt
  split <;> simp

@[simp] theorem queueGrade_renew (h s) : queueGrade (renew h s) = queueGrade s := by simp [renew]

@[simp] theorem queueGrade_tickLease (h s) : queueGrade (tickLease h s) = queueGrade s := by
  unfold tickLease
  split
  · rfl
  · simp only
    split <;> simp

/-! Machine/PoolOps.lean -/

theorem queueGrade_allocBlocks {n e light pl g s l t}
    (h : allocBlocks n e light pl g s = some (l, t)) : queueGrade t = queueGrade s := by
  induction n generalizing s l t with
  | zero => cases h; rfl
  | succ n ih =>
    unfold allocBlocks at h
    split at h
    · simp only at h
      split at h
      · next h' =>
        cases h
        simpa using ih h'
      · cases h
    · cases h

@[simp] theorem queueGrade_shrinkTo (e keep s) : queueGrade (shrinkTo e keep s) = queueGrade s := by simp [shrinkTo]
@[simp] theorem queueGrade_freeBlocks (l s) : queueGrade (freeBlocks l s) = queueGrade s := by simp [freeBlocks]

@[simp] theorem queueGrade_endExclusive (e d s) : queueGrade (endExclusive e d s) = queueGrade s := by
  unfold endExclusive
  split <;> simp

@[simp] theorem queueGrade_dropGrant (d g s) : queueGrade (dropGrant d g s) = queueGrade s := by simp [dropGrant]
@[simp] theorem queueGrade_startCut (d g s) : queueGrade (startCut d g s) = queueGrade s := by simp [startCut]
@[simp] theorem queueGrade_setDcOps (l s) : queueGrade (setDcOps l s) = queueGrade s := by simp [setDcOps]
@[simp] theorem queueGrade_dropDc (o s) : queueGrade (dropDc o s) = queueGrade s := by simp [dropDc]
@[simp] theorem queueGrade_replaceDc (o o' s) : queueGrade (replaceDc o o' s) = queueGrade s := by simp [replaceDc]

@[simp] theorem queueGrade_sendDc (e add s) : queueGrade (sendDc e add s) = queueGrade s := by
  unfold sendDc
  split <;> simp

@[simp] theorem queueGrade_beginRelease (e s) : queueGrade (beginRelease e s) = queueGrade s := by
  simp only [beginRelease, queueGrade_setExtent]
  generalize hw : withdrawExtent e _ = w
  have hq : queueGrade w = queueGrade s := by simp [← hw]
  clear hw
  apply of_queueGrade_eq w hq
  intro t ht
  split
  · split
    · simp [ht]
    · exact ht
  · exact ht

@[simp] theorem queueGrade_settleRetire (e s) : queueGrade (settleRetire e s) = queueGrade s := by
  unfold settleRetire
  simp only
  split
  · rfl
  · split <;> simp

@[simp] theorem queueGrade_releaseOne (h o s) : queueGrade (releaseOne h o s) = queueGrade s := by
  unfold releaseOne
  split <;> simp

@[simp] theorem queueGrade_endGrant (d g s) : queueGrade (endGrant d g s) = queueGrade s := by simp [endGrant]

@[simp] theorem queueGrade_orderCut (d g s) : queueGrade (orderCut d g s) = queueGrade s := by
  unfold orderCut
  simp only
  split <;> simp

@[simp] theorem queueGrade_orderCuts (e s) : queueGrade (orderCuts e s) = queueGrade s := by simp [orderCuts]

@[simp] theorem queueGrade_recallOwned (bs s) : queueGrade (recallOwned bs s) = queueGrade s := by
  unfold recallOwned
  apply queueGrade_forEach
  intro c t
  split
  · rfl
  · split
    exact queueGrade_startRecall ..

/-! Machine/Queues.lean -/

@[simp] theorem queueGrade_applyDoorbell (n w at_ s) : queueGrade (applyDoorbell n w at_ s) = queueGrade s := by
  unfold applyDoorbell
  split <;> simp

@[simp] theorem queueGrade_doorbellAt (n w at_ s) :
    queueGrade (doorbellAt n w at_ s) = queueGrade s := by simp [doorbellAt]

@[simp] theorem queueGrade_doorbell (n w s) : queueGrade (doorbell n w s) = queueGrade s := by simp [doorbell]

@[simp] theorem execSqTailDoorbell_keepsQueueGrade (n value rsvd s) :
    KeepsQueueGrade (execSqTailDoorbell n value rsvd s) s := by simp [execSqTailDoorbell]

@[simp] theorem execCqHeadDoorbell_keepsQueueGrade (n value rsvd s) :
    KeepsQueueGrade (execCqHeadDoorbell n value rsvd s) s := by simp [execCqHeadDoorbell]

@[simp] theorem execHeartbeatDoorbell_keepsQueueGrade (n value rsvd s) :
    KeepsQueueGrade (execHeartbeatDoorbell n value rsvd s) s := by simp [execHeartbeatDoorbell]

@[simp] theorem execReservedKindDoorbell_keepsQueueGrade (n value rsvd s) :
    KeepsQueueGrade (execReservedKindDoorbell n value rsvd s) s := by simp [execReservedKindDoorbell]

@[simp] theorem execForeignDoorbell_keepsQueueGrade (_n s) :
    KeepsQueueGrade (execForeignDoorbell _n s) s := by simp [execForeignDoorbell]

@[simp] theorem queueGrade_actDoorbell (p s) : queueGrade (actDoorbell p s) = queueGrade s := by simp [actDoorbell]

@[simp] theorem execDoorbellPacket_keepsQueueGrade (port p s) :
    KeepsQueueGrade (execDoorbellPacket port p s) s := by simp [execDoorbellPacket]

@[simp] theorem execPoolDoorbellRead_keepsQueueGrade (g s) : KeepsQueueGrade (execPoolDoorbellRead g s) s := by
  apply keepsQueueGrade_live
  split
  · rfl
  · split <;> next h => simp [queueGrade_of_eq h]

@[simp] theorem execDescriptorFetch_keepsQueueGrade (n s) : KeepsQueueGrade (execDescriptorFetch n s) s := by
  apply keepsQueueGrade_live
  split
  · rfl
  · split
    · simp
    · rfl
    · simp
    · simp only
      split <;> next h => simp [queueGrade_of_eq h]

@[simp] theorem execRingReadFailed_keepsQueueGrade (n s) :
    KeepsQueueGrade (execRingReadFailed n s) s := by simp [execRingReadFailed]

@[simp] theorem queueGrade_startOp (op n slot f s)
    (hf : ∀ a t, queueGrade (f a t) = queueGrade t) :
    queueGrade (startOp op n slot f s) = queueGrade s := by
  unfold startOp
  split
  · rfl
  · split
    · rfl
    · split <;> simp [hf]

@[simp] theorem execNop_keepsQueueGrade (n slot s) : KeepsQueueGrade (execNop n slot s) s := by simp [execNop]

@[simp] theorem execReservedOpcode_keepsQueueGrade (n slot s) : KeepsQueueGrade (execReservedOpcode n slot s) s := by
  apply keepsQueueGrade_live
  split
  · rfl
  · split <;> simp

@[simp] theorem execCoalesceTimerExpiry_keepsQueueGrade (n now s) :
    KeepsQueueGrade (execCoalesceTimerExpiry n now s) s := by simp [execCoalesceTimerExpiry]

@[simp] theorem execDescriptorTimeLimitExpiry_keepsQueueGrade (n slot now s) :
    KeepsQueueGrade (execDescriptorTimeLimitExpiry n slot now s) s := by
  apply keepsQueueGrade_live
  split
  · simp
  · split
    · split
      · split <;> simp
      · simp
    · simp

@[simp] theorem queueGrade_queueWrite (n f s)
    (hf : ∀ t, queueGrade (f t) = queueGrade t) :
    queueGrade (queueWrite n f s) = queueGrade s := by simp [queueWrite, hf]

@[simp] theorem queueGrade_enableQueue (n s) : queueGrade (enableQueue n s) = queueGrade s := by
  unfold enableQueue
  simp only
  split <;> simp

@[simp] theorem execQueueEnable_keepsQueueGrade (n s) :
    KeepsQueueGrade (execQueueEnable n s) s := by simp [execQueueEnable]

@[simp] theorem queueGrade_disableQueue (n s) : queueGrade (disableQueue n s) = queueGrade s := by
  unfold disableQueue
  simp only
  split <;> simp

@[simp] theorem execQueueDisable_keepsQueueGrade (n s) :
    KeepsQueueGrade (execQueueDisable n s) s := by simp [execQueueDisable]

@[simp] theorem queueGrade_restartQueue (n s) : queueGrade (restartQueue n s) = queueGrade s := by simp [restartQueue]

@[simp] theorem execQueueRestart_keepsQueueGrade (n s) :
    KeepsQueueGrade (execQueueRestart n s) s := by simp [execQueueRestart]

@[simp] theorem execGroupBind_keepsQueueGrade (g t o q dbPva s) :
    KeepsQueueGrade (execGroupBind g t o q dbPva s) s := by
  apply keepsQueueGrade_served
  iterate 2 (split; · simp)
  split <;> next h => simp [queueGrade_of_eq h]

@[simp] theorem queueGrade_stopJobs (g s) : queueGrade (stopJobs g s) = queueGrade s := by
  unfold stopJobs
  apply queueGrade_forEach
  intro c t
  split
  · rfl
  · split
    · rfl
    · split <;> simp

@[simp] theorem queueGrade_releaseGroup (g s) : queueGrade (releaseGroup g s) = queueGrade s := by simp [releaseGroup]

@[simp] theorem execGroupRelease_keepsQueueGrade (g s) : KeepsQueueGrade (execGroupRelease g s) s := by
  apply keepsQueueGrade_served
  split <;> simp

@[simp] theorem execGroupQuiesceDrained_keepsQueueGrade (g s) :
    KeepsQueueGrade (execGroupQuiesceDrained g s) s := by simp [execGroupQuiesceDrained]

@[simp] theorem queueGrade_rearmDeliver (l s) : queueGrade (rearmDeliver l s).2.2 = queueGrade s := by
  induction l generalizing s with
  | nil => rfl
  | cons x r ih =>
    unfold rearmDeliver
    split <;> next h => simp [ih, queueGrade_of_eq h]

@[simp] theorem execGroupRearm_keepsQueueGrade (g s) : KeepsQueueGrade (execGroupRearm g s) s := by
  apply keepsQueueGrade_served
  split
  · simp
  · simp only
    split <;> simp

@[simp] theorem queueGrade_unbindGroup (g s) : queueGrade (unbindGroup g s) = queueGrade s := by
  unfold unbindGroup
  simp only [queueGrade_setGroup, queueGrade_forEach, queueGrade_releaseOne, implies_true, queueGrade_setQueue]
  apply queueGrade_forEach
  intro c t
  split
  · split <;> simp
  · rfl

@[simp] theorem execGroupReleaseDrained_keepsQueueGrade (g s) :
    KeepsQueueGrade (execGroupReleaseDrained g s) s := by simp [execGroupReleaseDrained]

/-! Machine/NearMem.lean -/

@[simp] theorem execFill_keepsQueueGrade (n slot s) : KeepsQueueGrade (execFill n slot s) s := by simp [execFill]
@[simp] theorem execCopy_keepsQueueGrade (n slot s) : KeepsQueueGrade (execCopy n slot s) s := by simp [execCopy]

@[simp] theorem execCompare_keepsQueueGrade (n slot s) :
    KeepsQueueGrade (execCompare n slot s) s := by simp [execCompare]

@[simp] theorem execGather_keepsQueueGrade (n slot s) : KeepsQueueGrade (execGather n slot s) s := by simp [execGather]

@[simp] theorem execScatter_keepsQueueGrade (n slot s) :
    KeepsQueueGrade (execScatter n slot s) s := by simp [execScatter]

@[simp] theorem execReduce_keepsQueueGrade (n slot s) : KeepsQueueGrade (execReduce n slot s) s := by simp [execReduce]

@[simp] theorem execStripeStart_keepsQueueGrade (n slot i c s) : KeepsQueueGrade (execStripeStart n slot i c s) s := by
  apply keepsQueueGrade_live
  split
  · rfl
  · split
    · rfl
    · simp only
      split
      · split <;> next h => simp [queueGrade_of_eq h]
      · simp

@[simp] theorem execNmFirstFailureKnown_keepsQueueGrade (n slot s) :
    KeepsQueueGrade (execNmFirstFailureKnown n slot s) s := by
  apply keepsQueueGrade_live
  split <;> simp

@[simp] theorem execNmDescriptorComplete_keepsQueueGrade (n slot s) :
    KeepsQueueGrade (execNmDescriptorComplete n slot s) s := by
  apply keepsQueueGrade_live
  split
  · rfl
  · split
    · rfl
    · split
      · simp
      · split <;> simp

@[simp] theorem queueGrade_actReduceWr (n q p s) :
    queueGrade (actReduceWr n q p s) = queueGrade s := by simp [actReduceWr]

@[simp] theorem execReduceWr_keepsQueueGrade (port p s) :
    KeepsQueueGrade (execReduceWr port p s) s := by simp [execReduceWr]

@[simp] theorem queueGrade_winPartial (w s) : queueGrade (winPartial w s) = queueGrade s := by
  unfold winPartial
  simp only
  split
  · rfl
  · split <;> simp

@[simp] theorem queueGrade_winContribute (c r lp via open_ answer refused s)
    (hopen_ : ∀ t, queueGrade (open_ t).2 = queueGrade t)
    (hanswer : ∀ a t, queueGrade (answer a t) = queueGrade t)
    (hrefused : ∀ a b t, queueGrade (refused a b t) = queueGrade t) :
    queueGrade (winContribute c r lp via open_ answer refused s) = queueGrade s := by
  unfold winContribute
  simp only
  split
  · simp [hanswer]
  · split <;> next h => simp [hrefused, hopen_, queueGrade_of_eq h]

@[simp] theorem queueGrade_actReduceWrW (n q p s) :
    queueGrade (actReduceWrW n q p s) = queueGrade s := by simp [actReduceWrW]

@[simp] theorem execReduceWrW_keepsQueueGrade (port p s) :
    KeepsQueueGrade (execReduceWrW port p s) s := by simp [execReduceWrW]

@[simp] theorem execRwinAssign_keepsQueueGrade (w t s) :
    KeepsQueueGrade (execRwinAssign w t s) s := by simp [execRwinAssign]

@[simp] theorem queueGrade_winFill (w s) : queueGrade (winFill w s) = queueGrade s := by
  unfold winFill
  apply queueGrade_forEach
  intro i t
  simp only
  split <;> simp

@[simp] theorem queueGrade_armWindow (w s) : queueGrade (armWindow w s) = queueGrade s := by simp [armWindow]

@[simp] theorem execRwinArm_keepsQueueGrade (w contributors s) :
    KeepsQueueGrade (execRwinArm w contributors s) s := by simp [execRwinArm]

@[simp] theorem execRwinArmFillDone_keepsQueueGrade (w now s) :
    KeepsQueueGrade (execRwinArmFillDone w now s) s := by simp [execRwinArmFillDone]

@[simp] theorem queueGrade_disarmWindow (w s) : queueGrade (disarmWindow w s) = queueGrade s := by simp [disarmWindow]

@[simp] theorem execRwinDisarm_keepsQueueGrade (w s) :
    KeepsQueueGrade (execRwinDisarm w s) s := by simp [execRwinDisarm]

@[simp] theorem execRwinDisarmDone_keepsQueueGrade (w s) :
    KeepsQueueGrade (execRwinDisarmDone w s) s := by simp [execRwinDisarmDone]

@[simp] theorem execCollectiveDeadlineExpiry_keepsQueueGrade (w now s) :
    KeepsQueueGrade (execCollectiveDeadlineExpiry w now s) s := by simp [execCollectiveDeadlineExpiry]

/-! Machine/CoreOps.lean -/

@[simp] theorem queueGrade_startWait (n i cause number s) :
    queueGrade (startWait n i cause number s) = queueGrade s := by simp [startWait]

@[simp] theorem queueGrade_dispatch (k n i f s)
    (hf : ∀ a t, queueGrade (f a t) = queueGrade t) :
    queueGrade (dispatch k n i f s) = queueGrade s := by
  unfold dispatch
  split <;> simp [hf]

@[simp] theorem queueGrade_csRead (n e i a k s) : queueGrade (csRead n e i a k s).2 = queueGrade s := by simp [csRead]

@[simp] theorem queueGrade_setAcc (n eng acc rows f s) :
    queueGrade (setAcc n eng acc rows f s) = queueGrade s := by simp [setAcc]

@[simp] theorem queueGrade_spoilOp (n o later s) : queueGrade (spoilOp n o later s) = queueGrade s := by
  unfold spoilOp
  simp only
  split <;> simp

@[simp] theorem queueGrade_spoil (n l s) : queueGrade (spoil n l s) = queueGrade s := by
  induction l generalizing s with
  | nil => rfl
  | cons x r ih =>
    simp [spoil, ih]

@[simp] theorem queueGrade_spoilReaders (n e i r s) :
    queueGrade (spoilReaders n e i r s) = queueGrade s := by simp [spoilReaders]

@[simp] theorem queueGrade_csWrite (n e i a d s) : queueGrade (csWrite n e i a d s) = queueGrade s := by simp [csWrite]

@[simp] theorem queueGrade_enqueueOp (k t s lines rd pool waits) :
    queueGrade (enqueueOp k t s lines rd pool waits) = queueGrade s := by simp [enqueueOp]

@[simp] theorem queueGrade_checkPages (t acc first l l' s) :
    queueGrade (checkPages t acc first l l' s).2.2 = queueGrade s := by
  induction l generalizing l' s with
  | nil => rfl
  | cons x r ih =>
    unfold checkPages
    simp only
    split <;> next h => simp [ih, queueGrade_of_eq h]

@[simp] theorem queueGrade_checkRows (t acc lo hi n first l l' s) :
    queueGrade (checkRows t acc lo hi n first l l' s).2.2 = queueGrade s := by
  induction l generalizing l' s with
  | nil => rfl
  | cons x r ih =>
    unfold checkRows
    split
    · rfl
    · split
      · next h => simp [ih, queueGrade_of_eq₃ h]
      · simp

@[simp] theorem queueGrade_moveFault (t r pva s) :
    queueGrade (moveFault t r pva s) = queueGrade s := by simp [moveFault]

@[simp] theorem queueGrade_readRows (t n l s) : queueGrade (readRows t n l s).2 = queueGrade s := by
  induction l generalizing s with
  | nil => rfl
  | cons x r ih =>
    unfold readRows
    simp only
    split
    · next h => simp [queueGrade_of_eq h]
    · next h => simp [queueGrade_of_eq h]
    · next h =>
      split
      · simp [queueGrade_of_eq h]
      · split
        · next h' => simp [queueGrade_of_eq h', ih, queueGrade_of_eq h]
        · simp [ih, queueGrade_of_eq h]

@[simp] theorem queueGrade_moveEnds (t f s) : queueGrade (moveEnds t f s) = queueGrade s := by simp [moveEnds]

@[simp] theorem queueGrade_rowsReady (t n rows s) : queueGrade (rowsReady t n rows s).2 = queueGrade s := by
  unfold rowsReady
  simp

@[simp] theorem queueGrade_releaseCore (n c s) : queueGrade (releaseCore n c s) = queueGrade s := by simp [releaseCore]

@[simp] theorem queueGrade_barrierCheck (n s) : queueGrade (barrierCheck n s) = queueGrade s := by
  unfold barrierCheck
  split
  · split
    · simp
    · split <;> simp
  · rfl

@[simp] theorem queueGrade_completeEpisode (p s) : queueGrade (completeEpisode p s) = queueGrade s := by
  unfold completeEpisode
  simp only
  split
  · rfl
  · split <;> simp

@[simp] theorem queueGrade_collectWaits (jid s) : queueGrade (collectWaits jid s) = queueGrade s := by
  unfold collectWaits
  split
  · rfl
  · apply queueGrade_forEach
    intro w t
    split
    · rfl
    · simp only
      split
      · simp
      · split <;> simp

@[simp] theorem queueGrade_atomicResult (jid e old s) : queueGrade (atomicResult jid e old s) = queueGrade s := by
  unfold atomicResult
  split
  · rfl
  · split
    · simp only
      split <;> simp
    · simp only
      split <;> simp

@[simp] theorem queueGrade_collectEffects (jid s) : queueGrade (collectEffects jid s) = queueGrade s := by
  unfold collectEffects
  split
  · rfl
  · apply queueGrade_forEach
    intro x t
    split
    · rfl
    · simp only
      split
      · simp
      · split <;> simp

@[simp] theorem queueGrade_collect (jid s) : queueGrade (collect jid s) = queueGrade s := by simp [collect]

/-! Machine/Cores.lean -/

@[simp] theorem execSalu_keepsQueueGrade (n c s) : KeepsQueueGrade (execSalu n c s) s := by simp [execSalu]
@[simp] theorem execBranch_keepsQueueGrade (n c s) : KeepsQueueGrade (execBranch n c s) s := by simp [execBranch]
@[simp] theorem execSync_keepsQueueGrade (n c s) : KeepsQueueGrade (execSync n c s) s := by simp [execSync]
@[simp] theorem execBarrier_keepsQueueGrade (n c s) : KeepsQueueGrade (execBarrier n c s) s := by simp [execBarrier]

@[simp] theorem execBarrierRelease_keepsQueueGrade (p now s) :
    KeepsQueueGrade (execBarrierRelease p now s) s := by simp [execBarrierRelease]

@[simp] theorem execCommit_keepsQueueGrade (n c s) : KeepsQueueGrade (execCommit n c s) s := by simp [execCommit]
@[simp] theorem execEndOp_keepsQueueGrade (n c s) : KeepsQueueGrade (execEndOp n c s) s := by simp [execEndOp]

@[simp] theorem queueGrade_checkSlot (t acc n rows s) :
    queueGrade (checkSlot t acc n rows s).2 = queueGrade s := by simp [checkSlot]

@[simp] theorem queueGrade_runTload (t s) : queueGrade (runTload t s).2 = queueGrade s := by
  unfold runTload
  simp only
  split
  · simp
  · split
    · next h => simp [queueGrade_of_eq h]
    · next h => split <;> next h' => simp [queueGrade_of_eq h', queueGrade_of_eq h]

@[simp] theorem queueGrade_storeRows (t n l l' s) : queueGrade (storeRows t n l l' s).2 = queueGrade s := by
  induction l generalizing l' s with
  | nil => rfl
  | cons x r ih =>
    unfold storeRows
    split <;> next h => simp [ih, queueGrade_of_eq₃ h]

@[simp] theorem queueGrade_runTstore (t s) : queueGrade (runTstore t s).2 = queueGrade s := by
  unfold runTstore
  simp only
  split <;> next h => simp [queueGrade_of_eq h]

@[simp] theorem queueGrade_runTreducew (t s) : queueGrade (runTreducew t s).2 = queueGrade s := by
  unfold runTreducew
  simp only
  split
  · simp
  · simp only [queueGrade_collectWaits, queueGrade_settleOrder]
    refine (queueGrade_winContribute _ _ _ _ _ _ _ _ (fun t => ?_) (fun st t => ?_) fun r p t => ?_).trans ?_
    · simp only
      split <;> simp
    · split <;> simp
    · simp
    · simp

@[simp] theorem queueGrade_runTcopy (t s) : queueGrade (runTcopy t s).2 = queueGrade s := by simp [runTcopy]

@[simp] theorem queueGrade_runMove (k t s) : queueGrade (runMove k t s).2 = queueGrade s := by
  unfold runMove
  split <;> simp

@[simp] theorem queueGrade_enterMove (k t s lines rd pool) :
    queueGrade (enterMove k t s lines rd pool) = queueGrade s := by
  unfold enterMove
  simp only
  split
  · simp
  · split <;> next h => simp [queueGrade_of_eq h]

@[simp] theorem execTload_keepsQueueGrade (n c s) : KeepsQueueGrade (execTload n c s) s := by
  refine keepsQueueGrade_live (queueGrade_dispatch _ _ _ _ _ fun t u => ?_)
  simp only
  split
  · split <;> simp
  · split <;> next h => simp [queueGrade_of_eq h]

@[simp] theorem execTstore_keepsQueueGrade (n c s) : KeepsQueueGrade (execTstore n c s) s := by
  refine keepsQueueGrade_live (queueGrade_dispatch _ _ _ _ _ fun t u => ?_)
  simp only
  split <;> next h => simp [queueGrade_of_eq h]

@[simp] theorem queueGrade_holdEffect (t e s) : queueGrade (holdEffect t e s) = queueGrade s := by
  unfold holdEffect
  split <;> simp

@[simp] theorem execTreduce_keepsQueueGrade (n c s) : KeepsQueueGrade (execTreduce n c s) s := by
  refine keepsQueueGrade_live (queueGrade_dispatch _ _ _ _ _ fun t u => ?_)
  simp only
  split <;> simp

@[simp] theorem execTatomic_keepsQueueGrade (n c s) : KeepsQueueGrade (execTatomic n c s) s := by simp [execTatomic]
@[simp] theorem execTreducew_keepsQueueGrade (n c s) : KeepsQueueGrade (execTreducew n c s) s := by simp [execTreducew]
@[simp] theorem execTcopy_keepsQueueGrade (n c s) : KeepsQueueGrade (execTcopy n c s) s := by simp [execTcopy]
@[simp] theorem execMma_keepsQueueGrade (n c s) : KeepsQueueGrade (execMma n c s) s := by simp [execMma]
@[simp] theorem execAccrd_keepsQueueGrade (n c s) : KeepsQueueGrade (execAccrd n c s) s := by simp [execAccrd]
@[simp] theorem execAccwr_keepsQueueGrade (n c s) : KeepsQueueGrade (execAccwr n c s) s := by simp [execAccwr]

@[simp] theorem queueGrade_vecCodes (t a n code s) :
    queueGrade (vecCodes t a n code s).2 = queueGrade s := by simp [vecCodes]

@[simp] theorem execVbin_keepsQueueGrade (n c s) : KeepsQueueGrade (execVbin n c s) s := by simp [execVbin]
@[simp] theorem execVfma_keepsQueueGrade (n c s) : KeepsQueueGrade (execVfma n c s) s := by simp [execVfma]
@[simp] theorem execVfunc_keepsQueueGrade (n c s) : KeepsQueueGrade (execVfunc n c s) s := by simp [execVfunc]
@[simp] theorem execVrowred_keepsQueueGrade (n c s) : KeepsQueueGrade (execVrowred n c s) s := by simp [execVrowred]
@[simp] theorem execVbcast_keepsQueueGrade (n c s) : KeepsQueueGrade (execVbcast n c s) s := by simp [execVbcast]
@[simp] theorem execVcvt_keepsQueueGrade (n c s) : KeepsQueueGrade (execVcvt n c s) s := by simp [execVcvt]
@[simp] theorem execRacc_keepsQueueGrade (n c s) : KeepsQueueGrade (execRacc n c s) s := by simp [execRacc]

@[simp] theorem queueGrade_runOldest (n o s) : queueGrade (runOldest n o s).2 = queueGrade s := by
  unfold runOldest
  split
  · rfl
  · split <;> simp

@[simp] theorem execTileOpComplete_keepsQueueGrade (n e now s) : KeepsQueueGrade (execTileOpComplete n e now s) s := by
  apply keepsQueueGrade_live
  split
  · simp
  · split
    · next h =>
      simp only
      split <;> simp [queueGrade_of_eq h]
    · next h => simp [queueGrade_of_eq h]

/-! Machine/CxlOps.lean -/

@[simp] theorem queueGrade_closeWindow (d g s) : queueGrade (closeWindow d g s) = queueGrade s := by
  unfold closeWindow
  simp only
  split <;> simp

@[simp] theorem queueGrade_resetLd (d s) : queueGrade (resetLd d s) = queueGrade s := by simp [resetLd]
@[simp] theorem queueGrade_setLink (p st s) : queueGrade (setLink p st s) = queueGrade s := by simp [setLink]
@[simp] theorem queueGrade_linkDown (p st s) : queueGrade (linkDown p st s) = queueGrade s := by simp [linkDown]
@[simp] theorem queueGrade_trainCxl (p s) : queueGrade (trainCxl p s) = queueGrade s := by simp [trainCxl]

@[simp] theorem queueGrade_noteRefused (d hpa s) : queueGrade (noteRefused d hpa s) = queueGrade s := by
  unfold noteRefused
  split <;> simp

/-! Machine/Cxl.lean -/

@[simp] theorem queueGrade_cxlRequest (d tag hpa k acc mk isWrite refused s)
    (hrefused : ∀ t, queueGrade (refused t) = queueGrade t) :
    queueGrade (cxlRequest d tag hpa k acc mk isWrite refused s) = queueGrade s := by
  unfold cxlRequest
  simp only
  split <;> next h => simp [hrefused, queueGrade_of_eq h]

@[simp] theorem queueGrade_cxlRead (d tag hpa m s) : queueGrade (cxlRead d tag hpa m s) = queueGrade s := by
  unfold cxlRead
  split <;> simp

@[simp] theorem execCxlMemRead_keepsQueueGrade (d tag hpa m s) :
    KeepsQueueGrade (execCxlMemRead d tag hpa m s) s := by simp [execCxlMemRead]

@[simp] theorem queueGrade_cxlWrite (d tag hpa mask data poison s) :
    queueGrade (cxlWrite d tag hpa mask data poison s) = queueGrade s := by
  unfold cxlWrite
  split
  · simp
  · split <;> simp

@[simp] theorem execCxlMemWrite_keepsQueueGrade (d tag hpa mask data poison s) :
    KeepsQueueGrade (execCxlMemWrite d tag hpa mask data poison s) s := by simp [execCxlMemWrite]

@[simp] theorem queueGrade_cxlInv (d tag hpa s) : queueGrade (cxlInv d tag hpa s) = queueGrade s := by
  unfold cxlInv
  split <;> simp

@[simp] theorem execCxlMemInv_keepsQueueGrade (d tag hpa s) :
    KeepsQueueGrade (execCxlMemInv d tag hpa s) s := by simp [execCxlMemInv]

@[simp] theorem execCxlLinkTrained_keepsQueueGrade (p version width rate mldSwitch lds now s) :
    KeepsQueueGrade (execCxlLinkTrained p version width rate mldSwitch lds now s) s := by simp [execCxlLinkTrained]

@[simp] theorem execLinkDown_keepsQueueGrade (p now s) :
    KeepsQueueGrade (execLinkDown p now s) s := by simp [execLinkDown]

@[simp] theorem execLinkDownScanComplete_keepsQueueGrade (p now s) :
    KeepsQueueGrade (execLinkDownScanComplete p now s) s := by
  apply keepsQueueGrade_live
  split
  · simp
  · split <;> simp

@[simp] theorem execDirectoryScan_keepsQueueGrade (l s) :
    KeepsQueueGrade (execDirectoryScan l s) s := by simp [execDirectoryScan]

@[simp] theorem execConventionalReset_keepsQueueGrade (p now s) :
    KeepsQueueGrade (execConventionalReset p now s) s := by simp [execConventionalReset]

@[simp] theorem execResetLd_keepsQueueGrade (d s) : KeepsQueueGrade (execResetLd d s) s := by simp [execResetLd]
@[simp] theorem execBindLd_keepsQueueGrade (d t s) : KeepsQueueGrade (execBindLd d t s) s := by simp [execBindLd]

@[simp] theorem execPortEnable_keepsQueueGrade (p enable ctl now s) :
    KeepsQueueGrade (execPortEnable p enable ctl now s) s := by simp [execPortEnable]

@[simp] theorem execGrantExtent_keepsQueueGrade (d e mode s) : KeepsQueueGrade (execGrantExtent d e mode s) s := by
  apply keepsQueueGrade_served
  split
  · simp
  · split
    · split <;> next h => simp [queueGrade_of_eq h]
    · simp

@[simp] theorem queueGrade_setDecErr (d k e s) : queueGrade (setDecErr d k e s) = queueGrade s := by simp [setDecErr]

@[simp] theorem execHdmDecoderCommit_keepsQueueGrade (d k dpa size hpa ways s) :
    KeepsQueueGrade (execHdmDecoderCommit d k dpa size hpa ways s) s := by
  apply keepsQueueGrade_live
  split
  · rfl
  · split <;> simp

@[simp] theorem execHdmDecoderDecommit_keepsQueueGrade (d k s) : KeepsQueueGrade (execHdmDecoderDecommit d k s) s := by
  apply keepsQueueGrade_live
  split <;> simp

@[simp] theorem execInitiateDynamicCapacityAdd_keepsQueueGrade (e n s) :
    KeepsQueueGrade (execInitiateDynamicCapacityAdd e n s) s := by
  apply keepsQueueGrade_served
  iterate 2 (split; · simp)
  split
  · simp
  · next h => simp [queueGrade_allocBlocks h]

@[simp] theorem queueGrade_failAdd (o s) : queueGrade (failAdd o s) = queueGrade s := by
  unfold failAdd
  split <;> simp

@[simp] theorem queueGrade_joinAdd (o s) : queueGrade (joinAdd o s) = queueGrade s := by
  unfold joinAdd
  split <;> simp

@[simp] theorem queueGrade_finishRelease (o s) : queueGrade (finishRelease o s) = queueGrade s := by
  unfold finishRelease
  split <;> simp

@[simp] theorem queueGrade_settleDc (e s) : queueGrade (settleDc e s) = queueGrade s := by
  unfold settleDc
  apply queueGrade_forEach
  intro o t
  split <;> simp

@[simp] theorem execRevokeGrant_keepsQueueGrade (d g s) : KeepsQueueGrade (execRevokeGrant d g s) s := by
  apply keepsQueueGrade_served
  split <;> simp

@[simp] theorem execAddDynamicCapacityResponse_keepsQueueGrade (d e accept s) :
    KeepsQueueGrade (execAddDynamicCapacityResponse d e accept s) s := by
  apply keepsQueueGrade_live
  split
  · rfl
  · split
    · simp
    · split <;> simp

@[simp] theorem execDcResponseTimeout_keepsQueueGrade (e add now s) :
    KeepsQueueGrade (execDcResponseTimeout e add now s) s := by
  apply keepsQueueGrade_live
  split <;> simp

@[simp] theorem execInitiateDynamicCapacityRelease_keepsQueueGrade (e n forced s) :
    KeepsQueueGrade (execInitiateDynamicCapacityRelease e n forced s) s := by simp [execInitiateDynamicCapacityRelease]

@[simp] theorem execReleaseDynamicCapacity_keepsQueueGrade (d e s) :
    KeepsQueueGrade (execReleaseDynamicCapacity d e s) s := by
  apply keepsQueueGrade_live
  split
  · rfl
  · split
    · simp
    · split <;> simp

@[simp] theorem queueGrade_afterCut (e s) : queueGrade (afterCut e s) = queueGrade s := by simp [afterCut]
@[simp] theorem queueGrade_reachCut (d g s) : queueGrade (reachCut d g s) = queueGrade s := by simp [reachCut]
@[simp] theorem execCut_keepsQueueGrade (e p s) : KeepsQueueGrade (execCut e p s) s := by simp [execCut]

@[simp] theorem queueGrade_reportCut (d g s) : queueGrade (reportCut d g s) = queueGrade s := by
  unfold reportCut
  split <;> simp

@[simp] theorem execCutComplete_keepsQueueGrade (d g s) :
    KeepsQueueGrade (execCutComplete d g s) s := by simp [execCutComplete]

@[simp] theorem execDmaReadComplete_keepsQueueGrade (id data poison s) :
    KeepsQueueGrade (execDmaReadComplete id data poison s) s := by
  apply keepsQueueGrade_live
  split <;> simp

/-! Machine/LinkOps.lean -/

@[simp] theorem queueGrade_checkParents (s) : queueGrade (checkParents s) = queueGrade s := by simp [checkParents]
@[simp] theorem queueGrade_setPortSt (n st s) : queueGrade (setPortSt n st s) = queueGrade s := by simp [setPortSt]

@[simp] theorem queueGrade_reroute (n s) : queueGrade (reroute n s) = queueGrade s := by
  unfold reroute
  refine (queueGrade_forEach _ _ _ fun f t => ?_).trans (by simp)
  simp only
  generalize f.entry = entry
  cases entry with
  | none =>
    split
    · split <;> simp
    · split
      · rfl
      · split <;> simp
  | some e =>
    split
    · split <;> simp
    · split
      · simp
      · split <;> simp

@[simp] theorem queueGrade_darken (n s) : queueGrade (darken n s) = queueGrade s := by simp [darken]

@[simp] theorem queueGrade_endStall (n v s) : queueGrade (endStall n v s) = queueGrade s := by
  unfold endStall
  simp only
  split <;> simp

@[simp] theorem queueGrade_resetVcs (n s) : queueGrade (resetVcs n s) = queueGrade s := by simp [resetVcs]
@[simp] theorem queueGrade_portDown (n st s) : queueGrade (portDown n st s) = queueGrade s := by simp [portDown]

@[simp] theorem queueGrade_beginTraining (n s) : queueGrade (beginTraining n s) = queueGrade s := by
  unfold beginTraining
  simp only
  split <;> simp

@[simp] theorem queueGrade_fullRetrain (n s) : queueGrade (fullRetrain n s) = queueGrade s := by simp [fullRetrain]
@[simp] theorem queueGrade_setWidth (n w s) : queueGrade (setWidth n w s) = queueGrade s := by simp [setWidth]
@[simp] theorem queueGrade_settleWidth (n s) : queueGrade (settleWidth n s) = queueGrade s := by simp [settleWidth]

@[simp] theorem queueGrade_creditRetrain (n s) :
    queueGrade (creditRetrain n s) = queueGrade s := by simp [creditRetrain]

@[simp] theorem queueGrade_dropTransit (n i p s) :
    queueGrade (dropTransit n i p s) = queueGrade s := by simp [dropTransit]

/-! Machine/Fabric.lean -/

@[simp] theorem execRofPortEnable_keepsQueueGrade (n s) :
    KeepsQueueGrade (execRofPortEnable n s) s := by simp [execRofPortEnable]

@[simp] theorem execRofPortDisable_keepsQueueGrade (n s) :
    KeepsQueueGrade (execRofPortDisable n s) s := by simp [execRofPortDisable]

@[simp] theorem execSetPortConfig_keepsQueueGrade (n c s) :
    KeepsQueueGrade (execSetPortConfig n c s) s := by simp [execSetPortConfig]

@[simp] theorem execSetVcPartition_keepsQueueGrade (n v words s) :
    KeepsQueueGrade (execSetVcPartition n v words s) s := by simp [execSetVcPartition]

@[simp] theorem execSetRoute_keepsQueueGrade (d ports s) :
    KeepsQueueGrade (execSetRoute d ports s) s := by simp [execSetRoute]

@[simp] theorem execSetMcast_keepsQueueGrade (g ports valid loc s) :
    KeepsQueueGrade (execSetMcast g ports valid loc s) s := by simp [execSetMcast]

@[simp] theorem execSetRofCtrl_keepsQueueGrade (adaptBiasW auditUs retrainDrainUs trainLimitMs s) :
    KeepsQueueGrade (execSetRofCtrl adaptBiasW auditUs retrainDrainUs trainLimitMs s) s := by simp [execSetRofCtrl]

@[simp] theorem execProbeEmit_keepsQueueGrade (n now s) :
    KeepsQueueGrade (execProbeEmit n now s) s := by simp [execProbeEmit]

@[simp] theorem execPartnerDetected_keepsQueueGrade (n now s) :
    KeepsQueueGrade (execPartnerDetected n now s) s := by simp [execPartnerDetected]

@[simp] theorem execReceiveLock_keepsQueueGrade (n lane now s) : KeepsQueueGrade (execReceiveLock n lane now s) s := by
  apply keepsQueueGrade_live
  split <;> simp

@[simp] theorem execTrainingComplete_keepsQueueGrade (n now s) :
    KeepsQueueGrade (execTrainingComplete n now s) s := by simp [execTrainingComplete]

@[simp] theorem queueGrade_keyFailed (n s) : queueGrade (keyFailed n s) = queueGrade s := by simp [keyFailed]

@[simp] theorem execTrainLimitExpiry_keepsQueueGrade (n now s) :
    KeepsQueueGrade (execTrainLimitExpiry n now s) s := by simp [execTrainLimitExpiry]

@[simp] theorem execLossOfSignal_keepsQueueGrade (n now s) : KeepsQueueGrade (execLossOfSignal n now s) s := by
  apply keepsQueueGrade_live
  split <;> simp

@[simp] theorem execFullRetrain_keepsQueueGrade (n byFm s) :
    KeepsQueueGrade (execFullRetrain n byFm s) s := by simp [execFullRetrain]

@[simp] theorem execFrameReceive_keepsQueueGrade (n p blocks lcrcOk tagOk fctr now s) :
    KeepsQueueGrade (execFrameReceive n p blocks lcrcOk tagOk fctr now s) s := by simp [execFrameReceive]

@[simp] theorem execFrameTransmit_keepsQueueGrade (n v now s) : KeepsQueueGrade (execFrameTransmit n v now s) s := by
  apply keepsQueueGrade_live
  split
  · simp
  · split
    · simp
    · split
      · simp
      · split <;> simp

@[simp] theorem execCredit_keepsQueueGrade (n counts s) : KeepsQueueGrade (execCredit n counts s) s := by
  apply keepsQueueGrade_live
  split <;> simp

@[simp] theorem execCreditReturnTimer_keepsQueueGrade (n now s) :
    KeepsQueueGrade (execCreditReturnTimer n now s) s := by simp [execCreditReturnTimer]

@[simp] theorem execAuditTimer_keepsQueueGrade (n now s) :
    KeepsQueueGrade (execAuditTimer n now s) s := by simp [execAuditTimer]

@[simp] theorem execAudit_keepsQueueGrade (n counts s) : KeepsQueueGrade (execAudit n counts s) s := by simp [execAudit]

@[simp] theorem execAuditAck_keepsQueueGrade (n counts s) :
    KeepsQueueGrade (execAuditAck n counts s) s := by simp [execAuditAck]

@[simp] theorem execRetrain_keepsQueueGrade (n byte2 now s) :
    KeepsQueueGrade (execRetrain n byte2 now s) s := by simp [execRetrain]

@[simp] theorem execRetrainAck_keepsQueueGrade (n counts s) :
    KeepsQueueGrade (execRetrainAck n counts s) s := by simp [execRetrainAck]

@[simp] theorem execRetrainDrainExpiry_keepsQueueGrade (n now s) :
    KeepsQueueGrade (execRetrainDrainExpiry n now s) s := by
  apply keepsQueueGrade_live
  split <;> simp

@[simp] theorem execLaneSet_keepsQueueGrade (n mask s) :
    KeepsQueueGrade (execLaneSet n mask s) s := by simp [execLaneSet]

@[simp] theorem execLaneReady_keepsQueueGrade (n mask s) :
    KeepsQueueGrade (execLaneReady n mask s) s := by simp [execLaneReady]

@[simp] theorem execLaneFault_keepsQueueGrade (n mask s) :
    KeepsQueueGrade (execLaneFault n mask s) s := by simp [execLaneFault]

@[simp] theorem execLaneLockLoss_keepsQueueGrade (n lane now s) :
    KeepsQueueGrade (execLaneLockLoss n lane now s) s := by
  apply keepsQueueGrade_live
  split <;> simp

@[simp] theorem execWidthNarrow_keepsQueueGrade (n s) :
    KeepsQueueGrade (execWidthNarrow n s) s := by simp [execWidthNarrow]

@[simp] theorem execWidthWiden_keepsQueueGrade (n s) :
    KeepsQueueGrade (execWidthWiden n s) s := by simp [execWidthWiden]

@[simp] theorem execLaneParkExpiry_keepsQueueGrade (n lane now s) :
    KeepsQueueGrade (execLaneParkExpiry n lane now s) s := by
  apply keepsQueueGrade_live
  split <;> simp

@[simp] theorem queueGrade_keyStep (n s) : queueGrade (keyStep n s) = queueGrade s := by
  unfold keyStep
  simp only
  split
  · split
    · rfl
    · split <;> simp
  · rfl

@[simp] theorem execTrain_keepsQueueGrade (n id pair side ready s) :
    KeepsQueueGrade (execTrain n id pair side ready s) s := by
  apply keepsQueueGrade_live
  split <;> simp

@[simp] theorem execKeyx_keepsQueueGrade (n part index total data s) :
    KeepsQueueGrade (execKeyx n part index total data s) s := by simp [execKeyx]

@[simp] theorem execControlWordDiscard_keepsQueueGrade (w s) :
    KeepsQueueGrade (execControlWordDiscard w s) s := by simp [execControlWordDiscard]

@[simp] theorem execForward_keepsQueueGrade (n p s) : KeepsQueueGrade (execForward n p s) s := by
  apply keepsQueueGrade_live
  split
  · rfl
  · split
    · simp
    · split
      · simp
      · split <;> simp

@[simp] theorem execMulticast_keepsQueueGrade (n p s) :
    KeepsQueueGrade (execMulticast n p s) s := by simp [execMulticast]

/-! Machine/FenceOps.lean -/

@[simp] theorem queueGrade_repairNote (k n s) : queueGrade (repairNote k n s) = queueGrade s := by simp [repairNote]
@[simp] theorem queueGrade_markCore (n cause s) : queueGrade (markCore n cause s) = queueGrade s := by simp [markCore]

@[simp] theorem queueGrade_fenceCore (n cause s) :
    queueGrade (fenceCore n cause s) = queueGrade s := by simp [fenceCore]

@[simp] theorem queueGrade_homeLost (q s) : queueGrade (homeLost q s) = queueGrade s := by simp [homeLost]

@[simp] theorem queueGrade_fencePosition (island q s) :
    queueGrade (fencePosition island q s) = queueGrade s := by simp [fencePosition]

@[simp] theorem queueGrade_selfFence (s) : queueGrade (selfFence s) = queueGrade s := by simp [selfFence]

@[simp] theorem queueGrade_evaluateIslands (s) : queueGrade (evaluateIslands s) = queueGrade s := by
  unfold evaluateIslands
  split <;> simp

@[simp] theorem queueGrade_holdCxlDown (p s) : queueGrade (holdCxlDown p s) = queueGrade s := by simp [holdCxlDown]

@[simp] theorem queueGrade_fenceQuadrant (q cause s) :
    queueGrade (fenceQuadrant q cause s) = queueGrade s := by simp [fenceQuadrant]

@[simp] theorem queueGrade_fenceOe (e cause s) : queueGrade (fenceOe e cause s) = queueGrade s := by simp [fenceOe]
@[simp] theorem queueGrade_fenceCxl (p cause s) : queueGrade (fenceCxl p cause s) = queueGrade s := by simp [fenceCxl]
@[simp] theorem queueGrade_poisonLost (q s) : queueGrade (poisonLost q s) = queueGrade s := by simp [poisonLost]

/-! Machine/Fences.lean -/

@[simp] theorem execStraitLost_keepsQueueGrade (i now s) : KeepsQueueGrade (execStraitLost i now s) s := by
  apply keepsQueueGrade_live
  split <;> simp

@[simp] theorem execStraitRestored_keepsQueueGrade (i now s) : KeepsQueueGrade (execStraitRestored i now s) s := by
  apply keepsQueueGrade_live
  split <;> simp

@[simp] theorem execFenceStatusSample_keepsQueueGrade (now s) :
    KeepsQueueGrade (execFenceStatusSample now s) s := by simp [execFenceStatusSample]

@[simp] theorem execAnchorFailover_keepsQueueGrade (now s) :
    KeepsQueueGrade (execAnchorFailover now s) s := by simp [execAnchorFailover]

@[simp] theorem execCoreFence_keepsQueueGrade (n cause now s) :
    KeepsQueueGrade (execCoreFence n cause now s) s := by simp [execCoreFence]

@[simp] theorem execFenceCore_keepsQueueGrade (n cause now s) :
    KeepsQueueGrade (execFenceCore n cause now s) s := by simp [execFenceCore]

@[simp] theorem execEngineHoldExpiry_keepsQueueGrade (n e now s) :
    KeepsQueueGrade (execEngineHoldExpiry n e now s) s := by simp [execEngineHoldExpiry]

@[simp] theorem execFenceQuadrant_keepsQueueGrade (q cause now s) :
    KeepsQueueGrade (execFenceQuadrant q cause now s) s := by simp [execFenceQuadrant]

@[simp] theorem execFenceOpticalEngine_keepsQueueGrade (e cause now s) :
    KeepsQueueGrade (execFenceOpticalEngine e cause now s) s := by simp [execFenceOpticalEngine]

@[simp] theorem execFenceCxlPort_keepsQueueGrade (p cause now s) :
    KeepsQueueGrade (execFenceCxlPort p cause now s) s := by simp [execFenceCxlPort]

@[simp] theorem execUnfence_keepsQueueGrade (k n s) : KeepsQueueGrade (execUnfence k n s) s := by simp [execUnfence]

@[simp] theorem execIslandRejoin_keepsQueueGrade (q now s) :
    KeepsQueueGrade (execIslandRejoin q now s) s := by simp [execIslandRejoin]

/-! Machine/Jobs.lean -/

@[simp] theorem queueGrade_startJob (n slot d s) : queueGrade (startJob n slot d s) = queueGrade s := by
  unfold startJob
  extract_lets img arg
  split
  · simp
  · exact (queueGrade_setDesc ..).trans (queueGrade_setJob ..)

@[simp] theorem execJob_keepsQueueGrade (n slot s) : KeepsQueueGrade (execJob n slot s) s := by simp [execJob]

@[simp] theorem queueGrade_admitFail (jid a f s) : queueGrade (admitFail jid a f s) = queueGrade s := by
  unfold admitFail
  split
  split <;> next h' => simp [queueGrade_of_eq₃ h']

@[simp] theorem queueGrade_checkHeader (jid j h s) :
    queueGrade (checkHeader jid j h s) = queueGrade s := by simp [checkHeader]

@[simp] theorem execJobHeaderRead_keepsQueueGrade (n slot s) : KeepsQueueGrade (execJobHeaderRead n slot s) s := by
  apply keepsQueueGrade_live
  split
  · rfl
  · split
    · rfl
    · simp only
      split <;> next h => simp [queueGrade_of_eq h]

@[simp] theorem queueGrade_joinReady (jid s) : queueGrade (joinReady jid s) = queueGrade s := by
  unfold joinReady
  split
  · rfl
  · simp only
    split <;> simp

@[simp] theorem queueGrade_testDigest (jid s) : queueGrade (testDigest jid s) = queueGrade s := by
  unfold testDigest
  split <;> simp

@[simp] theorem queueGrade_checkImage (jid j img args s) : queueGrade (checkImage jid j img args s) = queueGrade s := by
  unfold checkImage
  simp only
  split
  · simp
  · split
    · simp
    · split <;> simp

@[simp] theorem execJobImageRead_keepsQueueGrade (n slot s) : KeepsQueueGrade (execJobImageRead n slot s) s := by
  apply keepsQueueGrade_live
  split
  · rfl
  · split
    · rfl
    · simp only
      split
      · next h => simp [queueGrade_of_eq h]
      · next h =>
        split
        · next h' => simp [queueGrade_of_eq h', queueGrade_of_eq h]
        · next h' => simp [queueGrade_of_eq h', queueGrade_of_eq h]
        · next h' => split <;> next h'' => simp [queueGrade_of_eq h'', queueGrade_of_eq h', queueGrade_of_eq h]

@[simp] theorem execJobDigestComputed_keepsQueueGrade (n slot s) :
    KeepsQueueGrade (execJobDigestComputed n slot s) s := by
  apply keepsQueueGrade_live
  split
  · rfl
  · split
    · rfl
    · simp only
      split <;> simp

@[simp] theorem execResume_keepsQueueGrade (n slot s) : KeepsQueueGrade (execResume n slot s) s := by
  refine keepsQueueGrade_live (queueGrade_startOp _ _ _ _ _ fun d t => ?_)
  simp only
  split <;> simp

@[simp] theorem execDiscard_keepsQueueGrade (n slot s) : KeepsQueueGrade (execDiscard n slot s) s := by
  refine keepsQueueGrade_live (queueGrade_startOp _ _ _ _ _ fun d t => ?_)
  simp only
  split <;> simp

@[simp] theorem execJobPreempt_keepsQueueGrade (n slot s) : KeepsQueueGrade (execJobPreempt n slot s) s := by
  apply keepsQueueGrade_live
  split <;> simp

@[simp] theorem execJobComplete_keepsQueueGrade (n slot s) : KeepsQueueGrade (execJobComplete n slot s) s := by
  apply keepsQueueGrade_live
  split
  · rfl
  · simp only
    split <;> simp

@[simp] theorem queueGrade_commitStep (jid s) : queueGrade (commitStep jid s) = queueGrade s := by
  unfold commitStep
  simp only
  split <;> simp

@[simp] theorem execCommitComplete_keepsQueueGrade (n slot s) : KeepsQueueGrade (execCommitComplete n slot s) s := by
  apply keepsQueueGrade_live
  split <;> simp

@[simp] theorem queueGrade_checkEffects (jid j l s) : queueGrade (checkEffects jid j l s).2 = queueGrade s := by
  induction l generalizing s with
  | nil => rfl
  | cons x r ih =>
    unfold checkEffects
    split <;> next h => simp [ih, queueGrade_of_eq₃ h]

@[simp] theorem queueGrade_setEffect (jid e e' s) : queueGrade (setEffect jid e e' s) = queueGrade s := by
  unfold setEffect
  split <;> simp

@[simp] theorem queueGrade_wakeHeld (n s) : queueGrade (wakeHeld n s) = queueGrade s := by
  unfold wakeHeld
  split <;> simp

@[simp] theorem queueGrade_issueRow (jid j e s) : queueGrade (issueRow jid j e s) = queueGrade s := by
  unfold issueRow
  split
  · split
    · simp only
      split <;> next h => simp [queueGrade_of_eq h]
    · simp only
      split <;> next h => simp [queueGrade_of_eq h]
  · split
    · simp only
      split <;> next h => simp [queueGrade_of_eq h]
    · simp only
      split <;> next h => simp [queueGrade_of_eq h]

@[simp] theorem queueGrade_issueRows (n n' n'' n''' s) : queueGrade (issueRows n n' n'' n''' s) = queueGrade s := by
  induction n generalizing s with
  | zero => rfl
  | succ n ih =>
    unfold issueRows
    split
    · rfl
    · split <;> simp [ih]

@[simp] theorem execHeldEffectsIssue_keepsQueueGrade (n rows s) :
    KeepsQueueGrade (execHeldEffectsIssue n rows s) s := by
  apply keepsQueueGrade_live
  split
  · rfl
  · simp only
    iterate 4 (split; · simp)
    split <;> next h => simp [queueGrade_of_eq h]

@[simp] theorem execCoreFenceTest_keepsQueueGrade (n slot s) : KeepsQueueGrade (execCoreFenceTest n slot s) s := by
  apply keepsQueueGrade_live
  split <;> simp

@[simp] theorem execSetSrControls_keepsQueueGrade (fixed seed s) :
    KeepsQueueGrade (execSetSrControls fixed seed s) s := by simp [execSetSrControls]

/-! Machine/Mailbox.lean -/

@[simp] theorem queueGrade_mailbox (d f s)
    (hf : ∀ t, queueGrade (f t) = queueGrade t) :
    queueGrade (mailbox d f s) = queueGrade s := by simp [mailbox, hf]

@[simp] theorem queueGrade_mailDone (d code vals s) :
    queueGrade (mailDone d code vals s) = queueGrade s := by simp [mailDone]

@[simp] theorem execIdentifyMemoryDevice_keepsQueueGrade (d s) :
    KeepsQueueGrade (execIdentifyMemoryDevice d s) s := by simp [execIdentifyMemoryDevice]

@[simp] theorem execGetEventRecords_keepsQueueGrade (d log s) :
    KeepsQueueGrade (execGetEventRecords d log s) s := by simp [execGetEventRecords]

@[simp] theorem execClearEventRecords_keepsQueueGrade (d log all handles s) :
    KeepsQueueGrade (execClearEventRecords d log all handles s) s := by simp [execClearEventRecords]

@[simp] theorem execGetEventInterruptPolicy_keepsQueueGrade (d s) :
    KeepsQueueGrade (execGetEventInterruptPolicy d s) s := by simp [execGetEventInterruptPolicy]

@[simp] theorem execSetEventInterruptPolicy_keepsQueueGrade (d policy s) :
    KeepsQueueGrade (execSetEventInterruptPolicy d policy s) s := by simp [execSetEventInterruptPolicy]

@[simp] theorem execGetHealthInfo_keepsQueueGrade (d s) :
    KeepsQueueGrade (execGetHealthInfo d s) s := by simp [execGetHealthInfo]

@[simp] theorem execGetPoisonList_keepsQueueGrade (d s) :
    KeepsQueueGrade (execGetPoisonList d s) s := by simp [execGetPoisonList]

@[simp] theorem queueGrade_mailbox31 (d f s)
    (hf : ∀ t, queueGrade (f t) = queueGrade t) :
    queueGrade (mailbox31 d f s) = queueGrade s := by simp [mailbox31, hf]

@[simp] theorem execGetDynamicCapacityConfiguration_keepsQueueGrade (d s) :
    KeepsQueueGrade (execGetDynamicCapacityConfiguration d s) s := by simp [execGetDynamicCapacityConfiguration]

@[simp] theorem execGetDynamicCapacityExtentList_keepsQueueGrade (d s) :
    KeepsQueueGrade (execGetDynamicCapacityExtentList d s) s := by simp [execGetDynamicCapacityExtentList]

@[simp] theorem execUnsupportedMailboxCommand_keepsQueueGrade (d s) :
    KeepsQueueGrade (execUnsupportedMailboxCommand d s) s := by simp [execUnsupportedMailboxCommand]

@[simp] theorem queueGrade_apiDone (code vals s) : queueGrade (apiDone code vals s) = queueGrade s := by simp [apiDone]
@[simp] theorem execGetLdInfo_keepsQueueGrade (p s) : KeepsQueueGrade (execGetLdInfo p s) s := by simp [execGetLdInfo]

@[simp] theorem execGetLdAllocations_keepsQueueGrade (p s) :
    KeepsQueueGrade (execGetLdAllocations p s) s := by simp [execGetLdAllocations]

@[simp] theorem execSetLdAllocations_keepsQueueGrade (s) :
    KeepsQueueGrade (execSetLdAllocations s) s := by simp [execSetLdAllocations]

@[simp] theorem execGetQosControl_keepsQueueGrade (s) :
    KeepsQueueGrade (execGetQosControl s) s := by simp [execGetQosControl]

@[simp] theorem execSetQosControl_keepsQueueGrade (high low s) :
    KeepsQueueGrade (execSetQosControl high low s) s := by simp [execSetQosControl]

@[simp] theorem execGetQosStatus_keepsQueueGrade (s) :
    KeepsQueueGrade (execGetQosStatus s) s := by simp [execGetQosStatus]

@[simp] theorem execGetQosAllocatedBw_keepsQueueGrade (p s) :
    KeepsQueueGrade (execGetQosAllocatedBw p s) s := by simp [execGetQosAllocatedBw]

@[simp] theorem execSetQosAllocatedBw_keepsQueueGrade (p start vals s) :
    KeepsQueueGrade (execSetQosAllocatedBw p start vals s) s := by simp [execSetQosAllocatedBw]

@[simp] theorem execGetQosBwLimit_keepsQueueGrade (p s) :
    KeepsQueueGrade (execGetQosBwLimit p s) s := by simp [execGetQosBwLimit]

@[simp] theorem execSetQosBwLimit_keepsQueueGrade (p start vals s) :
    KeepsQueueGrade (execSetQosBwLimit p start vals s) s := by simp [execSetQosBwLimit]

@[simp] theorem execGetDcdInfo_keepsQueueGrade (s) : KeepsQueueGrade (execGetDcdInfo s) s := by simp [execGetDcdInfo]

@[simp] theorem execGetHostDcRegionConfiguration_keepsQueueGrade (d s) :
    KeepsQueueGrade (execGetHostDcRegionConfiguration d s) s := by simp [execGetHostDcRegionConfiguration]

@[simp] theorem execGetDcRegionExtentLists_keepsQueueGrade (d s) :
    KeepsQueueGrade (execGetDcRegionExtentLists d s) s := by simp [execGetDcRegionExtentLists]

@[simp] theorem execSetDcRegionConfiguration_keepsQueueGrade (s) :
    KeepsQueueGrade (execSetDcRegionConfiguration s) s := by simp [execSetDcRegionConfiguration]

/-! Machine/ObsOps.lean -/

@[simp] theorem queueGrade_sampleMetric (m v s) :
    queueGrade (sampleMetric m v s) = queueGrade s := by simp [sampleMetric]

@[simp] theorem queueGrade_endPeriod (short s) : queueGrade (endPeriod short s) = queueGrade s := by simp [endPeriod]
@[simp] theorem queueGrade_zeroiseKeys (s) : queueGrade (zeroiseKeys s) = queueGrade s := by simp [zeroiseKeys]

/-! Machine/Sched.lean -/

@[simp] theorem queueGrade_openCoreGate (n s) : queueGrade (openCoreGate n s) = queueGrade s := by simp [openCoreGate]

@[simp] theorem queueGrade_startCore (jid j n rank s) :
    queueGrade (startCore jid j n rank s) = queueGrade s := by simp [startCore]

@[simp] theorem queueGrade_admitJob (jid j cs s given) :
    queueGrade (admitJob jid j cs s given) = queueGrade s := by simp [admitJob]

@[simp] theorem queueGrade_tryAdmit (c s) : queueGrade (tryAdmit c s).2 = queueGrade s := by
  unfold tryAdmit
  split
  · simp
  · split <;> simp

@[simp] theorem execSchedulerTick_keepsQueueGrade (q now s) : KeepsQueueGrade (execSchedulerTick q now s) s := by
  apply keepsQueueGrade_live
  split
  · simp
  · simp only
    split
    · split
      · simp
      · split <;> next h => simp [queueGrade_of_eq h]
    · simp

@[simp] theorem queueGrade_creditTick (stripes c s) :
    queueGrade (creditTick stripes c s) = queueGrade s := by simp [creditTick]

@[simp] theorem execClassCreditTick_keepsQueueGrade (stripes now s) :
    KeepsQueueGrade (execClassCreditTick stripes now s) s := by simp [execClassCreditTick]

@[simp] theorem queueGrade_sampleQueue (n s) : queueGrade (sampleQueue n s) = queueGrade s := by simp [sampleQueue]

@[simp] theorem execQueueSampleTick_keepsQueueGrade (now s) :
    KeepsQueueGrade (execQueueSampleTick now s) s := by simp [execQueueSampleTick]

@[simp] theorem execClearMax_keepsQueueGrade (n s) : KeepsQueueGrade (execClearMax n s) s := by simp [execClearMax]

@[simp] theorem execSetClass_keepsQueueGrade (c rate burstUs s) :
    KeepsQueueGrade (execSetClass c rate burstUs s) s := by simp [execSetClass]

@[simp] theorem execSetGroupClass_keepsQueueGrade (g c s) :
    KeepsQueueGrade (execSetGroupClass g c s) s := by simp [execSetGroupClass]

@[simp] theorem execSetSchCtrl_keepsQueueGrade (ageMs fitUs shedC s) :
    KeepsQueueGrade (execSetSchCtrl ageMs fitUs shedC s) s := by simp [execSetSchCtrl]

@[simp] theorem execSetContract_keepsQueueGrade (k t anyTenant port anyPort valid rate burst s) :
    KeepsQueueGrade (execSetContract k t anyTenant port anyPort valid rate burst s) s := by simp [execSetContract]

@[simp] theorem execSetMembership_keepsQueueGrade (id t add s) :
    KeepsQueueGrade (execSetMembership id t add s) s := by simp [execSetMembership]

/-! Machine/Sync.lean -/

@[simp] theorem execObjAssign_keepsQueueGrade (o t s) :
    KeepsQueueGrade (execObjAssign o t s) s := by simp [execObjAssign]

@[simp] theorem queueGrade_objWrite (o d f s)
    (hf : ∀ t, queueGrade (f t) = queueGrade t) :
    queueGrade (objWrite o d f s) = queueGrade s := by
  unfold objWrite
  split <;> simp [hf]

@[simp] theorem execObjRegister_keepsQueueGrade (o d s) :
    KeepsQueueGrade (execObjRegister o d s) s := by simp [execObjRegister]

@[simp] theorem queueGrade_deregisterObj (o s) :
    queueGrade (deregisterObj o s) = queueGrade s := by simp [deregisterObj]

@[simp] theorem execObjDeregister_keepsQueueGrade (o d s) :
    KeepsQueueGrade (execObjDeregister o d s) s := by simp [execObjDeregister]

@[simp] theorem queueGrade_debugCmd (r who cmd args f s)
    (hf : ∀ t, queueGrade (f t) = queueGrade t) :
    queueGrade (debugCmd r who cmd args f s) = queueGrade s := by simp [debugCmd, hf]

@[simp] theorem execSemSet_keepsQueueGrade (r who n k v s) :
    KeepsQueueGrade (execSemSet r who n k v s) s := by simp [execSemSet]

@[simp] theorem execChanRelease_keepsQueueGrade (r who p s) :
    KeepsQueueGrade (execChanRelease r who p s) s := by simp [execChanRelease]

@[simp] theorem execObjMark_keepsQueueGrade (r who o s) :
    KeepsQueueGrade (execObjMark r who o s) s := by simp [execObjMark]

@[simp] theorem execObjRelease_keepsQueueGrade (r who o s) :
    KeepsQueueGrade (execObjRelease r who o s) s := by simp [execObjRelease]

@[simp] theorem queueGrade_actResetNotice (p s) :
    queueGrade (actResetNotice p s) = queueGrade s := by simp [actResetNotice]

@[simp] theorem execResetnotice_keepsQueueGrade (port p s) :
    KeepsQueueGrade (execResetnotice port p s) s := by simp [execResetnotice]

@[simp] theorem execDeclareEndpointReset_keepsQueueGrade (id s) :
    KeepsQueueGrade (execDeclareEndpointReset id s) s := by simp [execDeclareEndpointReset]

@[simp] theorem execWaitWatchdogExpiry_keepsQueueGrade (n c now s) :
    KeepsQueueGrade (execWaitWatchdogExpiry n c now s) s := by
  apply keepsQueueGrade_live
  split <;> simp

/-! Machine/Transport.lean -/

@[simp] theorem queueGrade_pruneWrites (s) : queueGrade (pruneWrites s) = queueGrade s := by simp [pruneWrites]

@[simp] theorem queueGrade_applyAck (k p s) : queueGrade (applyAck k p s) = queueGrade s := by
  unfold applyAck
  split <;> simp

@[simp] theorem execAck_keepsQueueGrade (port p s) : KeepsQueueGrade (execAck port p s) s := by simp [execAck]

@[simp] theorem execAckTimer_keepsQueueGrade (f now s) : KeepsQueueGrade (execAckTimer f now s) s := by
  apply keepsQueueGrade_live
  split
  · simp
  · split <;> simp

@[simp] theorem queueGrade_resend (k x s) : queueGrade (resend k x s) = queueGrade s := by
  unfold resend
  split <;> simp

@[simp] theorem execResendreq_keepsQueueGrade (port p s) : KeepsQueueGrade (execResendreq port p s) s := by
  refine keepsQueueGrade_live (queueGrade_terminate _ _ _ _ fun q t => ?_)
  split
  · rfl
  · apply queueGrade_forEach
    intro i u
    split <;> simp

@[simp] theorem execResendTimer_keepsQueueGrade (f seq now s) : KeepsQueueGrade (execResendTimer f seq now s) s := by
  apply keepsQueueGrade_live
  split <;> simp

@[simp] theorem queueGrade_writeFailed (w s) : queueGrade (writeFailed w s) = queueGrade s := by simp [writeFailed]

@[simp] theorem queueGrade_packetFailed (k p s) : queueGrade (packetFailed k p s) = queueGrade s := by
  unfold packetFailed
  split
  · simp only
    split <;> simp
  · split
    · simp only
      split <;> simp
    · simp

@[simp] theorem queueGrade_failFlow (k s) : queueGrade (failFlow k s) = queueGrade s := by
  unfold failFlow
  split <;> simp

@[simp] theorem execResendLimitExpiry_keepsQueueGrade (f seq now s) :
    KeepsQueueGrade (execResendLimitExpiry f seq now s) s := by
  apply keepsQueueGrade_live
  split <;> simp

@[simp] theorem execFlowSilenceExpiry_keepsQueueGrade (f now s) :
    KeepsQueueGrade (execFlowSilenceExpiry f now s) s := by
  apply keepsQueueGrade_live
  split <;> simp

@[simp] theorem execSendContextRetire_keepsQueueGrade (f now s) :
    KeepsQueueGrade (execSendContextRetire f now s) s := by
  apply keepsQueueGrade_live
  split <;> simp

@[simp] theorem execReceiveContextRetire_keepsQueueGrade (f now s) :
    KeepsQueueGrade (execReceiveContextRetire f now s) s := by simp [execReceiveContextRetire]

@[simp] theorem execReasmTimeout_keepsQueueGrade (f first now s) :
    KeepsQueueGrade (execReasmTimeout f first now s) s := by
  apply keepsQueueGrade_live
  split <;> simp

@[simp] theorem execAtomicRetentionExpiry_keepsQueueGrade (q src tag now s) :
    KeepsQueueGrade (execAtomicRetentionExpiry q src tag now s) s := by
  apply keepsQueueGrade_live
  split <;> simp

@[simp] theorem execQuietPeriodEnd_keepsQueueGrade (now s) : KeepsQueueGrade (execQuietPeriodEnd now s) s := by
  apply keepsQueueGrade_live
  split <;> simp

@[simp] theorem execSequenceQuarantineExpiry_keepsQueueGrade (f now s) :
    KeepsQueueGrade (execSequenceQuarantineExpiry f now s) s := by simp [execSequenceQuarantineExpiry]

@[simp] theorem queueGrade_actResponse (q p s) : queueGrade (actResponse q p s) = queueGrade s := by
  unfold actResponse
  simp only
  split
  · rfl
  · split <;> simp

@[simp] theorem execUnmatchedResponse_keepsQueueGrade (port p s) :
    KeepsQueueGrade (execUnmatchedResponse port p s) s := by simp [execUnmatchedResponse]

@[simp] theorem execResponseReceived_keepsQueueGrade (port p s) :
    KeepsQueueGrade (execResponseReceived port p s) s := by simp [execResponseReceived]

@[simp] theorem queueGrade_actRecall (q p s) : queueGrade (actRecall q p s) = queueGrade s := by simp [actRecall]

@[simp] theorem execRecallReceived_keepsQueueGrade (port p s) :
    KeepsQueueGrade (execRecallReceived port p s) s := by simp [execRecallReceived]

@[simp] theorem queueGrade_actTetherBeat (p s) :
    queueGrade (actTetherBeat p s) = queueGrade s := by simp [actTetherBeat]

@[simp] theorem execTetherbeat_keepsQueueGrade (port p s) :
    KeepsQueueGrade (execTetherbeat port p s) s := by simp [execTetherbeat]

@[simp] theorem execTimeExchangeTimer_keepsQueueGrade (n now s) :
    KeepsQueueGrade (execTimeExchangeTimer n now s) s := by simp [execTimeExchangeTimer]

@[simp] theorem queueGrade_applyOffset (diff parentDepth s) :
    queueGrade (applyOffset diff parentDepth s) = queueGrade s := by simp [applyOffset]

@[simp] theorem execTimePacket_keepsQueueGrade (n p now s) : KeepsQueueGrade (execTimePacket n p now s) s := by
  apply keepsQueueGrade_live
  refine (queueGrade_terminate _ _ _ _ fun _ t => ?_).trans (by simp)
  split
  · rfl
  · extract_lets t4 t3 t1 t2 e u
    have hu : queueGrade u = queueGrade t := by simp [u]
    split
    · exact hu
    · rw [queueGrade_applyOffset, hu]

@[simp] theorem execSetTimeTree_keepsQueueGrade (parent parentValid root alt altValid s) :
    KeepsQueueGrade (execSetTimeTree parent parentValid root alt altValid s) s := by simp [execSetTimeTree]

@[simp] theorem execSetE2eCtrl_keepsQueueGrade (q resendUs resendLimitUs reasmUs s) :
    KeepsQueueGrade (execSetE2eCtrl q resendUs resendLimitUs reasmUs s) s := by simp [execSetE2eCtrl]

/-! Machine/Pair.lean -/

@[simp] theorem queueGrade_actOn (n q p s) : queueGrade (actOn n q p s) = queueGrade s := by simp [actOn]

@[simp] theorem queueGrade_actInput (n p s) : queueGrade (actInput n p s) = queueGrade s := by
  unfold actInput
  split
  · rfl
  · split <;> next h => simp [queueGrade_of_eq h]

@[simp] theorem queueGrade_fetchInput (src vc seq s) :
    queueGrade (fetchInput src vc seq s) = queueGrade s := by simp [fetchInput]

@[simp] theorem queueGrade_ownKeys (t s) : queueGrade (ownKeys t s) = queueGrade s := by simp [ownKeys]
@[simp] theorem queueGrade_ownTags (e s) : queueGrade (ownTags e s) = queueGrade s := by simp [ownTags]
@[simp] theorem queueGrade_takeSnapshot (x s) : queueGrade (takeSnapshot x s) = queueGrade s := by simp [takeSnapshot]

@[simp] theorem queueGrade_applySnapshot (x s) :
    queueGrade (applySnapshot x s) = queueGrade s := by simp [applySnapshot]

@[simp] theorem queueGrade_applyInStep (r s) : queueGrade (applyInStep r s).2 = queueGrade s := by
  unfold applyInStep
  split
  · rfl
  · rfl
  · rfl
  · split <;> simp
  · split <;> simp
  · simp
  · simp
  · simp
  · simp
  · rfl
  · split <;> simp
  · simp
  · simp
  · simp
  · simp
  · simp
  · simp

@[simp] theorem queueGrade_applyInSync (r s) : queueGrade (applyInSync r s).2 = queueGrade s := by
  unfold applyInSync
  split
  · simp
  · simp
  · simp
  · simp
  · split <;> simp
  · rfl

@[simp] theorem queueGrade_drain (n s) : queueGrade (drain n s) = queueGrade s := by
  induction n generalizing s with
  | zero => rfl
  | succ n ih =>
    unfold drain
    split
    · rfl
    · extract_lets t go
      have hgo : queueGrade go.2 = queueGrade s := by
        simp only [go]
        split <;> simp [t]
      clear_value go
      split <;> simp_all

@[simp] theorem queueGrade_drainAll (s) : queueGrade (drainAll s) = queueGrade s := by simp [drainAll]

@[simp] theorem execOrder_keepsQueueGrade (n p first recs s) : KeepsQueueGrade (execOrder n p first recs s) s := by
  refine keepsQueueGrade_live (queueGrade_terminate _ _ _ _ fun _ t => ?_)
  split
  · rfl
  · simp only
    split <;> simp

@[simp] theorem execEmptyOrderRecordTimer_keepsQueueGrade (now s) :
    KeepsQueueGrade (execEmptyOrderRecordTimer now s) s := by simp [execEmptyOrderRecordTimer]

@[simp] theorem execInputfetch_keepsQueueGrade (n p s) : KeepsQueueGrade (execInputfetch n p s) s := by
  refine keepsQueueGrade_live (queueGrade_terminate _ _ _ _ fun _ t => ?_)
  split
  · rfl
  · simp only
    split <;> simp

@[simp] theorem execInputdata_keepsQueueGrade (n p inp via s) :
    KeepsQueueGrade (execInputdata n p inp via s) s := by simp [execInputdata]

@[simp] theorem queueGrade_makeSuspect (s) : queueGrade (makeSuspect s) = queueGrade s := by simp [makeSuspect]

@[simp] theorem queueGrade_compareUnit (d own ls peerBad s) :
    queueGrade (compareUnit d own ls peerBad s) = queueGrade s := by
  unfold compareUnit
  simp only
  split
  · simp
  · split
    · simp only [queueGrade_deliverVerified, queueGrade_bump]
      refine (queueGrade_forEach _ _ _ fun l t => ?_).trans (by simp)
      split <;> next h => simp [queueGrade_of_eq h]
    · simp
    · simp

@[simp] theorem execDigest_keepsQueueGrade (n p lines peerBad s) :
    KeepsQueueGrade (execDigest n p lines peerBad s) s := by
  refine keepsQueueGrade_live (queueGrade_terminate _ _ _ _ fun _ t => ?_)
  split
  · rfl
  · simp only
    split <;> simp

@[simp] theorem queueGrade_settleEarly (s) : queueGrade (settleEarly s) = queueGrade s := by
  unfold settleEarly
  apply queueGrade_forEach
  intro d t
  split <;> simp

@[simp] theorem execDigestLate_keepsQueueGrade (now s) :
    KeepsQueueGrade (execDigestLate now s) s := by simp [execDigestLate]

@[simp] theorem execLinerepair_keepsQueueGrade (n p s) :
    KeepsQueueGrade (execLinerepair n p s) s := by simp [execLinerepair]

@[simp] theorem queueGrade_beginCopy (mark s) : queueGrade (beginCopy mark s) = queueGrade s := by simp [beginCopy]

@[simp] theorem execOrderack_keepsQueueGrade (n p s) : KeepsQueueGrade (execOrderack n p s) s := by
  refine keepsQueueGrade_live (queueGrade_terminate _ _ _ _ fun _ t => ?_)
  split
  · rfl
  · simp only
    split
    · simp
    · split <;> simp

@[simp] theorem queueGrade_sendGranule (g s) : queueGrade (sendGranule g s) = queueGrade s := by
  unfold sendGranule
  refine (queueGrade_forEach _ _ _ fun i t => ?_).trans (by simp)
  simp only [queueGrade_sendPair]
  refine queueGrade_foldl_snd _ _ _ fun p j => ?_
  split <;> next h => simp [queueGrade_of_eq h]

@[simp] theorem execResilverGranuleSend_keepsQueueGrade (now s) :
    KeepsQueueGrade (execResilverGranuleSend now s) s := by
  apply keepsQueueGrade_live
  split
  · simp
  · split
    · simp
    · split <;> simp

@[simp] theorem execResilverdata_keepsQueueGrade (n p s) :
    KeepsQueueGrade (execResilverdata n p s) s := by simp [execResilverdata]

@[simp] theorem execResilverCopyEnd_keepsQueueGrade (now s) :
    KeepsQueueGrade (execResilverCopyEnd now s) s := by simp [execResilverCopyEnd]

@[simp] theorem execResilverstate_keepsQueueGrade (n p x s) :
    KeepsQueueGrade (execResilverstate n p x s) s := by simp [execResilverstate]

@[simp] theorem queueGrade_yieldActive (s) : queueGrade (yieldActive s) = queueGrade s := by simp [yieldActive]

@[simp] theorem queueGrade_requeueRunning (s) : queueGrade (requeueRunning s) = queueGrade s := by
  unfold requeueRunning
  apply queueGrade_forEach
  intro jid t
  simp only
  split <;> simp

@[simp] theorem queueGrade_applyHeld (n s) : queueGrade (applyHeld n s) = queueGrade s := by
  induction n generalizing s with
  | zero => rfl
  | succ n ih =>
    simp [applyHeld, ih]

@[simp] theorem queueGrade_takeOver (stale s) : queueGrade (takeOver stale s) = queueGrade s := by simp [takeOver]

@[simp] theorem execInterlockClassify_keepsQueueGrade (pat own now s) :
    KeepsQueueGrade (execInterlockClassify pat own now s) s := by
  apply keepsQueueGrade_live
  split
  · simp
  · split
    · split
      · simp
      · simp
      · simp only
        split <;> simp
    · split
      · simp
      · simp
      · simp only
        split <;> simp

@[simp] theorem execInterlockAbsent_keepsQueueGrade (now s) : KeepsQueueGrade (execInterlockAbsent now s) s := by
  apply keepsQueueGrade_live
  split
  · split <;> simp
  · split <;> simp
  · simp

@[simp] theorem queueGrade_readbackLost (s) : queueGrade (readbackLost s) = queueGrade s := by simp [readbackLost]

@[simp] theorem execOwnReadbackAbsent_keepsQueueGrade (now s) :
    KeepsQueueGrade (execOwnReadbackAbsent now s) s := by simp [execOwnReadbackAbsent]

@[simp] theorem execWaitingHoldoffExpiry_keepsQueueGrade (now s) :
    KeepsQueueGrade (execWaitingHoldoffExpiry now s) s := by simp [execWaitingHoldoffExpiry]

@[simp] theorem queueGrade_flushQueues (s) : queueGrade (flushQueues s) = queueGrade s := by simp [flushQueues]

@[simp] theorem execOutputGateHoldExpiry_keepsQueueGrade (now s) :
    KeepsQueueGrade (execOutputGateHoldExpiry now s) s := by simp [execOutputGateHoldExpiry]

@[simp] theorem execOrderRecordSilence_keepsQueueGrade (now s) : KeepsQueueGrade (execOrderRecordSilence now s) s := by
  apply keepsQueueGrade_live
  split
  · simp
  · split <;> simp

@[simp] theorem execPairEnable_keepsQueueGrade (g0 g1 g2 g3 release bcrAlike serial names side s) :
    KeepsQueueGrade (execPairEnable g0 g1 g2 g3 release bcrAlike serial names side s) s := by simp [execPairEnable]

@[simp] theorem execPairDisable_keepsQueueGrade (s) : KeepsQueueGrade (execPairDisable s) s := by simp [execPairDisable]

@[simp] theorem execPairLead_keepsQueueGrade (now s) : KeepsQueueGrade (execPairLead now s) s := by
  apply keepsQueueGrade_served
  split <;> simp

@[simp] theorem execPairResilver_keepsQueueGrade (now s) :
    KeepsQueueGrade (execPairResilver now s) s := by simp [execPairResilver]

/-! Machine/SecOps.lean -/

@[simp] theorem queueGrade_setTenantSt (t st s) :
    queueGrade (setTenantSt t st s) = queueGrade s := by simp [setTenantSt]

@[simp] theorem queueGrade_drawKeys (s) : queueGrade (drawKeys s) = queueGrade s := by simp [drawKeys]

@[simp] theorem queueGrade_dropContentKey (e s) :
    queueGrade (dropContentKey e s) = queueGrade s := by simp [dropContentKey]

@[simp] theorem queueGrade_purgeTransport (t s) :
    queueGrade (purgeTransport t s) = queueGrade s := by simp [purgeTransport]

@[simp] theorem queueGrade_revokeDesc (n d s) : queueGrade (revokeDesc n d s) = queueGrade s := by simp [revokeDesc]

@[simp] theorem queueGrade_revokeGroup (g s) : queueGrade (revokeGroup g s) = queueGrade s := by
  unfold revokeGroup
  refine (queueGrade_forEach _ _ _ fun n t => by simp).trans
    ((queueGrade_forEach _ _ _ fun c t => ?_).trans (by simp))
  split
  · rfl
  · simp

@[simp] theorem queueGrade_revokeWindow (w s) : queueGrade (revokeWindow w s) = queueGrade s := by
  unfold revokeWindow
  simp only
  split <;> simp

@[simp] theorem queueGrade_cutTenant (t s) : queueGrade (cutTenant t s) = queueGrade s := by simp [cutTenant]
@[simp] theorem queueGrade_revokeTenant (t s) : queueGrade (revokeTenant t s) = queueGrade s := by simp [revokeTenant]

@[simp] theorem queueGrade_beginScrub (t s) : queueGrade (beginScrub t s) = queueGrade s := by
  unfold beginScrub
  refine (queueGrade_forEach _ _ _ fun e t => ?_).trans (by simp)
  split <;> simp

@[simp] theorem queueGrade_endScrub (t s) : queueGrade (endScrub t s) = queueGrade s := by simp [endScrub]

@[simp] theorem queueGrade_asRole (want r f s)
    (hf : ∀ t, queueGrade (f t) = queueGrade t) :
    queueGrade (asRole want r f s) = queueGrade s := by simp [asRole, hf]

@[simp] theorem queueGrade_endActivation (st region s) :
    queueGrade (endActivation st region s) = queueGrade s := by simp [endActivation]

@[simp] theorem queueGrade_beginActivation (s) : queueGrade (beginActivation s) = queueGrade s := by
  unfold beginActivation
  split
  · rfl
  · split <;> simp

/-! Machine/ResetOps.lean -/

@[simp] theorem queueGrade_saveHours (s) : queueGrade (saveHours s) = queueGrade s := by simp [saveHours]
@[simp] theorem queueGrade_settleSupply (s) : queueGrade (settleSupply s) = queueGrade s := by simp [settleSupply]

@[simp] theorem queueGrade_finishIssuing (jid s) : queueGrade (finishIssuing jid s) = queueGrade s := by
  unfold finishIssuing
  split
  · rfl
  · split <;> simp

@[simp] theorem queueGrade_stopAtReset (jid s) : queueGrade (stopAtReset jid s) = queueGrade s := by
  unfold stopAtReset
  split
  · rfl
  · split
    · simp
    · split <;> simp

@[simp] theorem queueGrade_backToReady (s) : queueGrade (backToReady s) = queueGrade s := by
  unfold backToReady
  apply queueGrade_forEach
  intro c t
  split
  · rfl
  · split
    · simp only
      split <;> simp
    · simp
    · simp
    · rfl

@[simp] theorem queueGrade_carryOut (l n s) : queueGrade (carryOut l n s) = queueGrade s := by
  induction n generalizing s with
  | zero => rfl
  | succ n ih =>
    unfold carryOut
    simp only
    split
    · simp [ih]
    · rfl

@[simp] theorem queueGrade_stopHomes (s) : queueGrade (stopHomes s) = queueGrade s := by simp [stopHomes]

@[simp] theorem queueGrade_rewriteRing (n s) : queueGrade (rewriteRing n s) = queueGrade s := by
  unfold rewriteRing
  simp only
  split <;> simp

@[simp] theorem queueGrade_stopTransport (s) : queueGrade (stopTransport s) = queueGrade s := by simp [stopTransport]
@[simp] theorem queueGrade_stopPorts (s) : queueGrade (stopPorts s) = queueGrade s := by simp [stopPorts]

@[simp] theorem queueGrade_stopPair (memoryKept s) :
    queueGrade (stopPair memoryKept s) = queueGrade s := by simp [stopPair]

@[simp] theorem queueGrade_stopActivation (s) : queueGrade (stopActivation s) = queueGrade s := by simp [stopActivation]
@[simp] theorem queueGrade_stopLinks (s) : queueGrade (stopLinks s) = queueGrade s := by simp [stopLinks]

@[simp] theorem queueGrade_enterSelfRefresh (s) : queueGrade (enterSelfRefresh s) = queueGrade s := by
  unfold enterSelfRefresh
  apply queueGrade_forEach
  intro n t
  split <;> simp

@[simp] theorem queueGrade_quiesce (s) : queueGrade (quiesce s) = queueGrade s := by simp [quiesce]
@[simp] theorem queueGrade_coldState (cause s) : queueGrade (coldState cause s) = queueGrade s := by simp [coldState]

@[simp] theorem queueGrade_beginWarm (cause s) : queueGrade (beginWarm cause s) = queueGrade s := by
  unfold beginWarm
  split <;> simp

@[simp] theorem queueGrade_beginCold (cause s) : queueGrade (beginCold cause s) = queueGrade s := by
  unfold beginCold
  split <;> simp

@[simp] theorem queueGrade_unfenceAt (fails s) : queueGrade (unfenceAt fails s) = queueGrade s := by simp [unfenceAt]
@[simp] theorem queueGrade_endPositions (s) : queueGrade (endPositions s) = queueGrade s := by simp [endPositions]

@[simp] theorem queueGrade_fenceFailed (u s) : queueGrade (fenceFailed u s) = queueGrade s := by
  unfold fenceFailed
  split <;> simp

@[simp] theorem queueGrade_restartKites (s) : queueGrade (restartKites s) = queueGrade s := by simp [restartKites]
@[simp] theorem queueGrade_timeOutNear (s) : queueGrade (timeOutNear s) = queueGrade s := by simp [timeOutNear]
@[simp] theorem queueGrade_restoreWarm (s) : queueGrade (restoreWarm s) = queueGrade s := by simp [restoreWarm]
@[simp] theorem queueGrade_startRecord (s) : queueGrade (startRecord s) = queueGrade s := by simp [startRecord]
@[simp] theorem queueGrade_release (fails s) : queueGrade (release fails s) = queueGrade s := by simp [release]

/-! Machine/Observe.lean -/

@[simp] theorem queueGrade_dropPrev (m k s) : queueGrade (dropPrev m k s) = queueGrade s := by simp [dropPrev]

@[simp] theorem queueGrade_clearInstance (f n s) :
    queueGrade (clearInstance f n s) = queueGrade s := by simp [clearInstance]

@[simp] theorem execResetCounters_keepsQueueGrade (r f n who s) :
    KeepsQueueGrade (execResetCounters r f n who s) s := by simp [execResetCounters]

@[simp] theorem execMetricSample_keepsQueueGrade (use now s) :
    KeepsQueueGrade (execMetricSample use now s) s := by simp [execMetricSample]

@[simp] theorem execPeriodEnd_keepsQueueGrade (now s) :
    KeepsQueueGrade (execPeriodEnd now s) s := by simp [execPeriodEnd]

@[simp] theorem execClearRecorder_keepsQueueGrade (r digest now s) :
    KeepsQueueGrade (execClearRecorder r digest now s) s := by simp [execClearRecorder]

@[simp] theorem execClearEraseDone_keepsQueueGrade (now s) :
    KeepsQueueGrade (execClearEraseDone now s) s := by simp [execClearEraseDone]

@[simp] theorem execReadRecorder_keepsQueueGrade (off len s) :
    KeepsQueueGrade (execReadRecorder off len s) s := by simp [execReadRecorder]

@[simp] theorem execRecWindow_keepsQueueGrade (r d on who s) :
    KeepsQueueGrade (execRecWindow r d on who s) s := by simp [execRecWindow]

@[simp] theorem execRecPeriod_keepsQueueGrade (r minutes s) :
    KeepsQueueGrade (execRecPeriod r minutes s) s := by simp [execRecPeriod]

@[simp] theorem execCursorWrite_keepsQueueGrade (d data s) :
    KeepsQueueGrade (execCursorWrite d data s) s := by simp [execCursorWrite]

@[simp] theorem execObsSelect_keepsQueueGrade (r k g q idx confirm s) :
    KeepsQueueGrade (execObsSelect r k g q idx confirm s) s := by simp [execObsSelect]

@[simp] theorem queueGrade_zeroBuffers (s) : queueGrade (zeroBuffers s) = queueGrade s := by simp [zeroBuffers]

@[simp] theorem execFreezeN_keepsQueueGrade (low now s) : KeepsQueueGrade (execFreezeN low now s) s := by
  unfold execFreezeN
  split
  · simp
  · split <;> simp

@[simp] theorem queueGrade_tapSelect (code s) : queueGrade (tapSelect code s) = queueGrade s := by simp [tapSelect]
@[simp] theorem execBypass_keepsQueueGrade (s) : KeepsQueueGrade (execBypass s) s := by simp [execBypass]
@[simp] theorem execIdcode_keepsQueueGrade (s) : KeepsQueueGrade (execIdcode s) s := by simp [execIdcode]

@[simp] theorem execSamplePreload_keepsQueueGrade (s) :
    KeepsQueueGrade (execSamplePreload s) s := by simp [execSamplePreload]

@[simp] theorem execExtest_keepsQueueGrade (s) : KeepsQueueGrade (execExtest s) s := by simp [execExtest]

@[simp] theorem execScanSelect_keepsQueueGrade (q s) :
    KeepsQueueGrade (execScanSelect q s) s := by simp [execScanSelect]

@[simp] theorem execScanDump_keepsQueueGrade (s) : KeepsQueueGrade (execScanDump s) s := by simp [execScanDump]

/-! Machine/Pool.lean -/

@[simp] theorem execAllocateExtent_keepsQueueGrade (e a s) : KeepsQueueGrade (execAllocateExtent e a s) s := by
  apply keepsQueueGrade_served
  iterate 2 (split; · simp)
  split
  · simp
  · next h => simp [queueGrade_allocBlocks h]

@[simp] theorem execExtentZeroFillComplete_keepsQueueGrade (e s) :
    KeepsQueueGrade (execExtentZeroFillComplete e s) s := by
  apply keepsQueueGrade_live
  split <;> simp

@[simp] theorem execExtentWithdrawalDrained_keepsQueueGrade (e s) :
    KeepsQueueGrade (execExtentWithdrawalDrained e s) s := by
  apply keepsQueueGrade_live
  split <;> simp

@[simp] theorem execExtentScrubComplete_keepsQueueGrade (e s) : KeepsQueueGrade (execExtentScrubComplete e s) s := by
  apply keepsQueueGrade_live
  split <;> simp

@[simp] theorem queueGrade_startRelease (e s) : queueGrade (startRelease e s) = queueGrade s := by simp [startRelease]

@[simp] theorem execReleaseExtent_keepsQueueGrade (e forced s) :
    KeepsQueueGrade (execReleaseExtent e forced s) s := by simp [execReleaseExtent]

@[simp] theorem execBalloonGrow_keepsQueueGrade (e n s) : KeepsQueueGrade (execBalloonGrow e n s) s := by
  apply keepsQueueGrade_served
  iterate 2 (split; · simp)
  split
  · simp
  · next h => simp [queueGrade_allocBlocks h]

@[simp] theorem execBalloonShrink_keepsQueueGrade (e n s) :
    KeepsQueueGrade (execBalloonShrink e n s) s := by simp [execBalloonShrink]

@[simp] theorem execRightsChange_keepsQueueGrade (e r ov s) :
    KeepsQueueGrade (execRightsChange e r ov s) s := by simp [execRightsChange]

@[simp] theorem execSetTetherQuota_keepsQueueGrade (t n s) :
    KeepsQueueGrade (execSetTetherQuota t n s) s := by simp [execSetTetherQuota]

@[simp] theorem execSetTetherPeriod_keepsQueueGrade (h ms s) :
    KeepsQueueGrade (execSetTetherPeriod h ms s) s := by simp [execSetTetherPeriod]

@[simp] theorem queueGrade_pmmBeat (d tag s) : queueGrade (pmmBeat d tag s) = queueGrade s := by simp [pmmBeat]
@[simp] theorem execPmmBeat_keepsQueueGrade (d tag s) : KeepsQueueGrade (execPmmBeat d tag s) s := by simp [execPmmBeat]

@[simp] theorem execTetherDeadlineTick_keepsQueueGrade (now s) :
    KeepsQueueGrade (execTetherDeadlineTick now s) s := by simp [execTetherDeadlineTick]

@[simp] theorem execReleaseTether_keepsQueueGrade (h o forced s) :
    KeepsQueueGrade (execReleaseTether h o forced s) s := by simp [execReleaseTether]

@[simp] theorem execCreateKite_keepsQueueGrade (k t sealed keep s) :
    KeepsQueueGrade (execCreateKite k t sealed keep s) s := by simp [execCreateKite]

@[simp] theorem execSetKiteAttribute_keepsQueueGrade (k keep s) :
    KeepsQueueGrade (execSetKiteAttribute k keep s) s := by
  apply keepsQueueGrade_served
  split <;> simp

@[simp] theorem queueGrade_kiteDone (n d st detail r0 r1 s) :
    queueGrade (kiteDone n d st detail r0 r1 s) = queueGrade s := by simp [kiteDone]

@[simp] theorem queueGrade_kiteOp (n k d y s) : queueGrade (kiteOp n k d y s) = queueGrade s := by
  unfold kiteOp
  simp only
  split
  · simp
  · split
    · simp
    · split
      · split
        · simp
        · split <;> next h => simp [queueGrade_of_eq h]
      · split
        · split <;> next h => simp [queueGrade_of_eq h]
        · simp
  · split <;> simp
  · split <;> simp

@[simp] theorem queueGrade_runKite (op n slot s) : queueGrade (runKite op n slot s) = queueGrade s := by
  unfold runKite
  split
  · rfl
  · split
    · rfl
    · split
      · simp
      · simp only
        split
        · simp
        · split
          · simp
          · split
            · simp
            · split <;> simp

@[simp] theorem queueGrade_kiteDrain (n n' s) : queueGrade (kiteDrain n n' s) = queueGrade s := by
  induction n generalizing s with
  | zero => rfl
  | succ n ih =>
    unfold kiteDrain
    split
    · rfl
    · split
      · simp only
        split <;> simp [ih]
      · rfl

@[simp] theorem execKitePublish_keepsQueueGrade (n slot s) :
    KeepsQueueGrade (execKitePublish n slot s) s := by simp [execKitePublish]

@[simp] theorem execKitePublishDrained_keepsQueueGrade (k s) : KeepsQueueGrade (execKitePublishDrained k s) s := by
  apply keepsQueueGrade_live
  split
  · rfl
  · split
    · rfl
    · split
      · simp only
        split
        · rfl
        · split
          · simp
          · split <;> split <;> simp
      · simp only
        split
        · rfl
        · split
          · simp
          · split <;> split <;> simp

@[simp] theorem execKiteAttach_keepsQueueGrade (n slot s) :
    KeepsQueueGrade (execKiteAttach n slot s) s := by simp [execKiteAttach]

@[simp] theorem execKiteDetach_keepsQueueGrade (n slot s) :
    KeepsQueueGrade (execKiteDetach n slot s) s := by simp [execKiteDetach]

@[simp] theorem execKiteReclaim_keepsQueueGrade (n slot s) :
    KeepsQueueGrade (execKiteReclaim n slot s) s := by simp [execKiteReclaim]

/-! Machine/Power.lean -/

@[simp] theorem execVfStep_keepsQueueGrade (q now s) : KeepsQueueGrade (execVfStep q now s) s := by simp [execVfStep]

@[simp] theorem execEnergyBucketTick_keepsQueueGrade (q uj now s) :
    KeepsQueueGrade (execEnergyBucketTick q uj now s) s := by simp [execEnergyBucketTick]

@[simp] theorem execClassOverrunWindow_keepsQueueGrade (q now s) :
    KeepsQueueGrade (execClassOverrunWindow q now s) s := by
  apply keepsQueueGrade_live
  refine (queueGrade_forEach _ _ _ fun n t => ?_).trans (by simp)
  simp only
  split <;> simp

@[simp] theorem queueGrade_beginEmergency (q kind s) :
    queueGrade (beginEmergency q kind s) = queueGrade s := by simp [beginEmergency]

@[simp] theorem queueGrade_sampleTj (q s) : queueGrade (sampleTj q s) = queueGrade s := by simp [sampleTj]
@[simp] theorem queueGrade_sampleRail (q s) : queueGrade (sampleRail q s) = queueGrade s := by simp [sampleRail]

@[simp] theorem queueGrade_settleThrottle (q s) :
    queueGrade (settleThrottle q s) = queueGrade s := by simp [settleThrottle]

@[simp] theorem execSensorSample_keepsQueueGrade (q tj railW now s) :
    KeepsQueueGrade (execSensorSample q tj railW now s) s := by simp [execSensorSample]

@[simp] theorem execThrottleStepTimer_keepsQueueGrade (q now s) :
    KeepsQueueGrade (execThrottleStepTimer q now s) s := by simp [execThrottleStepTimer]

@[simp] theorem execRailEmergency_keepsQueueGrade (q now s) : KeepsQueueGrade (execRailEmergency q now s) s := by
  apply keepsQueueGrade_live
  split <;> simp

@[simp] theorem execPwrAlertN_keepsQueueGrade (low now s) : KeepsQueueGrade (execPwrAlertN low now s) s := by
  apply keepsQueueGrade_live
  split
  · simp
  · split <;> simp

@[simp] theorem execEmergencyClear_keepsQueueGrade (q kind now s) :
    KeepsQueueGrade (execEmergencyClear q kind now s) s := by simp [execEmergencyClear]

@[simp] theorem execOpCapRaise_keepsQueueGrade (q now s) : KeepsQueueGrade (execOpCapRaise q now s) s := by
  apply keepsQueueGrade_live
  split <;> simp

@[simp] theorem execSetOpReq_keepsQueueGrade (q k s) : KeepsQueueGrade (execSetOpReq q k s) s := by simp [execSetOpReq]

@[simp] theorem execSetBudget_keepsQueueGrade (q w mj s) :
    KeepsQueueGrade (execSetBudget q w mj s) s := by simp [execSetBudget]

/-! Machine/Security.lean -/

@[simp] theorem execGetEvidence_keepsQueueGrade (nonce e now s) :
    KeepsQueueGrade (execGetEvidence nonce e now s) s := by
  apply keepsQueueGrade_served
  split
  · simp
  · split <;> simp

@[simp] theorem execReleaseKeyExpiry_keepsQueueGrade (e now s) :
    KeepsQueueGrade (execReleaseKeyExpiry e now s) s := by simp [execReleaseKeyExpiry]

@[simp] theorem execReleaseKey_keepsQueueGrade (r b now s) : KeepsQueueGrade (execReleaseKey r b now s) s := by
  refine keepsQueueGrade_served ((queueGrade_asRole _ _ _ _ fun t => ?_).trans (by simp))
  simp only
  split <;> simp

@[simp] theorem queueGrade_writePage (e j b s) : queueGrade (writePage e j b s) = queueGrade s := by simp [writePage]

@[simp] theorem queueGrade_loadPages (e pva n key n' n'' s) :
    queueGrade (loadPages e pva n key n' n'' s).2 = queueGrade s := by
  induction n' generalizing n'' s with
  | zero => rfl
  | succ n' ih =>
    unfold loadPages
    simp only
    split
    · next h =>
      split
      · next h' => split <;> simp [ih, queueGrade_of_eq h', queueGrade_of_eq h]
      · next h' => simp [queueGrade_of_eq h', queueGrade_of_eq h]
      · next h' => simp [queueGrade_of_eq h', queueGrade_of_eq h]
    · next h => simp [queueGrade_of_eq h]
    · next h => simp [queueGrade_of_eq h]

@[simp] theorem execLoadSealed_keepsQueueGrade (r e pva n s) : KeepsQueueGrade (execLoadSealed r e pva n s) s := by
  refine keepsQueueGrade_served (queueGrade_asRole _ _ _ _ fun t => ?_)
  simp only
  split
  · split
    · simp
    · split <;> next h => simp [queueGrade_of_eq h]
  · simp

@[simp] theorem execLoadComplete_keepsQueueGrade (e s) :
    KeepsQueueGrade (execLoadComplete e s) s := by simp [execLoadComplete]

@[simp] theorem execCreateTenant_keepsQueueGrade (t memoryOnly now s) :
    KeepsQueueGrade (execCreateTenant t memoryOnly now s) s := by simp [execCreateTenant]

@[simp] theorem execRekeyTenant_keepsQueueGrade (t now s) :
    KeepsQueueGrade (execRekeyTenant t now s) s := by simp [execRekeyTenant]

@[simp] theorem execRekeySweepGranule_keepsQueueGrade (e s) :
    KeepsQueueGrade (execRekeySweepGranule e s) s := by simp [execRekeySweepGranule]

@[simp] theorem queueGrade_endSweep (e s) : queueGrade (endSweep e s) = queueGrade s := by simp [endSweep]

@[simp] theorem execRekeySweepComplete_keepsQueueGrade (t now s) :
    KeepsQueueGrade (execRekeySweepComplete t now s) s := by simp [execRekeySweepComplete]

@[simp] theorem execRevokedSlotEmpty_keepsQueueGrade (t s) :
    KeepsQueueGrade (execRevokedSlotEmpty t s) s := by simp [execRevokedSlotEmpty]

@[simp] theorem execRemoveTenant_keepsQueueGrade (t now s) :
    KeepsQueueGrade (execRemoveTenant t now s) s := by simp [execRemoveTenant]

@[simp] theorem execOutstandingCountersZero_keepsQueueGrade (t now s) :
    KeepsQueueGrade (execOutstandingCountersZero t now s) s := by simp [execOutstandingCountersZero]

@[simp] theorem queueGrade_fenceBlock (t k i s) : queueGrade (fenceBlock t k i s) = queueGrade s := by
  unfold fenceBlock
  split <;> simp

@[simp] theorem execDrainAlertExpiry_keepsQueueGrade (t now s) :
    KeepsQueueGrade (execDrainAlertExpiry t now s) s := by simp [execDrainAlertExpiry]

@[simp] theorem execTenantScrubComplete_keepsQueueGrade (t now s) :
    KeepsQueueGrade (execTenantScrubComplete t now s) s := by simp [execTenantScrubComplete]

@[simp] theorem queueGrade_setSession (k x s) : queueGrade (setSession k x s) = queueGrade s := by simp [setSession]

@[simp] theorem execTlsConnect_keepsQueueGrade (p k profileOk roles digest whole now s) :
    KeepsQueueGrade (execTlsConnect p k profileOk roles digest whole now s) s := by
  unfold execTlsConnect
  extract_lets s₁ refused begun n s₂
  have h₂ : queueGrade s₂ = queueGrade s := by simp [s₂, s₁]
  have hr (t : State) : queueGrade (refused t) = queueGrade t := by simp [refused]
  apply keepsQueueGrade_live
  split
  · simp [s₁]
  · split
    · rw [hr, h₂]
    · split
      · simp [h₂]
      · split
        · split
          · simp [h₂]
          · rw [hr, h₂]
        · rw [hr, h₂]

@[simp] theorem execTlsHandshakeTimeout_keepsQueueGrade (k now s) :
    KeepsQueueGrade (execTlsHandshakeTimeout k now s) s := by
  apply keepsQueueGrade_live
  split <;> simp

@[simp] theorem execTlsIdleTimeout_keepsQueueGrade (k last now s) :
    KeepsQueueGrade (execTlsIdleTimeout k last now s) s := by
  apply keepsQueueGrade_live
  split <;> simp

@[simp] theorem execFirmwareTransfer_keepsQueueGrade (r level digest signer target sig now s) :
    KeepsQueueGrade (execFirmwareTransfer r level digest signer target sig now s) s := by simp [execFirmwareTransfer]

@[simp] theorem execActivationRequest_keepsQueueGrade (r now s) :
    KeepsQueueGrade (execActivationRequest r now s) s := by
  refine keepsQueueGrade_served ((queueGrade_asRole _ _ _ _ fun t => ?_).trans (by simp))
  split
  · simp
  · split <;> simp

@[simp] theorem execDeferralTick_keepsQueueGrade (now s) :
    KeepsQueueGrade (execDeferralTick now s) s := by simp [execDeferralTick]

@[simp] theorem execDeferralExpiry_keepsQueueGrade (now s) :
    KeepsQueueGrade (execDeferralExpiry now s) s := by simp [execDeferralExpiry]

@[simp] theorem execFirmwareActivate_keepsQueueGrade (selfOk now s) :
    KeepsQueueGrade (execFirmwareActivate selfOk now s) s := by
  apply keepsQueueGrade_live
  split
  · simp
  · split <;> simp

@[simp] theorem execInstallBcr_keepsQueueGrade (r b signer s) :
    KeepsQueueGrade (execInstallBcr r b signer s) s := by simp [execInstallBcr]

@[simp] theorem execAuthoriseRollback_keepsQueueGrade (r level now s) :
    KeepsQueueGrade (execAuthoriseRollback r level now s) s := by simp [execAuthoriseRollback]

/-! Machine/Stacks.lean -/

@[simp] theorem execStackRefresh_keepsQueueGrade (pc bank now s) :
    KeepsQueueGrade (execStackRefresh pc bank now s) s := by simp [execStackRefresh]

@[simp] theorem execStackTempRead_keepsQueueGrade (n tempC s) :
    KeepsQueueGrade (execStackTempRead n tempC s) s := by simp [execStackTempRead]

@[simp] theorem queueGrade_setChan (c x s) : queueGrade (setChan c x s) = queueGrade s := by simp [setChan]

@[simp] theorem execParityAlert_keepsQueueGrade (c i now s) :
    KeepsQueueGrade (execParityAlert c i now s) s := by simp [execParityAlert]

@[simp] theorem queueGrade_chanErr (kind pc s) : queueGrade (chanErr kind pc s) = queueGrade s := by simp [chanErr]
@[simp] theorem queueGrade_precharge (c s) : queueGrade (precharge c s) = queueGrade s := by simp [precharge]
@[simp] theorem queueGrade_replay (x s) : queueGrade (replay x s) = queueGrade s := by simp [replay]

@[simp] theorem execParityAlertClear_keepsQueueGrade (c now s) :
    KeepsQueueGrade (execParityAlertClear c now s) s := by simp [execParityAlertClear]

@[simp] theorem queueGrade_scrubLine (l src s) : queueGrade (scrubLine l src s) = queueGrade s := by simp [scrubLine]

@[simp] theorem queueGrade_takeDamage (l errs stray s) :
    queueGrade (takeDamage l errs stray s) = queueGrade s := by simp [takeDamage]

@[simp] theorem execPatrolScrubRead_keepsQueueGrade (r s) :
    KeepsQueueGrade (execPatrolScrubRead r s) s := by simp [execPatrolScrubRead]

@[simp] theorem execPatrolPeriodEnd_keepsQueueGrade (now s) :
    KeepsQueueGrade (execPatrolPeriodEnd now s) s := by simp [execPatrolPeriodEnd]

@[simp] theorem queueGrade_setMig (k m s) : queueGrade (setMig k m s) = queueGrade s := by simp [setMig]
@[simp] theorem queueGrade_setStackSt (n st s) : queueGrade (setStackSt n st s) = queueGrade s := by simp [setStackSt]

theorem queueGrade_tryRetire {n s t} (h : tryRetire n s = some t) : queueGrade t = queueGrade s := by
  unfold tryRetire at h
  split at h
  · cases h; simp
  · cases h

@[simp] theorem execRetireStack_keepsQueueGrade (n byFm s) : KeepsQueueGrade (execRetireStack n byFm s) s := by
  apply keepsQueueGrade_live
  iterate 3 (split; · simp)
  simp only
  split
  · next h => simp [queueGrade_tryRetire h]
  · simp

@[simp] theorem execStackFailure_keepsQueueGrade (n pcs s) : KeepsQueueGrade (execStackFailure n pcs s) s := by
  apply keepsQueueGrade_live
  split <;> simp

@[simp] theorem execRetirementStart_keepsQueueGrade (n s) : KeepsQueueGrade (execRetirementStart n s) s := by
  have retire : queueGrade ((tryRetire n.val s).getD s) = queueGrade s := by
    cases h : tryRetire n.val s with
    | none => rfl
    | some t => exact queueGrade_tryRetire h
  apply keepsQueueGrade_live
  split
  · exact retire
  · exact retire
  · rfl

@[simp] theorem queueGrade_migrateLine (l s) : queueGrade (migrateLine l s) = queueGrade s := by simp [migrateLine]
@[simp] theorem queueGrade_retireDone (k s) : queueGrade (retireDone k s) = queueGrade s := by simp [retireDone]

@[simp] theorem execMigrationGranule_keepsQueueGrade (k b i g s) :
    KeepsQueueGrade (execMigrationGranule k b i g s) s := by simp [execMigrationGranule]

@[simp] theorem execReinterleave_keepsQueueGrade (e pl g s) : KeepsQueueGrade (execReinterleave e pl g s) s := by
  apply keepsQueueGrade_served
  iterate 2 (split; · simp)
  split
  · simp
  · next h => simp [queueGrade_allocBlocks h]

@[simp] theorem queueGrade_copyLine (l t s) : queueGrade (copyLine l t s) = queueGrade s := by simp [copyLine]

@[simp] theorem execReinterleaveGranule_keepsQueueGrade (s) :
    KeepsQueueGrade (execReinterleaveGranule s) s := by simp [execReinterleaveGranule]

@[simp] theorem execReinterleaveSwitch_keepsQueueGrade (root now s) :
    KeepsQueueGrade (execReinterleaveSwitch root now s) s := by simp [execReinterleaveSwitch]

@[simp] theorem execDirectoryHandover_keepsQueueGrade (l s) :
    KeepsQueueGrade (execDirectoryHandover l s) s := by simp [execDirectoryHandover]

@[simp] theorem execReinterleaveComplete_keepsQueueGrade (s) :
    KeepsQueueGrade (execReinterleaveComplete s) s := by simp [execReinterleaveComplete]

@[simp] theorem execSetMemCtrl_keepsQueueGrade (patrolHours actThreshold ceRemap migratePct s) :
    KeepsQueueGrade (execSetMemCtrl patrolHours actThreshold ceRemap migratePct s) s := by simp [execSetMemCtrl]

@[simp] theorem execErrTailWrite_keepsQueueGrade (data s) :
    KeepsQueueGrade (execErrTailWrite data s) s := by simp [execErrTailWrite]

@[simp] theorem execStackTrainingDone_keepsQueueGrade (codes s) :
    KeepsQueueGrade (execStackTrainingDone codes s) s := by simp [execStackTrainingDone]

@[simp] theorem execPowerOnFillDone_keepsQueueGrade (s) :
    KeepsQueueGrade (execPowerOnFillDone s) s := by simp [execPowerOnFillDone]

/-! Machine/Xlt.lean -/

@[simp] theorem execWalkResult_keepsQueueGrade (q t pva who port admitted acc ents s) :
    KeepsQueueGrade (execWalkResult q t pva who port admitted acc ents s) s := by
  apply keepsQueueGrade_live
  split
  · rfl
  · simp
  · split
    · simp only
      split <;> simp
    · simp only
      split <;> simp

@[simp] theorem execInvalidation_keepsQueueGrade (q t lo hi now s) :
    KeepsQueueGrade (execInvalidation q t lo hi now s) s := by simp [execInvalidation]

@[simp] theorem queueGrade_switchDone (t s) : queueGrade (switchDone t s) = queueGrade s := by simp [switchDone]
@[simp] theorem queueGrade_reportInval (q v s) : queueGrade (reportInval q v s) = queueGrade s := by simp [reportInval]

@[simp] theorem execInvalidationComplete_keepsQueueGrade (q t lo hi s) :
    KeepsQueueGrade (execInvalidationComplete q t lo hi s) s := by
  apply keepsQueueGrade_live
  split <;> simp

@[simp] theorem queueGrade_boundOwner (o ext s) : queueGrade (boundOwner o ext s) = queueGrade s := by
  unfold boundOwner
  simp only
  split
  · simp
  · split <;> simp

@[simp] theorem queueGrade_cancelBeat (l r s) : queueGrade (cancelBeat l r s) = queueGrade s := by simp [cancelBeat]
@[simp] theorem queueGrade_cancelAll (late s) : queueGrade (cancelAll late s).2 = queueGrade s := by simp [cancelAll]

@[simp] theorem execDrainBoundExpiry_keepsQueueGrade (q t lo hi now s) :
    KeepsQueueGrade (execDrainBoundExpiry q t lo hi now s) s := by
  apply keepsQueueGrade_live
  split <;> simp

@[simp] theorem execTableSwitch_keepsQueueGrade (t root now s) :
    KeepsQueueGrade (execTableSwitch t root now s) s := by simp [execTableSwitch]

@[simp] theorem queueGrade_dmaFault (q n va write r s) :
    queueGrade (dmaFault q n va write r s) = queueGrade s := by simp [dmaFault]

@[simp] theorem execAtsTranslationCompletion_keepsQueueGrade (d pasid page size hpa granted n s) :
    KeepsQueueGrade (execAtsTranslationCompletion d pasid page size hpa granted n s) s := by
  simp [execAtsTranslationCompletion]

@[simp] theorem execAtsInvalidateRequest_keepsQueueGrade (d pasid page size itag now s) :
    KeepsQueueGrade (execAtsInvalidateRequest d pasid page size itag now s) s := by simp [execAtsInvalidateRequest]

@[simp] theorem queueGrade_finishAts (q v s) : queueGrade (finishAts q v s) = queueGrade s := by simp [finishAts]

@[simp] theorem execAtsInvalidateComplete_keepsQueueGrade (d itag s) :
    KeepsQueueGrade (execAtsInvalidateComplete d itag s) s := by
  apply keepsQueueGrade_live
  split <;> simp

@[simp] theorem execAtsInvalBoundExpiry_keepsQueueGrade (d itag now s) :
    KeepsQueueGrade (execAtsInvalBoundExpiry d itag now s) s := by
  apply keepsQueueGrade_live
  split <;> simp

@[simp] theorem execFaultTailWrite_keepsQueueGrade (q data s) :
    KeepsQueueGrade (execFaultTailWrite q data s) s := by simp [execFaultTailWrite]

/-! Machine/Registers.lean -/

@[simp] theorem execSetPriv_keepsQueueGrade (d on s) : KeepsQueueGrade (execSetPriv d on s) s := by simp [execSetPriv]

@[simp] theorem queueGrade_writeQueue (n w v s) : queueGrade (writeQueue n w v s) = queueGrade s := by
  unfold writeQueue
  split <;> simp

@[simp] theorem queueGrade_writeWindow (w i v s) : queueGrade (writeWindow w i v s) = queueGrade s := by
  unfold writeWindow
  split <;> split <;> simp

@[simp] theorem queueGrade_writeObj (o i v s) : queueGrade (writeObj o i v s) = queueGrade s := by
  unfold writeObj
  split <;> split <;> simp

@[simp] theorem queueGrade_writeColl (w i v s) : queueGrade (writeColl w i v s) = queueGrade s := by simp [writeColl]
@[simp] theorem queueGrade_writeQuad (q o v s) : queueGrade (writeQuad q o v s) = queueGrade s := by simp [writeQuad]
@[simp] theorem queueGrade_writeErrCtrl (v s) : queueGrade (writeErrCtrl v s) = queueGrade s := by simp [writeErrCtrl]
@[simp] theorem queueGrade_writeMapErr (d v s) : queueGrade (writeMapErr d v s) = queueGrade s := by simp [writeMapErr]

@[simp] theorem queueGrade_writeReg (d o v s) : queueGrade (writeReg d o v s) = queueGrade s := by
  unfold writeReg
  split
  · simp
  · split
    · simp
    · split
      · simp
      · split
        · simp
        · split
          · simp
          · split <;> simp

@[simp] theorem queueGrade_viewOpen (o raw s) : queueGrade (viewOpen o raw s).2 = queueGrade s := by simp [viewOpen]

@[simp] theorem queueGrade_bar0Word (a o s) : queueGrade (bar0Word a o s).2 = queueGrade s := by
  unfold bar0Word
  split
  · simp
  · split
    · rfl
    · split
      · simp
      · simp only
        split <;> rfl

@[simp] theorem queueGrade_flagBad (a write off s) :
    queueGrade (flagBad a write off s) = queueGrade s := by simp [flagBad]

@[simp] theorem queueGrade_readBar0 (a off s) : queueGrade (readBar0 a off s) = queueGrade s := by simp [readBar0]

@[simp] theorem queueGrade_writeBar0 (a off v s) : queueGrade (writeBar0 a off v s) = queueGrade s := by
  unfold writeBar0
  split
  · simp
  · split
    · simp
    · split
      · simp
      · simp only
        split
        · rfl
        · split
          · rfl
          · split
            · simp
            · split <;> simp

@[simp] theorem queueGrade_writeBar2 (a off v s) :
    queueGrade (writeBar2 a off v s) = queueGrade s := by simp [writeBar2]

@[simp] theorem queueGrade_readBar4 (a off s) : queueGrade (readBar4 a off s) = queueGrade s := by simp [readBar4]

@[simp] theorem queueGrade_writeBar4 (a off v s) :
    queueGrade (writeBar4 a off v s) = queueGrade s := by simp [writeBar4]

@[simp] theorem queueGrade_writeBi (a v s) : queueGrade (writeBi a v s) = queueGrade s := by simp [writeBi]

@[simp] theorem queueGrade_regRead (a s) : queueGrade (regRead a s) = queueGrade s := by
  unfold regRead
  split <;> simp

@[simp] theorem queueGrade_regWrite (a v s) : queueGrade (regWrite a v s) = queueGrade s := by
  unfold regWrite
  split <;> simp

@[simp] theorem execRegisterWrite_keepsQueueGrade (a s) : KeepsQueueGrade (execRegisterWrite a s) s := by
  apply keepsQueueGrade_live
  split
  · rfl
  · split
    · simp
    · split <;> simp

/-! Machine/Reset.lean -/

@[simp] theorem queueGrade_setQclock (q x s) : queueGrade (setQclock q x s) = queueGrade s := by simp [setQclock]
@[simp] theorem execPllLock_keepsQueueGrade (q now s) : KeepsQueueGrade (execPllLock q now s) s := by simp [execPllLock]

@[simp] theorem execPllLockLoss_keepsQueueGrade (q now s) :
    KeepsQueueGrade (execPllLockLoss q now s) s := by simp [execPllLockLoss]

@[simp] theorem execRefclkLoss_keepsQueueGrade (now s) :
    KeepsQueueGrade (execRefclkLoss now s) s := by simp [execRefclkLoss]

@[simp] theorem execDividerStep_keepsQueueGrade (q now s) :
    KeepsQueueGrade (execDividerStep q now s) s := by simp [execDividerStep]

@[simp] theorem execGateCloseRequest_keepsQueueGrade (q g idle s) :
    KeepsQueueGrade (execGateCloseRequest q g idle s) s := by simp [execGateCloseRequest]

@[simp] theorem execGateOpen_keepsQueueGrade (q g s) : KeepsQueueGrade (execGateOpen q g s) s := by simp [execGateOpen]

@[simp] theorem execAonOscillatorStable_keepsQueueGrade (s) :
    KeepsQueueGrade (execAonOscillatorStable s) s := by simp [execAonOscillatorStable]

@[simp] theorem execAonOscillatorTimeout_keepsQueueGrade (s) : KeepsQueueGrade (execAonOscillatorTimeout s) s := by
  unfold execAonOscillatorTimeout
  split <;> simp

@[simp] theorem execAonClkLost_keepsQueueGrade (now s) :
    KeepsQueueGrade (execAonClkLost now s) s := by simp [execAonClkLost]

@[simp] theorem execOperatingHourTick_keepsQueueGrade (s) :
    KeepsQueueGrade (execOperatingHourTick s) s := by simp [execOperatingHourTick]

@[simp] theorem queueGrade_losePeriod (s) : queueGrade (losePeriod s) = queueGrade s := by simp [losePeriod]

@[simp] theorem execOverTemperatureTrip_keepsQueueGrade (now s) :
    KeepsQueueGrade (execOverTemperatureTrip now s) s := by
  unfold execOverTemperatureTrip
  split <;> simp

@[simp] theorem queueGrade_resumeTime (ticks s) : queueGrade (resumeTime ticks s) = queueGrade s := by simp [resumeTime]
@[simp] theorem queueGrade_startWake (ticks s) : queueGrade (startWake ticks s) = queueGrade s := by simp [startWake]

@[simp] theorem queueGrade_beginWake (cause ticks s) :
    queueGrade (beginWake cause ticks s) = queueGrade s := by simp [beginWake]

@[simp] theorem execSupplyLoss_keepsQueueGrade (rail now s) : KeepsQueueGrade (execSupplyLoss rail now s) s := by
  unfold execSupplyLoss
  simp only
  split
  · split <;> split <;> simp
  · split <;> split <;> simp
  · split <;> simp
  · split <;> simp

@[simp] theorem execSupplyReturn_keepsQueueGrade (rail ticks s) :
    KeepsQueueGrade (execSupplyReturn rail ticks s) s := by
  unfold execSupplyReturn
  simp only
  split
  · simp
  · split
    · split
      · simp
      · split
        · split <;> simp
        · simp
    · split
      · simp
      · split
        · split <;> simp
        · simp

@[simp] theorem execWakeN_keepsQueueGrade (low ticks s) :
    KeepsQueueGrade (execWakeN low ticks s) s := by simp [execWakeN]

@[simp] theorem execColdReset_keepsQueueGrade (cause now s) :
    KeepsQueueGrade (execColdReset cause now s) s := by simp [execColdReset]

@[simp] theorem execResetCold_keepsQueueGrade (r now s) :
    KeepsQueueGrade (execResetCold r now s) s := by simp [execResetCold]

@[simp] theorem execWarmReset_keepsQueueGrade (selfFenced now s) :
    KeepsQueueGrade (execWarmReset selfFenced now s) s := by simp [execWarmReset]

@[simp] theorem execResetWarm_keepsQueueGrade (r now s) :
    KeepsQueueGrade (execResetWarm r now s) s := by simp [execResetWarm]

@[simp] theorem execDeviceWatchdogRefresh_keepsQueueGrade (now s) :
    KeepsQueueGrade (execDeviceWatchdogRefresh now s) s := by simp [execDeviceWatchdogRefresh]

@[simp] theorem execDeviceWatchdogExpiry_keepsQueueGrade (now s) :
    KeepsQueueGrade (execDeviceWatchdogExpiry now s) s := by simp [execDeviceWatchdogExpiry]

@[simp] theorem execResetRelease_keepsQueueGrade (ticks s) :
    KeepsQueueGrade (execResetRelease ticks s) s := by simp [execResetRelease]

@[simp] theorem queueGrade_applyBcr (b s) : queueGrade (applyBcr b s) = queueGrade s := by simp [applyBcr]

@[simp] theorem queueGrade_bootRelease (s n) : queueGrade (bootRelease s n) = queueGrade s := by
  unfold bootRelease
  split <;> simp

@[simp] theorem execBootFlashRead_keepsQueueGrade (okA okB okBcr a b bcr identityOk now s) :
    KeepsQueueGrade (execBootFlashRead okA okB okBcr a b bcr identityOk now s) s := by
  apply keepsQueueGrade_live
  split
  · simp
  · split
    · simp only
      split <;> simp
    · simp only
      split <;> simp

@[simp] theorem execDeviceRelease_keepsQueueGrade (fails now s) :
    KeepsQueueGrade (execDeviceRelease fails now s) s := by simp [execDeviceRelease]

@[simp] theorem execEnterDormant_keepsQueueGrade (r now s) :
    KeepsQueueGrade (execEnterDormant r now s) s := by simp [execEnterDormant]

@[simp] theorem execFaPresenceChange_keepsQueueGrade (e mated s) :
    KeepsQueueGrade (execFaPresenceChange e mated s) s := by simp [execFaPresenceChange]

@[simp] theorem execAvsTimeout_keepsQueueGrade (q now s) :
    KeepsQueueGrade (execAvsTimeout q now s) s := by simp [execAvsTimeout]

/-! Every command, and a step. -/

/-- Each arm of `exec` is one command, and the lemma of that command closes it. -/
theorem exec_keepsQueueGrade (c : Instr) (s : State) : KeepsQueueGrade (exec c s) s := by
  cases c <;> simp [exec]

theorem step_of_cons (c : Instr) (rest : List Instr) (s : State) :
    step { s with pending := c :: rest } = exec c { s with pending := rest } := rfl

theorem step_of_nil {s : State} (h : s.pending = []) : step s = .next (idle s) := by
  simp only [step, h]

/-- Settles O43: the frame lemma of each command, over the cases of the command. -/
theorem commandsLeaveQueueAndGrade : Obligations.CommandsLeaveQueueAndGrade := by
  unfold Obligations.CommandsLeaveQueueAndGrade
  intro c s t h
  exact Prod.mk.inj (exec_keepsQueueGrade c s t h)

/-- Settles O39, by the two cases of the queue. -/
theorem stepRunsFrontCommand : Obligations.StepRunsFrontCommand := by
  unfold Obligations.StepRunsFrontCommand
  exact ⟨step_of_cons, fun _ h => step_of_nil h⟩

end Sys2Proof.Machine
end

section
/-! SUPPORT. Every step keeps the anchor role legal (O42).

Few commands write the anchor role, the route and multicast tables or the membership table: `settings` reads these parts
together. One frame lemma for each operation of the model that builds a state says that `settings` reads of the state it
leaves what it read before; for the operations that write one of the parts, a lemma says what becomes of the anchor
role. The lemmas stand in the order of the model's files, each above the operations that call it, and are simp lemmas,
so that a caller's proof splits the branches of its definition and cites the lemmas of what it calls. -/

namespace Sys2Proof.Machine

open Sys2Proof.Safety (AnchorLegal)

/-- The anchor role, the route and multicast tables, and the membership table. -/
def settings (s : State) : (Option Nat × Tbl (BitVec 64) × Tbl (BitVec 64 × Bool × Bool)) × List (Nat × Nat) :=
  ((s.fen.anchor, s.rof.route, s.rof.mcast), s.pool.members)

/-- A command's answer, when it is a next state, has the settings of `s`. -/
def KeepsSettings (a : Ans) (s : State) : Prop := ∀ t, a = .next t → settings t = settings s

/-- Q0, Q2 or no quadrant (R17, R19, R417). -/
def LegalSeat (a : Option Nat) : Prop := a = none ∨ a = some 0 ∨ a = some 2

/-- A command's answer, when it is a next state, leaves a legal anchor role legal. -/
def KeepsSeatLegal (a : Ans) (s : State) : Prop :=
  ∀ t, a = .next t → LegalSeat (settings s).1.1 → LegalSeat (settings t).1.1

theorem anchorLegal_iff (s : State) : AnchorLegal s ↔ LegalSeat (settings s).1.1 := Iff.rfl

@[simp] theorem legalSeat_anchor (s : State) : LegalSeat s.fen.anchor ↔ LegalSeat (settings s).1.1 := .rfl
@[simp] theorem legalSeat_none : LegalSeat none := .inl rfl
@[simp] theorem legalSeat_zero : LegalSeat (some 0) := .inr (.inl rfl)
@[simp] theorem legalSeat_two : LegalSeat (some 2) := .inr (.inr rfl)

/-! How `settings` reads a record update, a conditional and a pair. The first three are proved by `(rfl)`, not `rfl`, so
that `simp` keeps the step in its proof: under a binder it cannot see through `settings`. -/

@[simp] theorem settings_mk (p o t f g cnt obs pool xlt dir mem rof e2e que nm core sch cxl sec fen pair clk map) :
    settings ⟨p, o, t, f, g, cnt, obs, pool, xlt, dir, mem, rof, e2e, que, nm, core, sch, cxl, sec, fen, pair, clk,
      map⟩ = ((fen.anchor, rof.route, rof.mcast), pool.members) := (rfl)

@[simp] theorem settings_eta (s : State) :
    ((s.fen.anchor, s.rof.route, s.rof.mcast), s.pool.members) = settings s := (rfl)

theorem seat_routes_eta (s : State) : (s.fen.anchor, s.rof.route, s.rof.mcast) = (settings s).1 := (rfl)

@[simp] theorem settings_ite (c : Prop) [Decidable c] (s t : State) :
    settings (if c then s else t) = if c then settings s else settings t := apply_ite ..

@[simp] theorem settings_ite_snd {α : Type} (c : Prop) [Decidable c] (p q : α × State) :
    settings (if c then p else q).2 = if c then settings p.2 else settings q.2 :=
  apply_ite (fun p : α × State => settings p.2) ..

@[simp] theorem settings_ite_snd_snd {α β : Type} (c : Prop) [Decidable c] (p q : α × β × State) :
    settings (if c then p else q).2.2 = if c then settings p.2.2 else settings q.2.2 :=
  apply_ite (fun p : α × β × State => settings p.2.2) ..

@[simp] theorem legalSeat_ite {α β : Type} (c : Prop) [Decidable c] (p q : (Option Nat × α) × β) :
    LegalSeat (if c then p else q).1.1 ↔ if c then LegalSeat p.1.1 else LegalSeat q.1.1 := by
  split <;> rfl

/-- The state of a pair that `split` has taken apart. -/
theorem settings_of_eq {α : Type} {p : α × State} {a : α} {t : State} (h : p = (a, t)) :
    settings t = settings p.2 := by rw [h]

/-- The state of a triple that `split` has taken apart. -/
theorem settings_of_eq₃ {α β : Type} {p : α × β × State} {a : α} {b : β} {t : State} (h : p = (a, b, t)) :
    settings t = settings p.2.2 := by rw [h]

/-- What holds after every state with the settings of `s` holds after `t`: a proof that splits cases on what
an operation left then speaks of an opaque state, and the kernel never runs the operation. -/
theorem of_settings_eq {s : State} {P : State → Prop} (t : State) (ht : settings t = settings s)
    (h : ∀ u, settings u = settings s → P u) : P t := h t ht

/-- What each turn of a fold that carries a value beside the state keeps, the fold keeps. -/
@[simp] theorem settings_foldl_snd {α β : Type} (l : List β) (f : α × State → β → α × State) (p : α × State)
    (h : ∀ p b, settings (f p b).2 = settings p.2) : settings (l.foldl f p).2 = settings p.2 := by
  induction l generalizing p with
  | nil => rfl
  | cons b l ih => exact (ih (f p b)).trans (h p b)

/-! Where a setter's own block holds one of the parts. -/

@[simp] theorem setExtent_members (e x s) : (setExtent e x s).pool.members = s.pool.members := rfl
@[simp] theorem setKite_members (k x s) : (setKite k x s).pool.members = s.pool.members := rfl
@[simp] theorem setPort_route (p x s) : (setPort p x s).rof.route = s.rof.route := rfl
@[simp] theorem setPort_mcast (p x s) : (setPort p x s).rof.mcast = s.rof.mcast := rfl
@[simp] theorem setVc_route (p v x s) : (setVc p v x s).rof.route = s.rof.route := rfl
@[simp] theorem setVc_mcast (p v x s) : (setVc p v x s).rof.mcast = s.rof.mcast := rfl

/-! Answers of commands, and the guards of `Ops`. -/

@[simp] theorem keepsSettings_next (t s : State) : KeepsSettings (.next t) s ↔ settings t = settings s :=
  ⟨fun h => h t rfl, fun h _ ht => by cases ht; exact h⟩

@[simp] theorem keepsSettings_fault (r : Fault) (s : State) : KeepsSettings (.fault r) s := fun _ h => by cases h

@[simp] theorem keepsSettings_ite (c : Prop) [Decidable c] (a b : Ans) (s : State) :
    KeepsSettings (if c then a else b) s ↔ if c then KeepsSettings a s else KeepsSettings b s := by
  split <;> rfl

@[simp] theorem settings_live (s t : State) :
    settings (live s t) = if halted s then settings s else settings t := by simp [live]

@[simp] theorem settings_managed (s t : State) :
    settings (managed s t) = if anchorServes s then settings t else settings s := by simp [managed]

@[simp] theorem settings_served (s t : State) : settings (served s t) =
    if halted s then settings s else if anchorServes s then settings t else settings s := by
  simp [served]

theorem keepsSettings_live {s t : State} (h : settings t = settings s) :
    KeepsSettings (.next (live s t)) s := by
  simp [h]

theorem keepsSettings_served {s t : State} (h : settings t = settings s) :
    KeepsSettings (.next (served s t)) s := by
  simp [h]

@[simp] theorem keepsSeatLegal_of_keepsSettings {a : Ans} {s : State} (h : KeepsSettings a s) : KeepsSeatLegal a s :=
  fun t ht hs => by rwa [h t ht]

@[simp] theorem keepsSeatLegal_next (t s : State) :
    KeepsSeatLegal (.next t) s ↔ (LegalSeat (settings s).1.1 → LegalSeat (settings t).1.1) :=
  ⟨fun h => h t rfl, fun h _ ht => by cases ht; exact h⟩

theorem keepsSeatLegal_live {s t : State} (h : LegalSeat (settings s).1.1 → LegalSeat (settings t).1.1) :
    KeepsSeatLegal (.next (live s t)) s := by
  rw [keepsSeatLegal_next, settings_live]
  split
  · exact id
  · exact h

theorem keepsSeatLegal_served {s t : State} (h : LegalSeat (settings s).1.1 → LegalSeat (settings t).1.1) :
    KeepsSeatLegal (.next (served s t)) s := by
  apply keepsSeatLegal_live
  rw [settings_managed]
  split
  · exact h
  · exact id

/-! Machine/Ops.lean -/

@[simp] theorem settings_advance (now s) : settings (advance now s) = settings s := by simp [advance]
@[simp] theorem settings_emit (o s) : settings (emit o s) = settings s := by simp [emit]
@[simp] theorem settings_cntAdd (f n i k s) : settings (cntAdd f n i k s) = settings s := by simp [cntAdd]
@[simp] theorem settings_bump (f n i s) : settings (bump f n i s) = settings s := by simp [bump]
@[simp] theorem settings_drawWord (s) : settings (drawWord s).2 = settings s := by simp [drawWord]
@[simp] theorem settings_drawBytes (n s) : settings (drawBytes n s).2 = settings s := by simp [drawBytes]
@[simp] theorem settings_drawBool (s) : settings (drawBool s).2 = settings s := by simp [drawBool]
@[simp] theorem settings_logPush (r s) : settings (logPush r s) = settings s := by simp [logPush]

@[simp] theorem settings_recordAs (short kind subject body s) :
    settings (recordAs short kind subject body s) = settings s := by simp [recordAs]

@[simp] theorem settings_record (kind subject body s) :
    settings (record kind subject body s) = settings s := by simp [record]

@[simp] theorem settings_event (code body s) : settings (event code body s) = settings s := by simp [event]

@[simp] theorem settings_actionEvent (cmd args who s) :
    settings (actionEvent cmd args who s) = settings s := by simp [actionEvent]

@[simp] theorem settings_setXunit (q u s) : settings (setXunit q u s) = settings s := by simp [setXunit]
@[simp] theorem settings_setRoots (t r s) : settings (setRoots t r s) = settings s := by simp [setRoots]
@[simp] theorem settings_setExtent (e x s) : settings (setExtent e x s) = settings s := by simp [setExtent]
@[simp] theorem settings_setKite (k x s) : settings (setKite k x s) = settings s := by simp [setKite]
@[simp] theorem settings_setLine (l x s) : settings (setLine l x s) = settings s := by simp [setLine]
@[simp] theorem settings_setBlock (b x s) : settings (setBlock b x s) = settings s := by simp [setBlock]
@[simp] theorem settings_setStack (n x s) : settings (setStack n x s) = settings s := by simp [setStack]
@[simp] theorem settings_setPort (p x s) : settings (setPort p x s) = settings s := by simp [setPort]
@[simp] theorem settings_setVc (p v x s) : settings (setVc p v x s) = settings s := by simp [setVc]
@[simp] theorem settings_setQueue (n x s) : settings (setQueue n x s) = settings s := by simp [setQueue]
@[simp] theorem settings_setGroup (g x s) : settings (setGroup g x s) = settings s := by simp [setGroup]
@[simp] theorem settings_setJob (j x s) : settings (setJob j x s) = settings s := by simp [setJob]
@[simp] theorem settings_setWindow (w x s) : settings (setWindow w x s) = settings s := by simp [setWindow]
@[simp] theorem settings_setCore (n x s) : settings (setCore n x s) = settings s := by simp [setCore]
@[simp] theorem settings_setPwrq (q x s) : settings (setPwrq q x s) = settings s := by simp [setPwrq]
@[simp] theorem settings_setCxlPort (p x s) : settings (setCxlPort p x s) = settings s := by simp [setCxlPort]
@[simp] theorem settings_setLogDev (d x s) : settings (setLogDev d x s) = settings s := by simp [setLogDev]
@[simp] theorem settings_setWdw (d g x s) : settings (setWdw d g x s) = settings s := by simp [setWdw]
@[simp] theorem settings_setTenant (t x s) : settings (setTenant t x s) = settings s := by simp [setTenant]
@[simp] theorem settings_setSealed (e x s) : settings (setSealed e x s) = settings s := by simp [setSealed]
@[simp] theorem settings_setQuad (q x s) : settings (setQuad q x s) = settings s := by simp [setQuad]

@[simp] theorem settings_hostLog (d k typ vals s) :
    settings (hostLog d k typ vals s) = settings s := by simp [hostLog]

@[simp] theorem settings_badAccess (d write off s) :
    settings (badAccess d write off s) = settings s := by simp [badAccess]

@[simp] theorem settings_forEach {α : Type} (l : List α) (f : α → State → State) (s)
    (hf : ∀ a t, settings (f a t) = settings t) :
    settings (forEach l f s) = settings s :=
  forEach_keeps (P := fun t => settings t = settings s) l (fun a t h => (hf a t).trans h) rfl

@[simp] theorem settings_when (c f s)
    (hf : ∀ t, settings (f t) = settings t) :
    settings (when c f s) = settings s := by simp [when, hf]

/-! Machine/NetOps.lean -/

@[simp] theorem settings_setSend (k c s) : settings (setSend k c s) = settings s := by simp [setSend]
@[simp] theorem settings_setRecv (k c s) : settings (setRecv k c s) = settings s := by simp [setRecv]

@[simp] theorem settings_enqueue (p pk entry s) :
    settings (enqueue p pk entry s) = settings s := by simp [enqueue]

@[simp] theorem settings_cross (a b n s) : settings (cross a b n s) = settings s := by simp [cross]

@[simp] theorem settings_sendBy (q p pk entry s) :
    settings (sendBy q p pk entry s) = settings s := by simp [sendBy]

@[simp] theorem settings_routeOut (q pk entry s) : settings (routeOut q pk entry s) = settings s := by
  unfold routeOut
  split
  · simp
  · split <;> simp

@[simp] theorem settings_sendOut (k pk s) : settings (sendOut k pk s) = settings s := by
  unfold sendOut
  split
  · split <;> simp
  · simp

@[simp] theorem settings_noteStall (k c w s) : settings (noteStall k c w s) = settings s := by simp [noteStall]

@[simp] theorem settings_flushN (make start n k s)
    (hmake : ∀ a t, settings (make a t).2 = settings t)
    (hstart : ∀ a b t, settings (start a b t) = settings t) :
    settings (flushN make start n k s) = settings s := by
  induction n generalizing s with
  | zero => rfl
  | succ n ih =>
    unfold flushN
    split
    · rfl
    · split
      · rfl
      · split <;> simp [ih, hstart, hmake]

@[simp] theorem settings_joinFlow (k p s) : settings (joinFlow k p s) = settings s := by simp [joinFlow]

@[simp] theorem settings_noteSeq (k p s) : settings (noteSeq k p s) = settings s := by
  unfold noteSeq
  split
  · simp only
    split <;> simp
  · split
    · simp only
      split <;> simp
    · rfl

@[simp] theorem settings_launch (k p c s) : settings (launch k p c s) = settings s := by simp [launch]
@[simp] theorem settings_newCtx (c s) : settings (newCtx c s).2 = settings s := by simp [newCtx]

@[simp] theorem settings_sendPair (typ vc arg0 arg1 count pay s) :
    settings (sendPair typ vc arg0 arg1 count pay s) = settings s := by
  unfold sendPair
  split <;> simp

@[simp] theorem settings_orderRec (r s) : settings (orderRec r s) = settings s := by simp [orderRec]

@[simp] theorem settings_closeUnit (q u crc s) :
    settings (closeUnit q u crc s) = settings s := by simp [closeUnit]

@[simp] theorem settings_feed (q owner b s) : settings (feed q owner b s) = settings s := by simp [feed]
@[simp] theorem settings_startPkt (k p c s) : settings (startPkt k p c s) = settings s := by simp [startPkt]

@[simp] theorem settings_openCtx (c s) : settings (openCtx c s).2 = settings s := by
  unfold openCtx
  split <;> simp

@[simp] theorem settings_flushFlow (k s) : settings (flushFlow k s) = settings s := by simp [flushFlow]

@[simp] theorem settings_flushStalled (q n s) :
    settings (flushStalled q n s) = settings s := by simp [flushStalled]

@[simp] theorem settings_sendOn (k p s) : settings (sendOn k p s) = settings s := by simp [sendOn]
@[simp] theorem settings_sendPacket (q p s) : settings (sendPacket q p s) = settings s := by simp [sendPacket]
@[simp] theorem settings_sendPlain (k p s) : settings (sendPlain k p s) = settings s := by simp [sendPlain]

/-! Machine/MemOps.lean -/

@[simp] theorem settings_memErr (kind line symbols w s) :
    settings (memErr kind line symbols w s) = settings s := by simp [memErr]

@[simp] theorem settings_openRow (pc a s) : settings (openRow pc a s) = settings s := by simp [openRow]
@[simp] theorem settings_remapRow (line w s) : settings (remapRow line w s) = settings s := by simp [remapRow]

@[simp] theorem settings_noteCorrected (line w s) :
    settings (noteCorrected line w s) = settings s := by simp [noteCorrected]

@[simp] theorem settings_mediaEvent (l s) : settings (mediaEvent l s) = settings s := by simp [mediaEvent]

@[simp] theorem settings_noteUncorrectable (line w s) :
    settings (noteUncorrectable line w s) = settings s := by simp [noteUncorrectable]

@[simp] theorem settings_noteCmd (pc cmd s) : settings (noteCmd pc cmd s) = settings s := by simp [noteCmd]
@[simp] theorem settings_followWrite (l d s) : settings (followWrite l d s) = settings s := by simp [followWrite]
@[simp] theorem settings_storeRaw (l d s) : settings (storeRaw l d s) = settings s := by simp [storeRaw]
@[simp] theorem settings_poisonRaw (l s) : settings (poisonRaw l s) = settings s := by simp [poisonRaw]

@[simp] theorem settings_storeLine (l d s) : settings (storeLine l d s) = settings s := by
  unfold storeLine
  split <;> simp

@[simp] theorem settings_poisonLine (l s) : settings (poisonLine l s) = settings s := by
  unfold poisonLine
  split <;> simp

@[simp] theorem settings_markSlot (bs k s) : settings (markSlot bs k s) = settings s := by simp [markSlot]
@[simp] theorem settings_readCode (l ten w s) : settings (readCode l ten w s).2 = settings s := by simp [readCode]

@[simp] theorem settings_readAs (l ten w s) : settings (readAs l ten w s).2 = settings s := by
  unfold readAs
  split
  · next h => split <;> simp [settings_of_eq h]
  · simp

@[simp] theorem settings_readStored (l w s) : settings (readStored l w s).2 = settings s := by simp [readStored]

@[simp] theorem settings_mergeWriteback (l s) : settings (mergeWriteback l s) = settings s := by
  unfold mergeWriteback
  split
  · rfl
  · simp only
    split
    · simp
    · split <;> next h => simp [settings_of_eq h]

@[simp] theorem settings_mergeRoom (l s) : settings (mergeRoom l s) = settings s := by
  unfold mergeRoom
  simp only
  split
  · rfl
  · split <;> simp

@[simp] theorem settings_mergeBytes (l mask d who ten s) :
    settings (mergeBytes l mask d who ten s) = settings s := by simp [mergeBytes]

@[simp] theorem settings_readLine (l w s) : settings (readLine l w s).2 = settings s := by simp [readLine]

@[simp] theorem settings_writeMasked (l mask d who ten s) :
    settings (writeMasked l mask d who ten s) = settings s := by simp [writeMasked]

@[simp] theorem settings_zeroRange (lo hi s) : settings (zeroRange lo hi s) = settings s := by simp [zeroRange]
@[simp] theorem settings_zeroBlocks (bs s) : settings (zeroBlocks bs s) = settings s := by simp [zeroBlocks]
@[simp] theorem settings_fillBlocks (bs k s) : settings (fillBlocks bs k s) = settings s := by simp [fillBlocks]

/-! Machine/XltOps.lean -/

@[simp] theorem settings_giveRoot (t s) : settings (giveRoot t s) = settings s := by simp [giveRoot]
@[simp] theorem settings_tlbFill (q e s) : settings (tlbFill q e s) = settings s := by simp [tlbFill]
@[simp] theorem settings_walkFill (q t pva s) : settings (walkFill q t pva s) = settings s := by simp [walkFill]

@[simp] theorem settings_translate (q t pva who via acc s) :
    settings (translate q t pva who via acc s).2 = settings s := by
  unfold translate
  split
  · split <;> rfl
  · split
    · simp
    · rfl
    · split <;> simp

@[simp] theorem settings_logFault (q f s) : settings (logFault q f s) = settings s := by simp [logFault]

@[simp] theorem settings_refuse (q t pva r source sourceId s) :
    settings (refuse q t pva r source sourceId s) = settings s := by simp [refuse]

@[simp] theorem settings_setObj (o x s) : settings (setObj o x s) = settings s := by simp [setObj]
@[simp] theorem settings_freeObjs (p s) : settings (freeObjs p s) = settings s := by simp [freeObjs]

@[simp] theorem settings_freeObjsIn (t lo hi s) :
    settings (freeObjsIn t lo hi s) = settings s := by simp [freeObjsIn]

@[simp] theorem settings_orderInval (t lo hi withdraws s) :
    settings (orderInval t lo hi withdraws s) = settings s := by simp [orderInval]

@[simp] theorem settings_settleOpenings (s) : settings (settleOpenings s) = settings s := by
  unfold settleOpenings
  apply settings_forEach
  intro c t
  split <;> simp

@[simp] theorem settings_withdrawExtent (e s) :
    settings (withdrawExtent e s) = settings s := by simp [withdrawExtent]

@[simp] theorem settings_drainEntries (q p w s) :
    settings (drainEntries q p w s) = settings s := by simp [drainEntries]

@[simp] theorem settings_cutMessages (q t lo hi s) :
    settings (cutMessages q t lo hi s) = settings s := by simp [cutMessages]

@[simp] theorem settings_setInvals (l s) : settings (setInvals l s) = settings s := by simp [setInvals]
@[simp] theorem settings_nextTurn (q s) : settings (nextTurn q s) = settings s := by simp [nextTurn]

@[simp] theorem settings_orderSwitch (t root s) :
    settings (orderSwitch t root s) = settings s := by simp [orderSwitch]

/-! Machine/HomeOps.lean -/

@[simp] theorem settings_sendReply (id r k st d s) : settings (sendReply id r k st d s) = settings s := by
  unfold sendReply
  split <;> simp

@[simp] theorem settings_openPend (r k n isOpen s) :
    settings (openPend r k n isOpen s).2 = settings s := by simp [openPend]

@[simp] theorem settings_countApplied (red home s) :
    settings (countApplied red home s) = settings s := by simp [countApplied]

@[simp] theorem settings_contribLine (r st s) : settings (contribLine r st s) = settings s := by
  unfold contribLine
  split
  · simp
  · split
    · rfl
    · simp only
      split
      · simp
      · split <;> simp
  · rfl

@[simp] theorem settings_closePend (id s) : settings (closePend id s) = settings s := by
  unfold closePend
  split <;> simp

@[simp] theorem settings_markContribution (id part lines red home s) :
    settings (markContribution id part lines red home s) = settings s := by
  unfold markContribution
  split <;> simp

@[simp] theorem settings_pendDone (id st pos b s) : settings (pendDone id st pos b s) = settings s := by
  unfold pendDone
  split <;> simp

@[simp] theorem settings_sendRecall (l r s) : settings (sendRecall l r s) = settings s := by
  unfold sendRecall
  split <;> simp

@[simp] theorem settings_startRecall (l hs share target req s) :
    settings (startRecall l hs share target req s) = settings s := by simp [startRecall]

@[simp] theorem settings_answerCopies (w st old s) :
    settings (answerCopies w st old s) = settings s := by simp [answerCopies]

@[simp] theorem settings_unretain (r st s) : settings (unretain r st s) = settings s := by
  unfold unretain
  split
  · split <;> simp
  · rfl

@[simp] theorem settings_beatFailed (r st s) : settings (beatFailed r st s) = settings s := by
  unfold beatFailed
  split <;> simp

@[simp] theorem settings_lineDone (r st pos b s) :
    settings (lineDone r st pos b s) = settings s := by simp [lineDone]

@[simp] theorem settings_respond (l r st pos b s) :
    settings (respond l r st pos b s) = settings s := by simp [respond]

@[simp] theorem settings_fetchLine (l w s) : settings (fetchLine l w s).2 = settings s := by
  unfold fetchLine
  split <;> simp

@[simp] theorem settings_serveRead (l r s) : settings (serveRead l r s) = settings s := by
  unfold serveRead
  split <;> next h => simp [settings_of_eq h]

@[simp] theorem settings_retain (q r st old s) : settings (retain q r st old s) = settings s := by
  unfold retain
  split <;> simp

@[simp] theorem settings_atomicOn (l r atHome d s) :
    settings (atomicOn l r atHome d s).2 = settings s := by simp [atomicOn]

@[simp] theorem settings_doAtomics (l rs atHome s) : settings (doAtomics l rs atHome s) = settings s := by
  unfold doAtomics
  simp only
  split
  · rfl
  · split
    · next h => simp [settings_of_eq h]
    · next h => simp [settings_of_eq h]

@[simp] theorem settings_settleContrib (l s) : settings (settleContrib l s) = settings s := by
  unfold settleContrib
  split <;> simp

@[simp] theorem settings_mergeFetch (l w s) : settings (mergeFetch l w s).2 = settings s := by
  unfold mergeFetch
  split
  · split
    · rfl
    · split <;> next h => simp [settings_of_eq h]
  · split <;> next h => simp [settings_of_eq h]

@[simp] theorem settings_mergePut (l r d s) : settings (mergePut l r d s) = settings s := by simp [mergePut]

@[simp] theorem settings_mergeCombine (l r s) : settings (mergeCombine l r s).2 = settings s := by
  unfold mergeCombine
  split <;> next h => simp [settings_of_eq h]

@[simp] theorem settings_winFailed (w chunk s) :
    settings (winFailed w chunk s) = settings s := by simp [winFailed]

@[simp] theorem settings_perform (l r atHome s) : settings (perform l r atHome s) = settings s := by
  unfold perform
  split
  · simp
  · simp
  · simp
  · split <;> next h => simp [settings_of_eq h]
  · simp
  · rfl

@[simp] theorem settings_marked (ten pva l f s)
    (hf : ∀ t, settings (f t) = settings t) :
    settings (marked ten pva l f s) = settings s := by simp [marked, hf]

@[simp] theorem settings_setDir (l d s) : settings (setDir l d s) = settings s := by simp [setDir]
@[simp] theorem settings_dropBuf (l s) : settings (dropBuf l s) = settings s := by simp [dropBuf]

@[simp] theorem settings_allocate (l s) : settings (allocate l s).2 = settings s := by
  unfold allocate
  extract_lets m free
  clear_value free
  split
  · rfl
  · split
    · rfl
    · split
      · rfl
      · extract_lets t
        split
        · rfl
        · split
          extract_lets rq hs
          split
          · exact (settings_bump ..).trans (settings_setLine ..)
          · exact settings_startRecall ..

@[simp] theorem settings_orderDisarm (h r s) : settings (orderDisarm h r s).2 = settings s := by
  unfold orderDisarm
  split <;> simp

@[simp] theorem settings_releaseHolds (beat ls s) :
    settings (releaseHolds beat ls s) = settings s := by simp [releaseHolds]

@[simp] theorem settings_setContribution (c s) :
    settings (setContribution c s) = settings s := by simp [setContribution]

@[simp] theorem settings_mergeFetchAll (w l s) : settings (mergeFetchAll w l s).2 = settings s := by
  induction l generalizing s with
  | nil => rfl
  | cons x r ih =>
    unfold mergeFetchAll
    split
    · next h => simp [settings_of_eq h]
    · next h => split <;> next h' => simp [settings_of_eq h', ih, settings_of_eq h]

@[simp] theorem settings_endTrans (l s) : settings (endTrans l s) = settings s := by simp [endTrans]
@[simp] theorem settings_requeue (l r s) : settings (requeue l r s) = settings s := by simp [requeue]

@[simp] theorem settings_applyContribution (l r c s) : settings (applyContribution l r c s) = settings s := by
  unfold applyContribution
  simp only
  split <;> next h => simp [settings_of_eq h]

@[simp] theorem settings_contribute (l r hold s)
    (hhold : ∀ a b t, settings (hold a b t) = settings t) :
    settings (contribute l r hold s) = settings s := by
  unfold contribute
  split <;> simp [hhold]

@[simp] theorem settings_serveGone (l r s) : settings (serveGone l r s) = settings s := by
  unfold serveGone
  split <;> simp

@[simp] theorem settings_finish (l r target atHome s) : settings (finish l r target atHome s) = settings s := by
  unfold finish
  split
  · simp
  · split <;> simp

@[simp] theorem settings_countCoarse (l old new s) :
    settings (countCoarse l old new s) = settings s := by simp [countCoarse]

@[simp] theorem settings_serveLine (l r s) : settings (serveLine l r s) = settings s := by
  unfold serveLine
  extract_lets d hs recallOr o
  have hr (dest : List Part) (share : Bool) (t : DirEntry) (r : LineReq) (u : State) :
      settings (recallOr dest share t r u) = settings u := by
    simp [recallOr]
  split
  · exact settings_requeue ..
  · split
    · split <;> next h => simp [settings_of_eq h]
    · split <;> next h => simp [settings_of_eq h]
    · split <;> next h => simp [settings_of_eq h]
    · exact settings_finish ..
  · split
    · exact settings_finish ..
    · exact settings_finish ..
    · exact settings_finish ..
    · simp
    · exact hr ..
    · exact hr ..
    · exact hr ..
  · split
    · split <;> simp
    · simp
    · exact settings_finish ..
    · split <;> simp
    · split <;> simp
    · split <;> simp
    · exact settings_startRecall ..

@[simp] theorem settings_holdLine (l r s) : settings (holdLine l r s) = settings s := by simp [holdLine]

@[simp] theorem settings_serve (l r s) : settings (serve l r s) = settings s := by
  unfold serve
  split <;> simp

@[simp] theorem settings_recallsDone (l s) : settings (recallsDone l s) = settings s := by
  unfold recallsDone
  extract_lets x
  split
  · split
    · exact settings_setLine ..
    · exact settings_finish ..
  · split
    · exact (settings_setDir ..).trans (settings_endTrans ..)
    · exact (settings_setDir ..).trans (settings_endTrans ..)

@[simp] theorem settings_absorbData (l d poisoned s) :
    settings (absorbData l d poisoned s) = settings s := by simp [absorbData]

@[simp] theorem settings_recallAnswer (l h data poisoned s) :
    settings (recallAnswer l h data poisoned s) = settings s := by
  unfold recallAnswer
  split <;> simp

@[simp] theorem settings_loseLine (q l s) : settings (loseLine q l s) = settings s := by simp [loseLine]
@[simp] theorem settings_loseCopy (l sc s) : settings (loseCopy l sc s) = settings s := by simp [loseCopy]

@[simp] theorem settings_scanOne (l sc s) : settings (scanOne l sc s) = settings s := by
  unfold scanOne
  split
  · rfl
  · extract_lets x h
    split
    · split
      · simp
      · split
        · exact (settings_setLine ..).trans (settings_loseCopy ..)
        · exact settings_setLine ..
    · split
      · rfl
      · split
        exact settings_startRecall ..

@[simp] theorem settings_pruneScans (s) : settings (pruneScans s) = settings s := by simp [pruneScans]
@[simp] theorem settings_scanLine (l s) : settings (scanLine l s) = settings s := by simp [scanLine]

@[simp] theorem settings_startScans (d e dead link s) :
    settings (startScans d e dead link s) = settings s := by simp [startScans]

@[simp] theorem settings_settleCycle (s) : settings (settleCycle s) = settings s := by simp [settleCycle]

@[simp] theorem settings_handOver (l s) : settings (handOver l s) = settings s := by
  unfold handOver
  split <;> simp

@[simp] theorem settings_fetchHandOver (t s) : settings (fetchHandOver t s) = settings s := by
  unfold fetchHandOver
  split <;> simp

@[simp] theorem settings_settleBuf (l s) : settings (settleBuf l s) = settings s := by simp [settleBuf]

@[simp] theorem settings_takeIn (l p r s) : settings (takeIn l p r s) = settings s := by
  unfold takeIn
  split <;> simp

@[simp] theorem settings_recallAll (l s) : settings (recallAll l s) = settings s := by
  unfold recallAll
  extract_lets x d u
  have hu : settings u = settings s := by simp [u]
  split
  · simp [hu]
  · split
    · exact hu
    · split
      · simp [hu]
      · split
        exact (settings_startRecall ..).trans hu

@[simp] theorem settings_recallDue (l s) : settings (recallDue l s) = settings s := by simp [recallDue]
@[simp] theorem settings_lookAt (l s) : settings (lookAt l s) = settings s := by simp [lookAt]
@[simp] theorem settings_accept (l p r s) : settings (accept l p r s) = settings s := by simp [accept]

@[simp] theorem settings_acceptWaiting (s) : settings (acceptWaiting s) = settings s := by
  unfold acceptWaiting
  split <;> simp

@[simp] theorem settings_answerUnreachable (r isCxlWrite s) :
    settings (answerUnreachable r isCxlWrite s) = settings s := by simp [answerUnreachable]

@[simp] theorem settings_deliver (l localPort r isCxlWrite s) :
    settings (deliver l localPort r isCxlWrite s) = settings s := by simp [deliver]

/-! Machine/Wire.lean -/

@[simp] theorem settings_readBlock (errs s) : settings (readBlock errs s).2 = settings s := by simp [readBlock]

@[simp] theorem settings_readBlocks (n l s) : settings (readBlocks n l s).2 = settings s := by
  induction l generalizing s with
  | nil => rfl
  | cons e r ih => simp [readBlocks, ih]

@[simp] theorem settings_sendCtrl (n ctype v s) :
    settings (sendCtrl n ctype v s) = settings s := by simp [sendCtrl]

@[simp] theorem settings_deriveAk (s) : settings (deriveAk s) = settings s := by simp [deriveAk]
@[simp] theorem settings_sendPart (n part b s) : settings (sendPart n part b s) = settings s := by simp [sendPart]

/-! Machine/TransOps.lean -/

@[simp] theorem settings_retrainAnswer (n s) :
    settings (retrainAnswer n s) = settings s := by simp [retrainAnswer]

@[simp] theorem settings_settleRx (n s) : settings (settleRx n s) = settings s := by
  unfold settleRx
  simp only
  split <;> simp

@[simp] theorem settings_freeWords (n f s) : settings (freeWords n f s) = settings s := by simp [freeWords]
@[simp] theorem settings_updFrame (n f s) : settings (updFrame n f s) = settings s := by simp [updFrame]

@[simp] theorem settings_takeFrame (n k s) : settings (takeFrame n k s) = settings s := by
  unfold takeFrame
  split <;> simp

@[simp] theorem settings_forwardFrame (n k copies s) : settings (forwardFrame n k copies s) = settings s := by
  unfold forwardFrame
  split <;> simp

@[simp] theorem settings_copyStarted (n k s) : settings (copyStarted n k s) = settings s := by
  unfold copyStarted
  split <;> simp

@[simp] theorem settings_police (t p n s) : settings (police t p n s).2 = settings s := by
  unfold police
  simp only
  split <;> simp

@[simp] theorem settings_noteArrival (q p accepted s) :
    settings (noteArrival q p accepted s) = settings s := by simp [noteArrival]

@[simp] theorem settings_dropPend (id s) : settings (dropPend id s) = settings s := by simp [dropPend]

@[simp] theorem settings_retireDue (k s) : settings (retireDue k s) = settings s := by
  unfold retireDue
  split <;> simp

@[simp] theorem settings_noteReasm (q p s) : settings (noteReasm q p s) = settings s := by
  unfold noteReasm
  split
  · rfl
  · split <;> simp

@[simp] theorem settings_sequenceIn (q n p s) : settings (sequenceIn q n p s).2 = settings s := by
  unfold sequenceIn
  split
  · rfl
  · split
    · simp only
      split <;> simp
    · simp only
      split <;> simp

@[simp] theorem settings_nameInput (p s) : settings (nameInput p s) = settings s := by simp [nameInput]
@[simp] theorem settings_holdInput (n p s) : settings (holdInput n p s) = settings s := by simp [holdInput]

/-- What the action of a packet keeps of the settings, `terminate` keeps. -/
theorem terminate_keeps {β : Type} (g : _ → β) {act : Nat → State → State} (n p s)
    (hact : ∀ a t, g (settings (act a t)) = g (settings t)) :
    g (settings (terminate n p act s)) = g (settings s) := by
  unfold terminate
  split
  · rfl
  · simp only
    iterate 7 (split; · simp [hact])
    split <;> next h => simp [settings_of_eq h, hact]

@[simp] theorem settings_terminate (n p act s)
    (hact : ∀ a t, settings (act a t) = settings t) :
    settings (terminate n p act s) = settings s := terminate_keeps id n p s hact

@[simp] theorem settings_msgPend (q p k n tag s) : settings (msgPend q p k n tag s).2 = settings s := by
  unfold msgPend
  split
  · simp
  · split
    · simp
    · split
      next h => split <;> simp [settings_of_eq h]

@[simp] theorem settings_answerNow (q p k st tag s) :
    settings (answerNow q p k st tag s) = settings s := by simp [answerNow]

/-! Machine/QueueOps.lean -/

@[simp] theorem settings_queueFault (n code s) : settings (queueFault n code s) = settings s := by
  unfold queueFault
  simp only
  split <;> simp

@[simp] theorem settings_undeliverable (n s) : settings (undeliverable n s) = settings s := by
  unfold undeliverable
  simp only
  split <;> simp

@[simp] theorem settings_settleDisable (n s) :
    settings (settleDisable n s) = settings s := by simp [settleDisable]

@[simp] theorem settings_setGroupSt (g st s) : settings (setGroupSt g st s) = settings s := by simp [setGroupSt]

@[simp] theorem settings_poolWrite (q t pva who d s owner) :
    settings (poolWrite q t pva who d s owner).2 = settings s := by
  unfold poolWrite
  split <;> next h => simp [settings_of_eq h]

@[simp] theorem settings_poolWriteAll (q t pva who d s) :
    settings (poolWriteAll q t pva who d s).2 = settings s := by
  unfold poolWriteAll
  apply settings_foldl_snd
  intro p i
  split <;> simp

@[simp] theorem settings_ringReady (n addrs s) : settings (ringReady n addrs s).2 = settings s := by
  unfold ringReady
  simp only
  split
  · iterate 3 (split; · rfl)
    split <;> simp
  · rfl
  · rfl
  · rfl

@[simp] theorem settings_ringWrite (n addr i c d s) : settings (ringWrite n addr i c d s).2 = settings s := by
  unfold ringWrite
  simp only
  split
  · split
    · simp
    · split <;> simp
  · simp
  · split <;> next h => simp [settings_of_eq h]
  · rfl

@[simp] theorem settings_notify (n s) : settings (notify n s) = settings s := by
  unfold notify
  simp only
  split
  · split <;> simp
  · simp
  · split <;> next h => simp [settings_of_eq h]
  · simp

@[simp] theorem settings_noteNotify (n s) : settings (noteNotify n s) = settings s := by simp [noteNotify]
@[simp] theorem settings_settlePosts (n s) : settings (settlePosts n s) = settings s := by simp [settlePosts]

@[simp] theorem settings_writeExt (c extA i s) :
    settings (writeExt c extA i s).2 = settings s := by simp [writeExt]

@[simp] theorem settings_writeCompl (c s) : settings (writeCompl c s).2 = settings s := by
  unfold writeCompl
  simp only
  split
  · next h =>
    split
    · next h' =>
      split <;> next h'' => simp [settings_of_eq h'', settings_of_eq h', settings_of_eq h]
    · simp [settings_of_eq h]
  · simp

@[simp] theorem settings_retireDesc (c s) : settings (retireDesc c s) = settings s := by simp [retireDesc]
@[simp] theorem settings_holdCompl (c s) : settings (holdCompl c s) = settings s := by simp [holdCompl]

@[simp] theorem settings_deliverCompl (c s) : settings (deliverCompl c s) = settings s := by
  unfold deliverCompl
  simp only
  split
  · rfl
  · rfl
  · simp
  · iterate 3 (split; · simp)
    split <;> next h => simp [settings_of_eq h]

@[simp] theorem settings_flushAwaiting (n s) :
    settings (flushAwaiting n s) = settings s := by simp [flushAwaiting]

@[simp] theorem settings_settleRing (n s) : settings (settleRing n s) = settings s := by
  unfold settleRing
  simp only
  split <;> simp

@[simp] theorem settings_settleRings (s) : settings (settleRings s) = settings s := by simp [settleRings]
@[simp] theorem settings_denyAwaiting (n s) : settings (denyAwaiting n s) = settings s := by simp [denyAwaiting]
@[simp] theorem settings_redeliver (n s) : settings (redeliver n s) = settings s := by simp [redeliver]
@[simp] theorem settings_complete (c s) : settings (complete c s) = settings s := by simp [complete]

@[simp] theorem settings_deliverVerified (s) :
    settings (deliverVerified s) = settings s := by simp [deliverVerified]

@[simp] theorem settings_winWrite (w pva d s) : settings (winWrite w pva d s) = settings s := by
  unfold winWrite
  simp only
  split <;> next h => simp [settings_of_eq h]

@[simp] theorem settings_winCompl (w st ext s) : settings (winCompl w st ext s) = settings s := by simp [winCompl]
@[simp] theorem settings_windowDone (w s) : settings (windowDone w s) = settings s := by simp [windowDone]
@[simp] theorem settings_settleWindows (s) : settings (settleWindows s) = settings s := by simp [settleWindows]
@[simp] theorem settings_settleOrder (s) : settings (settleOrder s) = settings s := by simp [settleOrder]
@[simp] theorem settings_setDesc (n d s) : settings (setDesc n d s) = settings s := by simp [setDesc]

@[simp] theorem settings_scrambleLine (l off b s) :
    settings (scrambleLine l off b s) = settings s := by simp [scrambleLine]

@[simp] theorem settings_scrambleRange (t who r s) : settings (scrambleRange t who r s) = settings s := by
  unfold scrambleRange
  apply settings_forEach
  intro x t
  split
  · rfl
  · simp only
    split
    · rfl
    · split <;> simp

@[simp] theorem settings_scrambleBeats (p s) :
    settings (scrambleBeats p s) = settings s := by simp [scrambleBeats]

@[simp] theorem settings_leaveUndefined (n d k s) :
    settings (leaveUndefined n d k s) = settings s := by simp [leaveUndefined]

@[simp] theorem settings_nmFinish (n d st detail ext s) :
    settings (nmFinish n d st detail ext s) = settings s := by simp [nmFinish]

@[simp] theorem settings_startDesc (n slot s) : settings (startDesc n slot s) = settings s := by
  unfold startDesc
  split <;> simp

@[simp] theorem settings_issueFetch (n s) : settings (issueFetch n s) = settings s := by
  unfold issueFetch
  split
  · simp only
    split
    · rfl
    · split <;> simp
  · rfl

@[simp] theorem settings_descArrive (n d s) : settings (descArrive n d s) = settings s := by simp [descArrive]
@[simp] theorem settings_fetchFailed (n s) : settings (fetchFailed n s) = settings s := by simp [fetchFailed]
@[simp] theorem settings_setLease (h l s) : settings (setLease h l s) = settings s := by simp [setLease]

@[simp] theorem settings_holdExtent (e s) : settings (holdExtent e s) = settings s := by
  unfold holdExtent
  simp only
  split <;> simp

@[simp] theorem settings_unholdExtent (e s) : settings (unholdExtent e s) = settings s := by
  unfold unholdExtent
  simp only
  split <;> simp

@[simp] theorem settings_addTether (t s) : settings (addTether t s).2 = settings s := by
  unfold addTether
  split <;> split <;> simp

@[simp] theorem settings_dropTether (h o s) : settings (dropTether h o s) = settings s := by
  unfold dropTether
  split <;> simp

/-! Machine/EngOps.lean -/

@[simp] theorem settings_locatePieces (a acc pva l s) :
    settings (locatePieces a acc pva l s).2.2 = settings s := by
  induction l generalizing s with
  | nil => rfl
  | cons x r ih =>
    unfold locatePieces
    split
    · next h => simp [settings_of_eq h]
    · next h => simp [ih, settings_of_eq h]

@[simp] theorem settings_locate (a acc pva n s) :
    settings (locate a acc pva n s).2.2 = settings s := by simp [locate]

@[simp] theorem settings_probeLoc (a x s) : settings (probeLoc a x s) = settings s := by simp [probeLoc]

@[simp] theorem settings_engReady (a ranges s) : settings (engReady a ranges s).2 = settings s := by
  unfold engReady
  simp

@[simp] theorem settings_readLocs (a l s) : settings (readLocs a l s).2.2 = settings s := by
  induction l generalizing s with
  | nil => rfl
  | cons x r ih =>
    unfold readLocs
    split <;> next h => simp [ih, settings_of_eq h]

@[simp] theorem settings_engRead (a pva n s) : settings (engRead a pva n s).2 = settings s := by
  unfold engRead
  split
  · next h => simp [settings_of_eq h]
  · next h =>
    simp only
    split <;> next h' => simp [settings_of_eq₃ h', settings_of_eq h]

@[simp] theorem settings_engWrite (a pva d s posOf) :
    settings (engWrite a pva d s posOf).2.2 = settings s := by simp [engWrite]

@[simp] theorem settings_noteFail (a f s) : settings (noteFail a f s).2.2 = settings s := by
  unfold noteFail
  split <;> simp

@[simp] theorem settings_drawOrder (s) : settings (drawOrder s).2 = settings s := by simp [drawOrder]

@[simp] theorem settings_drawOrderAt (place s) :
    settings (drawOrderAt place s).2 = settings s := by simp [drawOrderAt]

/-! Machine/SyncOps.lean -/

@[simp] theorem settings_regFail (o k s) : settings (regFail o k s) = settings s := by simp [regFail]

@[simp] theorem settings_registerObj (o s) : settings (registerObj o s) = settings s := by
  unfold registerObj
  simp only
  iterate 4 (split; · simp)
  split
  · next h => simp [settings_of_eq h]
  · next h => simp [settings_of_eq h]
  · next h => split <;> simp [settings_of_eq h]

@[simp] theorem settings_settleObjs (s) : settings (settleObjs s) = settings s := by simp [settleObjs]

@[simp] theorem settings_wordAtomic (x op operand s) : settings (wordAtomic x op operand s) = settings s := by
  unfold wordAtomic
  split <;> simp

@[simp] theorem settings_markWord (x s) : settings (markWord x s) = settings s := by simp [markWord]
@[simp] theorem settings_abandon (o kind id s) : settings (abandon o kind id s) = settings s := by simp [abandon]

@[simp] theorem settings_memberReset (kind id s) :
    settings (memberReset kind id s) = settings s := by simp [memberReset]

@[simp] theorem settings_markGroupMembers (s) : settings (markGroupMembers s) = settings s := by
  unfold markGroupMembers
  apply settings_forEach
  intro c t
  split <;> simp

/-! Machine/Coherence.lean -/

@[simp] theorem settings_deliverPieces (ppa ps mk lp s) :
    settings (deliverPieces ppa ps mk lp s) = settings s := by simp [deliverPieces]

@[simp] theorem settings_rofRequest (n q p k acc len tag mk s pre)
    (hpre : ∀ a b t, settings (pre a b t) = settings t) :
    settings (rofRequest n q p k acc len tag mk s pre) = settings s := by
  unfold rofRequest
  simp only
  split <;> next h => simp [hpre, settings_of_eq h]

@[simp] theorem settings_ofType (p t f s)
    (hf : ∀ t, settings (f t) = settings t) :
    settings (ofType p t f s) = settings s := by simp [ofType, hf]

@[simp] theorem settings_actRdOnce (n q p s) : settings (actRdOnce n q p s) = settings s := by simp [actRdOnce]

@[simp] theorem settings_actCaching (n q p k acc s) :
    settings (actCaching n q p k acc s) = settings s := by simp [actCaching]

@[simp] theorem settings_actWrLine (n q p s) : settings (actWrLine n q p s) = settings s := by simp [actWrLine]
@[simp] theorem settings_actWrPart (n q p s) : settings (actWrPart n q p s) = settings s := by simp [actWrPart]

@[simp] theorem settings_noteAtomic (n tag t pva op a c ppa s) :
    settings (noteAtomic n tag t pva op a c ppa s) = settings s := by simp [noteAtomic]

@[simp] theorem settings_actAtomic (n q p s) : settings (actAtomic n q p s) = settings s := by
  unfold actAtomic
  apply settings_ofType
  intro t
  simp only
  split
  · split
    · split <;> simp
    · simp
  · split <;> simp

@[simp] theorem settings_absorbAt (e l h data poison isWb s) :
    settings (absorbAt e l h data poison isWb s) = settings s := by
  unfold absorbAt
  extract_lets l u x q v
  have hu : settings u = settings s := by simp [u]
  have hv : settings v = settings s := by simp [v, hu]
  split
  · split <;> simp [hu]
  · split
    · simp [hv]
    · split
      · rw [settings_setDir, settings_absorbData, hv]
      · split <;> simp [hv]

@[simp] theorem settings_actAnswer (e h a miss s) : settings (actAnswer e h a miss s) = settings s := by
  unfold actAnswer
  split <;> simp

@[simp] theorem settings_actData (e h a d poison isWb s) :
    settings (actData e h a d poison isWb s) = settings s := by
  unfold actData
  split <;> simp

@[simp] theorem settings_wbCmp (q p s) : settings (wbCmp q p s) = settings s := by simp [wbCmp]
@[simp] theorem settings_actWrBack (n q p s) : settings (actWrBack n q p s) = settings s := by simp [actWrBack]
@[simp] theorem execRdonce_keepsSettings (n p s) : KeepsSettings (execRdonce n p s) s := by simp [execRdonce]
@[simp] theorem execRdshared_keepsSettings (n p s) : KeepsSettings (execRdshared n p s) s := by simp [execRdshared]
@[simp] theorem execRdown_keepsSettings (n p s) : KeepsSettings (execRdown n p s) s := by simp [execRdown]
@[simp] theorem execUpgrade_keepsSettings (n p s) : KeepsSettings (execUpgrade n p s) s := by simp [execUpgrade]
@[simp] theorem execWrline_keepsSettings (n p s) : KeepsSettings (execWrline n p s) s := by simp [execWrline]
@[simp] theorem execWrpart_keepsSettings (n p s) : KeepsSettings (execWrpart n p s) s := by simp [execWrpart]
@[simp] theorem execWrback_keepsSettings (n p s) : KeepsSettings (execWrback n p s) s := by simp [execWrback]

@[simp] theorem execCleanEvict_keepsSettings (d tag hpa s) : KeepsSettings (execCleanEvict d tag hpa s) s := by
  apply keepsSettings_live
  split <;> simp

@[simp] theorem execAtomic_keepsSettings (n p s) : KeepsSettings (execAtomic n p s) s := by simp [execAtomic]

@[simp] theorem execRecallMiss_keepsSettings (a s) : KeepsSettings (execRecallMiss a s) s := by
  apply keepsSettings_live
  split <;> simp

@[simp] theorem execRecallAck_keepsSettings (a s) : KeepsSettings (execRecallAck a s) s := by
  apply keepsSettings_live
  split <;> simp

@[simp] theorem execRecallData_keepsSettings (a s) : KeepsSettings (execRecallData a s) s := by
  apply keepsSettings_live
  split <;> simp

@[simp] theorem execLineQueueServe_keepsSettings (l s) : KeepsSettings (execLineQueueServe l s) s := by
  unfold execLineQueueServe
  extract_lets s₀ x s₁ s₂
  have h₀ : settings s₀ = settings s := by simp [s₀]
  have h₁ : settings s₁ = settings s₀ := by
    unfold s₁
    split
    · rfl
    · split <;> simp
  simp [s₂, h₁, h₀]

@[simp] theorem execRecallTimeoutFirst_keepsSettings (l now s) :
    KeepsSettings (execRecallTimeoutFirst l now s) s := by simp [execRecallTimeoutFirst]

@[simp] theorem execRecallTimeoutSecond_keepsSettings (l now s) :
    KeepsSettings (execRecallTimeoutSecond l now s) s := by
  apply keepsSettings_live
  split
  · simp
  · split
    · simp only
      split <;> simp
    · simp only
      split <;> simp

@[simp] theorem execBiconflict_keepsSettings (d tag s) :
    KeepsSettings (execBiconflict d tag s) s := by simp [execBiconflict]

@[simp] theorem execMergeHoldExpiry_keepsSettings (l now s) : KeepsSettings (execMergeHoldExpiry l now s) s := by
  apply keepsSettings_live
  split <;> simp

/-! Machine/NmOps.lean -/

@[simp] theorem settings_nmStart (n d s) : settings (nmStart n d s) = settings s := by simp [nmStart]

@[simp] theorem settings_stripeWrite (a p0 pva b after s) :
    settings (stripeWrite a p0 pva b after s).2 = settings s := by simp [stripeWrite]

@[simp] theorem settings_runFill (a d p0 p1 s) :
    settings (runFill a d p0 p1 s).2 = settings s := by simp [runFill]

@[simp] theorem settings_runCopyUp (a d p0 p1 s) : settings (runCopyUp a d p0 p1 s).2 = settings s := by
  unfold runCopyUp
  split <;> next h => simp [settings_of_eq h]

@[simp] theorem settings_readDown (a pva l s) : settings (readDown a pva l s).2.2 = settings s := by
  induction l generalizing s with
  | nil => rfl
  | cons x r ih =>
    unfold readDown
    simp only
    split
    · simp
    · split
      · next h => simp [settings_of_eq₃ h]
      · next h => simp [ih, settings_of_eq₃ h]

@[simp] theorem settings_writeDown (a pva lo top b l s) :
    settings (writeDown a pva lo top b l s).2.2 = settings s := by
  induction l generalizing s with
  | nil => rfl
  | cons x r ih =>
    unfold writeDown
    split
    · next h => simp [settings_of_eq₃ h]
    · next h => simp [ih, settings_of_eq₃ h]

@[simp] theorem settings_runCopyDown (a d p0 p1 s) : settings (runCopyDown a d p0 p1 s).2 = settings s := by
  unfold runCopyDown
  simp only
  split <;> next h => simp [settings_of_eq h]

@[simp] theorem settings_runCompare (a d p0 p1 s) : settings (runCompare a d p0 p1 s).2.2 = settings s := by
  unfold runCompare
  extract_lets n two
  split
  · next h => simp [settings_of_eq h]
  · next h =>
    split
    · next h' => simp [settings_of_eq h', settings_of_eq h]
    · next h' =>
      split
      next u h'' =>
        have hu : settings u = settings s := by
          refine (settings_of_eq₃ h'').trans ?_
          split
          · split <;> next hy => simp [settings_of_eq hy, settings_of_eq h', settings_of_eq h]
          · simp [settings_of_eq h', settings_of_eq h]
        simp only
        split <;> exact hu

@[simp] theorem settings_readNow (a pva n s) : settings (readNow a pva n s).2.2 = settings s := by
  unfold readNow
  split
  next h => split <;> next h' => simp [settings_of_eq₃ h', settings_of_eq₃ h]

@[simp] theorem settings_gatherElems (a d l s) : settings (gatherElems a d l s).2.2 = settings s := by
  induction l generalizing s with
  | nil => rfl
  | cons x r ih =>
    unfold gatherElems
    split
    · rfl
    · split <;> next h => simp [ih, settings_of_eq₃ h]

@[simp] theorem settings_readIndices (a d p0 p1 s) :
    settings (readIndices a d p0 p1 s).2 = settings s := by simp [readIndices]

@[simp] theorem settings_runGather (a d p0 p1 s) : settings (runGather a d p0 p1 s).2 = settings s := by
  unfold runGather
  split
  · next h => simp [settings_of_eq h]
  · next h => 
    simp only
    split <;> next h' => simp [settings_of_eq h', settings_of_eq h]

@[simp] theorem settings_scatterParts (a d k0 b uniq l o s) :
    settings (scatterParts a d k0 b uniq l o s).2 = settings s := by
  induction l generalizing o s with
  | nil => rfl
  | cons x r ih =>
    simp [scatterParts, ih]

@[simp] theorem settings_runScatter (a d p0 p1 s) : settings (runScatter a d p0 p1 s).2 = settings s := by
  unfold runScatter
  split
  · next h => simp [settings_of_eq h]
  · next h => 
    simp only
    split
    · next h' => simp [settings_of_eq h', settings_of_eq h]
    · next h' => split <;> next h'' => simp [settings_of_eq h'', settings_of_eq h', settings_of_eq h]

@[simp] theorem settings_readSources (a off n l s) : settings (readSources a off n l s).2.2 = settings s := by
  induction l generalizing s with
  | nil => rfl
  | cons x r ih =>
    unfold readSources
    split <;> next h => simp [ih, settings_of_eq₃ h]

@[simp] theorem settings_reduceLines (a d srcs l s) : settings (reduceLines a d srcs l s).2.2.2 = settings s := by
  induction l generalizing s with
  | nil => rfl
  | cons x r ih =>
    unfold reduceLines
    simp only
    split
    · next h => simp [settings_of_eq₃ h]
    · next h =>
      split
      · simp [settings_of_eq₃ h]
      · split <;> next h' => simp [ih, settings_of_eq₃ h', settings_of_eq₃ h]

@[simp] theorem settings_runReduce (a d p0 p1 s) : settings (runReduce a d p0 p1 s).2 = settings s := by
  unfold runReduce
  split
  · simp only
    split <;> next h => simp [settings_of_eq h]
  · simp only
    split <;> next h => simp [settings_of_eq h]

@[simp] theorem settings_nmFail (a n slot i pos f s) : settings (nmFail a n slot i pos f s) = settings s := by
  unfold nmFail
  split
  · simp only
    split <;> simp
  · simp only
    split <;> simp

@[simp] theorem settings_runStripe (a n d i s) : settings (runStripe a n d i s) = settings s := by
  unfold runStripe
  extract_lets p0 p1
  split
  next res diff t h =>
    have ht : settings t = settings s := by
      refine (settings_of_eq₃ h).trans ?_
      split
      · split
        next hr => simp [settings_of_eq hr]
      · split
        next hr =>
          refine (settings_of_eq hr).trans ?_
          simp
      · simp
      all_goals
        split
        next hr => simp [settings_of_eq hr]
    split
    · simp only
      split <;> simp [ht]
    · exact ht

/-! Machine/PairOps.lean -/

@[simp] theorem settings_releaseHeld (s) : settings (releaseHeld s) = settings s := by simp [releaseHeld]
@[simp] theorem settings_setFollower (f s) : settings (setFollower f s) = settings s := by simp [setFollower]

@[simp] theorem settings_setPairSt (st stale s) :
    settings (setPairSt st stale s) = settings s := by simp [setPairSt]

@[simp] theorem settings_ackMark (g s) : settings (ackMark g s) = settings s := by simp [ackMark]
@[simp] theorem settings_sendMark (s) : settings (sendMark s) = settings s := by simp [sendMark]
@[simp] theorem settings_beginSync (s) : settings (beginSync s) = settings s := by simp [beginSync]

@[simp] theorem settings_pairLinkChanged (s) : settings (pairLinkChanged s) = settings s := by
  unfold pairLinkChanged
  split <;> split <;> simp

/-! Machine/StopOps.lean -/

@[simp] theorem settings_meterOp (n fj s) : settings (meterOp n fj s) = settings s := by
  unfold meterOp
  simp only
  split
  · split <;> simp
  · simp

@[simp] theorem settings_meterRun (n s) : settings (meterRun n s) = settings s := by
  unfold meterRun
  simp only
  split
  · simp
  · split <;> simp

@[simp] theorem settings_flushBusy (n e s) : settings (flushBusy n e s) = settings s := by
  unfold flushBusy
  split <;> simp

@[simp] theorem settings_flushQuad (q s) : settings (flushQuad q s) = settings s := by simp [flushQuad]
@[simp] theorem settings_setCtx (n i x s) : settings (setCtx n i x s) = settings s := by simp [setCtx]
@[simp] theorem settings_wake (n l s) : settings (wake n l s) = settings s := by simp [wake]
@[simp] theorem settings_wakeSem (n k s) : settings (wakeSem n k s) = settings s := by simp [wakeSem]
@[simp] theorem settings_signalSem (n k s) : settings (signalSem n k s) = settings s := by simp [signalSem]

@[simp] theorem settings_signalOpt (n k s) : settings (signalOpt n k s) = settings s := by
  unfold signalOpt
  split <;> simp

@[simp] theorem settings_setChan9 (p x s) : settings (setChan9 p x s) = settings s := by simp [setChan9]

@[simp] theorem settings_forgetAnswers (ids s) : settings (forgetAnswers ids s) = settings s := by
  unfold forgetAnswers
  apply settings_forEach
  intro i t
  simp only
  split <;> simp

@[simp] theorem settings_leaveCores (jid s) : settings (leaveCores jid s) = settings s := by
  unfold leaveCores
  split
  · rfl
  · simp only
    split <;> simp

@[simp] theorem settings_takeRecord (jid s) : settings (takeRecord jid s).2 = settings s := by
  unfold takeRecord
  split <;> simp

@[simp] theorem settings_quiescePause (jid s) : settings (quiescePause jid s) = settings s := by
  unfold quiescePause
  split
  · next h => split <;> simp [settings_of_eq h]
  · next h => simp only; split <;> simp [settings_of_eq h]

@[simp] theorem settings_freeRecord (r s) : settings (freeRecord r s) = settings s := by
  unfold freeRecord
  simp only
  split <;> simp

@[simp] theorem settings_finishJob (jid st detail ext s) :
    settings (finishJob jid st detail ext s) = settings s := by
  unfold finishJob
  simp only
  split
  · simp
  · split <;> simp

@[simp] theorem settings_freeze (n s) : settings (freeze n s) = settings s := by simp [freeze]
@[simp] theorem settings_freezeAll (j s) : settings (freezeAll j s) = settings s := by simp [freezeAll]

@[simp] theorem settings_endJob (jid st detail ext s) : settings (endJob jid st detail ext s) = settings s := by
  unfold endJob
  split
  · rfl
  · split
    · simp
    · split
      · simp
      · split <;> simp

@[simp] theorem settings_dropJob (jid s) : settings (dropJob jid s) = settings s := by
  unfold dropJob
  simp only
  split
  · simp
  · split <;> simp

@[simp] theorem settings_faultPause (jid s) : settings (faultPause jid s) = settings s := by
  unfold faultPause
  split
  · next h => split <;> simp [settings_of_eq h]
  · next h => simp only; split <;> simp [settings_of_eq h]

@[simp] theorem settings_commitDone (jid n s) : settings (commitDone jid n s) = settings s := by
  unfold commitDone
  split <;> simp

@[simp] theorem settings_settleStop (jid s) : settings (settleStop jid s) = settings s := by
  unfold settleStop
  split
  · rfl
  · split
    · rfl
    · split
      · simp
      · simp
      · simp
      · simp
      · simp
      · simp only
        split <;> simp

@[simp] theorem settings_beginStop (jid why s) : settings (beginStop jid why s) = settings s := by
  unfold beginStop
  split
  · rfl
  · split
    · split <;> simp
    · simp
    · rfl

@[simp] theorem settings_tileFault (jid ext s) : settings (tileFault jid ext s) = settings s := by
  unfold tileFault
  split
  · rfl
  · split <;> simp

@[simp] theorem settings_arrive (n n' s) : settings (arrive n n' s) = settings s := by
  induction n generalizing s with
  | zero => rfl
  | succ n ih =>
    unfold arrive
    simp only
    split
    · rfl
    · split <;> simp [ih]

@[simp] theorem settings_settleArrive (n s) : settings (settleArrive n s) = settings s := by
  unfold settleArrive
  simp only
  split <;> simp

@[simp] theorem settings_fenceJob (n s) : settings (fenceJob n s) = settings s := by
  unfold fenceJob
  split <;> simp

@[simp] theorem settings_fenceCommits (n n' s) : settings (fenceCommits n n' s) = settings s := by
  induction n generalizing s with
  | zero => rfl
  | succ n ih =>
    unfold fenceCommits
    split
    · rfl
    · simp [ih]

@[simp] theorem settings_fenceTest (jid s) : settings (fenceTest jid s) = settings s := by
  unfold fenceTest
  split
  · rfl
  · split
    · split
      · rfl
      · split
        · simp
        · simp only
          split <;> simp
    · split
      · rfl
      · split
        · simp
        · simp only
          split <;> simp

/-! Machine/LeaseOps.lean -/

@[simp] theorem settings_quiesceGroup (g s) : settings (quiesceGroup g s) = settings s := by
  unfold quiesceGroup
  split
  · simp only [settings_ite, settings_bump, settings_setGroupSt, ite_self]
    refine (settings_forEach _ _ _ fun c t => ?_).trans (by simp)
    split
    · rfl
    · split
      · rfl
      · split <;> simp
  · rfl

@[simp] theorem settings_lapse (h s) : settings (lapse h s) = settings s := by
  unfold lapse
  split <;> simp

@[simp] theorem settings_unquiesce (g s) : settings (unquiesce g s) = settings s := by
  unfold unquiesce
  refine (settings_forEach _ _ _ fun c t => ?_).trans (settings_forEach _ _ _ fun c t => ?_)
  · split
    · split <;> simp
    · rfl
  · split <;> simp

@[simp] theorem settings_groupRenewed (g s) : settings (groupRenewed g s) = settings s := by
  unfold groupRenewed
  simp only
  split <;> simp

@[simp] theorem settings_renewAt (h at_ s) : settings (renewAt h at_ s) = settings s := by
  unfold renewAt
  split <;> simp

@[simp] theorem settings_renew (h s) : settings (renew h s) = settings s := by simp [renew]

@[simp] theorem settings_tickLease (h s) : settings (tickLease h s) = settings s := by
  unfold tickLease
  split
  · rfl
  · simp only
    split <;> simp

/-! Machine/PoolOps.lean -/

theorem settings_allocBlocks {n e light pl g s l t}
    (h : allocBlocks n e light pl g s = some (l, t)) : settings t = settings s := by
  induction n generalizing s l t with
  | zero => cases h; rfl
  | succ n ih =>
    unfold allocBlocks at h
    split at h
    · simp only at h
      split at h
      · next h' =>
        cases h
        simpa using ih h'
      · cases h
    · cases h

@[simp] theorem settings_shrinkTo (e keep s) : settings (shrinkTo e keep s) = settings s := by simp [shrinkTo]
@[simp] theorem settings_freeBlocks (l s) : settings (freeBlocks l s) = settings s := by simp [freeBlocks]

@[simp] theorem settings_endExclusive (e d s) : settings (endExclusive e d s) = settings s := by
  unfold endExclusive
  split <;> simp

@[simp] theorem settings_dropGrant (d g s) : settings (dropGrant d g s) = settings s := by simp [dropGrant]
@[simp] theorem settings_startCut (d g s) : settings (startCut d g s) = settings s := by simp [startCut]
@[simp] theorem settings_setDcOps (l s) : settings (setDcOps l s) = settings s := by simp [setDcOps]
@[simp] theorem settings_dropDc (o s) : settings (dropDc o s) = settings s := by simp [dropDc]
@[simp] theorem settings_replaceDc (o o' s) : settings (replaceDc o o' s) = settings s := by simp [replaceDc]

@[simp] theorem settings_sendDc (e add s) : settings (sendDc e add s) = settings s := by
  unfold sendDc
  split <;> simp

@[simp] theorem settings_beginRelease (e s) : settings (beginRelease e s) = settings s := by
  simp only [beginRelease, settings_setExtent]
  generalize hw : withdrawExtent e _ = w
  have hq : settings w = settings s := by simp [← hw]
  clear hw
  apply of_settings_eq w hq
  intro t ht
  split
  · split
    · simp [ht]
    · exact ht
  · exact ht

@[simp] theorem settings_settleRetire (e s) : settings (settleRetire e s) = settings s := by
  unfold settleRetire
  simp only
  split
  · rfl
  · split <;> simp

@[simp] theorem settings_releaseOne (h o s) : settings (releaseOne h o s) = settings s := by
  unfold releaseOne
  split <;> simp

@[simp] theorem settings_endGrant (d g s) : settings (endGrant d g s) = settings s := by simp [endGrant]

@[simp] theorem settings_orderCut (d g s) : settings (orderCut d g s) = settings s := by
  unfold orderCut
  simp only
  split <;> simp

@[simp] theorem settings_orderCuts (e s) : settings (orderCuts e s) = settings s := by simp [orderCuts]

@[simp] theorem settings_recallOwned (bs s) : settings (recallOwned bs s) = settings s := by
  unfold recallOwned
  apply settings_forEach
  intro c t
  split
  · rfl
  · split
    exact settings_startRecall ..

/-! Machine/Queues.lean -/

@[simp] theorem settings_applyDoorbell (n w at_ s) : settings (applyDoorbell n w at_ s) = settings s := by
  unfold applyDoorbell
  split <;> simp

@[simp] theorem settings_doorbellAt (n w at_ s) :
    settings (doorbellAt n w at_ s) = settings s := by simp [doorbellAt]

@[simp] theorem settings_doorbell (n w s) : settings (doorbell n w s) = settings s := by simp [doorbell]

@[simp] theorem execSqTailDoorbell_keepsSettings (n value rsvd s) :
    KeepsSettings (execSqTailDoorbell n value rsvd s) s := by simp [execSqTailDoorbell]

@[simp] theorem execCqHeadDoorbell_keepsSettings (n value rsvd s) :
    KeepsSettings (execCqHeadDoorbell n value rsvd s) s := by simp [execCqHeadDoorbell]

@[simp] theorem execHeartbeatDoorbell_keepsSettings (n value rsvd s) :
    KeepsSettings (execHeartbeatDoorbell n value rsvd s) s := by simp [execHeartbeatDoorbell]

@[simp] theorem execReservedKindDoorbell_keepsSettings (n value rsvd s) :
    KeepsSettings (execReservedKindDoorbell n value rsvd s) s := by simp [execReservedKindDoorbell]

@[simp] theorem execForeignDoorbell_keepsSettings (_n s) :
    KeepsSettings (execForeignDoorbell _n s) s := by simp [execForeignDoorbell]

@[simp] theorem settings_actDoorbell (p s) : settings (actDoorbell p s) = settings s := by simp [actDoorbell]

@[simp] theorem execDoorbellPacket_keepsSettings (port p s) :
    KeepsSettings (execDoorbellPacket port p s) s := by simp [execDoorbellPacket]

@[simp] theorem execPoolDoorbellRead_keepsSettings (g s) : KeepsSettings (execPoolDoorbellRead g s) s := by
  apply keepsSettings_live
  split
  · rfl
  · split <;> next h => simp [settings_of_eq h]

@[simp] theorem execDescriptorFetch_keepsSettings (n s) : KeepsSettings (execDescriptorFetch n s) s := by
  apply keepsSettings_live
  split
  · rfl
  · split
    · simp
    · rfl
    · simp
    · simp only
      split <;> next h => simp [settings_of_eq h]

@[simp] theorem execRingReadFailed_keepsSettings (n s) :
    KeepsSettings (execRingReadFailed n s) s := by simp [execRingReadFailed]

@[simp] theorem settings_startOp (op n slot f s)
    (hf : ∀ a t, settings (f a t) = settings t) :
    settings (startOp op n slot f s) = settings s := by
  unfold startOp
  split
  · rfl
  · split
    · rfl
    · split <;> simp [hf]

@[simp] theorem execNop_keepsSettings (n slot s) : KeepsSettings (execNop n slot s) s := by simp [execNop]

@[simp] theorem execReservedOpcode_keepsSettings (n slot s) : KeepsSettings (execReservedOpcode n slot s) s := by
  apply keepsSettings_live
  split
  · rfl
  · split <;> simp

@[simp] theorem execCoalesceTimerExpiry_keepsSettings (n now s) :
    KeepsSettings (execCoalesceTimerExpiry n now s) s := by simp [execCoalesceTimerExpiry]

@[simp] theorem execDescriptorTimeLimitExpiry_keepsSettings (n slot now s) :
    KeepsSettings (execDescriptorTimeLimitExpiry n slot now s) s := by
  apply keepsSettings_live
  split
  · simp
  · split
    · split
      · split <;> simp
      · simp
    · simp

@[simp] theorem settings_queueWrite (n f s)
    (hf : ∀ t, settings (f t) = settings t) :
    settings (queueWrite n f s) = settings s := by simp [queueWrite, hf]

@[simp] theorem settings_enableQueue (n s) : settings (enableQueue n s) = settings s := by
  unfold enableQueue
  simp only
  split <;> simp

@[simp] theorem execQueueEnable_keepsSettings (n s) :
    KeepsSettings (execQueueEnable n s) s := by simp [execQueueEnable]

@[simp] theorem settings_disableQueue (n s) : settings (disableQueue n s) = settings s := by
  unfold disableQueue
  simp only
  split <;> simp

@[simp] theorem execQueueDisable_keepsSettings (n s) :
    KeepsSettings (execQueueDisable n s) s := by simp [execQueueDisable]

@[simp] theorem settings_restartQueue (n s) : settings (restartQueue n s) = settings s := by simp [restartQueue]

@[simp] theorem execQueueRestart_keepsSettings (n s) :
    KeepsSettings (execQueueRestart n s) s := by simp [execQueueRestart]

@[simp] theorem execGroupBind_keepsSettings (g t o q dbPva s) :
    KeepsSettings (execGroupBind g t o q dbPva s) s := by
  apply keepsSettings_served
  iterate 2 (split; · simp)
  split <;> next h => simp [settings_of_eq h]

@[simp] theorem settings_stopJobs (g s) : settings (stopJobs g s) = settings s := by
  unfold stopJobs
  apply settings_forEach
  intro c t
  split
  · rfl
  · split
    · rfl
    · split <;> simp

@[simp] theorem settings_releaseGroup (g s) : settings (releaseGroup g s) = settings s := by simp [releaseGroup]

@[simp] theorem execGroupRelease_keepsSettings (g s) : KeepsSettings (execGroupRelease g s) s := by
  apply keepsSettings_served
  split <;> simp

@[simp] theorem execGroupQuiesceDrained_keepsSettings (g s) :
    KeepsSettings (execGroupQuiesceDrained g s) s := by simp [execGroupQuiesceDrained]

@[simp] theorem settings_rearmDeliver (l s) : settings (rearmDeliver l s).2.2 = settings s := by
  induction l generalizing s with
  | nil => rfl
  | cons x r ih =>
    unfold rearmDeliver
    split <;> next h => simp [ih, settings_of_eq h]

@[simp] theorem execGroupRearm_keepsSettings (g s) : KeepsSettings (execGroupRearm g s) s := by
  apply keepsSettings_served
  split
  · simp
  · simp only
    split <;> simp

@[simp] theorem settings_unbindGroup (g s) : settings (unbindGroup g s) = settings s := by
  unfold unbindGroup
  simp only [settings_setGroup, settings_forEach, settings_releaseOne, implies_true, settings_setQueue]
  apply settings_forEach
  intro c t
  split
  · split <;> simp
  · rfl

@[simp] theorem execGroupReleaseDrained_keepsSettings (g s) :
    KeepsSettings (execGroupReleaseDrained g s) s := by simp [execGroupReleaseDrained]

/-! Machine/NearMem.lean -/

@[simp] theorem execFill_keepsSettings (n slot s) : KeepsSettings (execFill n slot s) s := by simp [execFill]
@[simp] theorem execCopy_keepsSettings (n slot s) : KeepsSettings (execCopy n slot s) s := by simp [execCopy]

@[simp] theorem execCompare_keepsSettings (n slot s) :
    KeepsSettings (execCompare n slot s) s := by simp [execCompare]

@[simp] theorem execGather_keepsSettings (n slot s) : KeepsSettings (execGather n slot s) s := by simp [execGather]

@[simp] theorem execScatter_keepsSettings (n slot s) :
    KeepsSettings (execScatter n slot s) s := by simp [execScatter]

@[simp] theorem execReduce_keepsSettings (n slot s) : KeepsSettings (execReduce n slot s) s := by simp [execReduce]

@[simp] theorem execStripeStart_keepsSettings (n slot i c s) : KeepsSettings (execStripeStart n slot i c s) s := by
  apply keepsSettings_live
  split
  · rfl
  · split
    · rfl
    · simp only
      split
      · split <;> next h => simp [settings_of_eq h]
      · simp

@[simp] theorem execNmFirstFailureKnown_keepsSettings (n slot s) :
    KeepsSettings (execNmFirstFailureKnown n slot s) s := by
  apply keepsSettings_live
  split <;> simp

@[simp] theorem execNmDescriptorComplete_keepsSettings (n slot s) :
    KeepsSettings (execNmDescriptorComplete n slot s) s := by
  apply keepsSettings_live
  split
  · rfl
  · split
    · rfl
    · split
      · simp
      · split <;> simp

@[simp] theorem settings_actReduceWr (n q p s) :
    settings (actReduceWr n q p s) = settings s := by simp [actReduceWr]

@[simp] theorem execReduceWr_keepsSettings (port p s) :
    KeepsSettings (execReduceWr port p s) s := by simp [execReduceWr]

@[simp] theorem settings_winPartial (w s) : settings (winPartial w s) = settings s := by
  unfold winPartial
  simp only
  split
  · rfl
  · split <;> simp

@[simp] theorem settings_winContribute (c r lp via open_ answer refused s)
    (hopen_ : ∀ t, settings (open_ t).2 = settings t)
    (hanswer : ∀ a t, settings (answer a t) = settings t)
    (hrefused : ∀ a b t, settings (refused a b t) = settings t) :
    settings (winContribute c r lp via open_ answer refused s) = settings s := by
  unfold winContribute
  simp only
  split
  · simp [hanswer]
  · split <;> next h => simp [hrefused, hopen_, settings_of_eq h]

@[simp] theorem settings_actReduceWrW (n q p s) :
    settings (actReduceWrW n q p s) = settings s := by simp [actReduceWrW]

@[simp] theorem execReduceWrW_keepsSettings (port p s) :
    KeepsSettings (execReduceWrW port p s) s := by simp [execReduceWrW]

@[simp] theorem execRwinAssign_keepsSettings (w t s) :
    KeepsSettings (execRwinAssign w t s) s := by simp [execRwinAssign]

@[simp] theorem settings_winFill (w s) : settings (winFill w s) = settings s := by
  unfold winFill
  apply settings_forEach
  intro i t
  simp only
  split <;> simp

@[simp] theorem settings_armWindow (w s) : settings (armWindow w s) = settings s := by simp [armWindow]

@[simp] theorem execRwinArm_keepsSettings (w contributors s) :
    KeepsSettings (execRwinArm w contributors s) s := by simp [execRwinArm]

@[simp] theorem execRwinArmFillDone_keepsSettings (w now s) :
    KeepsSettings (execRwinArmFillDone w now s) s := by simp [execRwinArmFillDone]

@[simp] theorem settings_disarmWindow (w s) : settings (disarmWindow w s) = settings s := by simp [disarmWindow]

@[simp] theorem execRwinDisarm_keepsSettings (w s) :
    KeepsSettings (execRwinDisarm w s) s := by simp [execRwinDisarm]

@[simp] theorem execRwinDisarmDone_keepsSettings (w s) :
    KeepsSettings (execRwinDisarmDone w s) s := by simp [execRwinDisarmDone]

@[simp] theorem execCollectiveDeadlineExpiry_keepsSettings (w now s) :
    KeepsSettings (execCollectiveDeadlineExpiry w now s) s := by simp [execCollectiveDeadlineExpiry]

/-! Machine/CoreOps.lean -/

@[simp] theorem settings_startWait (n i cause number s) :
    settings (startWait n i cause number s) = settings s := by simp [startWait]

@[simp] theorem settings_dispatch (k n i f s)
    (hf : ∀ a t, settings (f a t) = settings t) :
    settings (dispatch k n i f s) = settings s := by
  unfold dispatch
  split <;> simp [hf]

@[simp] theorem settings_csRead (n e i a k s) : settings (csRead n e i a k s).2 = settings s := by simp [csRead]

@[simp] theorem settings_setAcc (n eng acc rows f s) :
    settings (setAcc n eng acc rows f s) = settings s := by simp [setAcc]

@[simp] theorem settings_spoilOp (n o later s) : settings (spoilOp n o later s) = settings s := by
  unfold spoilOp
  simp only
  split <;> simp

@[simp] theorem settings_spoil (n l s) : settings (spoil n l s) = settings s := by
  induction l generalizing s with
  | nil => rfl
  | cons x r ih =>
    simp [spoil, ih]

@[simp] theorem settings_spoilReaders (n e i r s) :
    settings (spoilReaders n e i r s) = settings s := by simp [spoilReaders]

@[simp] theorem settings_csWrite (n e i a d s) : settings (csWrite n e i a d s) = settings s := by simp [csWrite]

@[simp] theorem settings_enqueueOp (k t s lines rd pool waits) :
    settings (enqueueOp k t s lines rd pool waits) = settings s := by simp [enqueueOp]

@[simp] theorem settings_checkPages (t acc first l l' s) :
    settings (checkPages t acc first l l' s).2.2 = settings s := by
  induction l generalizing l' s with
  | nil => rfl
  | cons x r ih =>
    unfold checkPages
    simp only
    split <;> next h => simp [ih, settings_of_eq h]

@[simp] theorem settings_checkRows (t acc lo hi n first l l' s) :
    settings (checkRows t acc lo hi n first l l' s).2.2 = settings s := by
  induction l generalizing l' s with
  | nil => rfl
  | cons x r ih =>
    unfold checkRows
    split
    · rfl
    · split
      · next h => simp [ih, settings_of_eq₃ h]
      · simp

@[simp] theorem settings_moveFault (t r pva s) :
    settings (moveFault t r pva s) = settings s := by simp [moveFault]

@[simp] theorem settings_readRows (t n l s) : settings (readRows t n l s).2 = settings s := by
  induction l generalizing s with
  | nil => rfl
  | cons x r ih =>
    unfold readRows
    simp only
    split
    · next h => simp [settings_of_eq h]
    · next h => simp [settings_of_eq h]
    · next h =>
      split
      · simp [settings_of_eq h]
      · split
        · next h' => simp [settings_of_eq h', ih, settings_of_eq h]
        · simp [ih, settings_of_eq h]

@[simp] theorem settings_moveEnds (t f s) : settings (moveEnds t f s) = settings s := by simp [moveEnds]

@[simp] theorem settings_rowsReady (t n rows s) : settings (rowsReady t n rows s).2 = settings s := by
  unfold rowsReady
  simp

@[simp] theorem settings_releaseCore (n c s) : settings (releaseCore n c s) = settings s := by simp [releaseCore]

@[simp] theorem settings_barrierCheck (n s) : settings (barrierCheck n s) = settings s := by
  unfold barrierCheck
  split
  · split
    · simp
    · split <;> simp
  · rfl

@[simp] theorem settings_completeEpisode (p s) : settings (completeEpisode p s) = settings s := by
  unfold completeEpisode
  simp only
  split
  · rfl
  · split <;> simp

@[simp] theorem settings_collectWaits (jid s) : settings (collectWaits jid s) = settings s := by
  unfold collectWaits
  split
  · rfl
  · apply settings_forEach
    intro w t
    split
    · rfl
    · simp only
      split
      · simp
      · split <;> simp

@[simp] theorem settings_atomicResult (jid e old s) : settings (atomicResult jid e old s) = settings s := by
  unfold atomicResult
  split
  · rfl
  · split
    · simp only
      split <;> simp
    · simp only
      split <;> simp

@[simp] theorem settings_collectEffects (jid s) : settings (collectEffects jid s) = settings s := by
  unfold collectEffects
  split
  · rfl
  · apply settings_forEach
    intro x t
    split
    · rfl
    · simp only
      split
      · simp
      · split <;> simp

@[simp] theorem settings_collect (jid s) : settings (collect jid s) = settings s := by simp [collect]

/-! Machine/Cores.lean -/

@[simp] theorem execSalu_keepsSettings (n c s) : KeepsSettings (execSalu n c s) s := by simp [execSalu]
@[simp] theorem execBranch_keepsSettings (n c s) : KeepsSettings (execBranch n c s) s := by simp [execBranch]
@[simp] theorem execSync_keepsSettings (n c s) : KeepsSettings (execSync n c s) s := by simp [execSync]
@[simp] theorem execBarrier_keepsSettings (n c s) : KeepsSettings (execBarrier n c s) s := by simp [execBarrier]

@[simp] theorem execBarrierRelease_keepsSettings (p now s) :
    KeepsSettings (execBarrierRelease p now s) s := by simp [execBarrierRelease]

@[simp] theorem execCommit_keepsSettings (n c s) : KeepsSettings (execCommit n c s) s := by simp [execCommit]
@[simp] theorem execEndOp_keepsSettings (n c s) : KeepsSettings (execEndOp n c s) s := by simp [execEndOp]

@[simp] theorem settings_checkSlot (t acc n rows s) :
    settings (checkSlot t acc n rows s).2 = settings s := by simp [checkSlot]

@[simp] theorem settings_runTload (t s) : settings (runTload t s).2 = settings s := by
  unfold runTload
  simp only
  split
  · simp
  · split
    · next h => simp [settings_of_eq h]
    · next h => split <;> next h' => simp [settings_of_eq h', settings_of_eq h]

@[simp] theorem settings_storeRows (t n l l' s) : settings (storeRows t n l l' s).2 = settings s := by
  induction l generalizing l' s with
  | nil => rfl
  | cons x r ih =>
    unfold storeRows
    split <;> next h => simp [ih, settings_of_eq₃ h]

@[simp] theorem settings_runTstore (t s) : settings (runTstore t s).2 = settings s := by
  unfold runTstore
  simp only
  split <;> next h => simp [settings_of_eq h]

@[simp] theorem settings_runTreducew (t s) : settings (runTreducew t s).2 = settings s := by
  unfold runTreducew
  simp only
  split
  · simp
  · simp only [settings_collectWaits, settings_settleOrder]
    refine (settings_winContribute _ _ _ _ _ _ _ _ (fun t => ?_) (fun st t => ?_) fun r p t => ?_).trans ?_
    · simp only
      split <;> simp
    · split <;> simp
    · simp
    · simp

@[simp] theorem settings_runTcopy (t s) : settings (runTcopy t s).2 = settings s := by simp [runTcopy]

@[simp] theorem settings_runMove (k t s) : settings (runMove k t s).2 = settings s := by
  unfold runMove
  split <;> simp

@[simp] theorem settings_enterMove (k t s lines rd pool) :
    settings (enterMove k t s lines rd pool) = settings s := by
  unfold enterMove
  simp only
  split
  · simp
  · split <;> next h => simp [settings_of_eq h]

@[simp] theorem execTload_keepsSettings (n c s) : KeepsSettings (execTload n c s) s := by
  refine keepsSettings_live (settings_dispatch _ _ _ _ _ fun t u => ?_)
  simp only
  split
  · split <;> simp
  · split <;> next h => simp [settings_of_eq h]

@[simp] theorem execTstore_keepsSettings (n c s) : KeepsSettings (execTstore n c s) s := by
  refine keepsSettings_live (settings_dispatch _ _ _ _ _ fun t u => ?_)
  simp only
  split <;> next h => simp [settings_of_eq h]

@[simp] theorem settings_holdEffect (t e s) : settings (holdEffect t e s) = settings s := by
  unfold holdEffect
  split <;> simp

@[simp] theorem execTreduce_keepsSettings (n c s) : KeepsSettings (execTreduce n c s) s := by
  refine keepsSettings_live (settings_dispatch _ _ _ _ _ fun t u => ?_)
  simp only
  split <;> simp

@[simp] theorem execTatomic_keepsSettings (n c s) : KeepsSettings (execTatomic n c s) s := by simp [execTatomic]
@[simp] theorem execTreducew_keepsSettings (n c s) : KeepsSettings (execTreducew n c s) s := by simp [execTreducew]
@[simp] theorem execTcopy_keepsSettings (n c s) : KeepsSettings (execTcopy n c s) s := by simp [execTcopy]
@[simp] theorem execMma_keepsSettings (n c s) : KeepsSettings (execMma n c s) s := by simp [execMma]
@[simp] theorem execAccrd_keepsSettings (n c s) : KeepsSettings (execAccrd n c s) s := by simp [execAccrd]
@[simp] theorem execAccwr_keepsSettings (n c s) : KeepsSettings (execAccwr n c s) s := by simp [execAccwr]

@[simp] theorem settings_vecCodes (t a n code s) :
    settings (vecCodes t a n code s).2 = settings s := by simp [vecCodes]

@[simp] theorem execVbin_keepsSettings (n c s) : KeepsSettings (execVbin n c s) s := by simp [execVbin]
@[simp] theorem execVfma_keepsSettings (n c s) : KeepsSettings (execVfma n c s) s := by simp [execVfma]
@[simp] theorem execVfunc_keepsSettings (n c s) : KeepsSettings (execVfunc n c s) s := by simp [execVfunc]
@[simp] theorem execVrowred_keepsSettings (n c s) : KeepsSettings (execVrowred n c s) s := by simp [execVrowred]
@[simp] theorem execVbcast_keepsSettings (n c s) : KeepsSettings (execVbcast n c s) s := by simp [execVbcast]
@[simp] theorem execVcvt_keepsSettings (n c s) : KeepsSettings (execVcvt n c s) s := by simp [execVcvt]
@[simp] theorem execRacc_keepsSettings (n c s) : KeepsSettings (execRacc n c s) s := by simp [execRacc]

@[simp] theorem settings_runOldest (n o s) : settings (runOldest n o s).2 = settings s := by
  unfold runOldest
  split
  · rfl
  · split <;> simp

@[simp] theorem execTileOpComplete_keepsSettings (n e now s) : KeepsSettings (execTileOpComplete n e now s) s := by
  apply keepsSettings_live
  split
  · simp
  · split
    · next h =>
      simp only
      split <;> simp [settings_of_eq h]
    · next h => simp [settings_of_eq h]

/-! Machine/CxlOps.lean -/

@[simp] theorem settings_closeWindow (d g s) : settings (closeWindow d g s) = settings s := by
  unfold closeWindow
  simp only
  split <;> simp

@[simp] theorem settings_resetLd (d s) : settings (resetLd d s) = settings s := by simp [resetLd]
@[simp] theorem settings_setLink (p st s) : settings (setLink p st s) = settings s := by simp [setLink]
@[simp] theorem settings_linkDown (p st s) : settings (linkDown p st s) = settings s := by simp [linkDown]
@[simp] theorem settings_trainCxl (p s) : settings (trainCxl p s) = settings s := by simp [trainCxl]

@[simp] theorem settings_noteRefused (d hpa s) : settings (noteRefused d hpa s) = settings s := by
  unfold noteRefused
  split <;> simp

/-! Machine/Cxl.lean -/

@[simp] theorem settings_cxlRequest (d tag hpa k acc mk isWrite refused s)
    (hrefused : ∀ t, settings (refused t) = settings t) :
    settings (cxlRequest d tag hpa k acc mk isWrite refused s) = settings s := by
  unfold cxlRequest
  simp only
  split <;> next h => simp [hrefused, settings_of_eq h]

@[simp] theorem settings_cxlRead (d tag hpa m s) : settings (cxlRead d tag hpa m s) = settings s := by
  unfold cxlRead
  split <;> simp

@[simp] theorem execCxlMemRead_keepsSettings (d tag hpa m s) :
    KeepsSettings (execCxlMemRead d tag hpa m s) s := by simp [execCxlMemRead]

@[simp] theorem settings_cxlWrite (d tag hpa mask data poison s) :
    settings (cxlWrite d tag hpa mask data poison s) = settings s := by
  unfold cxlWrite
  split
  · simp
  · split <;> simp

@[simp] theorem execCxlMemWrite_keepsSettings (d tag hpa mask data poison s) :
    KeepsSettings (execCxlMemWrite d tag hpa mask data poison s) s := by simp [execCxlMemWrite]

@[simp] theorem settings_cxlInv (d tag hpa s) : settings (cxlInv d tag hpa s) = settings s := by
  unfold cxlInv
  split <;> simp

@[simp] theorem execCxlMemInv_keepsSettings (d tag hpa s) :
    KeepsSettings (execCxlMemInv d tag hpa s) s := by simp [execCxlMemInv]

@[simp] theorem execCxlLinkTrained_keepsSettings (p version width rate mldSwitch lds now s) :
    KeepsSettings (execCxlLinkTrained p version width rate mldSwitch lds now s) s := by simp [execCxlLinkTrained]

@[simp] theorem execLinkDown_keepsSettings (p now s) :
    KeepsSettings (execLinkDown p now s) s := by simp [execLinkDown]

@[simp] theorem execLinkDownScanComplete_keepsSettings (p now s) :
    KeepsSettings (execLinkDownScanComplete p now s) s := by
  apply keepsSettings_live
  split
  · simp
  · split <;> simp

@[simp] theorem execDirectoryScan_keepsSettings (l s) :
    KeepsSettings (execDirectoryScan l s) s := by simp [execDirectoryScan]

@[simp] theorem execConventionalReset_keepsSettings (p now s) :
    KeepsSettings (execConventionalReset p now s) s := by simp [execConventionalReset]

@[simp] theorem execResetLd_keepsSettings (d s) : KeepsSettings (execResetLd d s) s := by simp [execResetLd]
@[simp] theorem execBindLd_keepsSettings (d t s) : KeepsSettings (execBindLd d t s) s := by simp [execBindLd]

@[simp] theorem execPortEnable_keepsSettings (p enable ctl now s) :
    KeepsSettings (execPortEnable p enable ctl now s) s := by simp [execPortEnable]

@[simp] theorem execGrantExtent_keepsSettings (d e mode s) : KeepsSettings (execGrantExtent d e mode s) s := by
  apply keepsSettings_served
  split
  · simp
  · split
    · split <;> next h => simp [settings_of_eq h]
    · simp

@[simp] theorem settings_setDecErr (d k e s) : settings (setDecErr d k e s) = settings s := by simp [setDecErr]

@[simp] theorem execHdmDecoderCommit_keepsSettings (d k dpa size hpa ways s) :
    KeepsSettings (execHdmDecoderCommit d k dpa size hpa ways s) s := by
  apply keepsSettings_live
  split
  · rfl
  · split <;> simp

@[simp] theorem execHdmDecoderDecommit_keepsSettings (d k s) : KeepsSettings (execHdmDecoderDecommit d k s) s := by
  apply keepsSettings_live
  split <;> simp

@[simp] theorem execInitiateDynamicCapacityAdd_keepsSettings (e n s) :
    KeepsSettings (execInitiateDynamicCapacityAdd e n s) s := by
  apply keepsSettings_served
  iterate 2 (split; · simp)
  split
  · simp
  · next h => simp [settings_allocBlocks h]

@[simp] theorem settings_failAdd (o s) : settings (failAdd o s) = settings s := by
  unfold failAdd
  split <;> simp

@[simp] theorem settings_joinAdd (o s) : settings (joinAdd o s) = settings s := by
  unfold joinAdd
  split <;> simp

@[simp] theorem settings_finishRelease (o s) : settings (finishRelease o s) = settings s := by
  unfold finishRelease
  split <;> simp

@[simp] theorem settings_settleDc (e s) : settings (settleDc e s) = settings s := by
  unfold settleDc
  apply settings_forEach
  intro o t
  split <;> simp

@[simp] theorem execRevokeGrant_keepsSettings (d g s) : KeepsSettings (execRevokeGrant d g s) s := by
  apply keepsSettings_served
  split <;> simp

@[simp] theorem execAddDynamicCapacityResponse_keepsSettings (d e accept s) :
    KeepsSettings (execAddDynamicCapacityResponse d e accept s) s := by
  apply keepsSettings_live
  split
  · rfl
  · split
    · simp
    · split <;> simp

@[simp] theorem execDcResponseTimeout_keepsSettings (e add now s) :
    KeepsSettings (execDcResponseTimeout e add now s) s := by
  apply keepsSettings_live
  split <;> simp

@[simp] theorem execInitiateDynamicCapacityRelease_keepsSettings (e n forced s) :
    KeepsSettings (execInitiateDynamicCapacityRelease e n forced s) s := by simp [execInitiateDynamicCapacityRelease]

@[simp] theorem execReleaseDynamicCapacity_keepsSettings (d e s) :
    KeepsSettings (execReleaseDynamicCapacity d e s) s := by
  apply keepsSettings_live
  split
  · rfl
  · split
    · simp
    · split <;> simp

@[simp] theorem settings_afterCut (e s) : settings (afterCut e s) = settings s := by simp [afterCut]
@[simp] theorem settings_reachCut (d g s) : settings (reachCut d g s) = settings s := by simp [reachCut]
@[simp] theorem execCut_keepsSettings (e p s) : KeepsSettings (execCut e p s) s := by simp [execCut]

@[simp] theorem settings_reportCut (d g s) : settings (reportCut d g s) = settings s := by
  unfold reportCut
  split <;> simp

@[simp] theorem execCutComplete_keepsSettings (d g s) :
    KeepsSettings (execCutComplete d g s) s := by simp [execCutComplete]

@[simp] theorem execDmaReadComplete_keepsSettings (id data poison s) :
    KeepsSettings (execDmaReadComplete id data poison s) s := by
  apply keepsSettings_live
  split <;> simp

/-! Machine/LinkOps.lean -/

@[simp] theorem settings_checkParents (s) : settings (checkParents s) = settings s := by simp [checkParents]
@[simp] theorem settings_setPortSt (n st s) : settings (setPortSt n st s) = settings s := by simp [setPortSt]

@[simp] theorem settings_reroute (n s) : settings (reroute n s) = settings s := by
  unfold reroute
  refine (settings_forEach _ _ _ fun f t => ?_).trans (by simp)
  simp only
  generalize f.entry = entry
  cases entry with
  | none =>
    split
    · split <;> simp
    · split
      · rfl
      · split <;> simp
  | some e =>
    split
    · split <;> simp
    · split
      · simp
      · split <;> simp

@[simp] theorem settings_darken (n s) : settings (darken n s) = settings s := by simp [darken]

@[simp] theorem settings_endStall (n v s) : settings (endStall n v s) = settings s := by
  unfold endStall
  simp only
  split <;> simp

@[simp] theorem settings_resetVcs (n s) : settings (resetVcs n s) = settings s := by simp [resetVcs]
@[simp] theorem settings_portDown (n st s) : settings (portDown n st s) = settings s := by simp [portDown]

@[simp] theorem settings_beginTraining (n s) : settings (beginTraining n s) = settings s := by
  unfold beginTraining
  simp only
  split <;> simp

@[simp] theorem settings_fullRetrain (n s) : settings (fullRetrain n s) = settings s := by simp [fullRetrain]
@[simp] theorem settings_setWidth (n w s) : settings (setWidth n w s) = settings s := by simp [setWidth]
@[simp] theorem settings_settleWidth (n s) : settings (settleWidth n s) = settings s := by simp [settleWidth]

@[simp] theorem settings_creditRetrain (n s) :
    settings (creditRetrain n s) = settings s := by simp [creditRetrain]

@[simp] theorem settings_dropTransit (n i p s) :
    settings (dropTransit n i p s) = settings s := by simp [dropTransit]

/-! Machine/Fabric.lean -/

@[simp] theorem execRofPortEnable_keepsSettings (n s) :
    KeepsSettings (execRofPortEnable n s) s := by simp [execRofPortEnable]

@[simp] theorem execRofPortDisable_keepsSettings (n s) :
    KeepsSettings (execRofPortDisable n s) s := by simp [execRofPortDisable]

@[simp] theorem execSetPortConfig_keepsSettings (n c s) :
    KeepsSettings (execSetPortConfig n c s) s := by simp [execSetPortConfig]

@[simp] theorem execSetVcPartition_keepsSettings (n v words s) :
    KeepsSettings (execSetVcPartition n v words s) s := by simp [execSetVcPartition]

@[simp] theorem execSetRoute_keepsSeatLegal (d ports s) :
    KeepsSeatLegal (execSetRoute d ports s) s := keepsSeatLegal_served (by simp)

@[simp] theorem execSetMcast_keepsSeatLegal (g ports valid loc s) :
    KeepsSeatLegal (execSetMcast g ports valid loc s) s := keepsSeatLegal_served (by simp)

@[simp] theorem execSetRofCtrl_keepsSettings (adaptBiasW auditUs retrainDrainUs trainLimitMs s) :
    KeepsSettings (execSetRofCtrl adaptBiasW auditUs retrainDrainUs trainLimitMs s) s := by simp [execSetRofCtrl]

@[simp] theorem execProbeEmit_keepsSettings (n now s) :
    KeepsSettings (execProbeEmit n now s) s := by simp [execProbeEmit]

@[simp] theorem execPartnerDetected_keepsSettings (n now s) :
    KeepsSettings (execPartnerDetected n now s) s := by simp [execPartnerDetected]

@[simp] theorem execReceiveLock_keepsSettings (n lane now s) : KeepsSettings (execReceiveLock n lane now s) s := by
  apply keepsSettings_live
  split <;> simp

@[simp] theorem execTrainingComplete_keepsSettings (n now s) :
    KeepsSettings (execTrainingComplete n now s) s := by simp [execTrainingComplete]

@[simp] theorem settings_keyFailed (n s) : settings (keyFailed n s) = settings s := by simp [keyFailed]

@[simp] theorem execTrainLimitExpiry_keepsSettings (n now s) :
    KeepsSettings (execTrainLimitExpiry n now s) s := by simp [execTrainLimitExpiry]

@[simp] theorem execLossOfSignal_keepsSettings (n now s) : KeepsSettings (execLossOfSignal n now s) s := by
  apply keepsSettings_live
  split <;> simp

@[simp] theorem execFullRetrain_keepsSettings (n byFm s) :
    KeepsSettings (execFullRetrain n byFm s) s := by simp [execFullRetrain]

@[simp] theorem execFrameReceive_keepsSettings (n p blocks lcrcOk tagOk fctr now s) :
    KeepsSettings (execFrameReceive n p blocks lcrcOk tagOk fctr now s) s := by simp [execFrameReceive]

@[simp] theorem execFrameTransmit_keepsSettings (n v now s) : KeepsSettings (execFrameTransmit n v now s) s := by
  apply keepsSettings_live
  split
  · simp
  · split
    · simp
    · split
      · simp
      · split <;> simp

@[simp] theorem execCredit_keepsSettings (n counts s) : KeepsSettings (execCredit n counts s) s := by
  apply keepsSettings_live
  split <;> simp

@[simp] theorem execCreditReturnTimer_keepsSettings (n now s) :
    KeepsSettings (execCreditReturnTimer n now s) s := by simp [execCreditReturnTimer]

@[simp] theorem execAuditTimer_keepsSettings (n now s) :
    KeepsSettings (execAuditTimer n now s) s := by simp [execAuditTimer]

@[simp] theorem execAudit_keepsSettings (n counts s) : KeepsSettings (execAudit n counts s) s := by simp [execAudit]

@[simp] theorem execAuditAck_keepsSettings (n counts s) :
    KeepsSettings (execAuditAck n counts s) s := by simp [execAuditAck]

@[simp] theorem execRetrain_keepsSettings (n byte2 now s) :
    KeepsSettings (execRetrain n byte2 now s) s := by simp [execRetrain]

@[simp] theorem execRetrainAck_keepsSettings (n counts s) :
    KeepsSettings (execRetrainAck n counts s) s := by simp [execRetrainAck]

@[simp] theorem execRetrainDrainExpiry_keepsSettings (n now s) :
    KeepsSettings (execRetrainDrainExpiry n now s) s := by
  apply keepsSettings_live
  split <;> simp

@[simp] theorem execLaneSet_keepsSettings (n mask s) :
    KeepsSettings (execLaneSet n mask s) s := by simp [execLaneSet]

@[simp] theorem execLaneReady_keepsSettings (n mask s) :
    KeepsSettings (execLaneReady n mask s) s := by simp [execLaneReady]

@[simp] theorem execLaneFault_keepsSettings (n mask s) :
    KeepsSettings (execLaneFault n mask s) s := by simp [execLaneFault]

@[simp] theorem execLaneLockLoss_keepsSettings (n lane now s) :
    KeepsSettings (execLaneLockLoss n lane now s) s := by
  apply keepsSettings_live
  split <;> simp

@[simp] theorem execWidthNarrow_keepsSettings (n s) :
    KeepsSettings (execWidthNarrow n s) s := by simp [execWidthNarrow]

@[simp] theorem execWidthWiden_keepsSettings (n s) :
    KeepsSettings (execWidthWiden n s) s := by simp [execWidthWiden]

@[simp] theorem execLaneParkExpiry_keepsSettings (n lane now s) :
    KeepsSettings (execLaneParkExpiry n lane now s) s := by
  apply keepsSettings_live
  split <;> simp

@[simp] theorem settings_keyStep (n s) : settings (keyStep n s) = settings s := by
  unfold keyStep
  simp only
  split
  · split
    · rfl
    · split <;> simp
  · rfl

@[simp] theorem execTrain_keepsSettings (n id pair side ready s) :
    KeepsSettings (execTrain n id pair side ready s) s := by
  apply keepsSettings_live
  split <;> simp

@[simp] theorem execKeyx_keepsSettings (n part index total data s) :
    KeepsSettings (execKeyx n part index total data s) s := by simp [execKeyx]

@[simp] theorem execControlWordDiscard_keepsSettings (w s) :
    KeepsSettings (execControlWordDiscard w s) s := by simp [execControlWordDiscard]

@[simp] theorem execForward_keepsSettings (n p s) : KeepsSettings (execForward n p s) s := by
  apply keepsSettings_live
  split
  · rfl
  · split
    · simp
    · split
      · simp
      · split <;> simp

@[simp] theorem execMulticast_keepsSettings (n p s) :
    KeepsSettings (execMulticast n p s) s := by simp [execMulticast]

/-! Machine/FenceOps.lean -/

@[simp] theorem settings_repairNote (k n s) : settings (repairNote k n s) = settings s := by simp [repairNote]
@[simp] theorem settings_markCore (n cause s) : settings (markCore n cause s) = settings s := by simp [markCore]

@[simp] theorem settings_fenceCore (n cause s) :
    settings (fenceCore n cause s) = settings s := by simp [fenceCore]

@[simp] theorem settings_homeLost (q s) : settings (homeLost q s) = settings s := by simp [homeLost]

@[simp] theorem settings_fencePosition (island q s) :
    settings (fencePosition island q s) = settings s := by simp [fencePosition]

/-- A device that has fenced itself has no anchor (R418). -/
theorem seat_selfFence (s) : (settings (selfFence s)).1.1 = none := by simp [selfFence]

theorem legalSeat_evaluateIslands {s} (h : LegalSeat (settings s).1.1) :
    LegalSeat (settings (evaluateIslands s)).1.1 := by
  unfold evaluateIslands
  split
  · rw [seat_selfFence]; exact legalSeat_none
  · simpa using h

@[simp] theorem settings_holdCxlDown (p s) : settings (holdCxlDown p s) = settings s := by simp [holdCxlDown]

/-- A fence of the anchor's quadrant leaves the role to nobody, or to the spare that takes it over later (R417, R419). -/
theorem legalSeat_fenceQuadrant {s} (q cause) (h : LegalSeat (settings s).1.1) :
    LegalSeat (settings (fenceQuadrant q cause s)).1.1 := by
  unfold fenceQuadrant
  split
  · exact h
  · apply legalSeat_evaluateIslands
    simp [h]

@[simp] theorem settings_fenceOe (e cause s) : settings (fenceOe e cause s) = settings s := by simp [fenceOe]
@[simp] theorem settings_fenceCxl (p cause s) : settings (fenceCxl p cause s) = settings s := by simp [fenceCxl]
@[simp] theorem settings_poisonLost (q s) : settings (poisonLost q s) = settings s := by simp [poisonLost]

/-! Machine/Fences.lean -/

@[simp] theorem execStraitLost_keepsSeatLegal (i now s) : KeepsSeatLegal (execStraitLost i now s) s := by
  apply keepsSeatLegal_live
  split
  · simp
  · exact fun h => legalSeat_evaluateIslands (by simpa using h)

@[simp] theorem execStraitRestored_keepsSettings (i now s) : KeepsSettings (execStraitRestored i now s) s := by
  apply keepsSettings_live
  split <;> simp

@[simp] theorem execFenceStatusSample_keepsSeatLegal (now s) : KeepsSeatLegal (execFenceStatusSample now s) s := by
  apply keepsSeatLegal_live
  simp only
  split
  · simp
  · simp [seat_selfFence]

@[simp] theorem execAnchorFailover_keepsSeatLegal (now s) : KeepsSeatLegal (execAnchorFailover now s) s := by
  apply keepsSeatLegal_live
  split
  · simp
  · exact fun _ => legalSeat_evaluateIslands (by simp)

@[simp] theorem execCoreFence_keepsSettings (n cause now s) :
    KeepsSettings (execCoreFence n cause now s) s := by simp [execCoreFence]

@[simp] theorem execFenceCore_keepsSettings (n cause now s) :
    KeepsSettings (execFenceCore n cause now s) s := by simp [execFenceCore]

@[simp] theorem execEngineHoldExpiry_keepsSettings (n e now s) :
    KeepsSettings (execEngineHoldExpiry n e now s) s := by simp [execEngineHoldExpiry]

@[simp] theorem execFenceQuadrant_keepsSeatLegal (q cause now s) :
    KeepsSeatLegal (execFenceQuadrant q cause now s) s := by
  apply keepsSeatLegal_live
  intro h
  have hf := legalSeat_fenceQuadrant q.val cause.val (s := advance now s) (by simpa using h)
  split <;> simp [h, hf]

@[simp] theorem execFenceOpticalEngine_keepsSettings (e cause now s) :
    KeepsSettings (execFenceOpticalEngine e cause now s) s := by simp [execFenceOpticalEngine]

@[simp] theorem execFenceCxlPort_keepsSettings (p cause now s) :
    KeepsSettings (execFenceCxlPort p cause now s) s := by simp [execFenceCxlPort]

@[simp] theorem execUnfence_keepsSettings (k n s) : KeepsSettings (execUnfence k n s) s := by simp [execUnfence]

@[simp] theorem execIslandRejoin_keepsSettings (q now s) :
    KeepsSettings (execIslandRejoin q now s) s := by simp [execIslandRejoin]

/-! Machine/Jobs.lean -/

@[simp] theorem settings_startJob (n slot d s) : settings (startJob n slot d s) = settings s := by
  unfold startJob
  extract_lets img arg
  split
  · simp
  · exact (settings_setDesc ..).trans (settings_setJob ..)

@[simp] theorem execJob_keepsSettings (n slot s) : KeepsSettings (execJob n slot s) s := by simp [execJob]

@[simp] theorem settings_admitFail (jid a f s) : settings (admitFail jid a f s) = settings s := by
  unfold admitFail
  split
  split <;> next h' => simp [settings_of_eq₃ h']

@[simp] theorem settings_checkHeader (jid j h s) :
    settings (checkHeader jid j h s) = settings s := by simp [checkHeader]

@[simp] theorem execJobHeaderRead_keepsSettings (n slot s) : KeepsSettings (execJobHeaderRead n slot s) s := by
  apply keepsSettings_live
  split
  · rfl
  · split
    · rfl
    · simp only
      split <;> next h => simp [settings_of_eq h]

@[simp] theorem settings_joinReady (jid s) : settings (joinReady jid s) = settings s := by
  unfold joinReady
  split
  · rfl
  · simp only
    split <;> simp

@[simp] theorem settings_testDigest (jid s) : settings (testDigest jid s) = settings s := by
  unfold testDigest
  split <;> simp

@[simp] theorem settings_checkImage (jid j img args s) : settings (checkImage jid j img args s) = settings s := by
  unfold checkImage
  simp only
  split
  · simp
  · split
    · simp
    · split <;> simp

@[simp] theorem execJobImageRead_keepsSettings (n slot s) : KeepsSettings (execJobImageRead n slot s) s := by
  apply keepsSettings_live
  split
  · rfl
  · split
    · rfl
    · simp only
      split
      · next h => simp [settings_of_eq h]
      · next h =>
        split
        · next h' => simp [settings_of_eq h', settings_of_eq h]
        · next h' => simp [settings_of_eq h', settings_of_eq h]
        · next h' => split <;> next h'' => simp [settings_of_eq h'', settings_of_eq h', settings_of_eq h]

@[simp] theorem execJobDigestComputed_keepsSettings (n slot s) :
    KeepsSettings (execJobDigestComputed n slot s) s := by
  apply keepsSettings_live
  split
  · rfl
  · split
    · rfl
    · simp only
      split <;> simp

@[simp] theorem execResume_keepsSettings (n slot s) : KeepsSettings (execResume n slot s) s := by
  refine keepsSettings_live (settings_startOp _ _ _ _ _ fun d t => ?_)
  simp only
  split <;> simp

@[simp] theorem execDiscard_keepsSettings (n slot s) : KeepsSettings (execDiscard n slot s) s := by
  refine keepsSettings_live (settings_startOp _ _ _ _ _ fun d t => ?_)
  simp only
  split <;> simp

@[simp] theorem execJobPreempt_keepsSettings (n slot s) : KeepsSettings (execJobPreempt n slot s) s := by
  apply keepsSettings_live
  split <;> simp

@[simp] theorem execJobComplete_keepsSettings (n slot s) : KeepsSettings (execJobComplete n slot s) s := by
  apply keepsSettings_live
  split
  · rfl
  · simp only
    split <;> simp

@[simp] theorem settings_commitStep (jid s) : settings (commitStep jid s) = settings s := by
  unfold commitStep
  simp only
  split <;> simp

@[simp] theorem execCommitComplete_keepsSettings (n slot s) : KeepsSettings (execCommitComplete n slot s) s := by
  apply keepsSettings_live
  split <;> simp

@[simp] theorem settings_checkEffects (jid j l s) : settings (checkEffects jid j l s).2 = settings s := by
  induction l generalizing s with
  | nil => rfl
  | cons x r ih =>
    unfold checkEffects
    split <;> next h => simp [ih, settings_of_eq₃ h]

@[simp] theorem settings_setEffect (jid e e' s) : settings (setEffect jid e e' s) = settings s := by
  unfold setEffect
  split <;> simp

@[simp] theorem settings_wakeHeld (n s) : settings (wakeHeld n s) = settings s := by
  unfold wakeHeld
  split <;> simp

@[simp] theorem settings_issueRow (jid j e s) : settings (issueRow jid j e s) = settings s := by
  unfold issueRow
  split
  · split
    · simp only
      split <;> next h => simp [settings_of_eq h]
    · simp only
      split <;> next h => simp [settings_of_eq h]
  · split
    · simp only
      split <;> next h => simp [settings_of_eq h]
    · simp only
      split <;> next h => simp [settings_of_eq h]

@[simp] theorem settings_issueRows (n n' n'' n''' s) : settings (issueRows n n' n'' n''' s) = settings s := by
  induction n generalizing s with
  | zero => rfl
  | succ n ih =>
    unfold issueRows
    split
    · rfl
    · split <;> simp [ih]

@[simp] theorem execHeldEffectsIssue_keepsSettings (n rows s) :
    KeepsSettings (execHeldEffectsIssue n rows s) s := by
  apply keepsSettings_live
  split
  · rfl
  · simp only
    iterate 4 (split; · simp)
    split <;> next h => simp [settings_of_eq h]

@[simp] theorem execCoreFenceTest_keepsSettings (n slot s) : KeepsSettings (execCoreFenceTest n slot s) s := by
  apply keepsSettings_live
  split <;> simp

@[simp] theorem execSetSrControls_keepsSettings (fixed seed s) :
    KeepsSettings (execSetSrControls fixed seed s) s := by simp [execSetSrControls]

/-! Machine/Mailbox.lean -/

@[simp] theorem settings_mailbox (d f s)
    (hf : ∀ t, settings (f t) = settings t) :
    settings (mailbox d f s) = settings s := by simp [mailbox, hf]

@[simp] theorem settings_mailDone (d code vals s) :
    settings (mailDone d code vals s) = settings s := by simp [mailDone]

@[simp] theorem execIdentifyMemoryDevice_keepsSettings (d s) :
    KeepsSettings (execIdentifyMemoryDevice d s) s := by simp [execIdentifyMemoryDevice]

@[simp] theorem execGetEventRecords_keepsSettings (d log s) :
    KeepsSettings (execGetEventRecords d log s) s := by simp [execGetEventRecords]

@[simp] theorem execClearEventRecords_keepsSettings (d log all handles s) :
    KeepsSettings (execClearEventRecords d log all handles s) s := by simp [execClearEventRecords]

@[simp] theorem execGetEventInterruptPolicy_keepsSettings (d s) :
    KeepsSettings (execGetEventInterruptPolicy d s) s := by simp [execGetEventInterruptPolicy]

@[simp] theorem execSetEventInterruptPolicy_keepsSettings (d policy s) :
    KeepsSettings (execSetEventInterruptPolicy d policy s) s := by simp [execSetEventInterruptPolicy]

@[simp] theorem execGetHealthInfo_keepsSettings (d s) :
    KeepsSettings (execGetHealthInfo d s) s := by simp [execGetHealthInfo]

@[simp] theorem execGetPoisonList_keepsSettings (d s) :
    KeepsSettings (execGetPoisonList d s) s := by simp [execGetPoisonList]

@[simp] theorem settings_mailbox31 (d f s)
    (hf : ∀ t, settings (f t) = settings t) :
    settings (mailbox31 d f s) = settings s := by simp [mailbox31, hf]

@[simp] theorem execGetDynamicCapacityConfiguration_keepsSettings (d s) :
    KeepsSettings (execGetDynamicCapacityConfiguration d s) s := by simp [execGetDynamicCapacityConfiguration]

@[simp] theorem execGetDynamicCapacityExtentList_keepsSettings (d s) :
    KeepsSettings (execGetDynamicCapacityExtentList d s) s := by simp [execGetDynamicCapacityExtentList]

@[simp] theorem execUnsupportedMailboxCommand_keepsSettings (d s) :
    KeepsSettings (execUnsupportedMailboxCommand d s) s := by simp [execUnsupportedMailboxCommand]

@[simp] theorem settings_apiDone (code vals s) : settings (apiDone code vals s) = settings s := by simp [apiDone]
@[simp] theorem execGetLdInfo_keepsSettings (p s) : KeepsSettings (execGetLdInfo p s) s := by simp [execGetLdInfo]

@[simp] theorem execGetLdAllocations_keepsSettings (p s) :
    KeepsSettings (execGetLdAllocations p s) s := by simp [execGetLdAllocations]

@[simp] theorem execSetLdAllocations_keepsSettings (s) :
    KeepsSettings (execSetLdAllocations s) s := by simp [execSetLdAllocations]

@[simp] theorem execGetQosControl_keepsSettings (s) :
    KeepsSettings (execGetQosControl s) s := by simp [execGetQosControl]

@[simp] theorem execSetQosControl_keepsSettings (high low s) :
    KeepsSettings (execSetQosControl high low s) s := by simp [execSetQosControl]

@[simp] theorem execGetQosStatus_keepsSettings (s) :
    KeepsSettings (execGetQosStatus s) s := by simp [execGetQosStatus]

@[simp] theorem execGetQosAllocatedBw_keepsSettings (p s) :
    KeepsSettings (execGetQosAllocatedBw p s) s := by simp [execGetQosAllocatedBw]

@[simp] theorem execSetQosAllocatedBw_keepsSettings (p start vals s) :
    KeepsSettings (execSetQosAllocatedBw p start vals s) s := by simp [execSetQosAllocatedBw]

@[simp] theorem execGetQosBwLimit_keepsSettings (p s) :
    KeepsSettings (execGetQosBwLimit p s) s := by simp [execGetQosBwLimit]

@[simp] theorem execSetQosBwLimit_keepsSettings (p start vals s) :
    KeepsSettings (execSetQosBwLimit p start vals s) s := by simp [execSetQosBwLimit]

@[simp] theorem execGetDcdInfo_keepsSettings (s) : KeepsSettings (execGetDcdInfo s) s := by simp [execGetDcdInfo]

@[simp] theorem execGetHostDcRegionConfiguration_keepsSettings (d s) :
    KeepsSettings (execGetHostDcRegionConfiguration d s) s := by simp [execGetHostDcRegionConfiguration]

@[simp] theorem execGetDcRegionExtentLists_keepsSettings (d s) :
    KeepsSettings (execGetDcRegionExtentLists d s) s := by simp [execGetDcRegionExtentLists]

@[simp] theorem execSetDcRegionConfiguration_keepsSettings (s) :
    KeepsSettings (execSetDcRegionConfiguration s) s := by simp [execSetDcRegionConfiguration]

/-! Machine/ObsOps.lean -/

@[simp] theorem settings_sampleMetric (m v s) :
    settings (sampleMetric m v s) = settings s := by simp [sampleMetric]

@[simp] theorem settings_endPeriod (short s) : settings (endPeriod short s) = settings s := by simp [endPeriod]
@[simp] theorem settings_zeroiseKeys (s) : settings (zeroiseKeys s) = settings s := by simp [zeroiseKeys]

/-! Machine/Sched.lean -/

@[simp] theorem settings_openCoreGate (n s) : settings (openCoreGate n s) = settings s := by simp [openCoreGate]

@[simp] theorem settings_startCore (jid j n rank s) :
    settings (startCore jid j n rank s) = settings s := by simp [startCore]

@[simp] theorem settings_admitJob (jid j cs s given) :
    settings (admitJob jid j cs s given) = settings s := by simp [admitJob]

@[simp] theorem settings_tryAdmit (c s) : settings (tryAdmit c s).2 = settings s := by
  unfold tryAdmit
  split
  · simp
  · split <;> simp

@[simp] theorem execSchedulerTick_keepsSettings (q now s) : KeepsSettings (execSchedulerTick q now s) s := by
  apply keepsSettings_live
  split
  · simp
  · simp only
    split
    · split
      · simp
      · split <;> next h => simp [settings_of_eq h]
    · simp

@[simp] theorem settings_creditTick (stripes c s) :
    settings (creditTick stripes c s) = settings s := by simp [creditTick]

@[simp] theorem execClassCreditTick_keepsSettings (stripes now s) :
    KeepsSettings (execClassCreditTick stripes now s) s := by simp [execClassCreditTick]

@[simp] theorem settings_sampleQueue (n s) : settings (sampleQueue n s) = settings s := by simp [sampleQueue]

@[simp] theorem execQueueSampleTick_keepsSettings (now s) :
    KeepsSettings (execQueueSampleTick now s) s := by simp [execQueueSampleTick]

@[simp] theorem execClearMax_keepsSettings (n s) : KeepsSettings (execClearMax n s) s := by simp [execClearMax]

@[simp] theorem execSetClass_keepsSettings (c rate burstUs s) :
    KeepsSettings (execSetClass c rate burstUs s) s := by simp [execSetClass]

@[simp] theorem execSetGroupClass_keepsSettings (g c s) :
    KeepsSettings (execSetGroupClass g c s) s := by simp [execSetGroupClass]

@[simp] theorem execSetSchCtrl_keepsSettings (ageMs fitUs shedC s) :
    KeepsSettings (execSetSchCtrl ageMs fitUs shedC s) s := by simp [execSetSchCtrl]

@[simp] theorem execSetContract_keepsSettings (k t anyTenant port anyPort valid rate burst s) :
    KeepsSettings (execSetContract k t anyTenant port anyPort valid rate burst s) s := by simp [execSetContract]

@[simp] theorem execSetMembership_keepsSeatLegal (id t add s) :
    KeepsSeatLegal (execSetMembership id t add s) s := by
  apply keepsSeatLegal_served
  simp

/-! Machine/Sync.lean -/

@[simp] theorem execObjAssign_keepsSettings (o t s) :
    KeepsSettings (execObjAssign o t s) s := by simp [execObjAssign]

@[simp] theorem settings_objWrite (o d f s)
    (hf : ∀ t, settings (f t) = settings t) :
    settings (objWrite o d f s) = settings s := by
  unfold objWrite
  split <;> simp [hf]

@[simp] theorem execObjRegister_keepsSettings (o d s) :
    KeepsSettings (execObjRegister o d s) s := by simp [execObjRegister]

@[simp] theorem settings_deregisterObj (o s) :
    settings (deregisterObj o s) = settings s := by simp [deregisterObj]

@[simp] theorem execObjDeregister_keepsSettings (o d s) :
    KeepsSettings (execObjDeregister o d s) s := by simp [execObjDeregister]

@[simp] theorem settings_debugCmd (r who cmd args f s)
    (hf : ∀ t, settings (f t) = settings t) :
    settings (debugCmd r who cmd args f s) = settings s := by simp [debugCmd, hf]

@[simp] theorem execSemSet_keepsSettings (r who n k v s) :
    KeepsSettings (execSemSet r who n k v s) s := by simp [execSemSet]

@[simp] theorem execChanRelease_keepsSettings (r who p s) :
    KeepsSettings (execChanRelease r who p s) s := by simp [execChanRelease]

@[simp] theorem execObjMark_keepsSettings (r who o s) :
    KeepsSettings (execObjMark r who o s) s := by simp [execObjMark]

@[simp] theorem execObjRelease_keepsSettings (r who o s) :
    KeepsSettings (execObjRelease r who o s) s := by simp [execObjRelease]

@[simp] theorem settings_actResetNotice (p s) :
    settings (actResetNotice p s) = settings s := by simp [actResetNotice]

@[simp] theorem execResetnotice_keepsSettings (port p s) :
    KeepsSettings (execResetnotice port p s) s := by simp [execResetnotice]

@[simp] theorem execDeclareEndpointReset_keepsSettings (id s) :
    KeepsSettings (execDeclareEndpointReset id s) s := by simp [execDeclareEndpointReset]

@[simp] theorem execWaitWatchdogExpiry_keepsSettings (n c now s) :
    KeepsSettings (execWaitWatchdogExpiry n c now s) s := by
  apply keepsSettings_live
  split <;> simp

/-! Machine/Transport.lean -/

@[simp] theorem settings_pruneWrites (s) : settings (pruneWrites s) = settings s := by simp [pruneWrites]

@[simp] theorem settings_applyAck (k p s) : settings (applyAck k p s) = settings s := by
  unfold applyAck
  split <;> simp

@[simp] theorem execAck_keepsSettings (port p s) : KeepsSettings (execAck port p s) s := by simp [execAck]

@[simp] theorem execAckTimer_keepsSettings (f now s) : KeepsSettings (execAckTimer f now s) s := by
  apply keepsSettings_live
  split
  · simp
  · split <;> simp

@[simp] theorem settings_resend (k x s) : settings (resend k x s) = settings s := by
  unfold resend
  split <;> simp

@[simp] theorem execResendreq_keepsSettings (port p s) : KeepsSettings (execResendreq port p s) s := by
  refine keepsSettings_live (settings_terminate _ _ _ _ fun q t => ?_)
  split
  · rfl
  · apply settings_forEach
    intro i u
    split <;> simp

@[simp] theorem execResendTimer_keepsSettings (f seq now s) : KeepsSettings (execResendTimer f seq now s) s := by
  apply keepsSettings_live
  split <;> simp

@[simp] theorem settings_writeFailed (w s) : settings (writeFailed w s) = settings s := by simp [writeFailed]

@[simp] theorem settings_packetFailed (k p s) : settings (packetFailed k p s) = settings s := by
  unfold packetFailed
  split
  · simp only
    split <;> simp
  · split
    · simp only
      split <;> simp
    · simp

@[simp] theorem settings_failFlow (k s) : settings (failFlow k s) = settings s := by
  unfold failFlow
  split <;> simp

@[simp] theorem execResendLimitExpiry_keepsSettings (f seq now s) :
    KeepsSettings (execResendLimitExpiry f seq now s) s := by
  apply keepsSettings_live
  split <;> simp

@[simp] theorem execFlowSilenceExpiry_keepsSettings (f now s) :
    KeepsSettings (execFlowSilenceExpiry f now s) s := by
  apply keepsSettings_live
  split <;> simp

@[simp] theorem execSendContextRetire_keepsSettings (f now s) :
    KeepsSettings (execSendContextRetire f now s) s := by
  apply keepsSettings_live
  split <;> simp

@[simp] theorem execReceiveContextRetire_keepsSettings (f now s) :
    KeepsSettings (execReceiveContextRetire f now s) s := by simp [execReceiveContextRetire]

@[simp] theorem execReasmTimeout_keepsSettings (f first now s) :
    KeepsSettings (execReasmTimeout f first now s) s := by
  apply keepsSettings_live
  split <;> simp

@[simp] theorem execAtomicRetentionExpiry_keepsSettings (q src tag now s) :
    KeepsSettings (execAtomicRetentionExpiry q src tag now s) s := by
  apply keepsSettings_live
  split <;> simp

@[simp] theorem execQuietPeriodEnd_keepsSettings (now s) : KeepsSettings (execQuietPeriodEnd now s) s := by
  apply keepsSettings_live
  split <;> simp

@[simp] theorem execSequenceQuarantineExpiry_keepsSettings (f now s) :
    KeepsSettings (execSequenceQuarantineExpiry f now s) s := by simp [execSequenceQuarantineExpiry]

@[simp] theorem settings_actResponse (q p s) : settings (actResponse q p s) = settings s := by
  unfold actResponse
  simp only
  split
  · rfl
  · split <;> simp

@[simp] theorem execUnmatchedResponse_keepsSettings (port p s) :
    KeepsSettings (execUnmatchedResponse port p s) s := by simp [execUnmatchedResponse]

@[simp] theorem execResponseReceived_keepsSettings (port p s) :
    KeepsSettings (execResponseReceived port p s) s := by simp [execResponseReceived]

@[simp] theorem settings_actRecall (q p s) : settings (actRecall q p s) = settings s := by simp [actRecall]

@[simp] theorem execRecallReceived_keepsSettings (port p s) :
    KeepsSettings (execRecallReceived port p s) s := by simp [execRecallReceived]

@[simp] theorem settings_actTetherBeat (p s) :
    settings (actTetherBeat p s) = settings s := by simp [actTetherBeat]

@[simp] theorem execTetherbeat_keepsSettings (port p s) :
    KeepsSettings (execTetherbeat port p s) s := by simp [execTetherbeat]

@[simp] theorem execTimeExchangeTimer_keepsSettings (n now s) :
    KeepsSettings (execTimeExchangeTimer n now s) s := by simp [execTimeExchangeTimer]

@[simp] theorem settings_applyOffset (diff parentDepth s) :
    settings (applyOffset diff parentDepth s) = settings s := by simp [applyOffset]

@[simp] theorem execTimePacket_keepsSettings (n p now s) : KeepsSettings (execTimePacket n p now s) s := by
  apply keepsSettings_live
  refine (settings_terminate _ _ _ _ fun _ t => ?_).trans (by simp)
  split
  · rfl
  · extract_lets t4 t3 t1 t2 e u
    have hu : settings u = settings t := by simp [u]
    split
    · exact hu
    · rw [settings_applyOffset, hu]

@[simp] theorem execSetTimeTree_keepsSettings (parent parentValid root alt altValid s) :
    KeepsSettings (execSetTimeTree parent parentValid root alt altValid s) s := by simp [execSetTimeTree]

@[simp] theorem execSetE2eCtrl_keepsSettings (q resendUs resendLimitUs reasmUs s) :
    KeepsSettings (execSetE2eCtrl q resendUs resendLimitUs reasmUs s) s := by simp [execSetE2eCtrl]

/-! Machine/Pair.lean -/

@[simp] theorem settings_actOn (n q p s) : settings (actOn n q p s) = settings s := by simp [actOn]

@[simp] theorem settings_actInput (n p s) : settings (actInput n p s) = settings s := by
  unfold actInput
  split
  · rfl
  · split <;> next h => simp [settings_of_eq h]

@[simp] theorem settings_fetchInput (src vc seq s) :
    settings (fetchInput src vc seq s) = settings s := by simp [fetchInput]

@[simp] theorem settings_ownKeys (t s) : settings (ownKeys t s) = settings s := by simp [ownKeys]
@[simp] theorem settings_ownTags (e s) : settings (ownTags e s) = settings s := by simp [ownTags]
/-! A snapshot brings a standby the active's membership table; the anchor role and the routes stay the standby's own. -/

@[simp] theorem settings_fst_takeSnapshot (x s) :
    (settings (takeSnapshot x s)).1 = (settings s).1 := by simp [takeSnapshot, seat_routes_eta]

@[simp] theorem settings_fst_applySnapshot (x s) :
    (settings (applySnapshot x s)).1 = (settings s).1 := by simp [applySnapshot]

@[simp] theorem settings_applyInStep (r s) : settings (applyInStep r s).2 = settings s := by
  unfold applyInStep
  split
  · rfl
  · rfl
  · rfl
  · split <;> simp
  · split <;> simp
  · simp
  · simp
  · simp
  · simp
  · rfl
  · split <;> simp
  · simp
  · simp
  · simp
  · simp
  · simp
  · simp

@[simp] theorem settings_fst_applyInSync (r s) : (settings (applyInSync r s).2).1 = (settings s).1 := by
  unfold applyInSync
  split
  · simp
  · simp
  · simp
  · simp
  · split <;> simp
  · rfl

@[simp] theorem settings_fst_drain (n s) : (settings (drain n s)).1 = (settings s).1 := by
  induction n generalizing s with
  | zero => rfl
  | succ n ih =>
    unfold drain
    split
    · rfl
    · extract_lets t go
      have hgo : (settings go.2).1 = (settings s).1 := by
        simp only [go]
        split <;> simp [t]
      clear_value go
      split <;> simp_all

@[simp] theorem settings_fst_drainAll (s) : (settings (drainAll s)).1 = (settings s).1 := by simp [drainAll]

theorem keepsSeatLegal_terminate {act : Nat → State → State} (n p s)
    (hact : ∀ a t, (settings (act a t)).1 = (settings t).1) :
    KeepsSeatLegal (.next (live s (terminate n p act s))) s :=
  keepsSeatLegal_live (by simp [terminate_keeps Prod.fst n p s hact])

@[simp] theorem execOrder_keepsSeatLegal (n p first recs s) : KeepsSeatLegal (execOrder n p first recs s) s := by
  refine keepsSeatLegal_terminate _ _ _ fun _ t => ?_
  split
  · rfl
  · simp only
    split <;> simp

@[simp] theorem execEmptyOrderRecordTimer_keepsSettings (now s) :
    KeepsSettings (execEmptyOrderRecordTimer now s) s := by simp [execEmptyOrderRecordTimer]

@[simp] theorem execInputfetch_keepsSettings (n p s) : KeepsSettings (execInputfetch n p s) s := by
  refine keepsSettings_live (settings_terminate _ _ _ _ fun _ t => ?_)
  split
  · rfl
  · simp only
    split <;> simp

@[simp] theorem execInputdata_keepsSeatLegal (n p inp via s) : KeepsSeatLegal (execInputdata n p inp via s) s := by
  refine keepsSeatLegal_terminate _ _ _ fun _ t => ?_
  split <;> simp

@[simp] theorem settings_makeSuspect (s) : settings (makeSuspect s) = settings s := by simp [makeSuspect]

@[simp] theorem settings_compareUnit (d own ls peerBad s) :
    settings (compareUnit d own ls peerBad s) = settings s := by
  unfold compareUnit
  simp only
  split
  · simp
  · split
    · simp only [settings_deliverVerified, settings_bump]
      refine (settings_forEach _ _ _ fun l t => ?_).trans (by simp)
      split <;> next h => simp [settings_of_eq h]
    · simp
    · simp

@[simp] theorem execDigest_keepsSettings (n p lines peerBad s) :
    KeepsSettings (execDigest n p lines peerBad s) s := by
  refine keepsSettings_live (settings_terminate _ _ _ _ fun _ t => ?_)
  split
  · rfl
  · simp only
    split <;> simp

@[simp] theorem settings_settleEarly (s) : settings (settleEarly s) = settings s := by
  unfold settleEarly
  apply settings_forEach
  intro d t
  split <;> simp

@[simp] theorem execDigestLate_keepsSettings (now s) :
    KeepsSettings (execDigestLate now s) s := by simp [execDigestLate]

@[simp] theorem execLinerepair_keepsSettings (n p s) :
    KeepsSettings (execLinerepair n p s) s := by simp [execLinerepair]

@[simp] theorem settings_beginCopy (mark s) : settings (beginCopy mark s) = settings s := by simp [beginCopy]

@[simp] theorem execOrderack_keepsSettings (n p s) : KeepsSettings (execOrderack n p s) s := by
  refine keepsSettings_live (settings_terminate _ _ _ _ fun _ t => ?_)
  split
  · rfl
  · simp only
    split
    · simp
    · split <;> simp

@[simp] theorem settings_sendGranule (g s) : settings (sendGranule g s) = settings s := by
  unfold sendGranule
  refine (settings_forEach _ _ _ fun i t => ?_).trans (by simp)
  simp only [settings_sendPair]
  refine settings_foldl_snd _ _ _ fun p j => ?_
  split <;> next h => simp [settings_of_eq h]

@[simp] theorem execResilverGranuleSend_keepsSettings (now s) :
    KeepsSettings (execResilverGranuleSend now s) s := by
  apply keepsSettings_live
  split
  · simp
  · split
    · simp
    · split <;> simp

@[simp] theorem execResilverdata_keepsSeatLegal (n p s) : KeepsSeatLegal (execResilverdata n p s) s := by
  refine keepsSeatLegal_terminate _ _ _ fun _ t => ?_
  simp only
  split
  · rfl
  · split <;> simp

@[simp] theorem execResilverCopyEnd_keepsSettings (now s) :
    KeepsSettings (execResilverCopyEnd now s) s := by simp [execResilverCopyEnd]

@[simp] theorem execResilverstate_keepsSeatLegal (n p x s) : KeepsSeatLegal (execResilverstate n p x s) s := by
  refine keepsSeatLegal_terminate _ _ _ fun _ t => ?_
  split <;> simp

@[simp] theorem settings_yieldActive (s) : settings (yieldActive s) = settings s := by simp [yieldActive]

@[simp] theorem settings_requeueRunning (s) : settings (requeueRunning s) = settings s := by
  unfold requeueRunning
  apply settings_forEach
  intro jid t
  simp only
  split <;> simp

@[simp] theorem settings_fst_applyHeld (n s) : (settings (applyHeld n s)).1 = (settings s).1 := by
  induction n generalizing s with
  | zero => rfl
  | succ n ih =>
    unfold applyHeld
    simp only
    split <;> simp [ih]

@[simp] theorem settings_fst_takeOver (stale s) :
    (settings (takeOver stale s)).1 = (settings s).1 := by simp [takeOver]

@[simp] theorem execInterlockClassify_keepsSettings (pat own now s) :
    KeepsSettings (execInterlockClassify pat own now s) s := by
  apply keepsSettings_live
  split
  · simp
  · split
    · split
      · simp
      · simp
      · simp only
        split <;> simp
    · split
      · simp
      · simp
      · simp only
        split <;> simp

@[simp] theorem execInterlockAbsent_keepsSeatLegal (now s) : KeepsSeatLegal (execInterlockAbsent now s) s := by
  apply keepsSeatLegal_live
  split
  · split <;> simp
  · split <;> simp
  · simp

@[simp] theorem settings_readbackLost (s) : settings (readbackLost s) = settings s := by simp [readbackLost]

@[simp] theorem execOwnReadbackAbsent_keepsSettings (now s) :
    KeepsSettings (execOwnReadbackAbsent now s) s := by simp [execOwnReadbackAbsent]

@[simp] theorem execWaitingHoldoffExpiry_keepsSettings (now s) :
    KeepsSettings (execWaitingHoldoffExpiry now s) s := by simp [execWaitingHoldoffExpiry]

@[simp] theorem settings_flushQueues (s) : settings (flushQueues s) = settings s := by simp [flushQueues]

@[simp] theorem execOutputGateHoldExpiry_keepsSettings (now s) :
    KeepsSettings (execOutputGateHoldExpiry now s) s := by simp [execOutputGateHoldExpiry]

@[simp] theorem execOrderRecordSilence_keepsSeatLegal (now s) : KeepsSeatLegal (execOrderRecordSilence now s) s := by
  apply keepsSeatLegal_live
  split
  · simp
  · split <;> simp

@[simp] theorem execPairEnable_keepsSettings (g0 g1 g2 g3 release bcrAlike serial names side s) :
    KeepsSettings (execPairEnable g0 g1 g2 g3 release bcrAlike serial names side s) s := by simp [execPairEnable]

@[simp] theorem execPairDisable_keepsSettings (s) : KeepsSettings (execPairDisable s) s := by simp [execPairDisable]

@[simp] theorem execPairLead_keepsSeatLegal (now s) : KeepsSeatLegal (execPairLead now s) s := by
  apply keepsSeatLegal_served
  split
  · simp
  · split <;> simp
  · split <;> simp
  · simp

@[simp] theorem execPairResilver_keepsSettings (now s) :
    KeepsSettings (execPairResilver now s) s := by simp [execPairResilver]

/-! Machine/SecOps.lean -/

@[simp] theorem settings_setTenantSt (t st s) :
    settings (setTenantSt t st s) = settings s := by simp [setTenantSt]

@[simp] theorem settings_drawKeys (s) : settings (drawKeys s) = settings s := by simp [drawKeys]

@[simp] theorem settings_dropContentKey (e s) :
    settings (dropContentKey e s) = settings s := by simp [dropContentKey]

@[simp] theorem settings_purgeTransport (t s) :
    settings (purgeTransport t s) = settings s := by simp [purgeTransport]

@[simp] theorem settings_revokeDesc (n d s) : settings (revokeDesc n d s) = settings s := by simp [revokeDesc]

@[simp] theorem settings_revokeGroup (g s) : settings (revokeGroup g s) = settings s := by
  unfold revokeGroup
  refine (settings_forEach _ _ _ fun n t => by simp).trans
    ((settings_forEach _ _ _ fun c t => ?_).trans (by simp))
  split
  · rfl
  · simp

@[simp] theorem settings_revokeWindow (w s) : settings (revokeWindow w s) = settings s := by
  unfold revokeWindow
  simp only
  split <;> simp

@[simp] theorem settings_cutTenant (t s) : settings (cutTenant t s) = settings s := by simp [cutTenant]
@[simp] theorem settings_fst_revokeTenant (t s) : (settings (revokeTenant t s)).1 = (settings s).1 := by
  simp [revokeTenant, seat_routes_eta]

@[simp] theorem settings_beginScrub (t s) : settings (beginScrub t s) = settings s := by
  unfold beginScrub
  refine (settings_forEach _ _ _ fun e t => ?_).trans (by simp)
  split <;> simp

@[simp] theorem settings_endScrub (t s) : settings (endScrub t s) = settings s := by simp [endScrub]

@[simp] theorem settings_asRole (want r f s)
    (hf : ∀ t, settings (f t) = settings t) :
    settings (asRole want r f s) = settings s := by simp [asRole, hf]

theorem legalSeat_asRole {f : State → State} {s} (want r) (h : LegalSeat (settings s).1.1)
    (hf : LegalSeat (settings (f s)).1.1) : LegalSeat (settings (asRole want r f s)).1.1 := by
  unfold asRole
  split
  · exact hf
  · simpa using h

@[simp] theorem settings_endActivation (st region s) :
    settings (endActivation st region s) = settings s := by simp [endActivation]

@[simp] theorem settings_beginActivation (s) : settings (beginActivation s) = settings s := by
  unfold beginActivation
  split
  · rfl
  · split <;> simp

/-! Machine/ResetOps.lean -/

@[simp] theorem settings_saveHours (s) : settings (saveHours s) = settings s := by simp [saveHours]
@[simp] theorem settings_settleSupply (s) : settings (settleSupply s) = settings s := by simp [settleSupply]

@[simp] theorem settings_finishIssuing (jid s) : settings (finishIssuing jid s) = settings s := by
  unfold finishIssuing
  split
  · rfl
  · split <;> simp

@[simp] theorem settings_stopAtReset (jid s) : settings (stopAtReset jid s) = settings s := by
  unfold stopAtReset
  split
  · rfl
  · split
    · simp
    · split <;> simp

@[simp] theorem settings_backToReady (s) : settings (backToReady s) = settings s := by
  unfold backToReady
  apply settings_forEach
  intro c t
  split
  · rfl
  · split
    · simp only
      split <;> simp
    · simp
    · simp
    · rfl

@[simp] theorem settings_carryOut (l n s) : settings (carryOut l n s) = settings s := by
  induction n generalizing s with
  | zero => rfl
  | succ n ih =>
    unfold carryOut
    simp only
    split
    · simp [ih]
    · rfl

@[simp] theorem settings_stopHomes (s) : settings (stopHomes s) = settings s := by simp [stopHomes]

@[simp] theorem settings_rewriteRing (n s) : settings (rewriteRing n s) = settings s := by
  unfold rewriteRing
  simp only
  split <;> simp

@[simp] theorem settings_stopTransport (s) : settings (stopTransport s) = settings s := by simp [stopTransport]
@[simp] theorem settings_stopPorts (s) : settings (stopPorts s) = settings s := by simp [stopPorts]

@[simp] theorem settings_stopPair (memoryKept s) :
    settings (stopPair memoryKept s) = settings s := by simp [stopPair]

@[simp] theorem settings_stopActivation (s) : settings (stopActivation s) = settings s := by simp [stopActivation]
@[simp] theorem settings_stopLinks (s) : settings (stopLinks s) = settings s := by simp [stopLinks]

@[simp] theorem settings_enterSelfRefresh (s) : settings (enterSelfRefresh s) = settings s := by
  unfold enterSelfRefresh
  apply settings_forEach
  intro n t
  split <;> simp

@[simp] theorem settings_quiesce (s) : settings (quiesce s) = settings s := by simp [quiesce]
/-- A cold reset gives the anchor role back to Q0 (R17). -/
theorem seat_coldState (cause s) : (settings (coldState cause s)).1.1 = some 0 := rfl

theorem legalSeat_beginWarm {s} (cause) (h : LegalSeat (settings s).1.1) :
    LegalSeat (settings (beginWarm cause s)).1.1 := by
  unfold beginWarm
  split
  · simpa using h
  · split
    · simp [seat_coldState]
    · simpa using h
  · exact h

theorem legalSeat_beginCold {s} (cause) (h : LegalSeat (settings s).1.1) :
    LegalSeat (settings (beginCold cause s)).1.1 := by
  unfold beginCold
  split
  · exact h
  · exact h
  · simp [seat_coldState]

/-- The anchor role is taken up anew by Q0, or by Q2 where Q0 is fenced (R417). -/
theorem legalSeat_endPositions (s) : LegalSeat (settings (endPositions s)).1.1 := by
  unfold endPositions
  simp only
  rw [settings_forEach _ _ _ settings_poisonLost]
  apply legalSeat_evaluateIslands
  rw [settings_mk]
  split
  · exact legalSeat_zero
  · split
    · exact legalSeat_two
    · exact legalSeat_none

theorem legalSeat_fenceFailed {s} (u) (h : LegalSeat (settings s).1.1) :
    LegalSeat (settings (fenceFailed u s)).1.1 := by
  unfold fenceFailed
  split
  · simpa using h
  · simpa using h
  · simpa using h
  · exact legalSeat_fenceQuadrant _ _ h

@[simp] theorem settings_restartKites (s) : settings (restartKites s) = settings s := by simp [restartKites]
@[simp] theorem settings_timeOutNear (s) : settings (timeOutNear s) = settings s := by simp [timeOutNear]
@[simp] theorem settings_restoreWarm (s) : settings (restoreWarm s) = settings s := by simp [restoreWarm]
theorem legalSeat_release (fails s) : LegalSeat (settings (release fails s)).1.1 := by
  unfold release
  extract_lets cold _ _ s₁ s₂ s₃ s₄ s₅
  have h₄ : LegalSeat (settings s₄).1.1 :=
    forEach_keeps (P := fun u => LegalSeat (settings u).1.1) fails (fun u _ => legalSeat_fenceFailed u)
      (legalSeat_endPositions s₃)
  have h₅ : LegalSeat (settings s₅).1.1 := by
    unfold s₅
    split <;> simpa using h₄
  simpa using h₅

/-! Machine/Observe.lean -/

@[simp] theorem settings_dropPrev (m k s) : settings (dropPrev m k s) = settings s := by simp [dropPrev]

@[simp] theorem settings_clearInstance (f n s) :
    settings (clearInstance f n s) = settings s := by simp [clearInstance]

@[simp] theorem execResetCounters_keepsSettings (r f n who s) :
    KeepsSettings (execResetCounters r f n who s) s := by simp [execResetCounters]

@[simp] theorem execMetricSample_keepsSettings (use now s) :
    KeepsSettings (execMetricSample use now s) s := by simp [execMetricSample]

@[simp] theorem execPeriodEnd_keepsSettings (now s) :
    KeepsSettings (execPeriodEnd now s) s := by simp [execPeriodEnd]

@[simp] theorem execClearRecorder_keepsSettings (r digest now s) :
    KeepsSettings (execClearRecorder r digest now s) s := by simp [execClearRecorder]

@[simp] theorem execClearEraseDone_keepsSettings (now s) :
    KeepsSettings (execClearEraseDone now s) s := by simp [execClearEraseDone]

@[simp] theorem execReadRecorder_keepsSettings (off len s) :
    KeepsSettings (execReadRecorder off len s) s := by simp [execReadRecorder]

@[simp] theorem execRecWindow_keepsSettings (r d on who s) :
    KeepsSettings (execRecWindow r d on who s) s := by simp [execRecWindow]

@[simp] theorem execRecPeriod_keepsSettings (r minutes s) :
    KeepsSettings (execRecPeriod r minutes s) s := by simp [execRecPeriod]

@[simp] theorem execCursorWrite_keepsSettings (d data s) :
    KeepsSettings (execCursorWrite d data s) s := by simp [execCursorWrite]

@[simp] theorem execObsSelect_keepsSettings (r k g q idx confirm s) :
    KeepsSettings (execObsSelect r k g q idx confirm s) s := by simp [execObsSelect]

@[simp] theorem settings_zeroBuffers (s) : settings (zeroBuffers s) = settings s := by simp [zeroBuffers]

@[simp] theorem execFreezeN_keepsSettings (low now s) : KeepsSettings (execFreezeN low now s) s := by
  unfold execFreezeN
  split
  · simp
  · split <;> simp

@[simp] theorem settings_tapSelect (code s) : settings (tapSelect code s) = settings s := by simp [tapSelect]
@[simp] theorem execBypass_keepsSettings (s) : KeepsSettings (execBypass s) s := by simp [execBypass]
@[simp] theorem execIdcode_keepsSettings (s) : KeepsSettings (execIdcode s) s := by simp [execIdcode]

@[simp] theorem execSamplePreload_keepsSettings (s) :
    KeepsSettings (execSamplePreload s) s := by simp [execSamplePreload]

@[simp] theorem execExtest_keepsSettings (s) : KeepsSettings (execExtest s) s := by simp [execExtest]

@[simp] theorem execScanSelect_keepsSettings (q s) :
    KeepsSettings (execScanSelect q s) s := by simp [execScanSelect]

@[simp] theorem execScanDump_keepsSettings (s) : KeepsSettings (execScanDump s) s := by simp [execScanDump]

/-! Machine/Pool.lean -/

@[simp] theorem execAllocateExtent_keepsSettings (e a s) : KeepsSettings (execAllocateExtent e a s) s := by
  apply keepsSettings_served
  iterate 2 (split; · simp)
  split
  · simp
  · next h => simp [settings_allocBlocks h]

@[simp] theorem execExtentZeroFillComplete_keepsSettings (e s) :
    KeepsSettings (execExtentZeroFillComplete e s) s := by
  apply keepsSettings_live
  split <;> simp

@[simp] theorem execExtentWithdrawalDrained_keepsSettings (e s) :
    KeepsSettings (execExtentWithdrawalDrained e s) s := by
  apply keepsSettings_live
  split <;> simp

@[simp] theorem execExtentScrubComplete_keepsSettings (e s) : KeepsSettings (execExtentScrubComplete e s) s := by
  apply keepsSettings_live
  split <;> simp

@[simp] theorem settings_startRelease (e s) : settings (startRelease e s) = settings s := by simp [startRelease]

@[simp] theorem execReleaseExtent_keepsSettings (e forced s) :
    KeepsSettings (execReleaseExtent e forced s) s := by simp [execReleaseExtent]

@[simp] theorem execBalloonGrow_keepsSettings (e n s) : KeepsSettings (execBalloonGrow e n s) s := by
  apply keepsSettings_served
  iterate 2 (split; · simp)
  split
  · simp
  · next h => simp [settings_allocBlocks h]

@[simp] theorem execBalloonShrink_keepsSettings (e n s) :
    KeepsSettings (execBalloonShrink e n s) s := by simp [execBalloonShrink]

@[simp] theorem execRightsChange_keepsSettings (e r ov s) :
    KeepsSettings (execRightsChange e r ov s) s := by simp [execRightsChange]

@[simp] theorem execSetTetherQuota_keepsSettings (t n s) :
    KeepsSettings (execSetTetherQuota t n s) s := by simp [execSetTetherQuota]

@[simp] theorem execSetTetherPeriod_keepsSettings (h ms s) :
    KeepsSettings (execSetTetherPeriod h ms s) s := by simp [execSetTetherPeriod]

@[simp] theorem settings_pmmBeat (d tag s) : settings (pmmBeat d tag s) = settings s := by simp [pmmBeat]
@[simp] theorem execPmmBeat_keepsSettings (d tag s) : KeepsSettings (execPmmBeat d tag s) s := by simp [execPmmBeat]

@[simp] theorem execTetherDeadlineTick_keepsSettings (now s) :
    KeepsSettings (execTetherDeadlineTick now s) s := by simp [execTetherDeadlineTick]

@[simp] theorem execReleaseTether_keepsSettings (h o forced s) :
    KeepsSettings (execReleaseTether h o forced s) s := by simp [execReleaseTether]

@[simp] theorem execCreateKite_keepsSettings (k t sealed keep s) :
    KeepsSettings (execCreateKite k t sealed keep s) s := by simp [execCreateKite]

@[simp] theorem execSetKiteAttribute_keepsSettings (k keep s) :
    KeepsSettings (execSetKiteAttribute k keep s) s := by
  apply keepsSettings_served
  split <;> simp

@[simp] theorem settings_kiteDone (n d st detail r0 r1 s) :
    settings (kiteDone n d st detail r0 r1 s) = settings s := by simp [kiteDone]

@[simp] theorem settings_kiteOp (n k d y s) : settings (kiteOp n k d y s) = settings s := by
  unfold kiteOp
  simp only
  split
  · simp
  · split
    · simp
    · split
      · split
        · simp
        · split <;> next h => simp [settings_of_eq h]
      · split
        · split <;> next h => simp [settings_of_eq h]
        · simp
  · split <;> simp
  · split <;> simp

@[simp] theorem settings_runKite (op n slot s) : settings (runKite op n slot s) = settings s := by
  unfold runKite
  split
  · rfl
  · split
    · rfl
    · split
      · simp
      · simp only
        split
        · simp
        · split
          · simp
          · split
            · simp
            · split <;> simp

@[simp] theorem settings_kiteDrain (n n' s) : settings (kiteDrain n n' s) = settings s := by
  induction n generalizing s with
  | zero => rfl
  | succ n ih =>
    unfold kiteDrain
    split
    · rfl
    · split
      · simp only
        split <;> simp [ih]
      · rfl

@[simp] theorem execKitePublish_keepsSettings (n slot s) :
    KeepsSettings (execKitePublish n slot s) s := by simp [execKitePublish]

@[simp] theorem execKitePublishDrained_keepsSettings (k s) : KeepsSettings (execKitePublishDrained k s) s := by
  apply keepsSettings_live
  split
  · rfl
  · split
    · rfl
    · split
      · simp only
        split
        · rfl
        · split
          · simp
          · split <;> split <;> simp
      · simp only
        split
        · rfl
        · split
          · simp
          · split <;> split <;> simp

@[simp] theorem execKiteAttach_keepsSettings (n slot s) :
    KeepsSettings (execKiteAttach n slot s) s := by simp [execKiteAttach]

@[simp] theorem execKiteDetach_keepsSettings (n slot s) :
    KeepsSettings (execKiteDetach n slot s) s := by simp [execKiteDetach]

@[simp] theorem execKiteReclaim_keepsSettings (n slot s) :
    KeepsSettings (execKiteReclaim n slot s) s := by simp [execKiteReclaim]

/-! Machine/Power.lean -/

@[simp] theorem execVfStep_keepsSettings (q now s) : KeepsSettings (execVfStep q now s) s := by simp [execVfStep]

@[simp] theorem execEnergyBucketTick_keepsSettings (q uj now s) :
    KeepsSettings (execEnergyBucketTick q uj now s) s := by simp [execEnergyBucketTick]

@[simp] theorem execClassOverrunWindow_keepsSettings (q now s) :
    KeepsSettings (execClassOverrunWindow q now s) s := by
  apply keepsSettings_live
  refine (settings_forEach _ _ _ fun n t => ?_).trans (by simp)
  simp only
  split <;> simp

@[simp] theorem settings_beginEmergency (q kind s) :
    settings (beginEmergency q kind s) = settings s := by simp [beginEmergency]

@[simp] theorem settings_sampleTj (q s) : settings (sampleTj q s) = settings s := by simp [sampleTj]
@[simp] theorem settings_sampleRail (q s) : settings (sampleRail q s) = settings s := by simp [sampleRail]

@[simp] theorem settings_settleThrottle (q s) :
    settings (settleThrottle q s) = settings s := by simp [settleThrottle]

@[simp] theorem execSensorSample_keepsSettings (q tj railW now s) :
    KeepsSettings (execSensorSample q tj railW now s) s := by simp [execSensorSample]

@[simp] theorem execThrottleStepTimer_keepsSettings (q now s) :
    KeepsSettings (execThrottleStepTimer q now s) s := by simp [execThrottleStepTimer]

@[simp] theorem execRailEmergency_keepsSettings (q now s) : KeepsSettings (execRailEmergency q now s) s := by
  apply keepsSettings_live
  split <;> simp

@[simp] theorem execPwrAlertN_keepsSettings (low now s) : KeepsSettings (execPwrAlertN low now s) s := by
  apply keepsSettings_live
  split
  · simp
  · split <;> simp

@[simp] theorem execEmergencyClear_keepsSettings (q kind now s) :
    KeepsSettings (execEmergencyClear q kind now s) s := by simp [execEmergencyClear]

@[simp] theorem execOpCapRaise_keepsSettings (q now s) : KeepsSettings (execOpCapRaise q now s) s := by
  apply keepsSettings_live
  split <;> simp

@[simp] theorem execSetOpReq_keepsSettings (q k s) : KeepsSettings (execSetOpReq q k s) s := by simp [execSetOpReq]

@[simp] theorem execSetBudget_keepsSettings (q w mj s) :
    KeepsSettings (execSetBudget q w mj s) s := by simp [execSetBudget]

/-! Machine/Security.lean -/

@[simp] theorem execGetEvidence_keepsSettings (nonce e now s) :
    KeepsSettings (execGetEvidence nonce e now s) s := by
  apply keepsSettings_served
  split
  · simp
  · split <;> simp

@[simp] theorem execReleaseKeyExpiry_keepsSettings (e now s) :
    KeepsSettings (execReleaseKeyExpiry e now s) s := by simp [execReleaseKeyExpiry]

@[simp] theorem execReleaseKey_keepsSettings (r b now s) : KeepsSettings (execReleaseKey r b now s) s := by
  refine keepsSettings_served ((settings_asRole _ _ _ _ fun t => ?_).trans (by simp))
  simp only
  split <;> simp

@[simp] theorem settings_writePage (e j b s) : settings (writePage e j b s) = settings s := by simp [writePage]

@[simp] theorem settings_loadPages (e pva n key n' n'' s) :
    settings (loadPages e pva n key n' n'' s).2 = settings s := by
  induction n' generalizing n'' s with
  | zero => rfl
  | succ n' ih =>
    unfold loadPages
    simp only
    split
    · next h =>
      split
      · next h' => split <;> simp [ih, settings_of_eq h', settings_of_eq h]
      · next h' => simp [settings_of_eq h', settings_of_eq h]
      · next h' => simp [settings_of_eq h', settings_of_eq h]
    · next h => simp [settings_of_eq h]
    · next h => simp [settings_of_eq h]

@[simp] theorem execLoadSealed_keepsSettings (r e pva n s) : KeepsSettings (execLoadSealed r e pva n s) s := by
  refine keepsSettings_served (settings_asRole _ _ _ _ fun t => ?_)
  simp only
  split
  · split
    · simp
    · split <;> next h => simp [settings_of_eq h]
  · simp

@[simp] theorem execLoadComplete_keepsSettings (e s) :
    KeepsSettings (execLoadComplete e s) s := by simp [execLoadComplete]

@[simp] theorem execCreateTenant_keepsSettings (t memoryOnly now s) :
    KeepsSettings (execCreateTenant t memoryOnly now s) s := by simp [execCreateTenant]

@[simp] theorem execRekeyTenant_keepsSettings (t now s) :
    KeepsSettings (execRekeyTenant t now s) s := by simp [execRekeyTenant]

@[simp] theorem execRekeySweepGranule_keepsSettings (e s) :
    KeepsSettings (execRekeySweepGranule e s) s := by simp [execRekeySweepGranule]

@[simp] theorem settings_endSweep (e s) : settings (endSweep e s) = settings s := by simp [endSweep]

@[simp] theorem execRekeySweepComplete_keepsSettings (t now s) :
    KeepsSettings (execRekeySweepComplete t now s) s := by simp [execRekeySweepComplete]

@[simp] theorem execRevokedSlotEmpty_keepsSettings (t s) :
    KeepsSettings (execRevokedSlotEmpty t s) s := by simp [execRevokedSlotEmpty]

@[simp] theorem execRemoveTenant_keepsSeatLegal (t now s) : KeepsSeatLegal (execRemoveTenant t now s) s := by
  apply keepsSeatLegal_served
  split <;> simp

@[simp] theorem execOutstandingCountersZero_keepsSettings (t now s) :
    KeepsSettings (execOutstandingCountersZero t now s) s := by simp [execOutstandingCountersZero]

@[simp] theorem settings_fenceBlock (t k i s) : settings (fenceBlock t k i s) = settings s := by
  unfold fenceBlock
  split <;> simp

@[simp] theorem execDrainAlertExpiry_keepsSettings (t now s) :
    KeepsSettings (execDrainAlertExpiry t now s) s := by simp [execDrainAlertExpiry]

@[simp] theorem execTenantScrubComplete_keepsSettings (t now s) :
    KeepsSettings (execTenantScrubComplete t now s) s := by simp [execTenantScrubComplete]

@[simp] theorem settings_setSession (k x s) : settings (setSession k x s) = settings s := by simp [setSession]

@[simp] theorem execTlsConnect_keepsSettings (p k profileOk roles digest whole now s) :
    KeepsSettings (execTlsConnect p k profileOk roles digest whole now s) s := by
  unfold execTlsConnect
  extract_lets s₁ refused begun n s₂
  have h₂ : settings s₂ = settings s := by simp [s₂, s₁]
  have hr (t : State) : settings (refused t) = settings t := by simp [refused]
  apply keepsSettings_live
  split
  · simp [s₁]
  · split
    · rw [hr, h₂]
    · split
      · simp [h₂]
      · split
        · split
          · simp [h₂]
          · rw [hr, h₂]
        · rw [hr, h₂]

@[simp] theorem execTlsHandshakeTimeout_keepsSettings (k now s) :
    KeepsSettings (execTlsHandshakeTimeout k now s) s := by
  apply keepsSettings_live
  split <;> simp

@[simp] theorem execTlsIdleTimeout_keepsSettings (k last now s) :
    KeepsSettings (execTlsIdleTimeout k last now s) s := by
  apply keepsSettings_live
  split <;> simp

@[simp] theorem execFirmwareTransfer_keepsSettings (r level digest signer target sig now s) :
    KeepsSettings (execFirmwareTransfer r level digest signer target sig now s) s := by simp [execFirmwareTransfer]

@[simp] theorem execActivationRequest_keepsSettings (r now s) :
    KeepsSettings (execActivationRequest r now s) s := by
  refine keepsSettings_served ((settings_asRole _ _ _ _ fun t => ?_).trans (by simp))
  split
  · simp
  · split <;> simp

@[simp] theorem execDeferralTick_keepsSettings (now s) :
    KeepsSettings (execDeferralTick now s) s := by simp [execDeferralTick]

@[simp] theorem execDeferralExpiry_keepsSettings (now s) :
    KeepsSettings (execDeferralExpiry now s) s := by simp [execDeferralExpiry]

@[simp] theorem execFirmwareActivate_keepsSettings (selfOk now s) :
    KeepsSettings (execFirmwareActivate selfOk now s) s := by
  apply keepsSettings_live
  split
  · simp
  · split <;> simp

@[simp] theorem execInstallBcr_keepsSettings (r b signer s) :
    KeepsSettings (execInstallBcr r b signer s) s := by simp [execInstallBcr]

@[simp] theorem execAuthoriseRollback_keepsSettings (r level now s) :
    KeepsSettings (execAuthoriseRollback r level now s) s := by simp [execAuthoriseRollback]

/-! Machine/Stacks.lean -/

@[simp] theorem execStackRefresh_keepsSettings (pc bank now s) :
    KeepsSettings (execStackRefresh pc bank now s) s := by simp [execStackRefresh]

@[simp] theorem execStackTempRead_keepsSettings (n tempC s) :
    KeepsSettings (execStackTempRead n tempC s) s := by simp [execStackTempRead]

@[simp] theorem settings_setChan (c x s) : settings (setChan c x s) = settings s := by simp [setChan]

@[simp] theorem execParityAlert_keepsSettings (c i now s) :
    KeepsSettings (execParityAlert c i now s) s := by simp [execParityAlert]

@[simp] theorem settings_chanErr (kind pc s) : settings (chanErr kind pc s) = settings s := by simp [chanErr]
@[simp] theorem settings_precharge (c s) : settings (precharge c s) = settings s := by simp [precharge]
@[simp] theorem settings_replay (x s) : settings (replay x s) = settings s := by simp [replay]

@[simp] theorem execParityAlertClear_keepsSettings (c now s) :
    KeepsSettings (execParityAlertClear c now s) s := by simp [execParityAlertClear]

@[simp] theorem settings_scrubLine (l src s) : settings (scrubLine l src s) = settings s := by simp [scrubLine]

@[simp] theorem settings_takeDamage (l errs stray s) :
    settings (takeDamage l errs stray s) = settings s := by simp [takeDamage]

@[simp] theorem execPatrolScrubRead_keepsSettings (r s) :
    KeepsSettings (execPatrolScrubRead r s) s := by simp [execPatrolScrubRead]

@[simp] theorem execPatrolPeriodEnd_keepsSettings (now s) :
    KeepsSettings (execPatrolPeriodEnd now s) s := by simp [execPatrolPeriodEnd]

@[simp] theorem settings_setMig (k m s) : settings (setMig k m s) = settings s := by simp [setMig]
@[simp] theorem settings_setStackSt (n st s) : settings (setStackSt n st s) = settings s := by simp [setStackSt]

theorem settings_tryRetire {n s t} (h : tryRetire n s = some t) : settings t = settings s := by
  unfold tryRetire at h
  split at h
  · cases h; simp
  · cases h

@[simp] theorem execRetireStack_keepsSettings (n byFm s) : KeepsSettings (execRetireStack n byFm s) s := by
  apply keepsSettings_live
  iterate 3 (split; · simp)
  simp only
  split
  · next h => simp [settings_tryRetire h]
  · simp

@[simp] theorem execStackFailure_keepsSettings (n pcs s) : KeepsSettings (execStackFailure n pcs s) s := by
  apply keepsSettings_live
  split <;> simp

@[simp] theorem execRetirementStart_keepsSettings (n s) : KeepsSettings (execRetirementStart n s) s := by
  have retire : settings ((tryRetire n.val s).getD s) = settings s := by
    cases h : tryRetire n.val s with
    | none => rfl
    | some t => exact settings_tryRetire h
  apply keepsSettings_live
  split
  · exact retire
  · exact retire
  · rfl

@[simp] theorem settings_migrateLine (l s) : settings (migrateLine l s) = settings s := by simp [migrateLine]
@[simp] theorem settings_retireDone (k s) : settings (retireDone k s) = settings s := by simp [retireDone]

@[simp] theorem execMigrationGranule_keepsSettings (k b i g s) :
    KeepsSettings (execMigrationGranule k b i g s) s := by simp [execMigrationGranule]

@[simp] theorem execReinterleave_keepsSettings (e pl g s) : KeepsSettings (execReinterleave e pl g s) s := by
  apply keepsSettings_served
  iterate 2 (split; · simp)
  split
  · simp
  · next h => simp [settings_allocBlocks h]

@[simp] theorem settings_copyLine (l t s) : settings (copyLine l t s) = settings s := by simp [copyLine]

@[simp] theorem execReinterleaveGranule_keepsSettings (s) :
    KeepsSettings (execReinterleaveGranule s) s := by simp [execReinterleaveGranule]

@[simp] theorem execReinterleaveSwitch_keepsSettings (root now s) :
    KeepsSettings (execReinterleaveSwitch root now s) s := by simp [execReinterleaveSwitch]

@[simp] theorem execDirectoryHandover_keepsSettings (l s) :
    KeepsSettings (execDirectoryHandover l s) s := by simp [execDirectoryHandover]

@[simp] theorem execReinterleaveComplete_keepsSettings (s) :
    KeepsSettings (execReinterleaveComplete s) s := by simp [execReinterleaveComplete]

@[simp] theorem execSetMemCtrl_keepsSettings (patrolHours actThreshold ceRemap migratePct s) :
    KeepsSettings (execSetMemCtrl patrolHours actThreshold ceRemap migratePct s) s := by simp [execSetMemCtrl]

@[simp] theorem execErrTailWrite_keepsSettings (data s) :
    KeepsSettings (execErrTailWrite data s) s := by simp [execErrTailWrite]

@[simp] theorem execStackTrainingDone_keepsSettings (codes s) :
    KeepsSettings (execStackTrainingDone codes s) s := by simp [execStackTrainingDone]

@[simp] theorem execPowerOnFillDone_keepsSettings (s) :
    KeepsSettings (execPowerOnFillDone s) s := by simp [execPowerOnFillDone]

/-! Machine/Xlt.lean -/

@[simp] theorem execWalkResult_keepsSettings (q t pva who port admitted acc ents s) :
    KeepsSettings (execWalkResult q t pva who port admitted acc ents s) s := by
  apply keepsSettings_live
  split
  · rfl
  · simp
  · split
    · simp only
      split <;> simp
    · simp only
      split <;> simp

@[simp] theorem execInvalidation_keepsSettings (q t lo hi now s) :
    KeepsSettings (execInvalidation q t lo hi now s) s := by simp [execInvalidation]

@[simp] theorem settings_switchDone (t s) : settings (switchDone t s) = settings s := by simp [switchDone]
@[simp] theorem settings_reportInval (q v s) : settings (reportInval q v s) = settings s := by simp [reportInval]

@[simp] theorem execInvalidationComplete_keepsSettings (q t lo hi s) :
    KeepsSettings (execInvalidationComplete q t lo hi s) s := by
  apply keepsSettings_live
  split <;> simp

@[simp] theorem settings_boundOwner (o ext s) : settings (boundOwner o ext s) = settings s := by
  unfold boundOwner
  simp only
  split
  · simp
  · split <;> simp

@[simp] theorem settings_cancelBeat (l r s) : settings (cancelBeat l r s) = settings s := by simp [cancelBeat]
@[simp] theorem settings_cancelAll (late s) : settings (cancelAll late s).2 = settings s := by simp [cancelAll]

@[simp] theorem execDrainBoundExpiry_keepsSettings (q t lo hi now s) :
    KeepsSettings (execDrainBoundExpiry q t lo hi now s) s := by
  apply keepsSettings_live
  split <;> simp

@[simp] theorem execTableSwitch_keepsSettings (t root now s) :
    KeepsSettings (execTableSwitch t root now s) s := by simp [execTableSwitch]

@[simp] theorem settings_dmaFault (q n va write r s) :
    settings (dmaFault q n va write r s) = settings s := by simp [dmaFault]

@[simp] theorem execAtsTranslationCompletion_keepsSettings (d pasid page size hpa granted n s) :
    KeepsSettings (execAtsTranslationCompletion d pasid page size hpa granted n s) s := by
  simp [execAtsTranslationCompletion]

@[simp] theorem execAtsInvalidateRequest_keepsSettings (d pasid page size itag now s) :
    KeepsSettings (execAtsInvalidateRequest d pasid page size itag now s) s := by simp [execAtsInvalidateRequest]

@[simp] theorem settings_finishAts (q v s) : settings (finishAts q v s) = settings s := by simp [finishAts]

@[simp] theorem execAtsInvalidateComplete_keepsSettings (d itag s) :
    KeepsSettings (execAtsInvalidateComplete d itag s) s := by
  apply keepsSettings_live
  split <;> simp

@[simp] theorem execAtsInvalBoundExpiry_keepsSettings (d itag now s) :
    KeepsSettings (execAtsInvalBoundExpiry d itag now s) s := by
  apply keepsSettings_live
  split <;> simp

@[simp] theorem execFaultTailWrite_keepsSettings (q data s) :
    KeepsSettings (execFaultTailWrite q data s) s := by simp [execFaultTailWrite]

/-! Machine/Registers.lean -/

@[simp] theorem execSetPriv_keepsSettings (d on s) : KeepsSettings (execSetPriv d on s) s := by simp [execSetPriv]

@[simp] theorem settings_writeQueue (n w v s) : settings (writeQueue n w v s) = settings s := by
  unfold writeQueue
  split <;> simp

@[simp] theorem settings_writeWindow (w i v s) : settings (writeWindow w i v s) = settings s := by
  unfold writeWindow
  split <;> split <;> simp

@[simp] theorem settings_writeObj (o i v s) : settings (writeObj o i v s) = settings s := by
  unfold writeObj
  split <;> split <;> simp

@[simp] theorem settings_writeColl (w i v s) : settings (writeColl w i v s) = settings s := by simp [writeColl]
@[simp] theorem settings_writeQuad (q o v s) : settings (writeQuad q o v s) = settings s := by simp [writeQuad]
@[simp] theorem settings_writeErrCtrl (v s) : settings (writeErrCtrl v s) = settings s := by simp [writeErrCtrl]
@[simp] theorem settings_writeMapErr (d v s) : settings (writeMapErr d v s) = settings s := by simp [writeMapErr]

@[simp] theorem settings_writeReg (d o v s) : settings (writeReg d o v s) = settings s := by
  unfold writeReg
  split
  · simp
  · split
    · simp
    · split
      · simp
      · split
        · simp
        · split
          · simp
          · split <;> simp

@[simp] theorem settings_viewOpen (o raw s) : settings (viewOpen o raw s).2 = settings s := by simp [viewOpen]

@[simp] theorem settings_bar0Word (a o s) : settings (bar0Word a o s).2 = settings s := by
  unfold bar0Word
  split
  · simp
  · split
    · rfl
    · split
      · simp
      · simp only
        split <;> rfl

@[simp] theorem settings_flagBad (a write off s) :
    settings (flagBad a write off s) = settings s := by simp [flagBad]

@[simp] theorem settings_readBar0 (a off s) : settings (readBar0 a off s) = settings s := by simp [readBar0]

@[simp] theorem settings_writeBar0 (a off v s) : settings (writeBar0 a off v s) = settings s := by
  unfold writeBar0
  split
  · simp
  · split
    · simp
    · split
      · simp
      · simp only
        split
        · rfl
        · split
          · rfl
          · split
            · simp
            · split <;> simp

@[simp] theorem settings_writeBar2 (a off v s) :
    settings (writeBar2 a off v s) = settings s := by simp [writeBar2]

@[simp] theorem settings_readBar4 (a off s) : settings (readBar4 a off s) = settings s := by simp [readBar4]

@[simp] theorem settings_writeBar4 (a off v s) :
    settings (writeBar4 a off v s) = settings s := by simp [writeBar4]

@[simp] theorem settings_writeBi (a v s) : settings (writeBi a v s) = settings s := by simp [writeBi]

@[simp] theorem settings_regRead (a s) : settings (regRead a s) = settings s := by
  unfold regRead
  split <;> simp

@[simp] theorem settings_regWrite (a v s) : settings (regWrite a v s) = settings s := by
  unfold regWrite
  split <;> simp

@[simp] theorem execRegisterWrite_keepsSettings (a s) : KeepsSettings (execRegisterWrite a s) s := by
  apply keepsSettings_live
  split
  · rfl
  · split
    · simp
    · split <;> simp

/-! Machine/Reset.lean -/

@[simp] theorem settings_setQclock (q x s) : settings (setQclock q x s) = settings s := by simp [setQclock]
@[simp] theorem execPllLock_keepsSettings (q now s) : KeepsSettings (execPllLock q now s) s := by simp [execPllLock]

@[simp] theorem execPllLockLoss_keepsSeatLegal (q now s) : KeepsSeatLegal (execPllLockLoss q now s) s :=
  keepsSeatLegal_live fun h => legalSeat_fenceQuadrant _ _ (by simpa using h)

@[simp] theorem execRefclkLoss_keepsSeatLegal (now s) : KeepsSeatLegal (execRefclkLoss now s) s :=
  keepsSeatLegal_live (by simp [seat_selfFence])

@[simp] theorem execDividerStep_keepsSettings (q now s) :
    KeepsSettings (execDividerStep q now s) s := by simp [execDividerStep]

@[simp] theorem execGateCloseRequest_keepsSettings (q g idle s) :
    KeepsSettings (execGateCloseRequest q g idle s) s := by simp [execGateCloseRequest]

@[simp] theorem execGateOpen_keepsSettings (q g s) : KeepsSettings (execGateOpen q g s) s := by simp [execGateOpen]

@[simp] theorem execAonOscillatorStable_keepsSettings (s) :
    KeepsSettings (execAonOscillatorStable s) s := by simp [execAonOscillatorStable]

@[simp] theorem execAonOscillatorTimeout_keepsSettings (s) : KeepsSettings (execAonOscillatorTimeout s) s := by
  unfold execAonOscillatorTimeout
  split <;> simp

@[simp] theorem execAonClkLost_keepsSettings (now s) :
    KeepsSettings (execAonClkLost now s) s := by simp [execAonClkLost]

@[simp] theorem execOperatingHourTick_keepsSettings (s) :
    KeepsSettings (execOperatingHourTick s) s := by simp [execOperatingHourTick]

@[simp] theorem settings_losePeriod (s) : settings (losePeriod s) = settings s := by simp [losePeriod]

@[simp] theorem execOverTemperatureTrip_keepsSettings (now s) :
    KeepsSettings (execOverTemperatureTrip now s) s := by
  unfold execOverTemperatureTrip
  split <;> simp

@[simp] theorem settings_resumeTime (ticks s) : settings (resumeTime ticks s) = settings s := by simp [resumeTime]
theorem legalSeat_startWake {s} (ticks) (h : LegalSeat (settings s).1.1) :
    LegalSeat (settings (startWake ticks s)).1.1 := by
  unfold startWake
  split
  · exact legalSeat_zero
  · simpa using h

theorem legalSeat_beginWake {s} (cause ticks) (h : LegalSeat (settings s).1.1) :
    LegalSeat (settings (beginWake cause ticks s)).1.1 := by
  unfold beginWake
  split
  · exact h
  · simp only
    split
    · simpa using h
    · exact legalSeat_startWake _ (by simpa using h)

@[simp] theorem execSupplyLoss_keepsSeatLegal (rail now s) : KeepsSeatLegal (execSupplyLoss rail now s) s := by
  unfold execSupplyLoss
  extract_lets s₁ r _ s₂ _ s₃ _ s₄ _
  rw [keepsSeatLegal_next]
  intro h
  have h₃ : LegalSeat (settings s₃).1.1 := by
    unfold s₃
    split <;> simpa [s₂, s₁] using h
  clear_value s₃ r
  match r with
  | 0 =>
    simp only
    split
    · exact h₃
    · exact h₃
    · exact h₃
    · exact legalSeat_zero
  | 1 =>
    simp only
    split
    · exact h₃
    · exact legalSeat_beginCold _ h₃
  | 4 => exact legalSeat_zero
  | 2 | 3 | _ + 5 => exact h₃

@[simp] theorem execSupplyReturn_keepsSeatLegal (rail ticks s) :
    KeepsSeatLegal (execSupplyReturn rail ticks s) s := by
  unfold execSupplyReturn
  extract_lets r was _ s₁ _ s₂
  rw [keepsSeatLegal_next]
  intro h
  have h₂ : LegalSeat (settings s₂).1.1 := by
    unfold s₂
    split <;> simpa [s₁] using h
  clear_value s₂
  split
  · exact h
  · split
    · split
      · exact h₂
      · exact legalSeat_startWake _ h₂
    · split
      · split
        · exact legalSeat_beginWake _ _ h₂
        · exact legalSeat_zero
        · exact h₂
        · exact legalSeat_zero
      · exact h₂

@[simp] theorem execWakeN_keepsSeatLegal (low ticks s) : KeepsSeatLegal (execWakeN low ticks s) s := by
  unfold execWakeN
  rw [keepsSeatLegal_next]
  simp only
  split
  · exact fun h => legalSeat_beginWake _ _ (by simpa using h)
  · simp

@[simp] theorem execColdReset_keepsSeatLegal (cause now s) : KeepsSeatLegal (execColdReset cause now s) s :=
  (keepsSeatLegal_next _ _).mpr fun h => legalSeat_beginCold _ (by simpa using h)

@[simp] theorem execResetCold_keepsSeatLegal (r now s) : KeepsSeatLegal (execResetCold r now s) s := by
  unfold execResetCold
  rw [keepsSeatLegal_next]
  intro h
  split
  · exact h
  · rw [settings_managed]
    split
    · exact legalSeat_asRole _ _ (by simpa using h) (legalSeat_beginCold _ (by simpa using h))
    · simpa using h

@[simp] theorem execWarmReset_keepsSeatLegal (selfFenced now s) : KeepsSeatLegal (execWarmReset selfFenced now s) s :=
  keepsSeatLegal_live fun h => legalSeat_beginWarm _ (by simpa using h)

@[simp] theorem execResetWarm_keepsSeatLegal (r now s) : KeepsSeatLegal (execResetWarm r now s) s :=
  keepsSeatLegal_served fun h => legalSeat_asRole _ _ (by simpa using h) (legalSeat_beginWarm _ (by simpa using h))

@[simp] theorem execDeviceWatchdogRefresh_keepsSettings (now s) :
    KeepsSettings (execDeviceWatchdogRefresh now s) s := by simp [execDeviceWatchdogRefresh]

@[simp] theorem execDeviceWatchdogExpiry_keepsSeatLegal (now s) :
    KeepsSeatLegal (execDeviceWatchdogExpiry now s) s := by
  apply keepsSeatLegal_live
  split
  · exact fun h => legalSeat_beginWarm _ (by simpa using h)
  · simp

@[simp] theorem execResetRelease_keepsSettings (ticks s) :
    KeepsSettings (execResetRelease ticks s) s := by simp [execResetRelease]

@[simp] theorem settings_applyBcr (b s) : settings (applyBcr b s) = settings s := by simp [applyBcr]

@[simp] theorem settings_bootRelease (s n) : settings (bootRelease s n) = settings s := by
  unfold bootRelease
  split <;> simp

@[simp] theorem execBootFlashRead_keepsSettings (okA okB okBcr a b bcr identityOk now s) :
    KeepsSettings (execBootFlashRead okA okB okBcr a b bcr identityOk now s) s := by
  apply keepsSettings_live
  split
  · simp
  · split
    · simp only
      split <;> simp
    · simp only
      split <;> simp

@[simp] theorem execDeviceRelease_keepsSeatLegal (fails now s) : KeepsSeatLegal (execDeviceRelease fails now s) s := by
  apply keepsSeatLegal_live
  split
  · exact fun _ => legalSeat_release _ _
  · simp

@[simp] theorem execEnterDormant_keepsSettings (r now s) :
    KeepsSettings (execEnterDormant r now s) s := by simp [execEnterDormant]

@[simp] theorem execFaPresenceChange_keepsSettings (e mated s) :
    KeepsSettings (execFaPresenceChange e mated s) s := by simp [execFaPresenceChange]

@[simp] theorem execAvsTimeout_keepsSeatLegal (q now s) : KeepsSeatLegal (execAvsTimeout q now s) s :=
  keepsSeatLegal_live fun h => legalSeat_fenceQuadrant _ _ (by simpa using h)


/-! Every command, and a step. -/

/-- Each arm of `exec` is one command, and the lemma of that command closes it. -/
theorem exec_keepsSeatLegal (c : Instr) (s : State) : KeepsSeatLegal (exec c s) s := by
  cases c <;> simp [exec]

/-- Settles O42: the lemma of each command, over the cases of the queue. -/
theorem everyStepKeepsAnchorLegal : Obligations.EveryStepKeepsAnchorLegal := by
  unfold Obligations.EveryStepKeepsAnchorLegal
  intro s t hs ht
  rw [anchorLegal_iff] at hs ⊢
  unfold step at ht
  split at ht
  · cases ht
    exact hs
  · exact exec_keepsSeatLegal _ _ t ht hs

end Sys2Proof.Machine
end

section
/-! SUPPORT. The state after a cold reset (O40). -/

namespace Sys2Proof.Machine

open Sys2Proof.Safety

theorem cntGet_reset (f n i : Nat) : cntGet State.reset f n i = 0 := rfl

/-- Every table but the block map is empty after a reset, so that each lookup gives its default. -/
theorem lookups_reset :
    (∀ h, (lease State.reset h).periodMs = 2000) ∧ (∀ n, (port State.reset n).st = .disabled) ∧
    (∀ n, (group State.reset n).st = .unbound) ∧ (∀ n, (queue State.reset n).st = .disabled) ∧
    ∀ d, (logDev State.reset d).bound = false :=
  ⟨fun _ => rfl, fun _ => rfl, fun _ => rfl, fun _ => rfl, fun _ => rfl⟩

/-- The transport controls act at their reset values (Table 12.9). -/
theorem transportControls_reset (q : Nat) :
    resendUs State.reset q = 50 ∧ resendLimitUs State.reset q = 500 ∧ reasmUs State.reset q = 20 :=
  ⟨rfl, rfl, rfl⟩

/-- Settles O40: the scalar fields by evaluation, the tables by the lemmas above. -/
theorem resetState : Obligations.ResetState := by
  unfold Obligations.ResetState
  obtain ⟨hlease, hport, hgroup, hqueue, hdev⟩ := lookups_reset
  exact ⟨rfl, rfl, rfl, rfl, rfl, rfl, rfl, rfl, cntGet_reset, hlease, hport, hgroup, hqueue, hdev,
    transportControls_reset, rfl, .inr (.inl rfl), .inr (.inr rfl)⟩

end Sys2Proof.Machine
end

section
/-! SUPPORT. Fence commands: FENCE_QUADRANT need not count once (O30).

The key of a counter is `(row * 64 + unit) * 65536 + index`, so that unit 192 of row 8 (the CXL ports) is unit 0 of row 11
(the fences). A read that CXL logical device `d` waits for counts, when it is answered with poison, in unit `d / 16` of
row 8, index 2; and index 2 of row 11 counts fenced quadrants. A fence of a quadrant answers the reads that wait at its
home with poison (R412, Table 16.2), so where such a read belongs to device 3072 the counter of fenced quadrants rises
twice. The states of O30 are not confined to devices below 64, the number the device has. -/

namespace Sys2Proof.Machine

open Sys2Proof.Safety

/-- The state after a cold reset, with a read of CXL logical device 3072 under way at line 0, whose home is Q0. -/
def strayReader : State :=
  { State.reset with dir := {
      lines := [(0, { cur := some { kind := .rdOnce, who := .ld 3072, tenant := 0, pva := 0, entryQ := 0 } })]
      pends := [(0, some { reply := .cxl 3072 0, kind := .rdOnce, left := 1 })] } }

theorem exec_fenceQuadrant_command (q now s) : exec (.fenceQuadrant q 4 now) s =
    .next (served s (fmDone .ok [] (fenceQuadrant q.val 4 (advance now s)))) := rfl

theorem managed_strayReader : Managed strayReader := by decide

theorem cntKey_cxl_eq_cntKey_fen : cntKey cCxl (3072 / 16) 2 = cntKey cFen 0 2 := rfl

/-- The fence counts itself, and its answer to the stray reader counts in the same place. -/
theorem cntGet_fenceQuadrant_strayReader :
    cntGet (served strayReader (fmDone .ok [] (fenceQuadrant 0 4 (advance 0 strayReader)))) cFen 0 2 = 2 := by
  decide +kernel

/-- Refutes O30: the clause of FENCE_QUADRANT, in the state `strayReader`, where the counter of fenced quadrants goes
from 0 to 2. -/
theorem not_fenceCommandsComplete : ¬ Obligations.FenceCommandsComplete := by
  unfold Obligations.FenceCommandsComplete
  rintro ⟨-, -, -, -, -, -, -, -, -, hquadrant, -⟩
  obtain ⟨t, ht, -, -, -, -, -, -, -, hcount⟩ := hquadrant 0 0 strayReader managed_strayReader rfl
  rw [exec_fenceQuadrant_command] at ht
  injection ht with ht
  subst ht
  exact absurd (cntGet_fenceQuadrant_strayReader.symm.trans hcount) (by decide)

end Sys2Proof.Machine
end

section
/-! SUPPORT. The membership table changes only by the commands that may write it (O45).

A command that keeps `settings` keeps the table. The others of `mayWriteMembers c = false` write the anchor role or the
routes; for them a lemma about the operation that does says that the table is as it was. -/

namespace Sys2Proof.Machine

open Sys2Proof.Safety (mayWriteMembers)

/-- A command's answer, when it is a next state, has the membership table of `s`. -/
def KeepsMembers (a : Ans) (s : State) : Prop := ∀ t, a = .next t → (settings t).2 = (settings s).2

@[simp] theorem keepsMembers_of_keepsSettings {a : Ans} {s : State} (h : KeepsSettings a s) : KeepsMembers a s :=
  fun t ht => by rw [h t ht]

theorem members_eq_settings_snd (s : State) : s.pool.members = (settings s).2 := (rfl)

theorem keepsMembers_next {s t : State} (h : (settings t).2 = (settings s).2) : KeepsMembers (.next t) s := by
  rintro _ ⟨⟩
  exact h

theorem keepsMembers_live {s t : State} (h : (settings t).2 = (settings s).2) : KeepsMembers (.next (live s t)) s := by
  apply keepsMembers_next
  rw [settings_live]
  split
  · rfl
  · exact h

theorem keepsMembers_served {s t : State} (h : (settings t).2 = (settings s).2) :
    KeepsMembers (.next (served s t)) s := by
  apply keepsMembers_live
  rw [settings_managed]
  split
  · exact h
  · rfl

/-- What each turn of a loop leaves of the membership table, the loop leaves. -/
theorem settings_snd_forEach {α : Type} (l : List α) {f : α → State → State} (s)
    (hf : ∀ a t, (settings (f a t)).2 = (settings t).2) : (settings (forEach l f s)).2 = (settings s).2 :=
  forEach_keeps (P := fun t => (settings t).2 = (settings s).2) l (fun a t h => (hf a t).trans h) rfl

/-! Operations that write the anchor role. -/

@[simp] theorem settings_snd_selfFence (s) : (settings (selfFence s)).2 = (settings s).2 := by
  simp [selfFence, members_eq_settings_snd]

@[simp] theorem settings_snd_evaluateIslands (s) : (settings (evaluateIslands s)).2 = (settings s).2 := by
  unfold evaluateIslands
  split <;> simp

@[simp] theorem settings_snd_fenceQuadrant (q cause s) :
    (settings (fenceQuadrant q cause s)).2 = (settings s).2 := by
  unfold fenceQuadrant
  split
  · rfl
  · simp [apply_ite Prod.snd, members_eq_settings_snd]

@[simp] theorem settings_snd_endPositions (s) : (settings (endPositions s)).2 = (settings s).2 := by
  simp [endPositions, members_eq_settings_snd]

@[simp] theorem settings_snd_fenceFailed (u s) : (settings (fenceFailed u s)).2 = (settings s).2 := by
  unfold fenceFailed
  split <;> simp

@[simp] theorem settings_snd_unfenceAt (fails s) : (settings (unfenceAt fails s)).2 = (settings s).2 := by
  simp [unfenceAt, members_eq_settings_snd]

@[simp] theorem settings_snd_startRecord (s) : (settings (startRecord s)).2 = (settings s).2 := by
  simp [startRecord, members_eq_settings_snd]

@[simp] theorem settings_snd_release (fails s) : (settings (release fails s)).2 = (settings s).2 := by
  unfold release
  extract_lets cold _ _ s₁ s₂ s₃ s₄ s₅
  have h₃ : (settings s₃).2 = (settings s).2 := by
    unfold s₃
    split <;> simp [s₂, s₁, members_eq_settings_snd]
  have h₄ : (settings s₄).2 = (settings s₃).2 :=
    (settings_snd_forEach _ _ settings_snd_fenceFailed).trans (settings_snd_endPositions s₃)
  have h₅ : (settings s₅).2 = (settings s₄).2 := by
    unfold s₅
    split <;> simp
  simpa using h₅.trans (h₄.trans h₃)

/-! Commands that write the anchor role or the routes. -/

@[simp] theorem execSetRoute_keepsMembers (d ports s) : KeepsMembers (execSetRoute d ports s) s :=
  keepsMembers_served (by simp [members_eq_settings_snd])

@[simp] theorem execSetMcast_keepsMembers (g ports valid loc s) : KeepsMembers (execSetMcast g ports valid loc s) s :=
  keepsMembers_served (by simp [members_eq_settings_snd])

@[simp] theorem execStraitLost_keepsMembers (i now s) : KeepsMembers (execStraitLost i now s) s := by
  apply keepsMembers_live
  split <;> simp

@[simp] theorem execFenceStatusSample_keepsMembers (now s) : KeepsMembers (execFenceStatusSample now s) s := by
  apply keepsMembers_live
  simp only
  split <;> simp

@[simp] theorem execAnchorFailover_keepsMembers (now s) : KeepsMembers (execAnchorFailover now s) s := by
  apply keepsMembers_live
  split <;> simp [members_eq_settings_snd]

@[simp] theorem execFenceQuadrant_keepsMembers (q cause now s) : KeepsMembers (execFenceQuadrant q cause now s) s := by
  apply keepsMembers_live
  split
  · rw [settings_managed]
    split <;> simp
  · simp

@[simp] theorem execPllLockLoss_keepsMembers (q now s) : KeepsMembers (execPllLockLoss q now s) s :=
  keepsMembers_live (by simp)

@[simp] theorem execRefclkLoss_keepsMembers (now s) : KeepsMembers (execRefclkLoss now s) s :=
  keepsMembers_live (by simp)

@[simp] theorem execDeviceRelease_keepsMembers (fails now s) : KeepsMembers (execDeviceRelease fails now s) s := by
  apply keepsMembers_live
  split <;> simp

@[simp] theorem execAvsTimeout_keepsMembers (q now s) : KeepsMembers (execAvsTimeout q now s) s :=
  keepsMembers_live (by simp)

/-- Each arm of `exec` is one command: it may write the table, or its lemma says that it keeps it. -/
theorem exec_keepsMembers (c : Instr) (s : State) (h : mayWriteMembers c = false) : KeepsMembers (exec c s) s := by
  revert h
  cases c <;> simp [exec, mayWriteMembers]

/-- Settles O45: the lemma of each command, over the cases of the command. -/
theorem membershipChangesOnlyByCommand : Obligations.MembershipChangesOnlyByCommand := by
  unfold Obligations.MembershipChangesOnlyByCommand
  exact fun c s t ht hc => exec_keepsMembers c s hc t ht

end Sys2Proof.Machine
end

section
/-! SUPPORT. A translation stays in the blocks of its tenant, with the right (O56): what a table in canonical form holds,
what a leaf says of its extent, what Table 3.3 lets pass, what a walk answers. -/

namespace Sys2Proof.Machine

/-! Laws of tables. -/

/-- Every listed key of a table that is canonical from `lo` on is at least `lo`. -/
theorem le_of_mem_of_twfFrom {α : Type} [DecidableEq α] {d : α} {lo : Nat} {t : Tbl α} {c : Nat × α}
    (h : twfFrom d lo t = true) (hc : c ∈ t) : lo ≤ c.1 := by
  induction t generalizing lo with
  | nil => cases hc
  | cons x r ih =>
    simp only [twfFrom, Bool.and_eq_true, decide_eq_true_eq] at h
    obtain ⟨⟨hlo, -⟩, hr⟩ := h
    cases hc with
    | head => exact hlo
    | tail _ hc => exact Nat.le_of_succ_le (hlo.trans_lt (ih hr hc))

/-- A listed entry of a canonical table is what its key reads. -/
theorem tget_of_mem {α : Type} [DecidableEq α] {d : α} {lo : Nat} {t : Tbl α} {c : Nat × α}
    (h : twfFrom d lo t = true) (hc : c ∈ t) : tget d t c.1 = c.2 := by
  induction t generalizing lo with
  | nil => cases hc
  | cons x r ih =>
    simp only [twfFrom, Bool.and_eq_true] at h
    obtain ⟨-, hr⟩ := h
    cases hc with
    | head => exact if_pos rfl
    | tail _ hc => exact (if_neg (Nat.ne_of_gt (le_of_mem_of_twfFrom hr hc))).trans (ih hr hc)

/-! Leaves. -/

/-- The extent that a tenant's address lies in (R28). -/
theorem extentAt_some {s : State} {t a e : Nat} (hwf : twf {} s.pool.extents = true) (h : extentAt s t a = some e) :
    (extent s e).tenant = t ∧ mappedSt (extent s e).st = true ∧ covers (extent s e) a = true := by
  obtain ⟨c, hc, rfl⟩ := Option.map_eq_some_iff.mp h
  have hread : extent s c.1 = c.2 := tget_of_mem hwf (List.mem_of_find?_eq_some hc)
  have hp := List.find?_some hc
  simp only [Bool.and_eq_true, decide_eq_true_eq] at hp
  obtain ⟨⟨ht, hst⟩, hcov⟩ := hp
  rw [hread]
  exact ⟨ht, hst, hcov⟩

/-- Where a leaf's block and page lie, and whose it is. -/
theorem leafAt_some {s : State} {t a base : Nat} {lf : Leaf} (h : leafAt s t a = some (base, lf)) :
    extentAt s t a = some lf.extent ∧
    base = (extent s lf.extent).pvaBase + (a - (extent s lf.extent).pvaBase) / blockBytes * blockBytes ∧
    lf.ppa = (extent s lf.extent).blocks.getD ((a - (extent s lf.extent).pvaBase) / blockBytes) 0 * blockBytes ∧
    lf.sealed = decide ((extent s lf.extent).kind = .sealed) := by
  unfold leafAt at h
  split at h
  · cases h
  · next e he =>
    simp only at h
    split at h <;> (cases h; exact ⟨he, rfl, rfl, rfl⟩)

/-- What rows 4 to 7 of Table 3.3 let pass. -/
theorem leafCheck_none {lf : Leaf} {who : Part} {via : Via} {acc : Access} (h : leafCheck lf who via acc = none) :
    (lf.sealed = true → acc = .read ∧ via = .inPool true) ∧
    (acc = .read ∨ acc = .own → (effRights lf who).read = true) ∧
    (acc = .write ∨ acc = .own → (effRights lf who).write = true) ∧
    (acc = .reduce → (effRights lf who).reduce = true) ∧ (acc = .atomic → (effRights lf who).atomic = true) := by
  unfold leafCheck at h
  simp only at h
  split at h
  · cases h
  · split at h
    · cases h
    · split at h
      · cases h
      · next hport hadm hright =>
        have hsealed : lf.sealed = true → acc = .read ∧ via = .inPool true := by
          intro hs
          simp only [hs, Bool.true_and] at hadm hright
          have hread : acc = .read := by simpa using hright
          exact ⟨hread, by simpa [hread] using hadm⟩
        refine ⟨hsealed, ?_⟩
        cases acc <;> simp_all [ite_eq_iff]

/-- With an empty TLB a translation answers from the leaf that the walk reaches, where Table 3.3 lets the access pass. -/
theorem translate_ok {s : State} {q t a ppa : Nat} {who : Part} {via : Via} {acc : Access} {lf : Leaf}
    (htlb : (xunit s q).tlb = []) (h : (translate q t a who via acc s).1.toOption = some (ppa, lf)) :
    ∃ base, leafAt s t a = some (base, lf) ∧ leafCheck lf who via acc = none ∧ ppa = lf.ppa + (a - base) := by
  unfold translate at h
  have hmiss : tlbHit s q t a = none := by simp [tlbHit, htlb]
  simp only [hmiss] at h
  split at h
  · cases h
  · cases h
  · next base leaf hleaf _ =>
    split at h
    · cases h
    · next hcheck =>
      cases h
      exact ⟨base, hleaf, hcheck, rfl⟩

/-- The page of an address in an extent: the block at the address's place, at its offset. -/
theorem page_of_covered {x : Extent} {a : Nat} (h : covers x a = true) :
    let i := (a - x.pvaBase) / 268435456
    let ppa := x.blocks.getD i 0 * 268435456 + (a - (x.pvaBase + i * 268435456))
    x.pvaBase ≤ a ∧ a < x.pvaBase + x.blocks.length * 268435456 ∧ x.blocks[i]? = some (ppa / 268435456) ∧
      ppa % 268435456 = (a - x.pvaBase) % 268435456 := by
  intro i ppa
  simp only [covers, blockBytes, Bool.and_eq_true, decide_eq_true_eq] at h
  obtain ⟨hlo, hhi⟩ := h
  have hi : i < x.blocks.length := by omega
  have hoff : a - (x.pvaBase + i * 268435456) = (a - x.pvaBase) % 268435456 := by omega
  have hblock : x.blocks[i]? = some (x.blocks.getD i 0) := by simp [List.getD, hi]
  refine ⟨hlo, hhi, hblock.trans (congrArg some ?_), ?_⟩ <;> omega

/-- Settles O56: the walk's leaf, the extent it comes from, and the rows of Table 3.3. -/
theorem translationStaysInTenant : Obligations.TranslationStaysInTenant := by
  unfold Obligations.TranslationStaysInTenant
  intro q ten a who via acc ppa lf s hwf htlb h
  obtain ⟨base, hleaf, hcheck, rfl⟩ := translate_ok htlb h
  obtain ⟨hext, rfl, hppa, hseal⟩ := leafAt_some hleaf
  obtain ⟨hten, hst, hcov⟩ := extentAt_some hwf hext
  obtain ⟨hsealed, hrights⟩ := leafCheck_none hcheck
  obtain ⟨hlo, hhi, hblock, hoff⟩ := page_of_covered hcov
  rw [hppa]
  exact ⟨lf.extent, hten, hst, hlo, hhi, rfl, hblock, hoff, fun hk => hsealed (by simp [hseal, hk]), hrights⟩

end Sys2Proof.Machine
end

section
/-! SUPPORT. Frames: how `Only` composes, and what the setters and the shared operations of `Ops` leave as it was. A
command's `Only` follows from those of the operations that it is made of. -/

namespace Sys2Proof.Machine

open Sys2Proof.Safety

/-! Guards. -/

theorem served_of {s : State} (h : Managed s) (t : State) : served s t = t := by
  obtain ⟨hrun, hserves⟩ := h
  simp [served, live_of hrun, managed, hserves]

/-! The relation. -/

theorem agree_refl (s : State) (a : Area) : agree s s a := by
  cases a with
  | routes => exact ⟨rfl, rfl⟩
  | _ => rfl

theorem agree_trans {s t u : State} {a : Area} (h : agree s t a) (h' : agree t u a) : agree s u a := by
  cases a with
  | routes => exact ⟨h'.1.trans h.1, h'.2.trans h.2⟩
  | _ => exact h'.trans h

theorem only_refl (l : List Area) (s : State) : Only l s s := ⟨rfl, rfl, fun a _ => agree_refl s a⟩

theorem only_trans {l : List Area} {s t u : State} (h : Only l s t) (h' : Only l t u) : Only l s u := by
  obtain ⟨hp, hg, ha⟩ := h
  obtain ⟨hp', hg', ha'⟩ := h'
  exact ⟨hp'.trans hp, hg'.trans hg, fun a hl => agree_trans (ha a hl) (ha' a hl)⟩

theorem only_mono {l m : List Area} {s t : State} (h : Only l s t) (hlm : l.all m.contains = true) : Only m s t := by
  obtain ⟨hp, hg, ha⟩ := h
  refine ⟨hp, hg, fun a hm => ha a ?_⟩
  by_contra hl
  have := List.all_eq_true.mp hlm a (List.contains_iff_mem.mp (by simpa using hl))
  rw [hm] at this
  cases this

/-- What the parts outside the list are, in the later state. -/
theorem only_agree {l : List Area} {s t : State} (h : Only l s t) (a : Area) (ha : l.contains a = false) : agree s t a :=
  h.2.2 a ha

theorem only_forEach {α : Type} {l : List Area} {f : α → State → State} (xs : List α) (s : State)
    (hf : ∀ a t, Only l t (f a t)) : Only l s (forEach xs f s) :=
  forEach_keeps (P := Only l s) xs (fun a t h => only_trans h (hf a t)) (only_refl l s)

theorem only_ite {l : List Area} {c : Prop} [Decidable c] {s t u : State} (ht : Only l s t) (hu : Only l s u) :
    Only l s (if c then t else u) := by
  split
  · exact ht
  · exact hu

theorem only_when {l : List Area} {c : Bool} {f : State → State} {s : State} (h : Only l s (f s)) :
    Only l s (when c f s) := only_ite h (only_refl l s)

/-! Setters and shared operations. -/

theorem only_said (o : Out) (s : State) : Only [.out] s { s with out := o :: s.out } :=
  ⟨rfl, rfl, fun a h => by cases a with | out => cases h | routes => exact ⟨rfl, rfl⟩ | _ => rfl⟩

theorem only_fmDone (st vals s) : Only [.out] s (fmDone st vals s) := by
  rw [fmDone_eq]
  exact only_said _ s

theorem only_advance (now s) : Only [.time] s (advance now s) :=
  ⟨rfl, rfl, fun a h => by cases a with | time => cases h | routes => exact ⟨rfl, rfl⟩ | _ => rfl⟩

theorem only_cntAdd (f n i k s) : Only [.cnt] s (cntAdd f n i k s) :=
  ⟨rfl, rfl, fun a h => by cases a with | cnt => cases h | routes => exact ⟨rfl, rfl⟩ | _ => rfl⟩

theorem only_bump (f n i s) : Only [.cnt] s (bump f n i s) := only_cntAdd f n i 1 s

theorem only_setExtent (e x s) : Only [.extents] s (setExtent e x s) :=
  ⟨rfl, rfl, fun a h => by cases a with | extents => cases h | routes => exact ⟨rfl, rfl⟩ | _ => rfl⟩

theorem only_setKite (k x s) : Only [.kites] s (setKite k x s) :=
  ⟨rfl, rfl, fun a h => by cases a with | kites => cases h | routes => exact ⟨rfl, rfl⟩ | _ => rfl⟩

theorem only_setBlock (b x s) : Only [.blocks] s (setBlock b x s) :=
  ⟨rfl, rfl, fun a h => by cases a with | blocks => cases h | routes => exact ⟨rfl, rfl⟩ | _ => rfl⟩

theorem only_setObj (o x s) : Only [.coreRest] s (setObj o x s) :=
  ⟨rfl, rfl, fun a h => by cases a with | coreRest => cases h | routes => exact ⟨rfl, rfl⟩ | _ => rfl⟩

theorem only_setInvals (l s) : Only [.invals] s (setInvals l s) :=
  ⟨rfl, rfl, fun a h => by cases a with | invals => cases h | routes => exact ⟨rfl, rfl⟩ | _ => rfl⟩

/-! Accessors read one table. -/

theorem extent_congr {s t : State} (h : t.pool.extents = s.pool.extents) (e : Nat) : extent t e = extent s e := by
  unfold extent
  rw [h]

theorem kite_congr {s t : State} (h : t.pool.kites = s.pool.kites) (k : Nat) : kite t k = kite s k := by
  unfold kite
  rw [h]

theorem block_congr {s t : State} (h : t.mem.blocks = s.mem.blocks) (b : Nat) : block t b = block s b := by
  unfold block
  rw [h]

theorem fmDone_out (st vals s) : (fmDone st vals s).out = .fm st vals :: s.out := by rw [fmDone_eq]
theorem fmDone_pool (st vals s) : (fmDone st vals s).pool = s.pool := by rw [fmDone_eq]
theorem fmDone_xlt (st vals s) : (fmDone st vals s).xlt = s.xlt := by rw [fmDone_eq]
theorem fmDone_mem (st vals s) : (fmDone st vals s).mem = s.mem := by rw [fmDone_eq]

theorem extent_fmDone (st vals s) (e : Nat) : extent (fmDone st vals s) e = extent s e :=
  extent_congr (congrArg PoolState.extents (fmDone_pool st vals s)) e

theorem kite_fmDone (st vals s) (k : Nat) : kite (fmDone st vals s) k = kite s k :=
  kite_congr (congrArg PoolState.kites (fmDone_pool st vals s)) k

/-! Invalidations (R72, R75): an order is listed, and where it withdraws mappings it frees objects. -/

theorem only_freeObjsIn (t lo hi s) : Only [.coreRest] s (freeObjsIn t lo hi s) :=
  only_forEach _ _ fun c s => only_setObj c.1 _ s

/-- Objects are freed in their table alone. -/
theorem freeObjsIn_frame (t lo hi s) :
    freeObjsIn t lo hi s = { s with core := { s.core with objs := (freeObjsIn t lo hi s).core.objs } } :=
  forEach_keeps (P := fun u => u = { s with core := { s.core with objs := u.core.objs } }) _
    (fun c u h => by rw [h]; rfl) rfl

/-- An order of an invalidation changes the list of invalidations and the table of objects alone. -/
theorem orderInval_frame (t lo hi w s) : orderInval t lo hi w s =
    { s with xlt := { s.xlt with invals := (orderInval t lo hi w s).xlt.invals }
             core := { s.core with objs := (orderInval t lo hi w s).core.objs } } := by
  unfold orderInval
  simp only
  split
  · split
    · conv_lhs => rw [freeObjsIn_frame]
      conv_rhs => rw [freeObjsIn_frame]
    · rfl
  · rfl

theorem only_orderInval (t lo hi w s) : Only [.invals, .coreRest] s (orderInval t lo hi w s) := by
  unfold orderInval
  refine only_ite ?_ (only_refl _ s)
  have h : Only [.invals, .coreRest] s (setInvals (s.xlt.invals ++ [{ tenant := t, lo := lo, hi := hi, withdraws := w }]) s) :=
    only_mono (only_setInvals _ s) rfl
  exact only_ite (only_trans h (only_mono (only_freeObjsIn t lo hi _) rfl)) h

/-- An invalidation that withdraws nothing frees no object. -/
theorem only_orderInval_false (t lo hi s) : Only [.invals] s (orderInval t lo hi false s) :=
  only_ite (only_setInvals _ s) (only_refl _ s)

theorem orderInval_invals {t lo hi : Nat} (w : Bool) (s : State) (h : lo < hi) : (orderInval t lo hi w s).xlt.invals =
    s.xlt.invals ++ [{ tenant := t, lo := lo, hi := hi, withdraws := w }] := by
  unfold orderInval
  rw [if_pos h]
  split
  · rw [freeObjsIn_frame]
  · rfl

/-- The order of an invalidation of a range that is not empty stands in the list. -/
theorem exists_orderInval {t lo hi : Nat} (w : Bool) (s : State) (h : lo < hi) :
    ∃ v ∈ (orderInval t lo hi w s).xlt.invals, v.tenant = t ∧ v.lo = lo ∧ v.hi = hi ∧ v.withdraws = w := by
  rw [orderInval_invals w s h]
  exact ⟨_, List.mem_append_right _ (List.mem_singleton_self _), rfl, rfl, rfl, rfl⟩

@[simp] theorem orderInval_pool (t lo hi w s) : (orderInval t lo hi w s).pool = s.pool := by rw [orderInval_frame]
@[simp] theorem orderInval_out (t lo hi w s) : (orderInval t lo hi w s).out = s.out := by rw [orderInval_frame]
@[simp] theorem orderInval_mem (t lo hi w s) : (orderInval t lo hi w s).mem = s.mem := by rw [orderInval_frame]
@[simp] theorem orderInval_cxl (t lo hi w s) : (orderInval t lo hi w s).cxl = s.cxl := by rw [orderInval_frame]
@[simp] theorem orderInval_que (t lo hi w s) : (orderInval t lo hi w s).que = s.que := by rw [orderInval_frame]
@[simp] theorem orderInval_dir (t lo hi w s) : (orderInval t lo hi w s).dir = s.dir := by rw [orderInval_frame]
@[simp] theorem extent_orderInval (t lo hi w s e) : extent (orderInval t lo hi w s) e = extent s e :=
  extent_congr (congrArg PoolState.extents (orderInval_pool t lo hi w s)) e

/-- An extent with blocks has a range that is not empty. -/
theorem extentLo_lt_extentHi {x : Extent} (h : x.blocks ≠ []) : extentLo x < extentHi x := by
  have := List.length_pos_of_ne_nil h
  simp only [extentLo, extentHi, blockBytes]
  omega

end Sys2Proof.Machine
end

section
/-! SUPPORT. Extent commands (O1): blocks allocated, zeroed, freed; what each command's guards come to. -/

namespace Sys2Proof.Machine

open Sys2Proof.Safety

/-! Tables: a cleared range, and the lowest key searched for. -/

theorem tget_tclear {α : Type} (d : α) (t : Tbl α) (lo hi k : Nat) :
    tget d (tclear t lo hi) k = if lo ≤ k ∧ k < hi then d else tget d t k := by
  induction t with
  | nil => simp [tclear]
  | cons c r ih =>
    obtain ⟨a, v⟩ := c
    unfold tclear at ih ⊢
    rw [List.filter_cons]
    by_cases hk : k = a
    · subst hk
      by_cases hin : lo ≤ k ∧ k < hi
      · simpa [hin] using ih
      · rw [if_neg hin, if_pos (by simp; omega)]
        simp [tget]
    · split
      · simp only [tget, if_neg hk, ih]
      · rw [ih]
        simp only [tget, if_neg hk]

theorem lowestFrom_some {p : Nat → Bool} {n k b : Nat} (h : lowestFrom p n k = some b) : p b = true := by
  induction n generalizing k with
  | zero => cases h
  | succ n ih =>
    unfold lowestFrom at h
    split at h
    · cases h
      assumption
    · exact ih h

/-! Blocks: allocation (R36, R349), return to FREE (R41). -/

/-- The block that an allocation takes is free. -/
theorem findBlock_some {s : State} {b : Nat} (h : findBlock s = some b) : (block s b).valid = false := by
  simpa using lowestFrom_some h

/-- What an allocation does: as many blocks as asked for, each free before, now the extent's; the block map alone changes. -/
theorem allocBlocks_some {n e g : Nat} {light : Bool} {pl : Placement} {s s1 : State} {bs : List Nat}
    (h : allocBlocks n e light pl g s = some (bs, s1)) :
    bs.length = n ∧
    (∀ b ∈ bs, (block s b).valid = false ∧ (block s1 b).valid = true ∧ (block s1 b).extent = e) ∧
    (∀ b, b ∉ bs → block s1 b = block s b) ∧ Only [.blocks] s s1 := by
  induction n generalizing s bs with
  | zero =>
    cases h
    exact ⟨rfl, fun _ hb => (List.not_mem_nil hb).elim, fun _ _ => rfl, only_refl _ _⟩
  | succ n ih =>
    unfold allocBlocks at h
    split at h
    · next b f hb _ =>
      simp only at h
      split at h
      · next l s2 hrest =>
        cases h
        obtain ⟨hlen, hmem, hother, honly⟩ := ih hrest
        have hfree : (block s b).valid = false := findBlock_some hb
        have hnew : b ∉ l := fun hl => by simpa using (hmem b hl).1
        refine ⟨by simp [hlen], fun c hc => ?_, fun c hc => ?_, only_trans (only_setBlock b _ s) honly⟩
        · by_cases hcb : c = b
          · subst hcb
            rw [hother c hnew]
            simpa using hfree
          · obtain ⟨hold, hval, hext⟩ := hmem c (by simpa [hcb] using hc)
            exact ⟨by simpa [hcb] using hold, hval, hext⟩
        · obtain ⟨hcb, hcl⟩ : c ≠ b ∧ c ∉ l := by simpa using hc
          rw [hother c hcl]
          simp [hcb]
      · cases h
    · cases h

theorem block_freeBlocks (l : List Nat) (s : State) (b : Nat) :
    block (freeBlocks l s) b = if b ∈ l then {} else block s b := by
  unfold freeBlocks
  induction l generalizing s with
  | nil => simp
  | cons a r ih =>
    rw [forEach_cons, ih, block_setBlock]
    by_cases hr : b ∈ r
    · simp [hr]
    · simp [hr]

/-! Bytes of pool memory: what a fill with zero leaves (R41). -/

/-- Byte `i` of a line that is stored as `b`, with the line's pending merge entry, if any, over it. -/
def mergedByte (m : Option MergeEnt) (i : Nat) (b : Byte) : Byte :=
  match m with
  | none => b
  | some e => if bitOf e.mask i then byteAt e.data i else b

/-- A byte reads as the pending merge entry gives it, and else as it is stored (R363). -/
theorem readByte_eq (s : State) (a : Nat) :
    readByte s a = mergedByte (tget none s.mem.merge (a / 64)) (a % 64) (tget 0 s.mem.bytes a) := by
  have hlt : a % 64 < 64 := Nat.mod_lt _ (by decide)
  have hstored : byteAt (storedLine s (a / 64)) (a % 64) = tget 0 s.mem.bytes a := by
    simp [byteAt, storedLine, hlt, Nat.div_add_mod]
  unfold readByte
  cases tget none s.mem.merge (a / 64) with
  | none => exact hstored
  | some e =>
    rw [← hstored]
    simp [overlay, mergedByte, byteAt, hlt]

/-- What a read returns depends on the stored bytes and the merge buffer alone. -/
theorem readByte_congr {s t : State} (hb : t.mem.bytes = s.mem.bytes) (hm : t.mem.merge = s.mem.merge) (a : Nat) :
    readByte t a = readByte s a := by
  simp only [readByte_eq, hb, hm]

theorem readByte_of_mem {s t : State} (h : t.mem = s.mem) (a : Nat) : readByte t a = readByte s a :=
  readByte_congr (by rw [h]) (by rw [h]) a

/-- A byte of a block, after that block or another is filled with zero. -/
theorem readByte_zeroRange_block (b : Nat) (s : State) (a : Nat) :
    readByte (zeroRange (b * blockBytes) ((b + 1) * blockBytes) s) a = if a / blockBytes = b then 0 else readByte s a := by
  have hbytes : b * blockBytes ≤ a ∧ a < (b + 1) * blockBytes ↔ a / blockBytes = b := by
    simp only [blockBytes]
    omega
  have hlines : b * blockBytes / 64 ≤ a / 64 ∧ a / 64 < (b + 1) * blockBytes / 64 ↔ a / blockBytes = b := by
    simp only [blockBytes]
    omega
  simp only [readByte_eq, zeroRange, tget_tclear, hbytes, hlines]
  split
  · rfl
  · rfl

theorem readByte_zeroBlocks (bs : List Nat) (s : State) (a : Nat) :
    readByte (zeroBlocks bs s) a = if a / blockBytes ∈ bs then 0 else readByte s a := by
  unfold zeroBlocks
  induction bs generalizing s with
  | nil => simp
  | cons b r ih =>
    rw [forEach_cons, ih, readByte_zeroRange_block]
    by_cases hr : a / blockBytes ∈ r
    · simp [hr]
    · simp [hr]

theorem zeroBlocks_pool (bs s) : (zeroBlocks bs s).pool = s.pool :=
  forEach_keeps (P := fun u => u.pool = s.pool) bs (fun _ _ h => h) rfl

theorem zeroBlocks_blocks (bs s) : (zeroBlocks bs s).mem.blocks = s.mem.blocks :=
  forEach_keeps (P := fun u => u.mem.blocks = s.mem.blocks) bs (fun _ _ h => h) rfl

theorem only_markSlot (bs k s) : Only [.blocks] s (markSlot bs k s) :=
  only_forEach _ _ fun b s => only_setBlock b _ s

theorem only_freeBlocks (bs s) : Only [.blocks] s (freeBlocks bs s) :=
  only_forEach _ _ fun b s => only_setBlock b _ s

/-- A state that differs in the block map alone reads the same bytes. -/
theorem readByte_of_only_blocks {s t : State} (h : Only [.blocks] s t) (a : Nat) : readByte t a = readByte s a :=
  readByte_congr (only_agree h .bytes rfl) (only_agree h .merge rfl) a

theorem readByte_fillBlocks (bs k s) (a : Nat) :
    readByte (fillBlocks bs k s) a = if a / blockBytes ∈ bs then 0 else readByte s a := by
  unfold fillBlocks
  rw [readByte_of_only_blocks (only_markSlot bs k _), readByte_zeroBlocks]

theorem extent_fillBlocks (bs k s) (e : Nat) : extent (fillBlocks bs k s) e = extent s e := by
  have h : (fillBlocks bs k s).pool.extents = s.pool.extents :=
    (only_agree (only_markSlot bs k _) .extents rfl).trans (congrArg PoolState.extents (zeroBlocks_pool bs s))
  exact extent_congr h e

/-- A byte of a block, by the block and the place in it. -/
theorem block_offset_div (b : Nat) {i : Nat} (h : i < blockBytes) : (b * blockBytes + i) / blockBytes = b := by
  simp only [blockBytes] at h ⊢
  omega

/-! The commands. -/

theorem exec_allocateExtent {e : Fin 16384} {a : ExtentReq} {s s1 : State} {bs : List Nat} (hm : Managed s)
    (hfree : (extent s e.val).st = .free) (hok : allocOk s a = true) (hlive : tenantLive s a.tenant.val = true)
    (halloc : allocBlocks a.blocks e.val a.light a.place a.grainLog2 s = some (bs, s1)) :
    exec (.allocateExtent e a) s = .next (fmDone .ok [] (setExtent e.val
      { st := .preparing, tenant := a.tenant.val, pvaBase := a.pvaBase, blocks := bs, light := a.light
        place := a.place, grainLog2 := a.grainLog2, kind := a.kind, rights := a.rights, overrides := a.overrides
        minBlocks := a.minBlocks, maxBlocks := a.maxBlocks }
      (if a.kind = .sealed then setSealed e.val { ownerKey := a.ownerKey } s1 else s1))) := by
  simp [exec, execAllocateExtent, served_of hm, hfree, hok, hlive, halloc]

/-- The clause of ALLOCATE_EXTENT. -/
theorem allocateExtent_completes (e : Fin 16384) (a : ExtentReq) (s s1 : State) (bs : List Nat) (hm : Managed s)
    (hfree : (extent s e.val).st = .free) (hok : allocOk s a = true) (hlive : tenantLive s a.tenant.val = true)
    (halloc : allocBlocks a.blocks e.val a.light a.place a.grainLog2 s = some (bs, s1)) :
    ∃ t, exec (.allocateExtent e a) s = .next t ∧ t.out = .fm .ok [] :: s.out ∧
      (extent t e.val).st = .preparing ∧ (extent t e.val).tenant = a.tenant.val ∧
      (extent t e.val).pvaBase = a.pvaBase ∧ (extent t e.val).blocks = bs ∧ (extent t e.val).rights = a.rights ∧
      (extent t e.val).overrides = a.overrides ∧ (extent t e.val).kind = a.kind ∧ bs.length = a.blocks ∧
      (∀ b ∈ bs, (block s b).valid = false ∧ (block t b).valid = true ∧ (block t b).extent = e.val) ∧
      (∀ b, b ∉ bs → block t b = block s b) ∧ Others extent e.val s t := by
  obtain ⟨hlen, hmem, hother, honly⟩ := allocBlocks_some halloc
  refine ⟨_, exec_allocateExtent hm hfree hok hlive halloc, ?_⟩
  have hout : s1.out = s.out := only_agree honly .out rfl
  have hext : s1.pool.extents = s.pool.extents := only_agree honly .extents rfl
  generalize hu : (if a.kind = .sealed then setSealed e.val { ownerKey := a.ownerKey } s1 else s1) = u
  have huo : u.out = s1.out := by rw [← hu]; split <;> rfl
  have hup : u.pool = s1.pool := by rw [← hu]; split <;> rfl
  have hum : u.mem = s1.mem := by rw [← hu]; split <;> rfl
  have hblock (b : Nat) (x : Extent) : block (fmDone .ok [] (setExtent e.val x u)) b = block s1 b :=
    block_congr (by rw [fmDone_mem, setExtent_mem, hum]) b
  have hread (k : Nat) (x : Extent) :
      extent (fmDone .ok [] (setExtent e.val x u)) k = if k = e.val then x else extent s k := by
    have hk : extent u k = extent s k := extent_congr (by rw [hup, hext]) k
    rw [extent_fmDone, extent_setExtent, hk]
  simp only [hread, hblock, if_true]
  exact ⟨by simp [huo, hout], trivial, trivial, trivial, trivial, trivial, trivial, trivial, hlen, hmem, hother,
    fun k hk => by rw [hread, if_neg hk]⟩

/-- The clause of EXTENT_ZERO_FILL_COMPLETE. -/
theorem extentZeroFillComplete_completes (e : Fin 16384) (s : State) (hrun : Running s)
    (hst : (extent s e.val).st = .preparing) :
    ∃ t, exec (.extentZeroFillComplete e) s = .next t ∧
      (extent t e.val).st = (if (extent s e.val).kind = .sealed then .sealedEmpty else .active) ∧
      (∀ b ∈ (extent s e.val).blocks, ∀ i, i < blockBytes → readByte t (b * blockBytes + i) = 0) ∧
      (∀ a, a / blockBytes ∉ (extent s e.val).blocks → readByte t a = readByte s a) ∧
      Others extent e.val s t := by
  refine ⟨_, congrArg Host.Outcome.next (live_of hrun), ?_⟩
  simp only [hst]
  have hread (x : Extent) (a : Nat) :
      readByte (setExtent e.val x (fillBlocks (extent s e.val).blocks (some (activeSlot s (extent s e.val).tenant)) s)) a =
        if a / blockBytes ∈ (extent s e.val).blocks then 0 else readByte s a := by
    rw [readByte_of_mem (setExtent_mem _ _ _), readByte_fillBlocks]
  refine ⟨by simp, fun b hb i hi => ?_, fun a ha => ?_, fun k hk => ?_⟩
  · rw [hread, block_offset_div b hi, if_pos hb]
  · rw [hread, if_neg ha]
  · rw [extent_setExtent, if_neg hk, extent_fillBlocks]

/-- The clause of EXTENT_WITHDRAWAL_DRAINED. -/
theorem extentWithdrawalDrained_completes (e : Fin 16384) (s : State) (hrun : Running s)
    (hst : (extent s e.val).st = .releasing)
    (hmapped : drainPending s (extent s e.val).tenant (extentLo (extent s e.val)) (extentHi (extent s e.val)) = false)
    (hshrunk : drainPending s (extent s e.val).tenant (shrinkLo (extent s e.val)) (shrinkHi (extent s e.val)) = false) :
    ∃ t, exec (.extentWithdrawalDrained e) s = .next t ∧ extent t e.val = { extent s e.val with st := .scrubbing } ∧
      Others extent e.val s t ∧ Only [.extents] s t := by
  refine ⟨setExtent e.val { extent s e.val with st := .scrubbing } s, ?_, by simp, fun k hk => by simp [hk],
    only_setExtent _ _ s⟩
  simp [exec, execExtentWithdrawalDrained, live_of hrun, hst, hmapped, hshrunk]

/-- The clause of EXTENT_SCRUB_COMPLETE. -/
theorem extentScrubComplete_completes (e : Fin 16384) (s : State) (hrun : Running s)
    (hst : (extent s e.val).st = .scrubbing) :
    ∃ t, exec (.extentScrubComplete e) s = .next t ∧ (extent t e.val).st = .free ∧
      (∀ b ∈ blocksHeld (extent s e.val), (block t b).valid = false ∧
        ∀ i, i < blockBytes → readByte t (b * blockBytes + i) = 0) ∧
      (∀ b, b ∉ blocksHeld (extent s e.val) → block t b = block s b) ∧
      (∀ a, a / blockBytes ∉ blocksHeld (extent s e.val) → readByte t a = readByte s a) ∧
      Others extent e.val s t := by
  refine ⟨_, congrArg Host.Outcome.next (live_of hrun), ?_⟩
  simp only [hst]
  generalize hbs : blocksHeld (extent s e.val) = bs
  have hblock (b : Nat) : block (setExtent e.val {} (setSealed e.val {} (freeBlocks bs (zeroBlocks bs s)))) b =
      if b ∈ bs then {} else block s b := by
    have : block (zeroBlocks bs s) b = block s b := block_congr (zeroBlocks_blocks bs s) b
    rw [← this]
    exact block_freeBlocks bs _ b
  have hread (a : Nat) : readByte (setExtent e.val {} (setSealed e.val {} (freeBlocks bs (zeroBlocks bs s)))) a =
      if a / blockBytes ∈ bs then 0 else readByte s a := by
    rw [← readByte_zeroBlocks, ← readByte_of_only_blocks (only_freeBlocks bs (zeroBlocks bs s))]
    exact readByte_of_mem rfl a
  have hext (k : Nat) : extent (setSealed e.val {} (freeBlocks bs (zeroBlocks bs s))) k = extent s k := by
    have h : (freeBlocks bs (zeroBlocks bs s)).pool.extents = s.pool.extents :=
      (only_agree (only_freeBlocks bs _) .extents rfl).trans (congrArg PoolState.extents (zeroBlocks_pool bs s))
    exact extent_congr h k
  refine ⟨by simp, fun b hb => ⟨?_, fun i hi => ?_⟩, fun b hb => ?_, fun a ha => ?_, fun k hk => ?_⟩
  · rw [hblock, if_pos hb]
  · rw [hread, block_offset_div b hi, if_pos hb]
  · rw [hblock, if_neg hb]
  · rw [hread, if_neg ha]
  · rw [extent_setExtent, if_neg hk, hext]

/-- The version record of a kite, when the extent of its current version is released (R57). -/
def forgetVersion (e : Nat) (x : Extent) (s : State) : State :=
  match x.kite with
  | some k =>
    match kite s k with
    | some y => if y.extent = some e then setKite k (some { y with extent := none }) s else s
    | none => s
  | none => s

theorem only_forgetVersion (e x s) : Only [.kites] s (forgetVersion e x s) := by
  unfold forgetVersion
  split
  · split
    · exact only_ite (only_setKite _ _ s) (only_refl _ s)
    · exact only_refl _ s
  · exact only_refl _ s

/-- The release of an extent that no window, exchange or tether is on (Tables 2.4, 2.10). -/
theorem beginRelease_of_bare {e : Nat} {s : State} (hwins : windowsOn s e = []) (hdc : ∀ o ∈ s.cxl.dcOps, o.extent ≠ e)
    (hteth : extentTethers s e = []) : beginRelease e s =
      setExtent e { extent s e with st := .releasing, releaseWaits := false, releaseAfterCut := false }
        (forgetVersion e (extent s e) (withdrawExtent e s)) := by
  have hops : s.cxl.dcOps.filter (fun o => o.extent == e) = [] := by simpa using hdc
  unfold beginRelease
  simp only [hwins, forEach_nil, hops, hteth]
  rfl

/-- Without host windows a release goes on at once. -/
theorem startRelease_of_bare {e : Nat} {s : State} (hst : (extent s e).st ≠ .releasing) (hwins : windowsOn s e = []) :
    startRelease e s = beginRelease e s := by
  simp [startRelease, orderCuts, cutsOn, hwins, hst]

/-- The clause of RELEASE_EXTENT. -/
theorem releaseExtent_completes (e : Fin 16384) (forced : Bool) (s : State) (hm : Managed s)
    (hrel : releasable (extent s e.val) = true)
    (hforce : forced = true ∨ (extent s e.val).st ≠ .current ∧ (extent s e.val).st ≠ .superseded)
    (hteth : extentTethers s e.val = []) (hwins : windowsOn s e.val = [])
    (hcut : (extent s e.val).releaseAfterCut = false)
    (hheld : ∀ c ∈ s.pool.kites, ∀ y, c.2 = some y → y.held = none) (hdc : ∀ o ∈ s.cxl.dcOps, o.extent ≠ e.val) :
    ∃ t, exec (.releaseExtent e forced) s = .next t ∧ t.out = .fm .ok [] :: s.out ∧
      (extent t e.val).st = .releasing ∧ (extent t e.val).blocks = (extent s e.val).blocks ∧
      ((extent s e.val).blocks ≠ [] → ∃ v ∈ t.xlt.invals, v.withdraws = true ∧ v.tenant = (extent s e.val).tenant ∧
        v.lo = extentLo (extent s e.val) ∧ v.hi = extentHi (extent s e.val)) ∧
      Others extent e.val s t := by
  have hnot : (extent s e.val).st ≠ .releasing := fun h => by simp [releasable, h] at hrel
  have hexec : exec (.releaseExtent e forced) s = .next (fmDone .ok [] (beginRelease e.val s)) := by
    have hneeds : ((decide ((extent s e.val).st = .current) || decide ((extent s e.val).st = .superseded)) && !forced) = false := by
      rcases hforce with rfl | ⟨hc, hs⟩
      · simp
      · simp [hc, hs]
    simp only [exec, execReleaseExtent, served_of hm, hrel, hteth, List.any_nil, Bool.false_or, hneeds, hcut,
      startRelease_of_bare hnot hwins]
    rw [if_neg (by simp), if_neg (by simp), if_neg ?_, if_neg (by simp)]
    rw [List.any_eq_true]
    rintro ⟨c, hc, hholds⟩
    split at hholds
    · next y hy =>
      rw [hheld c hc y hy] at hholds
      cases hholds
    · cases hholds
  refine ⟨_, hexec, ?_⟩
  rw [beginRelease_of_bare hwins hdc hteth]
  generalize hu : forgetVersion e.val (extent s e.val) (withdrawExtent e.val s) = u
  have honly : Only [.kites] (withdrawExtent e.val s) u := hu ▸ only_forgetVersion _ _ _
  have hext (k : Nat) : extent u k = extent s k :=
    (extent_congr (only_agree honly .extents rfl) k).trans (extent_orderInval _ _ _ _ s k)
  refine ⟨?_, ?_, ?_, fun hblocks => ?_, fun k hk => ?_⟩
  · rw [fmDone_out, setExtent_out, only_agree honly .out rfl, withdrawExtent, orderInval_out]
  · rw [extent_fmDone, extent_setExtent, if_pos rfl]
  · rw [extent_fmDone, extent_setExtent, if_pos rfl]
  · have hinv : u.xlt.invals = (withdrawExtent e.val s).xlt.invals := only_agree honly .invals rfl
    obtain ⟨v, hv, hten, hlo, hhi, hw⟩ := exists_orderInval (t := (extent s e.val).tenant) true s
      (extentLo_lt_extentHi hblocks)
    refine ⟨v, ?_, hw, hten, hlo, hhi⟩
    rw [fmDone_xlt, setExtent_xlt, hinv]
    exact hv
  · rw [extent_fmDone, extent_setExtent, if_neg hk, hext]

/-- The clause of BALLOON_GROW. -/
theorem balloonGrow_completes (e : Fin 16384) (n : Nat) (s s1 : State) (bs : List Nat) (hm : Managed s)
    (hst : (extent s e.val).st = .active) (hkind : (extent s e.val).kind = .balloon)
    (hgrow : (extent s e.val).growing = []) (hhost : hostHolds s e.val = false) (hn : n ≠ 0)
    (hmax : (extent s e.val).blocks.length + n ≤ (extent s e.val).maxBlocks)
    (halloc : allocBlocks n e.val (extent s e.val).light (extent s e.val).place (extent s e.val).grainLog2 s =
      some (bs, s1)) :
    ∃ t, exec (.balloonGrow e n) s = .next t ∧ t.out = .fm .ok [] :: s.out ∧
      extent t e.val = { extent s e.val with growing := bs } ∧ bs.length = n ∧
      Others extent e.val s t ∧ Only [.out, .extents, .blocks] s t := by
  obtain ⟨hlen, -, -, honly⟩ := allocBlocks_some halloc
  have hexec : exec (.balloonGrow e n) s =
      .next (fmDone .ok [] (setExtent e.val { extent s e.val with growing := bs } s1)) := by
    simp [exec, execBalloonGrow, served_of hm, hst, hkind, hgrow, hhost, hn, Nat.not_lt.mpr hmax, halloc]
  have hext (k : Nat) : extent s1 k = extent s k := extent_congr (only_agree honly .extents rfl) k
  refine ⟨_, hexec, ?_, ?_, hlen, fun k hk => ?_, ?_⟩
  · rw [fmDone_out, setExtent_out, only_agree honly .out rfl]
  · rw [extent_fmDone, extent_setExtent, if_pos rfl]
  · rw [extent_fmDone, extent_setExtent, if_neg hk, hext]
  · exact only_trans (only_mono honly rfl) (only_trans (only_mono (only_setExtent _ _ _) rfl)
      (only_mono (only_fmDone _ _ _) rfl))

/-- What a balloon that shrinks to `keep` blocks leaves (R39). -/
theorem shrinkTo_eq (e keep : Nat) (s : State) : shrinkTo e keep s =
    orderInval (extent s e).tenant ((extent s e).pvaBase + keep * blockBytes) (extentHi (extent s e)) true
      (setExtent e { extent s e with blocks := (extent s e).blocks.take keep
                                     shrinking := (extent s e).blocks.drop keep, shrinkAt := keep } s) := rfl

/-- The clause of BALLOON_SHRINK. -/
theorem balloonShrink_completes (e : Fin 16384) (n : Nat) (s : State) (hm : Managed s)
    (hst : (extent s e.val).st = .active) (hkind : (extent s e.val).kind = .balloon)
    (hshrink : (extent s e.val).shrinking = []) (hhost : hostHolds s e.val = false) (hn : n ≠ 0)
    (hle : n ≤ (extent s e.val).blocks.length)
    (hleast : leastBlocks (extent s e.val) ≤ (extent s e.val).blocks.length - n) :
    ∃ t, exec (.balloonShrink e n) s = .next t ∧ t.out = .fm .ok [] :: s.out ∧
      (extent t e.val).blocks = (extent s e.val).blocks.take ((extent s e.val).blocks.length - n) ∧
      (extent t e.val).shrinking = (extent s e.val).blocks.drop ((extent s e.val).blocks.length - n) ∧
      (∃ v ∈ t.xlt.invals, v.withdraws = true ∧ v.tenant = (extent s e.val).tenant ∧
        v.lo = (extent s e.val).pvaBase + ((extent s e.val).blocks.length - n) * blockBytes ∧
        v.hi = extentHi (extent s e.val)) ∧
      Others extent e.val s t := by
  have hexec : exec (.balloonShrink e n) s =
      .next (fmDone .ok [] (shrinkTo e.val ((extent s e.val).blocks.length - n) s)) := by
    simp [exec, execBalloonShrink, served_of hm, hst, hkind, hshrink, hhost, hn, Nat.not_lt.mpr hle,
      Nat.not_lt.mpr hleast]
  have hrange : (extent s e.val).pvaBase + ((extent s e.val).blocks.length - n) * blockBytes <
      extentHi (extent s e.val) := by
    simp only [extentHi, blockBytes]
    omega
  refine ⟨_, hexec, ?_⟩
  rw [shrinkTo_eq]
  simp only [fmDone_out, fmDone_xlt, extent_fmDone]
  obtain ⟨v, hv, hten, hlo, hhi, hw⟩ := exists_orderInval (t := (extent s e.val).tenant) true
    (setExtent e.val { extent s e.val with
      blocks := (extent s e.val).blocks.take ((extent s e.val).blocks.length - n)
      shrinking := (extent s e.val).blocks.drop ((extent s e.val).blocks.length - n)
      shrinkAt := (extent s e.val).blocks.length - n } s) hrange
  refine ⟨by simp, by simp, by simp, ⟨v, hv, hw, hten, hlo, hhi⟩, fun k hk => ?_⟩
  rw [extent_fmDone, extent_orderInval, extent_setExtent, if_neg hk]

/-- The clause of RIGHTS_CHANGE. -/
theorem rightsChange_completes (e : Fin 16384) (r : Rights) (ov : List (Part × Rights)) (s : State) (hm : Managed s)
    (hst : (extent s e.val).st = .active) (hlen : ov.length ≤ 16) :
    ∃ t, exec (.rightsChange e r ov) s = .next t ∧ t.out = .fm .ok [] :: s.out ∧
      extent t e.val = { extent s e.val with rights := r, overrides := ov } ∧
      ((extent s e.val).blocks ≠ [] → ∃ v ∈ t.xlt.invals, v.tenant = (extent s e.val).tenant ∧
        v.lo = extentLo (extent s e.val) ∧ v.hi = extentHi (extent s e.val) ∧
        v.withdraws = !(onlyAdds (extent s e.val).rights (extent s e.val).overrides r ov)) ∧
      Others extent e.val s t ∧ Only [.out, .extents, .invals, .coreRest] s t ∧
      (onlyAdds (extent s e.val).rights (extent s e.val).overrides r ov = true → Only [.out, .extents, .invals] s t) := by
  generalize hadds : onlyAdds (extent s e.val).rights (extent s e.val).overrides r ov = adds
  have hexec : exec (.rightsChange e r ov) s = .next (fmDone .ok [] (orderInval (extent s e.val).tenant
      (extentLo (extent s e.val)) (extentHi (extent s e.val)) (!adds)
      (setExtent e.val { extent s e.val with rights := r, overrides := ov } s))) := by
    simp [exec, execRightsChange, served_of hm, hst, Nat.not_lt.mpr hlen, hadds]
  have hset := only_setExtent e.val { extent s e.val with rights := r, overrides := ov } s
  refine ⟨_, hexec, by simp, ?_, fun hblocks => ?_, fun k hk => ?_, ?_, ?_⟩
  · rw [extent_fmDone, extent_orderInval, extent_setExtent, if_pos rfl]
  · rw [fmDone_xlt]
    exact exists_orderInval _ _ (extentLo_lt_extentHi hblocks)
  · rw [extent_fmDone, extent_orderInval, extent_setExtent, if_neg hk]
  · exact only_trans (only_mono hset rfl) (only_trans (only_mono (only_orderInval _ _ _ _ _) rfl)
      (only_mono (only_fmDone _ _ _) rfl))
  · rintro rfl
    exact only_trans (only_mono hset rfl) (only_trans (only_mono (only_orderInval_false _ _ _ _) rfl)
      (only_mono (only_fmDone _ _ _) rfl))

/-- Settles O1, clause by clause. -/
theorem extentCommandsComplete : Obligations.ExtentCommandsComplete := by
  unfold Obligations.ExtentCommandsComplete
  exact ⟨allocateExtent_completes, extentZeroFillComplete_completes, extentWithdrawalDrained_completes,
    extentScrubComplete_completes, releaseExtent_completes, balloonGrow_completes, balloonShrink_completes,
    rightsChange_completes⟩

end Sys2Proof.Machine
end

section
/-! SUPPORT. What sending leaves as it was: the parts of the state and the counters that the operations of `NetOps` do
not touch, in the order of that file. -/

namespace Sys2Proof.Machine

open Sys2Proof.Safety

/-- Only the parts listed have changed, and of the counters none whose key lies below `K`. -/
def Within (K : Nat) (l : List Area) (s t : State) : Prop :=
  Only l s t ∧ ∀ k, k < K → tget 0 t.cnt k = tget 0 s.cnt k

theorem within_refl (K l s) : Within K l s s := ⟨only_refl l s, fun _ _ => rfl⟩

theorem within_trans {K : Nat} {l : List Area} {s t u : State} (h : Within K l s t) (h' : Within K l t u) :
    Within K l s u :=
  ⟨only_trans h.1 h'.1, fun k hk => (h'.2 k hk).trans (h.2 k hk)⟩

theorem within_mono {K K' : Nat} {l m : List Area} {s t : State} (h : Within K l s t) (hK : K' ≤ K)
    (hlm : l.all m.contains = true) : Within K' m s t :=
  ⟨only_mono h.1 hlm, fun k hk => h.2 k (hk.trans_le hK)⟩

/-- Where the counters are no part of the list, none has changed. -/
theorem within_of_only {l : List Area} {s t : State} (K : Nat) (h : Only l s t) (hl : l.contains .cnt = false) :
    Within K l s t :=
  ⟨h, fun _ _ => by rw [only_agree h .cnt hl]⟩

theorem within_ite {K : Nat} {l : List Area} {c : Prop} [Decidable c] {s t u : State} (ht : Within K l s t)
    (hu : Within K l s u) : Within K l s (if c then t else u) := by
  split
  · exact ht
  · exact hu

theorem within_when {K : Nat} {l : List Area} {c : Bool} {f : State → State} {s : State} (h : Within K l s (f s)) :
    Within K l s (when c f s) := within_ite h (within_refl K l s)

theorem within_forEach {α : Type} {K : Nat} {l : List Area} {f : α → State → State} (xs : List α) (s : State)
    (hf : ∀ a t, Within K l t (f a t)) : Within K l s (forEach xs f s) :=
  forEach_keeps (P := Within K l s) xs (fun a t h => within_trans h (hf a t)) (within_refl K l s)

/-- A counter at or above `K` is counted. -/
theorem within_cntAdd {K f n i : Nat} (k : Nat) (s : State) (h : K ≤ cntKey f n i) :
    Within K [.cnt] s (cntAdd f n i k s) := by
  refine ⟨only_cntAdd f n i k s, fun j hj => ?_⟩
  simp only [cntAdd, tget_tmod]
  rw [if_neg (Nat.ne_of_lt (hj.trans_le h))]

theorem within_bump {K f n i : Nat} (s : State) (h : K ≤ cntKey f n i) : Within K [.cnt] s (bump f n i s) :=
  within_cntAdd 1 s h

/-- A counter whose key lies below `K` reads the same. -/
theorem cntGet_of_within {K : Nat} {l : List Area} {s t : State} (h : Within K l s t) {f n i : Nat}
    (hk : cntKey f n i < K) : cntGet t f n i = cntGet s f n i := h.2 _ hk

/-! Setters. -/

theorem only_setPort (p x s) : Only [.ports] s (setPort p x s) :=
  ⟨rfl, rfl, fun a h => by cases a with | ports => cases h | routes => exact ⟨rfl, rfl⟩ | _ => rfl⟩

theorem only_setLastPort (x s) : Only [.rofRest] s { s with rof := { s.rof with lastPort := x } } :=
  ⟨rfl, rfl, fun a h => by cases a with | rofRest => cases h | routes => exact ⟨rfl, rfl⟩ | _ => rfl⟩

theorem only_setE2e (x s) : Only [.e2e] s { s with e2e := x } :=
  ⟨rfl, rfl, fun a h => by cases a with | e2e => cases h | routes => exact ⟨rfl, rfl⟩ | _ => rfl⟩

theorem only_setPair (x s) : Only [.pair] s { s with pair := x } :=
  ⟨rfl, rfl, fun a h => by cases a with | pair => cases h | routes => exact ⟨rfl, rfl⟩ | _ => rfl⟩

theorem only_setFree (x s) : Only [.free] s { s with free := x } :=
  ⟨rfl, rfl, fun a h => by cases a with | free => cases h | routes => exact ⟨rfl, rfl⟩ | _ => rfl⟩

theorem only_setSend (k c s) : Only [.e2e] s (setSend k c s) := only_setE2e _ s
theorem only_setRecv (k c s) : Only [.e2e] s (setRecv k c s) := only_setE2e _ s

/-! A packet leaves: what it counts stands in the rows of Table 18.9 from `cUtil` on. -/

/-- The parts that a packet leaving by a port touches. -/
abbrev outAreas : List Area := [.cnt, .ports, .rofRest]

theorem only_enqueue (p pk entry s) : Only [.ports] s (enqueue p pk entry s) := only_setPort _ _ s

theorem cntKey_mono {f f' : Nat} (n i : Nat) (h : f' ≤ f) : cntKey f' 0 0 ≤ cntKey f n i := by
  simp only [cntKey]
  omega

theorem within_cross (a b n s) : Within (cntKey cUtil 0 0) [.cnt] s (cross a b n s) :=
  within_forEach _ s fun _ t => within_cntAdd _ t (cntKey_mono _ _ le_rfl)

theorem within_sendBy (q p pk entry s) : Within (cntKey cUtil 0 0) outAreas s (sendBy q p pk entry s) :=
  within_trans (within_mono (within_cross _ _ _ s) le_rfl rfl)
    (within_mono (within_of_only _ (only_enqueue p pk entry _) rfl) le_rfl rfl)

/-- A packet that the device sends has no entry port: nothing is counted in `DROP_NO_ROUTE` for it. -/
theorem within_routeOut (q pk s) : Within (cntKey cUtil 0 0) outAreas s (routeOut q pk none s) := by
  unfold routeOut
  split
  case h_1 p _ =>
    have h := within_sendBy q p pk none s
    exact within_ite h (within_trans h (within_mono (within_of_only _ (only_setLastPort _ _) rfl) le_rfl rfl))
  case h_2 => exact within_refl _ _ s

theorem within_sendOut (k pk s) : Within (cntKey cUtil 0 0) outAreas s (sendOut k pk s) := by
  unfold sendOut
  split
  · split
    · exact within_mono (within_of_only _ (only_enqueue _ _ _ s) rfl) le_rfl rfl
    · exact within_refl _ _ s
  · exact within_routeOut _ pk s

theorem within_sendPlain (k p s) : Within (cntKey cUtil 0 0) outAreas s (sendPlain k p s) := within_sendOut k _ s

/-! A flow starts its packets: what it counts stands in the rows of Table 18.9 from `cE2e` on. -/

/-- The parts that the start of a flow's packets touches. -/
abbrev flowAreas : List Area := [.free, .cnt, .ports, .rofRest, .e2e, .pair]

/-- The least key of a counter that the start of a flow's packets counts. -/
abbrev flowKey : Nat := cntKey cE2e 0 0

theorem within_noteStall (k c w s) : Within flowKey flowAreas s (noteStall k c w s) := by
  have hset (d t) : Within flowKey flowAreas t (setSend k d t) :=
    within_mono (within_of_only _ (only_setSend k d t) rfl) le_rfl rfl
  have hb (c' i t) : Within flowKey flowAreas t (when c' (bump cE2e (k.q % 4) i) t) :=
    within_when (within_mono (within_bump t (cntKey_mono _ _ le_rfl)) le_rfl rfl)
  exact within_trans (within_trans (hb _ 12 s) (hb _ 11 _)) (hset _ _)

theorem within_noteSeq (k p s) : Within flowKey flowAreas s (noteSeq k p s) := by
  have hset (x) : Within flowKey flowAreas s { s with e2e := x } :=
    within_mono (within_of_only _ (only_setE2e x s) rfl) le_rfl rfl
  unfold noteSeq
  simp only
  split_ifs
  · split
    · exact hset _
    · exact within_refl _ _ s
  · split
    · exact hset _
    · exact within_refl _ _ s
  · exact within_refl _ _ s

theorem within_joinFlow (k p s) : Within flowKey flowAreas s (joinFlow k p s) :=
  within_mono (within_of_only _ (only_setSend k _ s) rfl) le_rfl rfl

theorem within_launch (k p c s) : Within flowKey flowAreas s (launch k p c s) := by
  have h1 (d) : Within flowKey flowAreas s (setSend k d s) :=
    within_mono (within_of_only _ (only_setSend k d s) rfl) le_rfl rfl
  exact within_trans (within_trans (h1 _) (within_noteSeq k _ _))
    (within_mono (within_sendOut k _ _) (cntKey_mono 0 0 (by decide)) rfl)

theorem within_newCtx (c s) : Within flowKey flowAreas s (newCtx c s).2 :=
  within_mono (within_of_only flowKey (l := [.free]) (only_setFree _ s) rfl) le_rfl rfl

/-- Packets that wait on a flow are started with what a start and a new context leave. -/
theorem within_flushN {make : SendCtx → State → SendCtx × State} {start : Packet → SendCtx → State → State}
    (hmake : ∀ c t, Within flowKey flowAreas t (make c t).2)
    (hstart : ∀ p c t, Within flowKey flowAreas t (start p c t)) (n k s) :
    Within flowKey flowAreas s (flushN make start n k s) := by
  induction n generalizing s with
  | zero => exact within_refl _ _ s
  | succ n ih =>
    unfold flushN
    split
    · exact within_refl _ _ s
    next c _ =>
      split
      · exact within_refl _ _ s
      · split
        · have hmade : Within flowKey flowAreas s (if c.made = true then (c, s) else make c s).2 := by
            split
            · exact within_refl _ _ s
            · exact hmake c s
          exact within_trans (within_trans hmade (hstart _ _ _)) (ih _)
        · exact within_noteStall _ _ _ s

theorem within_sendPair (typ vc a b n pay s) : Within flowKey flowAreas s (sendPair typ vc a b n pay s) := by
  unfold sendPair
  split
  · exact within_refl _ _ s
  · exact within_trans (within_joinFlow _ _ s)
      (within_flushN within_newCtx (fun p c t => within_launch _ p c t) _ _ _)

theorem within_setPair (x s) : Within flowKey flowAreas s { s with pair := x } :=
  within_mono (within_of_only _ (only_setPair x s) rfl) le_rfl rfl

theorem within_orderRec (r s) : Within flowKey flowAreas s (orderRec r s) := by
  unfold orderRec
  refine within_ite ?_ (within_refl _ _ s)
  exact within_trans (within_trans (within_setPair _ s)
    (within_mono (within_bump _ (cntKey_mono 0 0 (by decide))) le_rfl rfl)) (within_sendPair _ _ _ _ _ _ _)

theorem within_closeUnit (q u crc s) : Within flowKey flowAreas s (closeUnit q u crc s) :=
  within_ite (within_sendPair _ _ _ _ _ _ s) (within_ite (within_setPair _ s) (within_refl _ _ s))

theorem within_feed (q owner b s) : Within flowKey flowAreas s (feed q owner b s) := by
  unfold feed
  split
  · exact within_refl _ _ s
  · exact within_trans (within_setPair _ s) (within_forEach _ _ fun i t => within_closeUnit q _ _ t)

theorem within_startPkt (k p c s) : Within flowKey flowAreas s (startPkt k p c s) :=
  within_ite (within_launch k p c s) (within_trans (within_launch k p c s) (within_feed _ _ _ _))

theorem within_openCtx (c s) : Within flowKey flowAreas s (openCtx c s).2 := by
  unfold openCtx
  split
  · exact within_setPair _ s
  · exact within_trans (within_newCtx c s) (within_orderRec _ _)

theorem within_flushFlow (k s) : Within flowKey flowAreas s (flushFlow k s) :=
  within_ite (within_flushN within_newCtx (fun p c t => within_startPkt k p c t) _ k s)
    (within_flushN within_openCtx (fun p c t => within_startPkt k p c t) _ k s)

theorem within_flushStalled (q n s) : Within flowKey flowAreas s (flushStalled q n s) :=
  within_forEach _ s fun k t => within_flushFlow k t

theorem within_sendOn (k p s) : Within flowKey flowAreas s (sendOn k p s) :=
  within_ite (within_refl _ _ s) (within_trans (within_joinFlow k _ s) (within_flushFlow k _))

theorem within_sendPacket (q p s) : Within flowKey flowAreas s (sendPacket q p s) := within_sendOn _ p s

end Sys2Proof.Machine
end

section
/-! SUPPORT. The scheduler (chapter 10): admission, class credit, queue samples and the fabric manager's settings, each with
the effect its row gives it. -/

namespace Sys2Proof.Machine

open Sys2Proof.Safety

/-! An operation applied for each element of a list, where each application writes the entry of one key. -/

section ForEach

variable {β κ α : Type} {v : State → κ → α} {f : β → State → State} {key : β → κ} {I : State → Prop}

/-- An entry whose key no element has reads the same. -/
theorem forEach_others (ho : ∀ b t, I t → Others v (key b) t (f b t)) (hI : ∀ b t, I t → I (f b t)) (l : List β) {k : κ}
    (hk : ∀ b ∈ l, key b ≠ k) {s : State} (hs : I s) : v (forEach l f s) k = v s k := by
  induction l generalizing s with
  | nil => rfl
  | cons b r ih =>
    calc v (forEach r f (f b s)) k = v (f b s) k := ih (fun c hc => hk c (.tail _ hc)) (hI b s hs)
      _ = v s k := ho b s hs k (hk b (.head _)).symm

/-- What each application establishes of its entry, wherever the invariant holds, holds of it at the end. -/
theorem forEach_reaches {P : κ → α → Prop} (ho : ∀ b t, I t → Others v (key b) t (f b t)) (hI : ∀ b t, I t → I (f b t))
    (hP : ∀ b t, I t → P (key b) (v (f b t) (key b))) (l : List β) {s : State} (hs : I s) {b : β} (hb : b ∈ l) :
    P (key b) (v (forEach l f s) (key b)) := by
  induction l generalizing s b with
  | nil => exact (List.not_mem_nil hb).elim
  | cons c r ih =>
    by_cases h : ∃ b' ∈ r, key b' = key b
    · obtain ⟨b', hr, he⟩ := h
      exact he ▸ ih (hI c s hs) hr
    · push Not at h
      have hbc : b = c := (List.mem_cons.mp hb).resolve_right fun hr => h b hr rfl
      subst hbc
      have hrest : v (forEach r f (f b s)) (key b) = v (f b s) (key b) := forEach_others ho hI r h (hI b s hs)
      exact hrest.symm ▸ hP b s hs

/-- Where no key repeats, an entry is written once, from its value at the start. -/
theorem forEach_once {g : κ → α → α} (ho : ∀ b t, I t → Others v (key b) t (f b t)) (hI : ∀ b t, I t → I (f b t))
    (hg : ∀ b t, I t → v (f b t) (key b) = g (key b) (v t (key b))) (l : List β) (hl : (l.map key).Nodup) {s : State}
    (hs : I s) {b : β} (hb : b ∈ l) : v (forEach l f s) (key b) = g (key b) (v s (key b)) := by
  induction l generalizing s b with
  | nil => exact (List.not_mem_nil hb).elim
  | cons c r ih =>
    rw [List.map_cons, List.nodup_cons] at hl
    obtain ⟨hc, hr⟩ := hl
    rcases List.mem_cons.mp hb with rfl | hbr
    · calc v (forEach r f (f b s)) (key b) = v (f b s) (key b) :=
            forEach_others ho hI r (fun d hd e => hc (List.mem_map.mpr ⟨d, hd, e⟩)) (hI b s hs)
        _ = _ := hg b s hs
    · have hne : key b ≠ key c := fun e => hc (e ▸ List.mem_map_of_mem hbr)
      calc v (forEach r f (f c s)) (key b) = g (key b) (v (f c s) (key b)) := ih hr (hI c s hs) hbr
        _ = _ := by rw [ho c s hs (key b) hne]

end ForEach

/-! Counters. -/

theorem cntGet_bump_same (f n i : Nat) (s : State) :
    cntGet (bump f n i s) f n i = satAdd (2 ^ 64 - 1) (cntGet s f n i) 1 := by
  simp only [cntGet, bump, cntAdd, tget_tmod, if_pos]

theorem cntGet_bump_ne {f n i f' n' i' : Nat} (h : cntKey f' n' i' ≠ cntKey f n i) (s : State) :
    cntGet (bump f n i s) f' n' i' = cntGet s f' n' i' := by
  simp only [cntGet, bump, cntAdd, tget_tmod, if_neg h]

theorem cntGet_congr {s t : State} (h : t.cnt = s.cnt) (f n i : Nat) : cntGet t f n i = cntGet s f n i := by
  unfold cntGet
  rw [h]

/-! Settings. -/

/-- A write of the scheduler's tables other than the power states of the quadrants. -/
theorem only_setSch {x : SchState} {s : State} (h : x.q = s.sch.q) : Only [.schRest] s { s with sch := x } :=
  ⟨rfl, rfl, fun a ha => by cases a with | schRest => cases ha | routes => exact ⟨rfl, rfl⟩ | power => exact h | _ => rfl⟩

/-- A setting of the fabric manager: the table is written and OK answered. -/
theorem only_setSch_fmDone {x : SchState} {s : State} (h : x.q = s.sch.q) :
    Only [.out, .schRest] s (fmDone .ok [] { s with sch := x }) :=
  only_trans (only_mono (only_setSch h) rfl) (only_mono (only_fmDone _ _ _) rfl)

theorem fmDone_sch (st vals s) : (fmDone st vals s).sch = s.sch := by rw [fmDone_eq]

/-! Admission (R261). -/

theorem coreOf_congr {s t : State} (h : t.core.cores = s.core.cores) (n : Nat) : coreOf t n = coreOf s n := by
  unfold coreOf
  rw [h]

theorem job_congr {s t : State} (h : t.que.jobs = s.que.jobs) (j : Nat) : job t j = job s j := by
  unfold job
  rw [h]

theorem startCore_others (jid j n rank s) : Others coreOf n s (startCore jid j n rank s) := fun k hk => by
  rw [startCore, coreOf_setCore, if_neg hk]
  rfl

theorem startCore_que (jid j n rank s) : (startCore jid j n rank s).que = s.que := rfl
theorem startCore_cnt (jid j n rank s) : (startCore jid j n rank s).cnt = s.cnt := rfl

/-- A core that a job's share has just been given to: its store, accumulators and semaphores at zero. -/
def Fresh (jid : Nat) (c : Core) : Prop := c.job = some jid ∧ c.sems = [] ∧ c.store = [] ∧ c.acc = []

theorem startCore_fresh (jid j n rank s) : Fresh jid (coreOf (startCore jid j n rank s) n) := by
  rw [startCore, coreOf_setCore, if_pos rfl]
  exact ⟨rfl, rfl, rfl, rfl⟩

/-- The cores of a list take their shares of a job, rank by rank. -/
def startCores (jid : Nat) (j : Job) (cs : List Nat) (s : State) : State :=
  forEach (List.range cs.length) (fun r s => startCore jid j (cs.getD r 0) r s) s

theorem startCores_fresh {jid : Nat} {j : Job} {cs : List Nat} {n : Nat} (hn : n ∈ cs) (s : State) :
    Fresh jid (coreOf (startCores jid j cs s) n) := by
  obtain ⟨r, hr, rfl⟩ := List.getElem_of_mem hn
  have h := forEach_reaches (v := coreOf) (key := fun r => cs.getD r 0) (I := fun _ => True) (P := fun _ => Fresh jid)
    (fun r t _ => startCore_others jid j _ r t) (fun _ _ _ => trivial) (fun r t _ => startCore_fresh jid j _ r t)
    (List.range cs.length) (s := s) trivial (List.mem_range.mpr hr)
  rwa [List.getD_eq_getElem _ _ hr] at h

theorem startCores_others {jid : Nat} {j : Job} {cs : List Nat} {n : Nat} (hn : n ∉ cs) (s : State) :
    coreOf (startCores jid j cs s) n = coreOf s n :=
  forEach_others (v := coreOf) (key := fun r => cs.getD r 0) (I := fun _ => True)
    (fun r t _ => startCore_others jid j _ r t) (fun _ _ _ => trivial) _
    (fun r hr e => hn (by
      rw [← e, List.getD_eq_getElem _ _ (List.mem_range.mp hr)]
      exact List.getElem_mem _)) trivial

theorem startCores_que (jid j cs s) : (startCores jid j cs s).que = s.que :=
  forEach_keeps (P := fun t => t.que = s.que) _ (fun _ _ h => h) rfl

theorem startCores_cnt (jid j cs s) : (startCores jid j cs s).cnt = s.cnt :=
  forEach_keeps (P := fun t => t.cnt = s.cnt) _ (fun _ _ h => h) rfl

theorem only_setChan9 (p x s) : Only [.coreRest] s (setChan9 p x s) :=
  ⟨rfl, rfl, fun a h => by cases a with | coreRest => cases h | routes => exact ⟨rfl, rfl⟩ | _ => rfl⟩

theorem only_setSerials (x s) : Only [.coreRest] s { s with core := { s.core with serials := x } } :=
  ⟨rfl, rfl, fun a h => by cases a with | coreRest => cases h | routes => exact ⟨rfl, rfl⟩ | _ => rfl⟩

/-- The parts that what precedes a job's start on its cores touches: channels, serial numbers, and the order stream. -/
abbrev admitAreas : List Area := .coreRest :: flowAreas

/-- An admission binds channels and takes a serial number, then sets the job RUNNING on the cores chosen and gives each of
them its share; it is counted once, and once more in counter 2 where it leaves the data quadrant. -/
theorem admitJob_eq (jid : Nat) (j : Job) (cs : List Nat) (s : State) : ∃ (u : State) (j' : Job) (shed : Bool),
    Within flowKey admitAreas s u ∧ j'.phase = .running ∧ j'.cores = cs ∧
    admitJob jid j cs s = bump cSch 0 0 (when shed (bump cSch 0 2) (startCores jid j' cs (setJob jid (some j') u))) := by
  have hchan (t : State) : Within flowKey admitAreas s t → ∀ l : List (Nat × Nat), Within flowKey admitAreas s
      (forEach l (fun c t => setChan9 c.2 { job := some jid, logical := c.1, members := j.width } t) t) :=
    fun h l => within_trans h (within_forEach l t fun c t =>
      within_mono (within_of_only _ (only_setChan9 c.2 _ t) rfl) le_rfl rfl)
  have hser (x : Tbl Nat) (t : State) (h : Within flowKey admitAreas s t) :
      Within flowKey admitAreas s { t with core := { t.core with serials := x } } :=
    within_trans h (within_mono (within_of_only _ (only_setSerials x t) rfl) le_rfl rfl)
  have hrec (r : OrderRec) (t : State) (h : Within flowKey admitAreas s t) :
      Within flowKey admitAreas s (orderRec r t) := within_trans h (within_mono (within_orderRec r t) le_rfl rfl)
  unfold admitJob
  refine ⟨_, _, _, hrec _ _ (hrec _ _ ?_), ?_, ?_, rfl⟩
  · have h := hchan s (within_refl _ _ s) ((jobChans j).zip (freeChans s))
    exact within_ite h (hser _ _ h)
  · split <;> rfl
  · split <;> rfl

/-- The job is RUNNING on the cores it was admitted to, which start afresh; every other core is as it was, and the
admission is counted. -/
theorem admitJob_effect (jid : Nat) (j : Job) (cs : List Nat) (s : State) :
    (job (admitJob jid j cs s) jid).map (·.phase) = some .running ∧
    (job (admitJob jid j cs s) jid).map (·.cores) = some cs ∧
    (∀ n ∈ cs, Fresh jid (coreOf (admitJob jid j cs s) n)) ∧
    (∀ n, n ∉ cs → coreOf (admitJob jid j cs s) n = coreOf s n) ∧
    cntGet (admitJob jid j cs s) cSch 0 0 = satAdd (2 ^ 64 - 1) (cntGet s cSch 0 0) 1 := by
  obtain ⟨u, j', shed, hu, hphase, hcores, he⟩ := admitJob_eq jid j cs s
  rw [he]
  have hcount (t : State) : (bump cSch 0 0 (when shed (bump cSch 0 2) t)).que = t.que ∧
      (bump cSch 0 0 (when shed (bump cSch 0 2) t)).core = t.core ∧
      cntGet (when shed (bump cSch 0 2) t) cSch 0 0 = cntGet t cSch 0 0 := by
    cases shed
    · exact ⟨rfl, rfl, rfl⟩
    · exact ⟨rfl, rfl, cntGet_bump_ne (by decide) t⟩
  obtain ⟨hq, hc, hn⟩ := hcount (startCores jid j' cs (setJob jid (some j') u))
  have hjob : job (bump cSch 0 0 (when shed (bump cSch 0 2) (startCores jid j' cs (setJob jid (some j') u)))) jid =
      some j' := by
    rw [job_congr (congrArg QueState.jobs (hq.trans (startCores_que _ _ _ _))), job_setJob, if_pos rfl]
  refine ⟨by rw [hjob, Option.map_some, hphase], by rw [hjob, Option.map_some, hcores], fun n h => ?_, fun n h => ?_, ?_⟩
  · rw [coreOf_congr (congrArg CoreState.cores hc)]
    exact startCores_fresh h _
  · rw [coreOf_congr (congrArg CoreState.cores hc), startCores_others h]
    exact coreOf_congr (only_agree hu.1 .cores rfl) n
  · rw [cntGet_bump_same, hn, cntGet_congr (startCores_cnt _ _ _ _)]
    exact congrArg (satAdd (2 ^ 64 - 1) · 1) (cntGet_of_within hu (by decide))

/-- The oldest job beyond the age limit, where there is one candidate: it, or none. -/
theorem agedJob_one (s : State) (c : Nat × Job) : agedJob s [c] = some c ∨ agedJob s [c] = none := by
  by_cases h : c.2.readySince + ageLimit s < s.time
  · left
    simp [agedJob, h]
  · right
    simp [agedJob, h]

/-- A tick admits the one ready job of the quadrant where its class has credit and it fits. -/
theorem schedulerTick_of_one {q : Fin 4} {now jid : Nat} {cs : List Nat} {j : Job} {s : State} (hrun : Running s)
    (hopen : admissionOpen (advance now s) = true) (hq : quadServes s q.val = true) (hjobs : s.que.jobs = [(jid, some j)])
    (hready : j.phase = .ready) (hquiet : j.quiesced = false) (hquad : j.quadrant = q.val)
    (hgroup : (group s j.group).st = .active) (hcredit : 0 ≤ creditOf s (classOf s j.group))
    (hwidth : j.width ≤ coresInService s) (hplace : placement (advance now s) j = some cs) :
    execSchedulerTick q now s = .next (admitJob jid j cs (advance now s)) := by
  have hq1 : quadServes (advance now s) q.val = true := hq
  have hc1 : ¬ creditOf (advance now s) (classOf (advance now s) j.group) < 0 := not_lt.mpr hcredit
  have hl : readyJobs (advance now s) q.val = [(jid, j)] := by
    have hg : (group (advance now s) j.group).st = .active := hgroup
    simp [readyJobs, hjobs, hready, hquiet, hquad, hg]
  have htry : tryAdmit (jid, j) (advance now s) = (false, admitJob jid j cs (advance now s)) := by
    have hw : ¬ coresInService (advance now s) < j.width := not_lt.mpr hwidth
    simp [tryAdmit, hw, hplace]
  refine congrArg Host.Outcome.next ((live_of hrun).trans ?_)
  simp only [hopen, hq1, Bool.not_true, Bool.or_self, Bool.false_eq_true, if_false, hl]
  rcases agedJob_one (advance now s) (jid, j) with h | h
  · simp only [h, if_neg hc1, htry]
  · have hf : 0 ≤ creditOf (advance now s) (classOf (advance now s) j.group) := hcredit
    simp [h, hf, sortBy, insertBy, htry, when]

/-! Class credit (R262). -/

/-- One µs of credit of class `c`, from the credit it had: nothing where the class is idle, else the rate less 64 for each
engine in use, between the burst and its negative. -/
def creditAfter (l : List (Nat × Nat)) (s : State) (c : Nat) (v : Int) : Int :=
  if enginesInUse s l c = 0 ∧ classReady s c = false then v
  else max (-(classBurst s c : Int)) (min (classBurst s c : Int)
    (v + (classRate s c : Int) - 64 * (enginesInUse s l c : Int)))

/-- The state `s` with other class credits. -/
def SameButCredit (s t : State) : Prop := ∃ x, t = { s with sch := { s.sch with classCredit := x } }

theorem creditTick_sameButCredit {l : List (Nat × Nat)} {c : Nat} {s t : State} (h : SameButCredit s t) :
    SameButCredit s (creditTick l c t) := by
  obtain ⟨x, rfl⟩ := h
  unfold creditTick
  simp only
  split
  · exact ⟨x, rfl⟩
  · exact ⟨_, rfl⟩

theorem creditTick_others (l c t) : Others creditOf c t (creditTick l c t) := fun k hk => by
  unfold creditTick
  simp only
  split
  · rfl
  · exact tget_tput_ne _ _ _ hk

theorem creditOf_creditTick {l : List (Nat × Nat)} {c : Nat} {s t : State} (h : SameButCredit s t) :
    creditOf (creditTick l c t) c = creditAfter l s c (creditOf t c) := by
  obtain ⟨x, rfl⟩ := h
  have hu : enginesInUse { s with sch := { s.sch with classCredit := x } } l c = enginesInUse s l c := rfl
  have hr : classReady { s with sch := { s.sch with classCredit := x } } c = classReady s c := rfl
  unfold creditTick creditAfter
  simp only [hu, hr, Bool.and_eq_true, decide_eq_true_eq, Bool.not_eq_true']
  split
  · rfl
  · exact tget_tput_same _ _ _ _

theorem creditTicks_sameButCredit (l : List (Nat × Nat)) (cs : List Nat) (s : State) :
    SameButCredit s (forEach cs (creditTick l) s) :=
  forEach_keeps (P := SameButCredit s) cs (fun _ _ h => creditTick_sameButCredit h) ⟨_, rfl⟩

/-! Queue samples (R265). -/

/-- The delay that a sample of queue `n` takes. -/
def sampleDelay (s : State) (n : Nat) : Nat :=
  ((oldestStamp (queue s n)).map (fun a => min (2 ^ 32 - 1) ((s.time - a) / 1000))).getD 0

/-- What is sampled of a queue: its depth, its delay and its greatest delay. -/
def samples (s : State) (n : Nat) : Nat × Nat × Nat :=
  (tget 0 s.sch.qDepth n, tget 0 s.sch.qDelay n, tget 0 s.sch.qMaxDelay n)

/-- The state `s` with other samples, the greatest delay of each queue grown by no more than its delay now. -/
def SameButSamples (s t : State) : Prop :=
  (∃ a b c, t = { s with sch := { s.sch with qDepth := a, qDelay := b, qMaxDelay := c } }) ∧
  ∀ n, max (tget 0 t.sch.qMaxDelay n) (sampleDelay s n) = max (tget 0 s.sch.qMaxDelay n) (sampleDelay s n)

theorem only_of_sameButSamples {s t : State} (h : SameButSamples s t) : Only [.schRest] s t := by
  obtain ⟨⟨a, b, c, rfl⟩, -⟩ := h
  exact only_setSch rfl

theorem sampleQueue_eq (n s) : sampleQueue n s = { s with sch := { s.sch with
    qDepth := tput 0 s.sch.qDepth n (min (2 ^ 32 - 1) (sqHeld (queue s n) + inFlight (queue s n)))
    qDelay := tput 0 s.sch.qDelay n (sampleDelay s n)
    qMaxDelay := tput 0 s.sch.qMaxDelay n (max (tget 0 s.sch.qMaxDelay n) (sampleDelay s n)) } } := by
  unfold sampleQueue sampleDelay
  cases h : oldestStamp (queue s n) with
  | none => simp only [h, Option.map_none, Option.getD_none]
  | some a => simp only [h, Option.map_some, Option.getD_some]

theorem sampleDelay_of_sameButSamples {s t : State} (h : SameButSamples s t) (n : Nat) :
    sampleDelay t n = sampleDelay s n := by
  obtain ⟨⟨a, b, c, rfl⟩, -⟩ := h
  rfl

theorem sampleQueue_sameButSamples {n : Nat} {s t : State} (h : SameButSamples s t) :
    SameButSamples s (sampleQueue n t) := by
  have hd := sampleDelay_of_sameButSamples h n
  obtain ⟨⟨a, b, c, rfl⟩, hmax⟩ := h
  rw [sampleQueue_eq]
  refine ⟨⟨_, _, _, rfl⟩, fun k => ?_⟩
  have hk := hmax k
  simp only [tget_tput] at hk ⊢
  split
  · next e =>
    subst e
    rw [hd, max_assoc, max_self]
    exact hk
  · exact hk

theorem sampleQueue_others (n t) : Others samples n t (sampleQueue n t) := fun k hk => by
  simp only [sampleQueue_eq, samples, tget_tput, if_neg hk]

/-- A sample of queue `n` as `s` has it: its depth, its delay, and the greatest of its delays until now. -/
def IsSample (s : State) (n : Nat) (x : Nat × Nat × Nat) : Prop :=
  x = (min (2 ^ 32 - 1) (sqHeld (queue s n) + inFlight (queue s n)), sampleDelay s n,
    max (tget 0 s.sch.qMaxDelay n) (sampleDelay s n))

theorem isSample_sampleQueue {n : Nat} {s t : State} (h : SameButSamples s t) :
    IsSample s n (samples (sampleQueue n t) n) := by
  have hd := sampleDelay_of_sameButSamples h n
  obtain ⟨⟨a, b, c, rfl⟩, hmax⟩ := h
  simp only [IsSample, sampleQueue_eq, samples, tget_tput_same, hd, hmax n]
  rfl

/-- Settles O20: each clause by the lemma of its command; a tick's admission by what `admitJob` does, the credits and the
samples by what each step of their loops does to the entry of its own key. -/
theorem schedulerCommandsComplete : Obligations.SchedulerCommandsComplete := by
  unfold Obligations.SchedulerCommandsComplete
  refine ⟨?_, ?_, ?_, ?_, ?_, ?_, ?_, ?_, ?_⟩
  · intro q now jid cs j s hrun hopen hq hjobs hready hquiet hquad hgroup hcredit hwidth hplace
    obtain ⟨hphase, hcores, hin, hout, hcnt⟩ := admitJob_effect jid j cs (advance now s)
    exact ⟨_, schedulerTick_of_one hrun hopen hq hjobs hready hquiet hquad hgroup hcredit hwidth hplace,
      hphase, hcores, hin, hout, hcnt⟩
  · intro l now s hrun
    refine ⟨_, congrArg Host.Outcome.next (live_of hrun), fun c hc => ?_, ?_⟩
    · exact forEach_once (v := creditOf) (key := id) (I := SameButCredit (advance now s)) (g := creditAfter l (advance now s))
        (fun c t _ => creditTick_others l c t) (fun _ _ h => creditTick_sameButCredit h) (fun _ _ h => creditOf_creditTick h)
        (List.range 256) (by simpa using List.nodup_range) ⟨_, rfl⟩ (List.mem_range.mpr hc)
    · obtain ⟨x, hx⟩ := creditTicks_sameButCredit l (List.range 256) (advance now s)
      rw [hx]
      exact only_trans (only_mono (only_advance now s) rfl) (only_mono (only_setSch rfl) rfl)
  · intro now s hrun
    have hinit : SameButSamples (advance now s)
        { advance now s with sch := { s.sch with qDepth := [], qDelay := [] } } := ⟨⟨_, _, _, rfl⟩, fun _ => rfl⟩
    refine ⟨_, congrArg Host.Outcome.next (live_of hrun), fun n hn => ?_, ?_⟩
    · have h := forEach_reaches (v := samples) (key := id) (I := SameButSamples (advance now s))
        (P := IsSample (advance now s)) (fun n t _ => sampleQueue_others n t) (fun _ _ h => sampleQueue_sameButSamples h)
        (fun _ _ h => isSample_sampleQueue h) _ hinit hn
      simp only [IsSample, samples, Prod.mk.injEq] at h
      obtain ⟨hdepth, hdelay, hmax⟩ := h
      exact ⟨hdepth, hdelay, hmax.trans (congrArg (max (tget 0 s.sch.qMaxDelay n)) hdelay.symm)⟩
    · have h := forEach_keeps (P := SameButSamples (advance now s)) (f := sampleQueue) (s.que.queues.map (·.1))
        (fun _ _ h => sampleQueue_sameButSamples h) hinit
      exact only_trans (only_mono (only_advance now s) rfl) (only_mono (only_of_sameButSamples h) rfl)
  · intro n s hrun hbound howner
    refine ⟨{ s with sch := { s.sch with qMaxDelay := tput 0 s.sch.qMaxDelay n.val 0 } }, ?_, tget_tput_same 0 0 s.sch.qMaxDelay n.val,
      fun k hk => tget_tput_ne 0 0 s.sch.qMaxDelay hk, only_setSch rfl⟩
    refine congrArg Host.Outcome.next ((live_of hrun).trans ?_)
    rw [queueWrite, if_neg hbound, howner]
    rfl
  · intro c rate burst s hm
    refine ⟨_, congrArg Host.Outcome.next (served_of hm _), fmDone_out _ _ _, ?_, ?_, fun k hk => ?_,
      only_setSch_fmDone rfl⟩
    · simp [classRate]
    · simp [classBurst]
    · simp [classRate, classBurst, tget_tput_ne _ _ _ hk]
  · intro g c s hm
    refine ⟨_, congrArg Host.Outcome.next (served_of hm _), fmDone_out _ _ _, ?_, fun k hk => ?_, only_setSch_fmDone rfl⟩
    · simp [classOf]
    · simp [classOf, tget_tput_ne _ _ _ hk]
  · intro a f m s hm
    exact ⟨_, congrArg Host.Outcome.next (served_of hm _), fmDone_out _ _ _, fmDone_sch _ _ _, only_setSch_fmDone rfl⟩
  · intro k c anyT p anyP rate burst s hm hburst hnone
    have hb : ¬ burst.toNat < 4128 := not_lt.mpr hburst
    refine ⟨fmDone .ok [] { s with sch := { s.sch with
        contracts := tput {} s.sch.contracts k.val
          { tenant := c.val, anyTenant := anyT, port := p.val, anyPort := anyP, valid := true, rateMbps := rate.toNat
            burstB := burst.toNat, milli := 1000 * burst.toNat, tokenTime := s.time } } },
      congrArg Host.Outcome.next ((served_of hm _).trans ?_), fmDone_out _ _ _, ?_, only_setSch_fmDone rfl⟩
    · simp only [hb, hnone, List.any_nil, Bool.and_false, decide_false, Bool.false_eq_true, if_false]
    · rw [fmDone_sch]
      exact tget_tput_same _ _ _ _
  · intro k c anyT p anyP valid rate burst s hm hvalid hburst
    refine congrArg Host.Outcome.next ((served_of hm _).trans ?_)
    simp only [hvalid, hburst, decide_true, Bool.and_self, if_true]
    exact fmDone_eq _ _ _

end Sys2Proof.Machine
end

section
/-! SUPPORT. Leases and tethers (R42 to R47): association lists, the rules of a holder's lapse and renewal, and what a release
does to tethers and kites. -/

namespace Sys2Proof.Machine

open Sys2Proof.Safety

/-! Association lists. -/

theorem afind_aset {κ α : Type} [DecidableEq κ] (k j : κ) (v : α) (l : List (κ × α)) :
    afind (aset k v l) j = if j = k then some v else afind l j := by
  induction l with
  | nil => simp only [aset, afind, eq_comm]
  | cons c r ih =>
    obtain ⟨a, w⟩ := c
    by_cases hak : a = k
    · subst hak
      simp only [aset, if_pos, afind, eq_comm]
      split <;> rfl
    · simp only [aset, if_neg hak, afind, ih]
      by_cases haj : a = j
      · subst haj
        simp [hak]
      · simp [haj]

/-! Leases. -/

theorem lease_congr {s t : State} (h : t.pool.leases = s.pool.leases) (p : Part) : lease t p = lease s p := by
  unfold lease
  rw [h]

theorem lease_setLease (p j : Part) (l : Lease) (s : State) :
    lease (setLease p l s) j = if j = p then l else lease s j := by
  simp only [lease, setLease, afind_aset]
  split <;> rfl

theorem lease_setLease_same (p : Part) (l : Lease) (s : State) : lease (setLease p l s) p = l := by
  rw [lease_setLease, if_pos rfl]

theorem setLease_others (p : Part) (l : Lease) (s : State) : Others lease p s (setLease p l s) := fun j hj => by
  rw [lease_setLease, if_neg hj]

theorem only_setLease (p l s) : Only [.leases] s (setLease p l s) :=
  ⟨rfl, rfl, fun a h => by cases a with | leases => cases h | routes => exact ⟨rfl, rfl⟩ | _ => rfl⟩

theorem tethersOf_congr {s t : State} (h : t.pool.tethers = s.pool.tethers) (p : Part) : tethersOf t p = tethersOf s p := by
  unfold tethersOf
  rw [h]

theorem group_congr {s t : State} (h : t.que.groups = s.que.groups) (g : Nat) : group t g = group s g := by
  unfold group
  rw [h]

/-! Extents are held and freed again (Table 2.4): the extent and the alert, and no lease. -/

theorem only_alert (k vals s) : Only [.out] s (alert k vals s) := by
  rw [alert_eq]
  exact only_said _ s

theorem only_alertCleared (k vals s) : Only [.out] s (emit (.alertCleared k vals) s) := by
  rw [emit_free rfl]
  exact only_said _ s

theorem only_event (c b s) : Only [.obs] s (event c b s) := by
  rw [event_frame]
  exact ⟨rfl, rfl, fun a h => by cases a with | obs => cases h | routes => exact ⟨rfl, rfl⟩ | _ => rfl⟩

theorem only_holdExtent (e s) : Only [.out, .extents] s (holdExtent e s) := by
  have h (x) : Only [.out, .extents] s (alert .heldExtent [e] (setExtent e x s)) :=
    only_trans (only_mono (only_setExtent e x s) rfl) (only_mono (only_alert _ _ _) rfl)
  unfold holdExtent
  simp only
  split
  · exact h _
  · exact h _
  · exact only_refl _ s

theorem only_unholdExtent (e s) : Only [.out, .extents] s (unholdExtent e s) := by
  have h (x) : Only [.out, .extents] s (emit (.alertCleared .heldExtent [e]) (setExtent e x s)) :=
    only_trans (only_mono (only_setExtent e x s) rfl) (only_mono (only_alertCleared _ _ _) rfl)
  unfold unholdExtent
  simp only
  split
  · exact h _
  · exact h _
  · exact only_refl _ s

/-- What was sent stays sent. -/
def Sends (s t : State) : Prop := ∀ o, o ∈ s.out → o ∈ t.out

theorem sends_holdExtent (e s) : Sends s (holdExtent e s) := fun o ho => by
  unfold holdExtent
  simp only
  split
  · exact List.mem_cons_of_mem _ ho
  · exact List.mem_cons_of_mem _ ho
  · exact ho

theorem sends_unholdExtent (e s) : Sends s (unholdExtent e s) := fun o ho => by
  unfold unholdExtent
  simp only
  split
  · exact List.mem_cons_of_mem _ ho
  · exact List.mem_cons_of_mem _ ho
  · exact ho

/-! A holder lapses and is renewed (R44, R45). -/

/-- The holder is a group: its lapse and renewal act on its queues and jobs. -/
def isGroup : Part → Bool
  | .grp _ => true
  | _ => false

/-- The lapse as far as it goes for every holder: recorded, alerted, and the extents with no live tether held. -/
def lapseHolder (p : Part) (s : State) : State :=
  let s := setLease p { lease s p with lapsed := true } s
  let s := alert .tetherLapse [partKind p, partId p] (event 0x10 [partKind p, partId p, tethersOf s p] s)
  forEach (extentsHeld s p) (fun e s => if allLapsed s e then holdExtent e s else s) s

/-- The renewal as far as it goes for every holder: the deadline moves and held extents come back. -/
def renewHolder (p : Part) (a : Nat) (s : State) : State :=
  let s := setLease p { lease s p with renewedAt := a, lapsed := false, late := none } s
  forEach (extentsHeld s p) unholdExtent s

theorem lapse_group (g : Nat) (s : State) : lapse (.grp g) s = quiesceGroup g (lapseHolder (.grp g) s) := rfl

theorem lapse_of_not_group {p : Part} (h : isGroup p = false) (s : State) : lapse p s = lapseHolder p s := by
  cases p with
  | grp g => cases h
  | _ => rfl

theorem renewAt_of_not_group {p : Part} (h : isGroup p = false) (a : Nat) (s : State) :
    renewAt p a s = renewHolder p a s := by
  cases p with
  | grp g => cases h
  | _ => rfl

/-- The parts that a lapse or a renewal touches, the group's queues and jobs apart. -/
abbrev lapseAreas : List Area := [.out, .obs, .extents]

theorem only_lapseHolder (p s) : Only lapseAreas (setLease p { lease s p with lapsed := true } s) (lapseHolder p s) := by
  unfold lapseHolder
  refine only_trans ?_ (only_forEach _ _ fun e t => only_ite (only_mono (only_holdExtent e t) rfl) (only_refl _ t))
  exact only_trans (only_mono (only_event _ _ _) rfl) (only_mono (only_alert _ _ _) rfl)

theorem only_renewHolder (p a s) :
    Only lapseAreas (setLease p { lease s p with renewedAt := a, lapsed := false, late := none } s) (renewHolder p a s) :=
  only_forEach _ _ fun e t => only_mono (only_unholdExtent e t) rfl

theorem lease_lapseHolder (p j s) :
    lease (lapseHolder p s) j = if j = p then { lease s p with lapsed := true } else lease s j := by
  rw [lease_congr (only_agree (only_lapseHolder p s) .leases rfl), lease_setLease]

theorem lease_renewHolder (p a j s) : lease (renewHolder p a s) j =
    if j = p then { lease s p with renewedAt := a, lapsed := false, late := none } else lease s j := by
  rw [lease_congr (only_agree (only_renewHolder p a s) .leases rfl), lease_setLease]

theorem tethers_lapseHolder (p s) : (lapseHolder p s).pool.tethers = s.pool.tethers :=
  only_agree (only_lapseHolder p s) .tethers rfl

theorem tethers_renewHolder (p a s) : (renewHolder p a s).pool.tethers = s.pool.tethers :=
  only_agree (only_renewHolder p a s) .tethers rfl

theorem time_lapseHolder (p s) : (lapseHolder p s).time = s.time := only_agree (only_lapseHolder p s) .time rfl
theorem time_renewHolder (p a s) : (renewHolder p a s).time = s.time := only_agree (only_renewHolder p a s) .time rfl

/-- A lapse is alerted. -/
theorem alert_mem_lapseHolder (p s) : .alert .tetherLapse [partKind p, partId p] ∈ (lapseHolder p s).out :=
  forEach_keeps (P := fun t => Out.alert .tetherLapse [partKind p, partId p] ∈ t.out) _
    (fun e t h => by
      split
      · exact sends_holdExtent e t _ h
      · exact h)
    (by
      rw [alert_eq]
      exact List.mem_cons_self)

theorem sends_renewHolder (p a s) : Sends s (renewHolder p a s) := fun o ho =>
  forEach_keeps (P := fun t => o ∈ t.out) _ (fun e t h => sends_unholdExtent e t o h) ho

/-! A group lapses (R155). -/

/-- A group whose jobs and held completions are none goes QUIESCING. -/
theorem quiesceGroup_of_idle {g : Nat} {s : State} (hst : (group s g).st = .active) (hjobs : s.que.jobs = [])
    (hheld : (group s g).held = []) : quiesceGroup g s = bump cQue 0 5 (setGroupSt g .quiescing s) := by
  have hg : (group (setGroupSt g .quiescing s) g).held = [] := by
    rw [setGroupSt, group_setGroup, if_pos rfl]
    exact hheld
  have hb : (group (bump cQue 0 5 (setGroupSt g .quiescing s)) g).held = [] := hg
  have hj : (bump cQue 0 5 (setGroupSt g .quiescing s)).que.jobs = [] := hjobs
  rw [quiesceGroup, if_pos hst]
  simp only [hj, forEach_nil, hb, List.isEmpty_nil, if_true]

/-! The deadline tick (R45). -/

/-- The tick finds nothing to do for this holder: no tether, or no late renewal and a deadline that has lapsed already or is
not over. -/
def Calm (s : State) (p : Part) : Prop :=
  tethersOf s p = 0 ∨ ((lease s p).late = none ∧ ((lease s p).lapsed = true ∨ s.time ≤ leaseEnd (lease s p)))

/-- The deadline of a holder is over and its lapse is not recorded yet. -/
abbrev Overdue (s : State) (p : Part) : Prop := (lease s p).lapsed = false ∧ leaseEnd (lease s p) < s.time

theorem tickLease_of_calm {s : State} {p : Part} (h : Calm s p) : tickLease p s = s := by
  unfold tickLease
  rcases h with h | ⟨hlate, h⟩
  · rw [if_pos h]
  · have hno : (!(lease s p).lapsed && decide (leaseEnd (lease s p) < s.time)) = false := by
      rcases h with h | h
      · simp [h]
      · simp [not_lt.mpr h]
    simp only [hno, Bool.false_eq_true, if_false, hlate, ite_self]

/-- A holder with no late renewal lapses where its deadline is over. -/
theorem tickLease_of_prompt {s : State} {p : Part} (ht : tethersOf s p ≠ 0) (hlate : (lease s p).late = none) :
    tickLease p s = if Overdue s p then lapse p s else s := by
  simp [tickLease, ht, hlate, Overdue]

/-- A late renewal acts after the lapse that it has waited for. -/
theorem tickLease_of_late {s : State} {p : Part} {a : Nat} (ht : tethersOf s p ≠ 0) (hlate : (lease s p).late = some a) :
    tickLease p s = renewAt p a (if Overdue s p then lapse p s else s) := by
  simp [tickLease, ht, hlate, Overdue]

/-- What a tick changes of a holder that is no group: its own lease, held extents, alerts and records. -/
theorem only_tickLease {p : Part} (hp : isGroup p = false) (s : State) :
    Only (.leases :: lapseAreas) s (tickLease p s) ∧ Others lease p s (tickLease p s) := by
  have hlapse (t : State) : Only (.leases :: lapseAreas) t (lapse p t) ∧ Others lease p t (lapse p t) := by
    rw [lapse_of_not_group hp]
    exact ⟨only_trans (only_mono (only_setLease _ _ _) rfl) (only_mono (only_lapseHolder p t) rfl),
      fun j hj => by rw [lease_lapseHolder, if_neg hj]⟩
  have hrenew (a : Nat) (t : State) : Only (.leases :: lapseAreas) t (renewAt p a t) ∧ Others lease p t (renewAt p a t) := by
    rw [renewAt_of_not_group hp]
    exact ⟨only_trans (only_mono (only_setLease _ _ _) rfl) (only_mono (only_renewHolder p a t) rfl),
      fun j hj => by rw [lease_renewHolder, if_neg hj]⟩
  have hfirst : Only (.leases :: lapseAreas) s (if Overdue s p then lapse p s else s) ∧
      Others lease p s (if Overdue s p then lapse p s else s) := by
    split
    · exact hlapse s
    · exact ⟨only_refl _ s, fun _ _ => rfl⟩
  by_cases ht : tethersOf s p = 0
  · rw [tickLease_of_calm (.inl ht)]
    exact ⟨only_refl _ s, fun _ _ => rfl⟩
  · cases hlate : (lease s p).late with
    | none =>
      rw [tickLease_of_prompt ht hlate]
      exact hfirst
    | some a =>
      rw [tickLease_of_late ht hlate]
      exact ⟨only_trans hfirst.1 (hrenew a _).1, fun j hj => ((hrenew a _).2 j hj).trans (hfirst.2 j hj)⟩

/-- The lease of a holder without a late renewal after its tick: lapsed where the deadline was over. -/
theorem lease_tickLease_of_prompt {s : State} {p : Part} (hp : isGroup p = false) (ht : tethersOf s p ≠ 0)
    (hlate : (lease s p).late = none) :
    lease (tickLease p s) p = if Overdue s p then { lease s p with lapsed := true } else lease s p := by
  rw [tickLease_of_prompt ht hlate]
  split
  · rw [lapse_of_not_group hp, lease_lapseHolder, if_pos rfl]
  · rfl

/-- No group has anything to be done for by a tick. -/
def GroupsCalm (s : State) : Prop := ∀ g, Calm s (.grp g)

/-- Between the ticks of a state's holders: the time and the tethers as they were, calm leases unchanged, and no late renewal
or deadline of a prompt holder changed. -/
def Ticking (s t : State) : Prop :=
  t.time = s.time ∧ t.pool.tethers = s.pool.tethers ∧ (∀ p, Calm s p → lease t p = lease s p) ∧
  ∀ p, (lease s p).late = none → (lease t p).late = none ∧ leaseEnd (lease t p) = leaseEnd (lease s p)

theorem ticking_refl (s : State) : Ticking s s := ⟨rfl, rfl, fun _ _ => rfl, fun _ h => ⟨h, rfl⟩⟩

theorem calm_of_ticking {s t : State} {p : Part} (h : Ticking s t) (hp : Calm s p) : Calm t p := by
  obtain ⟨htime, hteth, hcalm, -⟩ := h
  unfold Calm
  rwa [tethersOf_congr hteth, hcalm p hp, htime]

theorem isGroup_of_not_calm {s : State} {p : Part} (hs : GroupsCalm s) (h : ¬ Calm s p) : isGroup p = false := by
  cases p with
  | grp g => exact absurd (hs g) h
  | _ => rfl

theorem tickLease_others {s t : State} {p : Part} (hs : GroupsCalm s) (h : Ticking s t) :
    Others lease p t (tickLease p t) := by
  by_cases hp : Calm s p
  · rw [tickLease_of_calm (calm_of_ticking h hp)]
    exact fun _ _ => rfl
  · exact (only_tickLease (isGroup_of_not_calm hs hp) t).2

theorem ticking_tickLease {s t : State} {p : Part} (hs : GroupsCalm s) (h : Ticking s t) : Ticking s (tickLease p t) := by
  by_cases hp : Calm s p
  · rwa [tickLease_of_calm (calm_of_ticking h hp)]
  have hg := isGroup_of_not_calm hs hp
  obtain ⟨honly, hothers⟩ := only_tickLease hg t
  obtain ⟨htime, hteth, hcalm, hprompt⟩ := h
  have ht : tethersOf t p ≠ 0 := by
    rw [tethersOf_congr hteth]
    exact fun e => hp (.inl e)
  refine ⟨(only_agree honly .time rfl).trans htime, (only_agree honly .tethers rfl).trans hteth, fun j hj => ?_,
    fun j hj => ?_⟩
  · have hne : j ≠ p := fun e => hp (e ▸ hj)
    rw [hothers j hne, hcalm j hj]
  · obtain ⟨hlate, hend⟩ := hprompt j hj
    by_cases hne : j = p
    · subst hne
      rw [lease_tickLease_of_prompt hg ht hlate]
      split
      · exact ⟨hlate, hend⟩
      · exact ⟨hlate, hend⟩
    · rw [hothers j hne]
      exact ⟨hlate, hend⟩

/-- The tick records the lapse of a prompt holder whose deadline is over. -/
theorem lapsed_tickLease {s t : State} {p : Part} (hs : GroupsCalm s) (h : Ticking s t) (ht : tethersOf s p ≠ 0)
    (hend : leaseEnd (lease s p) < s.time) (hlate : (lease s p).late = none) :
    (lease (tickLease p t) p).lapsed = true := by
  by_cases hp : Calm s p
  · have hl : (lease s p).lapsed = true := by
      rcases hp with h0 | ⟨-, hl | hle⟩
      · exact absurd h0 ht
      · exact hl
      · exact absurd hend (not_lt.mpr hle)
    rw [tickLease_of_calm (calm_of_ticking h hp), h.2.2.1 p hp, hl]
  · obtain ⟨htime, hteth, -, hprompt⟩ := h
    obtain ⟨hlate', hend'⟩ := hprompt p hlate
    rw [lease_tickLease_of_prompt (isGroup_of_not_calm hs hp) (by rwa [tethersOf_congr hteth]) hlate']
    split
    · rfl
    · next hno =>
      by_contra hl
      exact hno ⟨by simpa using hl, by rw [hend', htime]; exact hend⟩

/-! Tethers are dropped (R47), and what depends on them settles. -/

/-- Of the elements that meet a test, the removal of the first that does leaves one fewer. -/
theorem length_filter_erase {α : Type} [DecidableEq α] {l : List α} {p : α → Bool} {x : α} (h : l.find? p = some x) :
    ((l.erase x).filter p).length + 1 = (l.filter p).length := by
  have hp : p x = true := List.find?_some h
  have := ((List.perm_cons_erase (List.mem_of_find?_eq_some h)).filter p).length_eq
  rw [List.filter_cons_of_pos hp, List.length_cons] at this
  exact this.symm

/-- A tether of a holder on an object. -/
def isTether (p : Part) (o : TetherObj) (x : Tether) : Bool := x.holder == p && x.obj == o

theorem only_setTethers (x s) : Only [.tethers] s { s with pool := { s.pool with tethers := x } } :=
  ⟨rfl, rfl, fun a h => by cases a with | tethers => cases h | routes => exact ⟨rfl, rfl⟩ | _ => rfl⟩

theorem dropTether_tethers (p o s) : (dropTether p o s).pool.tethers =
    ((s.pool.tethers.find? (isTether p o)).map s.pool.tethers.erase).getD s.pool.tethers := by
  unfold dropTether isTether
  split
  · next h => rw [h]; rfl
  · next h =>
    rw [h]
    simp only
    split <;> rfl

theorem only_dropTether (p o s) : Only [.tethers, .leases] s (dropTether p o s) := by
  unfold dropTether
  split
  · exact only_refl _ s
  · have h (x : List Tether) : Only [.tethers, .leases] s { s with pool := { s.pool with tethers := x } } :=
      only_mono (only_setTethers x s) rfl
    exact only_ite (only_trans (h _) (only_mono (only_setLease _ _ _) rfl)) (h _)

theorem dropTether_mem {p : Part} {o : TetherObj} {s : State} {x : Tether} (h : x ∈ (dropTether p o s).pool.tethers) :
    x ∈ s.pool.tethers := by
  rw [dropTether_tethers] at h
  cases hf : s.pool.tethers.find? (isTether p o) with
  | none => rwa [hf] at h
  | some y =>
    rw [hf] at h
    exact List.mem_of_mem_erase h

/-- No tether came, and of each kite the record of its current version's extent at most went. -/
def Releases (s t : State) : Prop :=
  (∀ x ∈ t.pool.tethers, x ∈ s.pool.tethers) ∧
  ∀ k y, kite s k = some y → ∃ o, kite t k = some { y with extent := o }

theorem releases_refl (s : State) : Releases s s := ⟨fun _ h => h, fun _ y h => ⟨y.extent, h⟩⟩

theorem releases_trans {s t u : State} (h : Releases s t) (h' : Releases t u) : Releases s u := by
  obtain ⟨hteth, hkite⟩ := h
  obtain ⟨hteth', hkite'⟩ := h'
  refine ⟨fun x hx => hteth x (hteth' x hx), fun k y hy => ?_⟩
  obtain ⟨o, ho⟩ := hkite k y hy
  obtain ⟨o', ho'⟩ := hkite' k _ ho
  exact ⟨o', ho'⟩

/-- Whatever leaves the tethers and the kites alone. -/
theorem releases_of_only {l : List Area} {s t : State} (h : Only l s t) (hteth : l.contains .tethers = false)
    (hkite : l.contains .kites = false) : Releases s t :=
  ⟨fun x hx => by rwa [only_agree h .tethers hteth] at hx,
    fun k y hy => ⟨y.extent, by rw [kite_congr (only_agree h .kites hkite), hy]⟩⟩

theorem releases_forEach {α : Type} {f : α → State → State} (xs : List α) (s : State) (hf : ∀ a t, Releases t (f a t)) :
    Releases s (forEach xs f s) :=
  forEach_keeps (P := Releases s) xs (fun a t h => releases_trans h (hf a t)) (releases_refl s)

theorem releases_dropTether (p o s) : Releases s (dropTether p o s) :=
  ⟨fun _ hx => dropTether_mem hx,
    fun k y hy => ⟨y.extent, by rw [kite_congr (only_agree (only_dropTether p o s) .kites rfl), hy]⟩⟩

theorem only_setWdw (d g w s) : Only [.wins] s (setWdw d g w s) :=
  ⟨rfl, rfl, fun a h => by cases a with | wins => cases h | routes => exact ⟨rfl, rfl⟩ | _ => rfl⟩

theorem only_dropDc (o s) : Only [.cxlRest] s (dropDc o s) :=
  ⟨rfl, rfl, fun a h => by cases a with | cxlRest => cases h | routes => exact ⟨rfl, rfl⟩ | _ => rfl⟩

theorem only_endExclusive (e d s) : Only [.extents, .invals, .coreRest] s (endExclusive e d s) := by
  have h (x : Extent) (a b c : Nat) (w : Bool) :
      Only [.extents, .invals, .coreRest] s (orderInval a b c w (setExtent e x s)) :=
    only_trans (only_mono (only_setExtent e x s) rfl) (only_mono (only_orderInval a b c w _) rfl)
  unfold endExclusive
  simp only
  split
  · exact only_refl _ s
  · split
    · exact h _ _ _ _ _
    · exact h _ _ _ _ _

theorem releases_dropGrant (d g s) : Releases s (dropGrant d g s) :=
  releases_trans (releases_trans (releases_of_only (only_setWdw d g _ s) rfl rfl)
    (releases_of_only (only_endExclusive _ d _) rfl rfl)) (releases_dropTether _ _ _)

/-- The kite's record of its current version's extent goes. -/
theorem releases_setKite {k : Nat} {y : Kite} {s : State} (h : kite s k = some y) :
    Releases s (setKite k (some { y with extent := none }) s) := by
  refine ⟨fun _ hx => hx, fun j z hz => ?_⟩
  rw [kite_setKite]
  split
  · next e =>
    subst e
    rw [h] at hz
    cases hz
    exact ⟨none, rfl⟩
  · exact ⟨z.extent, hz⟩

theorem only_withdrawExtent (e s) : Only [.invals, .coreRest] s (withdrawExtent e s) := only_orderInval _ _ _ true s

/-- The record of the current version's extent goes from its kite. -/
def unlinkKite (c : Option Nat) (e : Nat) (s : State) : State :=
  match c with
  | some k =>
    match kite s k with
    | some y => if y.extent = some e then setKite k (some { y with extent := none }) s else s
    | none => s
  | none => s

theorem releases_unlinkKite (c e s) : Releases s (unlinkKite c e s) := by
  unfold unlinkKite
  split
  · split
    · next hk =>
      split
      · exact releases_setKite hk
      · exact releases_refl s
    · exact releases_refl s
  · exact releases_refl s

/-- The mappings of an extent that is released are withdrawn, after its grants, its exchanges and its tethers went. -/
def dropDependents (e : Nat) (s : State) : State :=
  let s1 := forEach (windowsOn s e) (fun x => dropGrant x.1 x.2) s
  let s2 := forEach (s1.cxl.dcOps.filter (fun o => o.extent == e)) (fun o s => fmDone .conflict [] (dropDc o s)) s1
  withdrawExtent e (forEach (extentTethers s2 e) (fun t => dropTether t.holder t.obj) s2)

theorem releases_dropDependents (e s) : Releases s (dropDependents e s) := by
  unfold dropDependents
  extract_lets s1 s2
  have hgrants : Releases s s1 := releases_forEach _ s fun x t => releases_dropGrant x.1 x.2 t
  have hdc : Releases s1 s2 := releases_forEach _ s1 fun o u =>
    releases_trans (releases_of_only (only_dropDc o u) rfl rfl) (releases_of_only (only_fmDone _ _ _) rfl rfl)
  exact releases_trans (releases_trans (releases_trans hgrants hdc)
    (releases_forEach _ s2 fun x u => releases_dropTether _ _ u)) (releases_of_only (only_withdrawExtent e _) rfl rfl)

theorem releases_beginRelease (e s) : Releases s (beginRelease e s) := by
  unfold beginRelease
  simp only
  refine releases_trans ?_ (releases_of_only (only_setExtent e _ _) rfl rfl)
  generalize hu : withdrawExtent e _ = u
  have h : Releases s u := by
    rw [← hu]
    exact releases_dropDependents e s
  exact releases_trans h (releases_unlinkKite (extent s e).kite e u)

/-! Tethers released (R47). -/

/-- A tether leaves its holder's list for its object one shorter. -/
theorem count_dropTether {p : Part} {o : TetherObj} {s : State} (h : ∃ x ∈ s.pool.tethers, x.holder = p ∧ x.obj = o) :
    ((dropTether p o s).pool.tethers.filter (isTether p o)).length + 1 =
      (s.pool.tethers.filter (isTether p o)).length := by
  obtain ⟨x, hx, rfl, rfl⟩ := h
  obtain ⟨y, hy⟩ : ∃ y, s.pool.tethers.find? (isTether x.holder x.obj) = some y :=
    Option.isSome_iff_exists.mp (List.find?_isSome.mpr ⟨x, hx, by simp [isTether]⟩)
  rw [dropTether_tethers, hy]
  exact length_filter_erase hy

/-- A version retires only where it has no reader: of the tethers of readers it drops none. -/
theorem count_settleRetire (p : Part) (e : Nat) (s : State) :
    ((settleRetire e s).pool.tethers.filter (isTether p (.attach e))).length =
      (s.pool.tethers.filter (isTether p (.attach e))).length := by
  unfold settleRetire
  simp only
  split
  · rfl
  · split
    · rfl
    · split
      · next h =>
        split
        · rfl
        · have hnone (l : List Tether) (hl : ∀ x ∈ l, x ∈ s.pool.tethers) :
              l.filter (isTether p (.attach e)) = [] := by
            refine List.filter_eq_nil_iff.mpr fun x hx hp => ?_
            have hr : s.pool.tethers.filter (fun y => y.obj == .attach e) = [] := List.length_eq_zero_iff.mp h.2
            simp only [isTether, Bool.and_eq_true] at hp
            exact List.filter_eq_nil_iff.mp hr x (hl x hx) hp.2
          have hrel (x : Extent) : (beginRelease e (setExtent e x s)).pool.tethers.filter (isTether p (.attach e)) =
              s.pool.tethers.filter (isTether p (.attach e)) :=
            (hnone _ fun y hy => (releases_beginRelease e (setExtent e x s)).1 y hy).trans (hnone _ fun _ hy => hy).symm
          exact congrArg List.length (hrel _)
      · rfl

theorem count_releaseOne {p : Part} {o : TetherObj} {s : State} (h : ∃ x ∈ s.pool.tethers, x.holder = p ∧ x.obj = o) :
    ((releaseOne p o s).pool.tethers.filter (isTether p o)).length + 1 = (s.pool.tethers.filter (isTether p o)).length := by
  cases o with
  | attach e => exact (congrArg (· + 1) (count_settleRetire p e _)).trans (count_dropTether h)
  | extent e => exact count_dropTether h
  | group g => exact count_dropTether h

/-- With no host window on the extent, a release of a tether that may go drops it at once. -/
theorem releaseTether_of_no_window {p : Part} {o : TetherObj} {forced : Bool} {s : State} (hm : Managed s)
    (hx : ∃ x ∈ s.pool.tethers, x.holder = p ∧ x.obj = o) (hok : (lease s p).lapsed = true ∨ forced = true)
    (hw : ∀ d e, p = .ld d → o = .extent e ∨ o = .attach e → windowsOn s e = []) :
    execReleaseTether p o forced s = .next (fmDone .ok [] (releaseOne p o s)) := by
  have hany : (s.pool.tethers.any (fun t => t.holder == p && t.obj == o)) = true := by
    obtain ⟨x, hx, rfl, rfl⟩ := hx
    exact List.any_eq_true.mpr ⟨x, hx, by simp⟩
  have hno : (!(lease s p).lapsed && !forced) = false := by
    rcases hok with h | h <;> simp [h]
  refine congrArg Host.Outcome.next ((served_of hm _).trans ?_)
  simp only [hany, hno, Bool.not_true, Bool.false_eq_true, if_false]
  cases p with
  | ld d =>
    cases o with
    | extent e => simp only [hw d e rfl (.inl rfl), List.filter_nil, forEach_nil, List.any_nil, Bool.false_eq_true, if_false]
    | attach e => simp only [hw d e rfl (.inr rfl), List.filter_nil, forEach_nil, List.any_nil, Bool.false_eq_true, if_false]
    | group g => rfl
  | ep i => rfl
  | grp g => rfl

/-! Kites (R51). -/

/-- The state in which a kite has its new KEEP_RETIRED and, where that fell from 1 to 0, its RETIRED versions are released. -/
def setKeepRetired (k : Nat) (y : Kite) (keep : Bool) (s : State) : State :=
  let s' := setKite k (some { y with keepRetired := keep }) s
  if y.keepRetired && !keep then
    forEach ((s'.pool.extents.filter (fun c => c.2.kite == some k && decide (c.2.st = .retired))).map (·.1)) beginRelease s'
  else s'

theorem setKiteAttribute_of_kite {k : Fin 4096} (keep : Bool) {s : State} {y : Kite} (hm : Managed s)
    (hy : kite s k.val = some y) :
    execSetKiteAttribute k keep s = .next (fmDone .ok [] (setKeepRetired k.val y keep s)) ∧
    Releases (setKite k.val (some { y with keepRetired := keep }) s) (setKeepRetired k.val y keep s) ∧
    (keep = true ∨ y.keepRetired = false →
      setKeepRetired k.val y keep s = setKite k.val (some { y with keepRetired := keep }) s) := by
  refine ⟨?_, ?_, fun h => ?_⟩
  · refine congrArg Host.Outcome.next ((served_of hm _).trans ?_)
    simp only [hy]
    rfl
  · unfold setKeepRetired
    simp only
    split
    · exact releases_forEach _ _ fun e t => releases_beginRelease e t
    · exact releases_refl _
  · have hno : (y.keepRetired && !keep) = false := by
      rcases h with h | h <;> simp [h]
    unfold setKeepRetired
    simp only [hno, Bool.false_eq_true, if_false]

/-! The clauses of the host's beat and of the tick. -/

theorem only_setQuotas (x s) : Only [.quotas] s { s with pool := { s.pool with quotas := x } } :=
  ⟨rfl, rfl, fun a h => by cases a with | quotas => cases h | routes => exact ⟨rfl, rfl⟩ | _ => rfl⟩

theorem only_setMembers (x s) : Only [.members] s { s with pool := { s.pool with members := x } } :=
  ⟨rfl, rfl, fun a h => by cases a with | members => cases h | routes => exact ⟨rfl, rfl⟩ | _ => rfl⟩

/-- A renewal of a holder that is no group: its lease moves to now, or, after an unrecorded deadline, waits as late. -/
theorem lease_renew {p : Part} (hp : isGroup p = false) (s : State) : lease (renew p s) p =
    if tethersOf s p = 0 then lease s p
    else if Overdue s p then { lease s p with late := some s.time }
    else { lease s p with renewedAt := s.time, lapsed := false, late := none } := by
  have hover : (decide (leaseEnd (lease s p) < s.time) && !(lease s p).lapsed) = decide (Overdue s p) := by
    rw [Bool.and_comm]
    simp [Overdue]
  unfold renew
  simp only
  split
  · rfl
  · simp only [hover, decide_eq_true_eq]
    split
    · rw [lease_setLease_same]
    · rw [renewAt_of_not_group hp, lease_renewHolder, if_pos rfl]

/-- The beat of a logical device, in full. -/
theorem lease_pmmBeat (d tag : Nat) (s : State) : lease (pmmBeat d tag s) (.ld d) =
    if tethersOf s (.ld d) = 0 then { lease s (.ld d) with lastTag := tag % 65536 }
    else if Overdue s (.ld d) then { lease s (.ld d) with lastTag := tag % 65536, late := some s.time }
    else { lease s (.ld d) with lastTag := tag % 65536, renewedAt := s.time, lapsed := false, late := none } := by
  refine (lease_renew rfl _).trans ?_
  simp only [Overdue, lease_setLease_same]
  rfl

/-- Settles O2: the settings by what they write; the beat, the tick and the release by what a renewal, a lapse and the drop
of a tether do to a lease, a group and the list of tethers. -/
theorem tetherCommandsComplete : Obligations.TetherCommandsComplete := by
  unfold Obligations.TetherCommandsComplete
  refine ⟨?_, ?_, ?_, ?_, ?_, ?_, ?_, ?_, ?_, ?_, ?_⟩
  · intro k n s hm hsum
    refine ⟨fmDone .ok [] { s with pool := { s.pool with quotas := tput 0 s.pool.quotas k.val n } },
      congrArg Host.Outcome.next ((served_of hm _).trans (if_neg (not_lt.mpr hsum))), fmDone_out _ _ _, ?_, fun j hj => ?_,
      only_trans (only_mono (only_setQuotas _ s) rfl) (only_mono (only_fmDone _ _ _) rfl)⟩
    · rw [fmDone_pool]
      exact tget_tput_same 0 n s.pool.quotas k.val
    · rw [fmDone_pool]
      exact tget_tput_ne 0 n s.pool.quotas hj
  · intro p ms s hm hlo hhi
    have hno : ¬ (ms < 100 ∨ 60000 < ms) := by omega
    have hl (j : Part) : lease (fmDone .ok [] (setLease p { lease s p with periodMs := ms } s)) j =
        lease (setLease p { lease s p with periodMs := ms } s) j :=
      lease_congr (congrArg PoolState.leases (fmDone_pool _ _ _)) j
    refine ⟨fmDone .ok [] (setLease p { lease s p with periodMs := ms } s),
      congrArg Host.Outcome.next ((served_of hm _).trans (if_neg hno)), fmDone_out _ _ _, ?_, ?_, fun j hj => ?_,
      only_trans (only_mono (only_setLease p _ s) rfl) (only_mono (only_fmDone _ _ _) rfl)⟩
    · rw [hl, lease_setLease_same]
    · rw [hl, lease_setLease_same]
      rfl
    · rw [hl, lease_setLease, if_neg hj]
  · intro p ms s hm hout
    exact congrArg Host.Outcome.next ((served_of hm _).trans ((if_pos hout).trans (fmDone_eq _ _ _)))
  · intro d tag s hrun hw
    refine ⟨pmmBeat d.val tag.toNat s, ?_, ?_, fun ht hin => ?_, fun ht hend hlapsed => ?_⟩
    · refine congrArg Host.Outcome.next ((live_of hrun).trans ?_)
      rw [hw]
      rfl
    · rw [lease_pmmBeat]
      split
      · rfl
      · split
        · rfl
        · rfl
    · have hno : ¬ Overdue s (.ld d.val) := by
        rintro ⟨hl, hend⟩
        rcases hin with h | h
        · exact absurd hend (not_lt.mpr h)
        · rw [hl] at h
          cases h
      rw [lease_pmmBeat, if_neg ht, if_neg hno]
      exact ⟨rfl, rfl⟩
    · rw [lease_pmmBeat, if_neg ht, if_pos ⟨hlapsed, hend⟩]
  · intro now s hrun hgroups
    have hcalm : GroupsCalm (advance now s) := fun g => by
      by_cases ht : tethersOf s (.grp g) = 0
      · exact .inl ht
      · obtain ⟨hlate, hend⟩ := hgroups g ht
        refine .inr ⟨hlate, ?_⟩
        cases hl : (lease s (.grp g)).lapsed with
        | true => exact .inl hl
        | false => exact .inr (hend hl)
    have hstep (p : Part) (t : State) (h : Ticking (advance now s) t) : Ticking (advance now s) (tickLease p t) :=
      ticking_tickLease hcalm h
    have hend : Ticking (advance now s) (forEach (s.pool.leases.map (·.1)) tickLease (advance now s)) :=
      forEach_keeps _ hstep (ticking_refl _)
    obtain ⟨htime, hteth, hsame, -⟩ := hend
    refine ⟨_, congrArg Host.Outcome.next (live_of hrun), htime, hteth, fun p hp ht hover hlate => ?_, fun p hp => ?_⟩
    · exact forEach_reaches (v := lease) (key := id) (I := Ticking (advance now s))
        (P := fun p l => tethersOf s p ≠ 0 → leaseEnd (lease s p) < max s.time now → (lease s p).late = none →
          l.lapsed = true)
        (fun p t h => tickLease_others hcalm h) hstep (fun p t h ht ho hl => lapsed_tickLease hcalm h ht ho hl) _
        (ticking_refl _) hp ht hover hlate
    · refine hsame p ?_
      rcases hp with ht | ⟨hle, hlate⟩
      · exact .inl ht
      · exact .inr ⟨hlate, .inr hle⟩
  · intro now g l s hrun hleases hlapsed hlate ht hend hst hjobs hheld
    have hl : lease s (.grp g) = l := by simp [lease, hleases, afind]
    have hover : Overdue (advance now s) (.grp g) := by
      have : lease (advance now s) (.grp g) = l := hl
      rw [Overdue, this]
      exact ⟨hlapsed, hend⟩
    have hgroup : ∀ j, group (lapseHolder (.grp g) (advance now s)) j = group s j :=
      group_congr (only_agree (only_lapseHolder _ _) .groups rfl)
    have hlate' : (lease (advance now s) (.grp g)).late = none := (congrArg Lease.late hl).trans hlate
    have hidle := quiesceGroup_of_idle (g := g) (s := lapseHolder (.grp g) (advance now s)) (by rw [hgroup, hst])
      ((only_agree (only_lapseHolder _ _) .jobs rfl).trans hjobs) (by rw [hgroup, hheld])
    have htick : tickLease (.grp g) (advance now s) =
        bump cQue 0 5 (setGroupSt g .quiescing (lapseHolder (.grp g) (advance now s))) := by
      rw [tickLease_of_prompt (s := advance now s) ht hlate', if_pos hover, lapse_group, hidle]
    refine ⟨tickLease (.grp g) (advance now s), ?_, ?_, ?_⟩
    · refine congrArg Host.Outcome.next ((live_of hrun).trans ?_)
      simp only [advance_pool, hleases, List.map_cons, List.map_nil, forEach_cons, forEach_nil]
    · have : lease (bump cQue 0 5 (setGroupSt g .quiescing (lapseHolder (.grp g) (advance now s)))) (.grp g) =
          lease (lapseHolder (.grp g) (advance now s)) (.grp g) := rfl
      rw [htick, this, lease_lapseHolder, if_pos rfl]
    · have : group (bump cQue 0 5 (setGroupSt g .quiescing (lapseHolder (.grp g) (advance now s)))) g =
          group (setGroupSt g .quiescing (lapseHolder (.grp g) (advance now s))) g := rfl
      rw [htick, this, setGroupSt, group_setGroup, if_pos rfl]
  · intro now d a l s hrun hleases hlapsed hlate ht hend
    have hl : lease (advance now s) (.ld d) = l := by
      have : lease (advance now s) (.ld d) = lease s (.ld d) := rfl
      rw [this]
      simp [lease, hleases, afind]
    have hover : Overdue (advance now s) (.ld d) := by
      rw [Overdue, hl]
      exact ⟨hlapsed, hend⟩
    have htick : tickLease (.ld d) (advance now s) = renewHolder (.ld d) a (lapseHolder (.ld d) (advance now s)) := by
      rw [tickLease_of_late (s := advance now s) ht (hl ▸ hlate), if_pos hover, renewAt_of_not_group rfl, lapse_of_not_group rfl]
    refine ⟨tickLease (.ld d) (advance now s), ?_, ?_, ?_⟩
    · refine congrArg Host.Outcome.next ((live_of hrun).trans ?_)
      simp only [advance_pool, hleases, List.map_cons, List.map_nil, forEach_cons, forEach_nil]
    · rw [htick, lease_renewHolder, if_pos rfl, lease_lapseHolder, if_pos rfl, hl, ← hlapsed]
    · rw [htick]
      exact sends_renewHolder _ _ _ _ (alert_mem_lapseHolder (.ld d) (advance now s))
  · intro p o forced s hm hx hok hw
    refine ⟨_, releaseTether_of_no_window hm hx hok hw, ?_, ?_⟩
    · rw [fmDone_out]
      rfl
    · rw [fmDone_pool]
      exact count_releaseOne hx
  · intro k c sl keep s hm hnone
    refine ⟨fmDone .ok [] (setKite k.val (some { tenant := c.val, sealed := sl, keepRetired := keep }) s), ?_,
      fmDone_out _ _ _, ?_, fun j hj => ?_,
      only_trans (only_mono (only_setKite k.val _ s) rfl) (only_mono (only_fmDone _ _ _) rfl)⟩
    · exact congrArg Host.Outcome.next ((served_of hm _).trans (if_neg (by simp [hnone])))
    · rw [kite_fmDone, kite_setKite, if_pos rfl]
    · rw [kite_fmDone, kite_setKite, if_neg hj]
  · intro k keep s y hm hy
    obtain ⟨hexec, hrel, honly⟩ := setKiteAttribute_of_kite keep hm hy
    obtain ⟨o, ho⟩ := hrel.2 k.val { y with keepRetired := keep } (by rw [kite_setKite, if_pos rfl])
    refine ⟨_, hexec, by rw [fmDone_out]; rfl, ⟨_, (kite_fmDone _ _ _ _).trans ho, rfl, rfl, rfl⟩, fun h => ?_⟩
    rw [honly h]
    exact only_trans (only_mono (only_setKite k.val _ s) rfl) (only_mono (only_fmDone _ _ _) rfl)
  · intro i c s hm hnew hroom
    have hno : s.pool.members.contains (i.val, c.val) = false := by simpa using hnew
    refine ⟨fmDone .ok [] { s with pool := { s.pool with members := s.pool.members ++ [(i.val, c.val)] } }, ?_,
      fmDone_out _ _ _, ?_, fun x hx => ?_,
      only_trans (only_mono (only_setMembers _ s) rfl) (only_mono (only_fmDone _ _ _) rfl)⟩
    · refine congrArg Host.Outcome.next ((served_of hm _).trans ?_)
      simp only [if_true, hno, Bool.false_eq_true, if_false, if_neg (not_le.mpr hroom)]
    · rw [fmDone_pool]
      exact List.mem_append_right _ (List.mem_singleton_self _)
    · rw [fmDone_pool]
      exact List.mem_append_left _ hx

end Sys2Proof.Machine
end

section
/-! SUPPORT. What a packet that the device terminates leaves as it was, up to the moment it is acted on: the receive buffer's
words are freed, the checks of R313 are passed, its arrival is noted. -/

namespace Sys2Proof.Machine

open Sys2Proof.Safety

/-! A frame leaves its receive buffer (R287 to R289). -/

/-- Only receive buffers, their words and control words sent have changed, and no port has become or ceased to be a pair
port. -/
def Taken (s t : State) : Prop := Only [.out, .ports, .vcs] s t ∧ ∀ m, (port t m).pair = (port s m).pair

theorem taken_refl (s : State) : Taken s s := ⟨only_refl _ s, fun _ => rfl⟩

theorem taken_trans {s t u : State} (h : Taken s t) (h' : Taken t u) : Taken s u :=
  ⟨only_trans h.1 h'.1, fun m => (h'.2 m).trans (h.2 m)⟩

theorem port_congr {s t : State} (h : t.rof.ports = s.rof.ports) (n : Nat) : port t n = port s n := by
  unfold port
  rw [h]

theorem taken_setPort {n : Nat} {x : Port} {s : State} (h : x.pair = (port s n).pair) : Taken s (setPort n x s) := by
  refine ⟨only_mono (only_setPort n x s) rfl, fun m => ?_⟩
  rw [port_setPort]
  split
  · next e => rw [h, e]
  · rfl

theorem only_setVc (p v x s) : Only [.vcs] s (setVc p v x s) :=
  ⟨rfl, rfl, fun a h => by cases a with | vcs => cases h | routes => exact ⟨rfl, rfl⟩ | _ => rfl⟩

theorem taken_setVc (p v x s) : Taken s (setVc p v x s) := ⟨only_mono (only_setVc p v x s) rfl, fun _ => rfl⟩

theorem taken_sendCtrl (n c v s) : Taken s (sendCtrl n c v s) := by
  unfold sendCtrl
  rw [emit_free rfl]
  exact ⟨only_mono (only_said _ s) rfl, fun _ => rfl⟩

theorem taken_forEach {α : Type} {f : α → State → State} (xs : List α) (s : State) (hf : ∀ a t, Taken t (f a t)) :
    Taken s (forEach xs f s) :=
  forEach_keeps (P := Taken s) xs (fun a t h => taken_trans h (hf a t)) (taken_refl s)

theorem taken_retrainAnswer (n s) : Taken s (retrainAnswer n s) := by
  unfold retrainAnswer
  extract_lets s1 x
  have hvcs : Taken s s1 := taken_forEach _ s fun v t => taken_setVc n v _ t
  have hport : Taken s1 (setPort n { x with rxRetrain := none } s1) := taken_setPort rfl
  exact taken_trans (taken_trans (taken_trans hvcs hport) (taken_sendCtrl n 0x08 _ _)) (taken_sendCtrl n 0x01 _ _)

theorem taken_settleRx (n s) : Taken s (settleRx n s) := by
  unfold settleRx
  extract_lets x held done s1 s2
  have h1 : Taken s s1 := taken_setPort rfl
  have h : Taken s s2 := taken_trans h1 (taken_forEach _ s1 fun a t => taken_sendCtrl n 0x06 _ t)
  clear_value s2
  split
  · split
    · exact h
    · exact taken_trans h (taken_retrainAnswer n _)
  · exact h

theorem taken_freeWords (n f s) : Taken s (freeWords n f s) := by
  unfold freeWords
  extract_lets x v c w
  have hport : Taken s (setPort n { x with rxq := x.rxq.filter (fun g => g.id != f.id) } s) := taken_setPort rfl
  exact taken_trans (taken_trans hport (taken_setVc n _ _ _)) (taken_settleRx n _)

theorem taken_updFrame (n f s) : Taken s (updFrame n f s) := by
  unfold updFrame
  simp only
  split
  · exact taken_freeWords n f s
  · exact taken_setPort rfl

theorem taken_takeFrame (n k s) : Taken s (takeFrame n k s) := by
  unfold takeFrame
  split
  · exact taken_refl s
  · exact taken_updFrame n _ s

/-! An arrival (R306, R307, R316). -/

/-- Only the parts listed have changed, and of end-to-end transport only receive contexts and reassembly records. -/
def Arrives (l : List Area) (s t : State) : Prop :=
  Only l s t ∧ { t.e2e with recv := [], reasm := [] } = { s.e2e with recv := [], reasm := [] }

theorem arrives_refl (l s) : Arrives l s s := ⟨only_refl l s, rfl⟩

theorem arrives_trans {l : List Area} {s t u : State} (h : Arrives l s t) (h' : Arrives l t u) : Arrives l s u :=
  ⟨only_trans h.1 h'.1, h'.2.trans h.2⟩

theorem arrives_mono {l m : List Area} {s t : State} (h : Arrives l s t) (hlm : l.all m.contains = true) :
    Arrives m s t := ⟨only_mono h.1 hlm, h.2⟩

theorem arrives_of_only {l : List Area} {s t : State} (h : Only l s t) (hl : l.contains .e2e = false) : Arrives l s t :=
  ⟨h, by rw [only_agree h .e2e hl]⟩

theorem arrives_forEach {α : Type} {l : List Area} {f : α → State → State} (xs : List α) (s : State)
    (hf : ∀ a t, Arrives l t (f a t)) : Arrives l s (forEach xs f s) :=
  forEach_keeps (P := Arrives l s) xs (fun a t h => arrives_trans h (hf a t)) (arrives_refl l s)

theorem only_dropPend (id s) : Only [.dir] s (dropPend id s) :=
  ⟨rfl, rfl, fun a h => by cases a with | dir => cases h | routes => exact ⟨rfl, rfl⟩ | _ => rfl⟩

theorem arrives_retireDue (k s) : Arrives [.e2e, .dir] s (retireDue k s) := by
  unfold retireDue
  split
  · exact arrives_refl _ s
  · split
    · extract_lets gone e u
      have hu : Arrives [.e2e, .dir] s u := ⟨only_mono (only_setE2e _ s) rfl, rfl⟩
      exact arrives_trans hu
        (arrives_forEach _ u fun r t => arrives_mono (arrives_of_only (only_dropPend _ t) rfl) rfl)
    · exact arrives_refl _ s

theorem mem_of_afind {κ α : Type} [DecidableEq κ] {l : List (κ × α)} {k : κ} {v : α} (h : afind l k = some v) :
    (k, v) ∈ l := by
  induction l with
  | nil => cases h
  | cons c r ih =>
    obtain ⟨a, w⟩ := c
    unfold afind at h
    split at h
    · next e =>
      cases h
      exact e ▸ List.mem_cons_self
    · exact List.mem_cons_of_mem _ (ih h)

/-- A context that arrivals keep alive stays. -/
theorem retireDue_of_fresh {s : State} (h : ∀ c ∈ s.e2e.recv, s.time < c.2.lastArrival + 4000000) (k : FlowKey) :
    retireDue k s = s := by
  unfold retireDue
  split
  · rfl
  · next hc => rw [if_neg (not_le.mpr (h _ (mem_of_afind hc)))]

theorem arrives_noteArrival (q p b s) : Arrives [.e2e] s (noteArrival q p b s) := ⟨only_setE2e _ s, rfl⟩

theorem arrives_noteReasm (q p s) : Arrives [.e2e] s (noteReasm q p s) := by
  unfold noteReasm
  split
  · exact arrives_refl _ s
  · split
    · exact ⟨only_setE2e _ s, rfl⟩
    · exact ⟨only_setE2e _ s, rfl⟩

/-- A packet that its contracts let pass is charged to them. -/
theorem arrives_police {t p n : Nat} {s : State} (h : (police t p n s).1 = true) :
    Arrives [.schRest] s (police t p n s).2 := by
  unfold police at h ⊢
  simp only at h ⊢
  split at h
  · cases h
  · exact arrives_forEach _ s fun c t => arrives_of_only (only_setSch rfl) rfl

/-- A check that refuses is not the one that an accepted packet met. -/
theorem guarded {c : Prop} [Decidable c] {x y : Bool × State} {P : State → Prop} (hx : x.1 = false)
    (h : (if c then x else y).1 = true) (hy : y.1 = true → P y.2) : P (if c then x else y).2 := by
  split at h
  · rw [hx] at h
    cases h
  · next hc =>
    rw [if_neg hc]
    exact hy h

/-- An accepted packet has met no quiet period and no fence, and what its acceptance changes is its context, its message's
record and its contracts. -/
theorem sequenceIn_accepts {q n : Nat} {p : Packet} {s : State} (h : (sequenceIn q n p s).1 = true) :
    s.e2e.quietUntil = none ∧ blockFenced s 5 q = false ∧
    Arrives [.e2e, .schRest] (retireDue (recvKey q p) s) (sequenceIn q n p s).2 := by
  unfold sequenceIn at h ⊢
  split at h
  · cases h
  next hopen =>
    obtain ⟨hquiet, hfence⟩ : s.e2e.quietUntil.isSome = false ∧ blockFenced s 5 q = false := by simpa using hopen
    refine ⟨by simpa using hquiet, hfence, ?_⟩
    rw [if_neg hopen]
    generalize retireDue (recvKey q p) s = u at h ⊢
    simp only at h ⊢
    split at h
    · cases h
    · cases h
    · cases h
    · have hpolice : (if isRequestPkt p = true then police p.tenant.toNat n (32 + p.payload.length) u else (true, u)).1 =
          true → Arrives [.schRest] u
            (if isRequestPkt p = true then police p.tenant.toNat n (32 + p.payload.length) u else (true, u)).2 := by
        split
        · exact arrives_police
        · exact fun _ => arrives_refl _ u
      generalize (if isRequestPkt p = true then police p.tenant.toNat n (32 + p.payload.length) u else (true, u)) = r at *
      refine guarded rfl h fun h => guarded rfl h fun h => ?_
      by_cases hr : r.1 = true
      · have hu := hpolice hr
        simp only [hr, Bool.not_true, Bool.false_eq_true, if_false] at h ⊢
        refine guarded rfl h fun h => guarded rfl h fun h => guarded rfl h fun _ => ?_
        exact arrives_trans (arrives_trans (arrives_mono hu rfl) (arrives_mono (arrives_noteArrival q p true _) rfl))
          (arrives_mono (arrives_noteReasm q p _) rfl)
      · simp [hr] at h

/-! The whole of termination (R313). -/

/-- The state in which an accepted packet is acted on. -/
def acceptedState (n : Nat) (p : Packet) (q : Nat) (s : State) : State := (sequenceIn q n p (takeFrame n p s)).2

/-- The parts that termination touches before a packet is acted on. -/
abbrev termAreas : List Area := [.out, .ports, .vcs, .e2e, .dir, .schRest]

theorem follows_of_solo {s : State} (h : s.pair.st = .solo) : follows s = false := by simp [follows, h]

theorem orderRec_of_solo {s : State} (r : OrderRec) (h : s.pair.st = .solo) : orderRec r s = s := by simp [orderRec, h]

theorem nameInput_of_solo {s : State} (p : Packet) (h : s.pair.st = .solo) : nameInput p s = s := by
  simp [nameInput, orderRec_of_solo _ h, h]

/-- A port that accepts the source drops nothing for it (R297). -/
theorem no_drop_of_srcOk {x : Port} {p : Packet} (h : srcOk x p = true) :
    (x.srcCheck && !(decide (p.src &&& x.srcMask = x.srcBase))) = false := by
  unfold srcOk at h
  cases hc : x.srcCheck
  · rfl
  · simpa [hc] using h

/-- A packet that passes every check is acted on in the state that its acceptance leaves. -/
theorem terminate_of_passes {n : Nat} {p : Packet} {q : Nat} {s : State} (h : Passes n p q s = true)
    (act : Nat → State → State) : terminate n p act s = act q (acceptedState n p q s) := by
  simp only [Passes, Bool.and_eq_true, decide_eq_true_eq] at h
  obtain ⟨⟨⟨⟨⟨⟨⟨⟨hterm, hsrc⟩, hcrc⟩, hage⟩, hhead⟩, hseq⟩, hsolo⟩, -⟩, hin⟩ := h
  have htaken := taken_takeFrame n p s
  have hpair : (takeFrame n p s).pair.st = .solo := (congrArg PairState.st (only_agree htaken.1 .pair rfl)).trans hsolo
  obtain ⟨-, -, harr⟩ := sequenceIn_accepts hin
  have hacc : (acceptedState n p q s).pair.st = .solo :=
    (congrArg PairState.st ((only_agree harr.1 .pair rfl).trans
      (only_agree (arrives_retireDue _ _).1 .pair rfl))).trans hpair
  have hsrc' := no_drop_of_srcOk hsrc
  have hdrop : unicastDrop (takeFrame n p s) p = false := by simp [unicastDrop, paired, hpair]
  have hstep : sequenceIn q n p (takeFrame n p s) = (true, acceptedState n p q s) := Prod.ext hin rfl
  unfold terminate
  simp only [hterm, hsrc', hcrc, not_lt.mpr hage, hhead, hdrop, hseq, follows_of_solo hpair, hstep, Bool.not_true,
    Bool.false_eq_true, Bool.false_and, if_false, nameInput_of_solo p hacc, ite_self]

/-- What acceptance leaves. -/
theorem acceptedState_arrives {n : Nat} {p : Packet} {q : Nat} {s : State} (h : Passes n p q s = true) :
    Arrives termAreas s (acceptedState n p q s) ∧ s.e2e.quietUntil = none ∧ blockFenced s 5 q = false ∧
    s.pair.st = .solo := by
  simp only [Passes, Bool.and_eq_true, decide_eq_true_eq] at h
  obtain ⟨⟨⟨⟨⟨⟨⟨⟨-, -⟩, -⟩, -⟩, -⟩, -⟩, hsolo⟩, -⟩, hin⟩ := h
  have htaken := taken_takeFrame n p s
  obtain ⟨hquiet, hfence, harr⟩ := sequenceIn_accepts hin
  have htake : Arrives termAreas s (takeFrame n p s) := arrives_mono (arrives_of_only htaken.1 rfl) rfl
  refine ⟨arrives_trans (arrives_trans htake (arrives_mono (arrives_retireDue _ _) rfl)) (arrives_mono harr rfl), ?_, ?_,
    hsolo⟩
  · rwa [only_agree htaken.1 .e2e rfl] at hquiet
  · unfold blockFenced at hfence ⊢
    rwa [only_agree htaken.1 .fen rfl] at hfence

/-- Where arrivals keep every receive context alive, acceptance leaves the directories alone. -/
theorem acceptedState_dir {n : Nat} {p : Packet} {q : Nat} {s : State} (h : Passes n p q s = true)
    (hfresh : ∀ c ∈ s.e2e.recv, s.time < c.2.lastArrival + 4000000) : (acceptedState n p q s).dir = s.dir := by
  simp only [Passes, Bool.and_eq_true, decide_eq_true_eq] at h
  obtain ⟨-, hin⟩ := h
  have htaken := (taken_takeFrame n p s).1
  obtain ⟨-, -, harr⟩ := sequenceIn_accepts hin
  have hkeep : retireDue (recvKey q p) (takeFrame n p s) = takeFrame n p s :=
    retireDue_of_fresh (fun c hc => by
      rw [only_agree htaken .e2e rfl] at hc
      rw [only_agree htaken .time rfl]
      exact hfresh c hc) _
  rw [hkeep] at harr
  exact (only_agree harr.1 .dir rfl).trans (only_agree htaken .dir rfl)

/-- A packet without a sequence number that passes its checks is acted on as soon as its frame's words are freed. -/
theorem terminate_of_passesPlain {n : Nat} {p : Packet} {q : Nat} {s : State} (h : PassesPlain n p q s = true)
    (act : Nat → State → State) : terminate n p act s = act q (takeFrame n p s) := by
  simp only [PassesPlain, Bool.and_eq_true, decide_eq_true_eq, Bool.not_eq_true'] at h
  obtain ⟨⟨⟨⟨⟨hterm, hsrc⟩, hcrc⟩, hage⟩, hhead⟩, hseq⟩ := h
  have hsrc' := no_drop_of_srcOk hsrc
  have hdrop : unicastDrop (takeFrame n p s) p = false := by simp [unicastDrop, hseq]
  unfold terminate
  simp only [hterm, hsrc', hcrc, not_lt.mpr hage, hhead, hdrop, hseq, Bool.not_true, Bool.not_false,
    Bool.false_eq_true, if_false, if_true]

end Sys2Proof.Machine
end

section
/-! SUPPORT. Contexts of flows (R303 to R312): their tables, packets started, re-sent and given up. -/

namespace Sys2Proof.Machine

open Sys2Proof.Safety

/-! Association lists. -/

/-- A filter by keys keeps what it finds at a key that passes, and finds nothing at one that does not. -/
theorem afind_filter {κ α : Type} [DecidableEq κ] (p : κ → Bool) (l : List (κ × α)) (k : κ) :
    afind (l.filter (fun c => p c.1)) k = if p k then afind l k else none := by
  induction l with
  | nil => simp [afind]
  | cons c r ih =>
    obtain ⟨a, v⟩ := c
    rw [List.filter_cons]
    by_cases hak : a = k
    · subst hak
      by_cases hp : p a = true
      · simp [hp, afind]
      · rw [if_neg hp, ih, if_neg hp, if_neg hp]
    · by_cases hp : p a = true
      · simp only [hp, if_true, afind, if_neg hak, ih]
      · simp only [hp, Bool.false_eq_true, if_false, afind, if_neg hak, ih]

theorem afind_adel {κ α : Type} [DecidableEq κ] (k j : κ) (l : List (κ × α)) :
    afind (adel k l) j = if j = k then none else afind l j := by
  refine (afind_filter (fun a => !(decide (a = k))) l j).trans ?_
  by_cases h : j = k <;> simp [h]

theorem mem_aset {κ α : Type} [DecidableEq κ] {k : κ} {v : α} {l : List (κ × α)} {d : κ × α} (h : d ∈ aset k v l) :
    d = (k, v) ∨ d ∈ l := by
  induction l with
  | nil => exact .inl (List.mem_singleton.mp h)
  | cons c r ih =>
    obtain ⟨a, w⟩ := c
    unfold aset at h
    split at h
    · rcases List.mem_cons.mp h with rfl | h
      · exact .inl rfl
      · exact .inr (.tail _ h)
    · rcases List.mem_cons.mp h with rfl | h
      · exact .inr (.head _)
      · exact (ih h).imp id (.tail _)

/-! Contexts. -/

theorem sendCtx_congr {s t : State} (h : t.e2e.send = s.e2e.send) (k : FlowKey) : sendCtx t k = sendCtx s k := by
  unfold sendCtx
  rw [h]

theorem sendCtx_setSend (k j : FlowKey) (c : SendCtx) (s : State) :
    sendCtx (setSend k c s) j = if j = k then some c else sendCtx s j := afind_aset k j c s.e2e.send

theorem recvCtx_setRecv (k j : FlowKey) (c : RecvCtx) (s : State) :
    recvCtx (setRecv k c s) j = if j = k then some c else recvCtx s j := afind_aset k j c s.e2e.recv

theorem recvCtx_congr {s t : State} (h : t.e2e.recv = s.e2e.recv) (k : FlowKey) : recvCtx t k = recvCtx s k := by
  unfold recvCtx
  rw [h]

theorem sendOut_e2e (k p s) : (sendOut k p s).e2e = s.e2e := only_agree (within_sendOut k p s).1 .e2e rfl

/-! Nothing waits. -/

/-- A flow with no packet waiting starts none. -/
theorem flushFlow_of_idle {k : FlowKey} {s : State} (h : ∀ c, sendCtx s k = some c → c.waiting = []) :
    flushFlow k s = s := by
  have hw : waitCount s k = 0 := by
    unfold waitCount
    split
    · next c hc => rw [h c hc, List.length_nil]
    · rfl
  unfold flushFlow
  rw [hw]
  exact ite_self s

/-- No flow stalls for what has been freed. -/
theorem flushStalled_of_none {n : Nat} {s : State} (q : Nat) (h : ∀ d ∈ s.e2e.send, d.2.stall ≠ n) :
    flushStalled q n s = s := by
  have hf : s.e2e.send.filter (fun c => c.1.q % 4 == q && c.2.stall == n) = [] :=
    List.filter_eq_nil_iff.mpr fun d hd hp => h d hd (by simp at hp; exact hp.2)
  unfold flushStalled
  rw [hf]
  rfl

/-- A flow's context changes and keeps its stall: still no flow stalls for what has been freed. -/
theorem stall_setSend {k : FlowKey} {c c' : SendCtx} {n : Nat} {s : State} (hc : sendCtx s k = some c)
    (hs : c'.stall = c.stall) (h : ∀ d ∈ s.e2e.send, d.2.stall ≠ n) : ∀ d ∈ (setSend k c' s).e2e.send, d.2.stall ≠ n :=
  fun d hd => by
    rcases mem_aset hd with rfl | hd
    · rw [hs]
      exact h _ (mem_of_afind hc)
    · exact h d hd

/-- No completion is owed a place in a ring. -/
theorem settleRings_of_none {s : State} (h : ∀ x ∈ s.que.queues, x.2.extOut = none ∧ x.2.posts = []) :
    settleRings s = s := by
  have hf : s.que.queues.filter (fun c => c.2.extOut.isSome || !c.2.posts.isEmpty) = [] :=
    List.filter_eq_nil_iff.mpr fun x hx hp => by
      obtain ⟨h1, h2⟩ := h x hx
      simp [h1, h2] at hp
  unfold settleRings
  rw [hf]
  rfl

/-! Packets out by a port (R295). -/

/-- The choice of a port reads the fabric's tables and ports alone. -/
theorem choosePort_congr {s t : State} (h : t.rof = s.rof) (q : Nat) (p : Packet) (e : Option Nat) :
    choosePort t q p e = choosePort s q p e := by
  unfold choosePort candidates
  have hc : routeCost t = routeCost s := by
    funext a b c
    unfold routeCost qdepth port
    rw [h]
  have hp : port t = port s := by
    funext a
    unfold port
    rw [h]
  rw [h, hc, hp]

/-- A packet that has a port is queued there, behind what waits, and no other port changes. -/
theorem routeOut_of_port {q n : Nat} {pk : Packet} {s : State} (h : choosePort s q pk none = some n) :
    (port (routeOut q pk none s) n).txq = (port s n).txq ++ [{ pkt := pk, entry := none }] ∧
    Others port n s (routeOut q pk none s) := by
  have hcross (j : Nat) : port (cross q (n / 16) (32 + pk.payload.length) s) j = port s j :=
    port_congr (only_agree (within_cross q (n / 16) (32 + pk.payload.length) s).1 .ports rfl) j
  have hport (j : Nat) : port (routeOut q pk none s) j = port (sendBy q n pk none s) j := by
    unfold routeOut
    rw [h]
    simp only
    split <;> rfl
  refine ⟨?_, fun j hj => ?_⟩
  · rw [hport, sendBy, enqueue, port_setPort, if_pos rfl, hcross]
  · rw [hport, sendBy, enqueue, port_setPort, if_neg hj, hcross]

/-- The packet that `sendPlain` sends: from the flow's own source, without a sequence number. -/
def plainPkt (k : FlowKey) (p : Packet) (s : State) : Packet :=
  stamp s { p with src := BitVec.ofNat 16 (srcOn s k), seq := 0, pktCount := 1 }

theorem sendPlain_of_port {k : FlowKey} {p : Packet} {n : Nat} {s : State} (hk : k.other < pairBase)
    (h : choosePort s (k.q % 4) (plainPkt k p s) none = some n) :
    (port (sendPlain k p s) n).txq = (port s n).txq ++ [{ pkt := plainPkt k p s, entry := none }] ∧
    Others port n s (sendPlain k p s) := by
  have he : sendPlain k p s = routeOut (k.q % 4) (plainPkt k p s) none s := if_neg (not_le.mpr hk)
  rw [he]
  exact routeOut_of_port h

theorem keyOf_q (f : Flow) : (keyOf f).q % 4 = f.q.val := by
  unfold keyOf
  cases f.group with
  | none => exact Nat.mod_eq_of_lt f.q.isLt
  | some g =>
    have := f.q.isLt
    simp only
    omega

theorem keyOf_other {f : Flow} (h : f.pair = false) : (keyOf f).other < pairBase := by
  simp only [keyOf, h, Bool.false_eq_true, if_false]
  exact f.other.isLt

theorem srcOn_keyOf {f : Flow} (h : f.pair = false) (s : State) : srcOn s (keyOf f) = endpointOf s f.q.val := by
  unfold srcOn
  rw [if_neg (not_le.mpr (keyOf_other h)), keyOf_q]

/-! Packets kept for re-sending (R308, R311). -/

/-- The packet has the sequence number and is not acknowledged. -/
def isHeld (seq : Nat) (x : SentPkt) : Bool := x.pkt.seq.toNat == seq && !x.acked

theorem heldPkt_of_ctx {s : State} {k : FlowKey} {c : SendCtx} (h : sendCtx s k = some c) (seq : Nat) :
    heldPkt s k seq = c.pkts.find? (isHeld seq) := by
  unfold heldPkt
  rw [h]
  rfl

theorem ctx_of_heldPkt {s : State} {k : FlowKey} {seq : Nat} {x : SentPkt} (h : heldPkt s k seq = some x) :
    ∃ c, sendCtx s k = some c ∧ c.pkts.find? (isHeld seq) = some x := by
  cases hc : sendCtx s k with
  | none =>
    unfold heldPkt at h
    rw [hc] at h
    cases h
  | some c => exact ⟨c, rfl, (heldPkt_of_ctx hc seq) ▸ h⟩

theorem heldPkt_congr {s t : State} {k : FlowKey} (h : sendCtx t k = sendCtx s k) (seq : Nat) :
    heldPkt t k seq = heldPkt s k seq := by
  unfold heldPkt
  rw [h]

theorem seq_of_heldPkt {s : State} {k : FlowKey} {seq : Nat} {x : SentPkt} (h : heldPkt s k seq = some x) :
    x.pkt.seq.toNat = seq := by
  obtain ⟨c, -, hx⟩ := ctx_of_heldPkt h
  have := List.find?_some hx
  simp only [isHeld, Bool.and_eq_true, beq_iff_eq] at this
  exact this.1

theorem stamp_congr {s t : State} (h : t.time = s.time) (p : Packet) : stamp t p = stamp s p := by
  unfold stamp birthNow
  rw [h]

/-- The packet as it was re-sent just now. -/
def resent (s : State) (x : SentPkt) : SentPkt := { x with pkt := stamp s x.pkt, lastTx := s.time }

/-- A re-sent packet replaces those of its sequence number. -/
def afterResend (s : State) (x y : SentPkt) : SentPkt :=
  if y.pkt.seq = x.pkt.seq then { y with pkt := stamp s x.pkt, lastTx := s.time } else y

theorem isHeld_afterResend (s : State) (x y : SentPkt) (seq : Nat) : isHeld seq (afterResend s x y) = isHeld seq y := by
  unfold afterResend
  split
  · next h =>
    have : (stamp s x.pkt).seq = x.pkt.seq := rfl
    simp only [isHeld, this, h]
  · rfl

/-- A re-sending, in full: the packet's copies on its flow, the flow's last transmission, the count. -/
theorem resend_effect {k : FlowKey} {c : SendCtx} {x : SentPkt} {s : State} (h : sendCtx s k = some c) :
    sendCtx (resend k x s) k = some { c with lastTx := s.time, pkts := c.pkts.map (afterResend s x) } ∧
    Others sendCtx k s (resend k x s) ∧ Only [.cnt, .ports, .rofRest, .e2e] s (resend k x s) ∧
    (resend k x s).time = s.time ∧
    cntGet (resend k x s) cE2e (k.q % 4) 7 = satAdd (2 ^ 64 - 1) (cntGet s cE2e (k.q % 4) 7) 1 := by
  have he : resend k x s = sendOut k (stamp s x.pkt) (bump cE2e (k.q % 4) 7
      (setSend k { c with lastTx := s.time, pkts := c.pkts.map (afterResend s x) } s)) := by
    unfold resend
    rw [h]
    rfl
  rw [he]
  have hs (j : FlowKey) : sendCtx (sendOut k (stamp s x.pkt) (bump cE2e (k.q % 4) 7
      (setSend k { c with lastTx := s.time, pkts := c.pkts.map (afterResend s x) } s))) j =
      sendCtx (setSend k { c with lastTx := s.time, pkts := c.pkts.map (afterResend s x) } s) j :=
    sendCtx_congr (congrArg E2eState.send (sendOut_e2e k _ _)) j
  have hw := within_sendOut k (stamp s x.pkt) (bump cE2e (k.q % 4) 7
    (setSend k { c with lastTx := s.time, pkts := c.pkts.map (afterResend s x) } s))
  refine ⟨by rw [hs, sendCtx_setSend, if_pos rfl], fun j hj => by rw [hs, sendCtx_setSend, if_neg hj], ?_,
    only_agree hw.1 .time rfl, ?_⟩
  · exact only_trans (only_trans (only_mono (only_setSend k _ s) rfl) (only_mono (only_bump _ _ _ _) rfl))
      (only_mono hw.1 rfl)
  · have hkey : cntKey cE2e (k.q % 4) 7 < cntKey cUtil 0 0 := by
      simp only [cntKey, cE2e, cUtil]
      omega
    rw [cntGet_of_within hw hkey, cntGet_bump_same]
    rfl

/-- Of the packets held, a re-sending changes the one of its sequence number alone. -/
theorem heldPkt_resend {k : FlowKey} {x : SentPkt} {s : State} {seq : Nat} (h : heldPkt s k seq = some x) (j : Nat) :
    heldPkt (resend k x s) k j = if j = seq then some (resent s x) else heldPkt s k j := by
  obtain ⟨c, hc, hx⟩ := ctx_of_heldPkt h
  have hcomp : isHeld j ∘ afterResend s x = isHeld j := funext fun y => isHeld_afterResend s x y j
  rw [heldPkt_of_ctx (resend_effect hc).1 j, List.find?_map, hcomp, heldPkt_of_ctx hc j]
  split
  · next e =>
    rw [e, hx]
    simp [afterResend, resent]
  · next hne =>
    cases hy : c.pkts.find? (isHeld j) with
    | none => rfl
    | some y =>
      have hyj : y.pkt.seq.toNat = j := seq_of_heldPkt ((heldPkt_of_ctx hc j).trans hy)
      have hxy : ¬ y.pkt.seq = x.pkt.seq := fun e => hne (by rw [← hyj, e, seq_of_heldPkt h])
      simp [afterResend, hxy]

/-! A flow fails (Table 12.5). -/

/-- The packet is no ring read and no completion write: its failure is counted and has no other consequence. -/
abbrev PlainLoss (p : Packet) : Prop := p.typ.toNat ≠ tRdOnce ∧ p.typ.toNat ≠ tWrPart

theorem packetFailed_of_plain (k : FlowKey) {p : Packet} (h : PlainLoss p) (s : State) :
    packetFailed k p s = bump cE2e (k.q % 4) 10 s := by
  simp only [packetFailed, if_neg h.1, if_neg h.2]

/-- Packets are counted as failed one by one. -/
def countFailed (k : FlowKey) (l : List SentPkt) (s : State) : State :=
  forEach l (fun _ s => bump cE2e (k.q % 4) 10 s) s

theorem forEach_packetFailed (k : FlowKey) (l : List SentPkt) (h : ∀ x ∈ l, PlainLoss x.pkt) (s : State) :
    forEach l (fun x s => packetFailed k x.pkt s) s = countFailed k l s := by
  induction l generalizing s with
  | nil => rfl
  | cons x r ih =>
    rw [forEach_cons, packetFailed_of_plain k (h x (.head _)), ih fun y hy => h y (.tail _ hy)]
    rfl

theorem only_countFailed (k l s) : Only [.cnt] s (countFailed k l s) :=
  only_forEach l s fun _ t => only_bump _ _ _ t

theorem cntGet_countFailed (k : FlowKey) (l : List SentPkt) (hl : l ≠ []) (s : State) :
    cntGet (countFailed k l s) cE2e (k.q % 4) 10 = satAdd (2 ^ 64 - 1) (cntGet s cE2e (k.q % 4) 10) l.length := by
  induction l generalizing s with
  | nil => exact absurd rfl hl
  | cons x r ih =>
    have hcons : countFailed k (x :: r) s = countFailed k r (bump cE2e (k.q % 4) 10 s) := rfl
    by_cases hr : r = []
    · subst hr
      exact cntGet_bump_same _ _ _ s
    · rw [hcons, ih hr, cntGet_bump_same]
      simp only [satAdd, List.length_cons]
      omega

/-- The context of a flow all of whose packets have failed. -/
def failedCtx (c : SendCtx) : SendCtx := { c with isOpen := false, pkts := c.pkts.map (fun y => { y with acked := true }) }

/-- A flow without waiting packets, ring reads and completion writes fails: its context opens again, its unacknowledged packets
are counted. -/
theorem failFlow_effect {k : FlowKey} {c : SendCtx} {s : State} (h : sendCtx s k = some c) (hw : c.waiting = [])
    (hplain : ∀ y ∈ c.pkts, PlainLoss y.pkt) (hstall : ∀ d ∈ s.e2e.send, d.2.stall ≠ 2) :
    failFlow k s = countFailed k (c.pkts.filter (fun x => !x.acked)) (setSend k (failedCtx c) s) := by
  have hsend : (countFailed k (c.pkts.filter (fun x => !x.acked)) (setSend k (failedCtx c) s)).e2e =
      (setSend k (failedCtx c) s).e2e := only_agree (only_countFailed k _ _) .e2e rfl
  have hctx : sendCtx (countFailed k (c.pkts.filter (fun x => !x.acked)) (setSend k (failedCtx c) s)) k =
      some (failedCtx c) := by
    rw [sendCtx_congr (congrArg E2eState.send hsend), sendCtx_setSend, if_pos rfl]
  have hidle : flushFlow k (countFailed k (c.pkts.filter (fun x => !x.acked)) (setSend k (failedCtx c) s)) =
      countFailed k (c.pkts.filter (fun x => !x.acked)) (setSend k (failedCtx c) s) :=
    flushFlow_of_idle fun d hd => by
      rw [hctx] at hd
      cases hd
      exact hw
  have hnone : ∀ d ∈ (countFailed k (c.pkts.filter (fun x => !x.acked)) (setSend k (failedCtx c) s)).e2e.send,
      d.2.stall ≠ 2 := by
    rw [hsend]
    exact stall_setSend h rfl hstall
  unfold failFlow
  rw [h]
  simp only
  rw [forEach_packetFailed k _ fun x hx => hplain x (List.mem_filter.mp hx).1]
  exact (congrArg (flushStalled (k.q % 4) 2) hidle).trans (flushStalled_of_none _ hnone)

/-- What the failure of a flow changes: its context, and the count. -/
theorem sendCtx_countFailed (k : FlowKey) (l : List SentPkt) (c : SendCtx) (s : State) (j : FlowKey) :
    sendCtx (countFailed k l (setSend k c s)) j = if j = k then some c else sendCtx s j := by
  rw [sendCtx_congr (congrArg E2eState.send (only_agree (only_countFailed k l _) .e2e rfl)), sendCtx_setSend]

/-! A packet starts (R308). -/

theorem noteSeq_send (k p s) : (noteSeq k p s).e2e.send = s.e2e.send := by
  unfold noteSeq
  simp only
  split_ifs
  · split <;> rfl
  · split <;> rfl
  · rfl

theorem only_noteSeq (k p s) : Only [.e2e] s (noteSeq k p s) := by
  unfold noteSeq
  simp only
  split_ifs
  · split
    · exact only_setE2e _ s
    · exact only_refl _ s
  · split
    · exact only_setE2e _ s
    · exact only_refl _ s
  · exact only_refl _ s

/-- The context of a flow that starts a packet now. -/
def startedCtx (s : State) (p : Packet) (c : SendCtx) : SendCtx :=
  { c with nextSeq := (c.nextSeq + 1) % 2 ^ 24, lastTx := s.time
           pkts := (c.pkts.filter (fun x => !x.acked || decide (s.time < x.lastTx + 1100000))) ++
             [{ pkt := stamp s { p with seq := BitVec.ofNat 24 c.nextSeq }, first := s.time, lastTx := s.time }] }

theorem sendCtx_launch (k p c s j) :
    sendCtx (launch k p c s) j = if j = k then some (startedCtx s p c) else sendCtx s j := by
  have he : launch k p c s = sendOut k (stamp s { p with seq := BitVec.ofNat 24 c.nextSeq })
      (noteSeq k (stamp s { p with seq := BitVec.ofNat 24 c.nextSeq }) (setSend k (startedCtx s p c) s)) := rfl
  rw [he, sendCtx_congr ((congrArg E2eState.send (sendOut_e2e k _ _)).trans (noteSeq_send k _ _)), sendCtx_setSend]

theorem only_launch (k p c s) : Only [.cnt, .ports, .rofRest, .e2e] s (launch k p c s) :=
  only_trans (only_trans (only_mono (only_setSend k _ s) rfl) (only_mono (only_noteSeq k _ _) rfl))
    (only_mono (within_sendOut k _ _).1 rfl)

/-- Without a partner no output is digested. -/
theorem startPkt_of_solo (k p c) {s : State} (h : s.pair.st = .solo) : startPkt k p c s = launch k p c s := by
  have hp : (launch k p c s).pair.st = .solo := (congrArg PairState.st (only_agree (only_launch k p c s) .pair rfl)).trans h
  have hf (q b) : feed q none b (launch k p c s) = launch k p c s := by simp [feed, hp]
  unfold startPkt
  simp only [hf, ite_self]

/-- The one packet that waits on a flow starts where nothing stalls it. -/
theorem flushN_one {make : SendCtx → State → SendCtx × State} {start : Packet → SendCtx → State → State} {k : FlowKey}
    {c : SendCtx} {p : Packet} {s : State} (hc : sendCtx s k = some c) (hw : c.waiting = [p])
    (hst : flowStall s k c p = .none_) :
    flushN make start 1 k s =
      start p { (if c.made then (c, s) else make c s).1 with made := true, waiting := [], stall := 0 }
        (if c.made then (c, s) else make c s).2 := by
  unfold flushN
  rw [hc]
  simp only [hw, hst, if_true, flushN]

theorem waitCount_one {k : FlowKey} {c : SendCtx} {p : Packet} {s : State} (hc : sendCtx s k = some c)
    (hw : c.waiting = [p]) : waitCount s k = 1 := by
  unfold waitCount
  rw [hc]
  simp only [hw, List.length_cons, List.length_nil]

/-- A flow that has its context starts the one packet that waits. -/
theorem flushFlow_of_made {k : FlowKey} {c : SendCtx} {p : Packet} {s : State} (hsolo : s.pair.st = .solo)
    (hc : sendCtx s k = some c) (hw : c.waiting = [p]) (hmade : c.made = true) (hst : flowStall s k c p = .none_) :
    flushFlow k s = launch k p { c with made := true, waiting := [], stall := 0 } s := by
  unfold flushFlow
  rw [waitCount_one hc hw, flushN_one hc hw hst, flushN_one hc hw hst]
  simp only [hmade, if_true, startPkt_of_solo k p _ hsolo, ite_self]

end Sys2Proof.Machine
end

section
/-! SUPPORT. The transport commands (chapter 12): each with the state that it leads to. -/

namespace Sys2Proof.Machine

open Sys2Proof.Safety

/-! Parts of the state read by a clause. -/

theorem sameMemory_of_only {l : List Area} {s t : State} (h : Only l s t) (hb : l.contains .bytes = false)
    (hm : l.contains .merge = false) : SameMemory s t :=
  fun a => readByte_congr (only_agree h .bytes hb) (only_agree h .merge hm) a

theorem que_of_only {l : List Area} {s t : State} (h : Only l s t) (hg : l.contains .groups = false)
    (hq : l.contains .queues = false) (hj : l.contains .jobs = false) (hr : l.contains .queRest = false) :
    t.que = s.que := by
  have hrest : { t.que with groups := [], queues := [], jobs := [] } =
      ({ s.que with groups := [], queues := [], jobs := [] } : QueState) := only_agree h .queRest hr
  have hgroups : t.que.groups = s.que.groups := only_agree h .groups hg
  have hqueues : t.que.queues = s.que.queues := only_agree h .queues hq
  have hjobs : t.que.jobs = s.que.jobs := only_agree h .jobs hj
  calc t.que = { ({ t.que with groups := [], queues := [], jobs := [] } : QueState) with
        groups := t.que.groups, queues := t.que.queues, jobs := t.que.jobs } := rfl
    _ = s.que := by rw [hrest, hgroups, hqueues, hjobs]

theorem queue_congr {s t : State} (h : t.que.queues = s.que.queues) (n : Nat) : queue t n = queue s n := by
  unfold queue
  rw [h]

/-- What an arrival leaves of end-to-end transport. -/
theorem e2e_of_arrives {l : List Area} {s t : State} (h : Arrives l s t) :
    t.e2e.send = s.e2e.send ∧ t.e2e.requests = s.e2e.requests ∧ t.e2e.ringWrites = s.e2e.ringWrites ∧
    t.e2e.quietUntil = s.e2e.quietUntil :=
  ⟨congrArg (·.send) h.2, congrArg (·.requests) h.2, congrArg (·.ringWrites) h.2, congrArg (·.quietUntil) h.2⟩

/-- The flow that an Ack or ResendReq names is the same after its frame's words are freed. -/
theorem ackedFlow_takeFrame (n q p s) : ackedFlow (takeFrame n p s) n q p = ackedFlow s n q p := by
  have ht := taken_takeFrame n p s
  have hsec : ({ (takeFrame n p s).sec with tenants := [], sealeds := [] } : SecState) =
      { s.sec with tenants := [], sealeds := [] } := only_agree ht.1 .secRest rfl
  have hs : (takeFrame n p s).sec.side = s.sec.side := congrArg (·.side) hsec
  unfold ackedFlow
  rw [ht.2 n, hs]

/-! Requests: TETHERBEAT, responses, recalls. -/

theorem lease_renew_others {p : Part} (hp : isGroup p = false) (s : State) : Others lease p s (renew p s) := fun j hj => by
  unfold renew
  simp only
  split
  · rfl
  · split
    · rw [lease_setLease, if_neg hj]
    · rw [renewAt_of_not_group hp, lease_renewHolder, if_neg hj]

theorem descArrive_of_running {n : Nat} {d : List Byte} {s : State} (hsolo : s.pair.st = .solo)
    (hf : (queue s n).fetching = true) (hst : (queue s n).st = .running) (hg : (group s (n / 8)).st = .active)
    (hr : (group s (n / 8)).revoking = false) :
    descArrive n d s = bump cQue 0 0 (setQueue n { queue s n with
      fetching := false, sqHead := (queue s n).sqHead + 1, stamps := (queue s n).stamps.drop 1
      flight := (queue s n).flight ++ [{ slot := (queue s n).sqHead.toNat, bytes := slice d 0 64
                                         stamp := (queue s n).stamps.headD s.time }] } s) := by
  have hno : ¬ ((queue s n).st ≠ .running ∨ (group s (n / 8)).st ≠ .active ∨ (group s (n / 8)).revoking = true) := by
    simp [hst, hg, hr]
  unfold descArrive
  simp only [hf, Bool.not_true, Bool.false_eq_true, if_false, if_neg hno]
  exact orderRec_of_solo _ hsolo

theorem slice_eq_take {d : List Byte} {n : Nat} (h : n ≤ d.length) : slice d 0 n = d.take n := by
  apply List.ext_getElem
  · simp [slice, h]
  · intro i hi hi'
    have hlt : i < d.length := by
      simp only [slice, List.length_map, List.length_range] at hi
      omega
    simp [slice, byteAt, hlt]

theorem afind_nil_aset {κ α : Type} [DecidableEq κ] (k : κ) (v : α) : aset k v ([] : List (κ × α)) = [(k, v)] := rfl

/-- A new context's first SEQ comes from a free value, or from the order stream. -/
theorem openCtx_of_solo (c : SendCtx) {s : State} (h : s.pair.st = .solo) : ∃ (m : Nat) (u : State),
    openCtx c s = ({ c with nextSeq := m }, u) ∧ u.pair.st = .solo := by
  unfold openCtx
  split
  · exact ⟨_, _, rfl, h⟩
  · have hn : (newCtx c s).2.pair.st = .solo := h
    exact ⟨(newCtx c s).1.nextSeq, (newCtx c s).2, Prod.ext rfl (orderRec_of_solo _ hn), hn⟩

/-- Nothing stalls the first packet of the only flow, if it is small. -/
theorem flowStall_of_first {k : FlowKey} {p : Packet} {s : State} (hsend : s.e2e.send = [(k, { made := false, waiting := [p] })])
    (hquiet : s.e2e.quietUntil = none) (hsize : 32 * frameWords p ≤ 67108864) :
    flowStall s k { made := false, waiting := [p] } p = .none_ := by
  have hcount : sendCount s (k.q % 4) = 0 := by simp [sendCount, hsend]
  have hreplay : replayBytes s k.q = 0 := by
    unfold replayBytes
    rw [hsend]
    simp
  have hbig : ¬ 67108864 < 32 * frameWords p := not_lt.mpr hsize
  simp [flowStall, hquiet, hcount, oldestUnacked, oldestLive, hreplay, hbig]

/-- The first packet of a device that sends nothing yet starts at once. -/
theorem flowPackets_sendPacket {q : Nat} {p : Packet} {s : State} (hsolo : s.pair.st = .solo) (hsend : s.e2e.send = [])
    (hquiet : s.e2e.quietUntil = none) (hfence : s.fen.fencedBlocks = []) (hsize : p.payload = []) :
    flowPackets (sendPacket q p s) q p.dst.toNat p.vc.toNat = some [(p.typ.toNat, p.arg0, p.payload)] := by
  generalize hk : ({ q := q, other := p.dst.toNat, vc := p.vc.toNat } : FlowKey) = k
  have hother : ¬ pairBase ≤ k.other := by
    rw [← hk]
    exact not_le.mpr p.dst.isLt
  have hopen : blockFenced s 5 (k.q % 4) = false := by simp [blockFenced, hfence]
  generalize hp : ({ p with src := BitVec.ofNat 16 (srcOn s k) } : Packet) = p'
  have hctx0 : sendCtx s k = none := by
    unfold sendCtx
    rw [hsend]
    rfl
  have hjoin : joinFlow k p' s = setSend k { made := false, waiting := [p'] } s := by
    unfold joinFlow
    rw [hctx0]
    rfl
  have hlist : (joinFlow k p' s).e2e.send = [(k, { made := false, waiting := [p'] })] := by
    rw [hjoin]
    exact congrArg (aset k _) hsend
  have hctx : sendCtx (joinFlow k p' s) k = some { made := false, waiting := [p'] } := by
    rw [hjoin, sendCtx_setSend, if_pos rfl]
  have hstall : flowStall (joinFlow k p' s) k { made := false, waiting := [p'] } p' = .none_ :=
    flowStall_of_first hlist hquiet (by
      rw [← hp]
      simp [frameWords, hsize, ceilDiv])
  obtain ⟨m, u, hopened, hu⟩ := openCtx_of_solo { made := false, waiting := [p'] } (s := joinFlow k p' s) hsolo
  have hflush : sendPacket q p s = launch k p' { nextSeq := m } u := by
    unfold sendPacket sendOn
    rw [hk, hopen, hp]
    unfold flushFlow
    rw [if_neg hother, waitCount_one hctx rfl, flushN_one hctx rfl hstall]
    simp only [Bool.false_eq_true, if_false, hopened]
    exact startPkt_of_solo k p' _ hu
  unfold flowPackets
  rw [hk, hflush, sendCtx_launch, if_pos rfl, ← hp]
  rfl

/-! Acks and re-sends. -/

theorem pruneWrites_of_none {s : State} (h : s.e2e.ringWrites = []) : pruneWrites s = s := by
  have he : s.e2e = { s.e2e with ringWrites := [] } := by rw [← h]
  unfold pruneWrites
  simp only [h, List.filter_nil]
  rw [← he]

/-- The context of a flow that an Ack has acted on. -/
def ackedCtx (s : State) (p : Packet) (c : SendCtx) : SendCtx :=
  { c with isOpen := c.isOpen || c.pkts.any (fun x => !x.acked && covered p x.pkt.seq.toNat), lastAck := s.time
           pkts := c.pkts.map (fun x => { x with acked := x.acked || covered p x.pkt.seq.toNat }) }

/-- An Ack of a flow with nothing waiting, on a device without completion writes outstanding, changes the flow's context
alone. -/
theorem applyAck_effect {k : FlowKey} {p : Packet} {c : SendCtx} {s : State} (hc : sendCtx s k = some c)
    (hw : c.waiting = []) (hring : s.e2e.ringWrites = []) (hstall : ∀ d ∈ s.e2e.send, d.2.stall ≠ 2)
    (hque : ∀ x ∈ s.que.queues, x.2.extOut = none ∧ x.2.posts = []) :
    applyAck k p s = setSend k (ackedCtx s p c) s := by
  have hpkts : c.pkts.map (fun x => if covered p x.pkt.seq.toNat then { x with acked := true } else x) =
      c.pkts.map (fun x => { x with acked := x.acked || covered p x.pkt.seq.toNat }) :=
    List.map_congr_left fun x _ => by cases covered p x.pkt.seq.toNat <;> simp
  have hset : setSend k { c with
      isOpen := c.isOpen || c.pkts.any (fun x => !x.acked && covered p x.pkt.seq.toNat), lastAck := s.time
      pkts := c.pkts.map (fun x => if covered p x.pkt.seq.toNat then { x with acked := true } else x) } s =
      setSend k (ackedCtx s p c) s := by
    rw [hpkts]
    rfl
  have hring' : (setSend k (ackedCtx s p c) s).e2e.ringWrites = [] := hring
  have he : (setSend k (ackedCtx s p c) s).e2e = { (setSend k (ackedCtx s p c) s).e2e with ringWrites := [] } := by
    rw [← hring']
  have hidle : flushFlow k (setSend k (ackedCtx s p c) s) = setSend k (ackedCtx s p c) s :=
    flushFlow_of_idle fun d hd => by
      rw [sendCtx_setSend, if_pos rfl] at hd
      cases hd
      exact hw
  unfold applyAck
  rw [hc]
  simp only
  rw [hset]
  simp only [hring', List.map_nil]
  rw [← he, pruneWrites_of_none hring', settleRings_of_none (s := setSend k (ackedCtx s p c) s) hque, hidle]
  exact flushStalled_of_none _ (stall_setSend hc rfl hstall)

/-- One packet that a ResendReq names. -/
def resendNamed (q : Nat) (k : FlowKey) (first i : Nat) (s : State) : State :=
  match heldPkt s k ((first + i) % 2 ^ 24) with
  | none => bump cE2e q 9 s
  | some x => if x.lastTx + 5000 ≤ s.time then resend k x s else s

/-- A ResendReq that passes its checks re-sends what it names, one packet after the other. -/
theorem resendreq_of_passes {n : Fin 64} {p : Packet} {q : Nat} {s : State} (hrun : Running s)
    (hp : PassesPlain n.val p q s = true) (ht : p.typ = 0x45) :
    execResendreq n p s = .next (forEach ((List.range 1024).filter (payBit p))
      (resendNamed q (ackedFlow s n.val q p) (p.arg0.toNat % 2 ^ 24)) (takeFrame n.val p s)) := by
  refine congrArg Host.Outcome.next ((live_of hrun).trans ((terminate_of_passesPlain hp _).trans ?_))
  have htyp : ¬ p.typ.toNat ≠ tResendReq := by
    rw [ht]
    decide
  simp only [if_neg htyp, ackedFlow_takeFrame]
  rfl

/-- The packet held under a number after it has been named once. -/
def heldAfter (s : State) (o : Option SentPkt) : Option SentPkt :=
  o.map fun x => if x.lastTx + 5000 ≤ s.time then resent s x else x

/-- What one named packet changes. -/
theorem resendNamed_effect (q : Nat) (k : FlowKey) (first i : Nat) (s : State) :
    (∀ j, heldPkt (resendNamed q k first i s) k j =
      if j = (first + i) % 2 ^ 24 then heldAfter s (heldPkt s k j) else heldPkt s k j) ∧
    Others sendCtx k s (resendNamed q k first i s) ∧
    Only [.cnt, .ports, .rofRest, .e2e] s (resendNamed q k first i s) := by
  unfold resendNamed
  split
  · next h =>
    refine ⟨fun j => ?_, fun j hj => rfl, only_mono (only_bump _ _ _ s) rfl⟩
    split
    · next e =>
      have hb : heldPkt (bump cE2e q 9 s) k j = heldPkt s k j := rfl
      rw [hb, e, h]
      rfl
    · rfl
  · next x h =>
    split
    · next hold =>
      obtain ⟨c, hc, -⟩ := ctx_of_heldPkt h
      obtain ⟨-, hothers, honly, -, -⟩ := resend_effect (x := x) hc
      refine ⟨fun j => ?_, hothers, honly⟩
      rw [heldPkt_resend h]
      split
      · next e =>
        rw [e, h]
        simp [heldAfter, hold]
      · rfl
    · next hold =>
      refine ⟨fun j => ?_, fun j hj => rfl, only_refl _ s⟩
      split
      · next e =>
        rw [e, h]
        simp [heldAfter, hold]
      · rfl

theorem nodup_named (first : Nat) (p : Packet) :
    (((List.range 1024).filter (payBit p)).map (fun i => (first + i) % 2 ^ 24)).Nodup := by
  refine (List.nodup_range.filter _).map_on fun a ha b hb h => ?_
  have ha' := List.mem_range.mp (List.mem_filter.mp ha).1
  have hb' := List.mem_range.mp (List.mem_filter.mp hb).1
  omega

/-- What a whole ResendReq changes: each packet it names, as one naming changes it, and no other flow. -/
theorem resendLoop_effect (q : Nat) (k : FlowKey) (first : Nat) (p : Packet) (s : State) :
    Others sendCtx k s (forEach ((List.range 1024).filter (payBit p)) (resendNamed q k first) s) ∧
    Only [.cnt, .ports, .rofRest, .e2e] s (forEach ((List.range 1024).filter (payBit p)) (resendNamed q k first) s) ∧
    ∀ i, i < 1024 → payBit p i = true →
      heldPkt (forEach ((List.range 1024).filter (payBit p)) (resendNamed q k first) s) k ((first + i) % 2 ^ 24) =
        heldAfter s (heldPkt s k ((first + i) % 2 ^ 24)) := by
  have hstep (i : Nat) (t : State) := resendNamed_effect q k first i t
  refine ⟨?_, only_forEach _ s fun i t => (hstep i t).2.2, fun i hi hbit => ?_⟩
  · exact forEach_keeps (P := Others sendCtx k s) _ (fun i t h j hj => ((hstep i t).2.1 j hj).trans (h j hj))
      fun _ _ => rfl
  · exact forEach_once (v := fun t => heldPkt t k) (f := resendNamed q k first) (key := fun i => (first + i) % 2 ^ 24)
      (I := fun t => t.time = s.time) (g := fun _ => heldAfter s)
      (fun i t _ j hj => ((hstep i t).1 j).trans (if_neg hj))
      (fun i t h => (only_agree (hstep i t).2.2 .time rfl).trans h)
      (fun i t h => by
        refine ((hstep i t).1 _).trans ((if_pos rfl).trans ?_)
        simp only [heldAfter, resent, stamp_congr h, h])
      ((List.range 1024).filter (payBit p)) (nodup_named first p) rfl (List.mem_filter.mpr ⟨List.mem_range.mpr hi, hbit⟩)

/-! Responses (R512). -/

theorem actResponse_unmatched {q : Nat} {p : Packet} {s : State} (hlo : 0x10 ≤ p.typ.toNat) (hhi : p.typ.toNat ≤ 0x14)
    (hreq : s.e2e.requests = []) (hring : s.e2e.ringWrites = []) : actResponse q p s = bump cE2e q 15 s := by
  simp [actResponse, hlo, hhi, hreq, hring]

/-- A ring read takes its data. -/
theorem actResponse_ringRead {q : Nat} {p : Packet} {r : RingRead} {s : State} (ht : p.typ = 0x10)
    (hok : p.arg0.toNat % 256 = 0) (hlen : 64 ≤ p.payload.length) (hvc : field p.arg0.toNat 32 3 = 0)
    (hreq : s.e2e.requests = [r]) (hq : r.q = q) (hother : r.other = p.src.toNat)
    (hseq : r.seq = some (field p.arg0.toNat 8 24)) :
    actResponse q p s = descArrive r.queue p.payload { s with e2e := { s.e2e with requests := [] } } := by
  have htyp : p.typ.toNat = 0x10 := by
    rw [ht]
    rfl
  simp [actResponse, htyp, hvc, hreq, hq, hother, hseq, hok, hlen]

/-- A completion write that is answered is forgotten, where no earlier one of its queue is outstanding. -/
theorem actResponse_ringWrite {q : Nat} {p : Packet} {w : RingWrite} {s : State} (ht : p.typ = 0x13)
    (hvc : field p.arg0.toNat 32 3 = 4) (hring : s.e2e.ringWrites = [w]) (hq : w.q = q) (hother : w.other = p.src.toNat)
    (hseq : w.seq = some (field p.arg0.toNat 8 24)) (hque : ∀ x ∈ s.que.queues, x.2.extOut = none ∧ x.2.posts = []) :
    actResponse q p s = { s with e2e := { s.e2e with ringWrites := [] } } := by
  have htyp : p.typ.toNat = 0x13 := by
    rw [ht]
    rfl
  have hmine : isWrite { q := q, other := p.src.toNat, vc := 4 } (field p.arg0.toNat 8 24) w = true := by
    simp [isWrite, hq, hother, hseq]
  have hset : settleRings { s with e2e := { s.e2e with ringWrites := [] } } =
      { s with e2e := { s.e2e with ringWrites := [] } } := settleRings_of_none hque
  have hnone : s.e2e.requests.find? (fun _ => false) = none := List.find?_eq_none.mpr fun _ _ => Bool.false_ne_true
  simp [actResponse, htyp, hvc, hnone, hring, hmine, pruneWrites, hset]

/-! Timers (Table 12.9). -/

theorem recvCtx_of_e2e {s t : State} (h : t.e2e = s.e2e) (k : FlowKey) : recvCtx t k = recvCtx s k :=
  recvCtx_congr (congrArg E2eState.recv h) k

theorem sendPlain_e2e (k p s) : (sendPlain k p s).e2e = s.e2e := sendOut_e2e k _ s

theorem only_sendPlain (k p s) : Only outAreas s (sendPlain k p s) := (within_sendPlain k p s).1

/-- What a receive context's retirement leaves (R306, R316). -/
theorem retireDue_of_due {k : FlowKey} {c : RecvCtx} {s : State} (hc : recvCtx s k = some c)
    (hdue : c.lastArrival + 4000000 ≤ s.time) :
    Only [.e2e, .dir] s (retireDue k s) ∧
    (retireDue k s).e2e = { s.e2e with recv := adel k s.e2e.recv
                                       reasm := s.e2e.reasm.filter (fun r => !(decide (r.1.1 = k))) } := by
  refine ⟨(arrives_retireDue k s).1, ?_⟩
  unfold retireDue
  rw [hc]
  simp only [if_pos hdue]
  exact forEach_keeps (P := fun t => t.e2e = _) _ (fun _ _ h => h) rfl

/-- Missing packets that one ResendReq can name make one group. -/
theorem resendGroups_of_near {i : Nat} {l : List Nat} (h : ∀ j ∈ l, j < i + 1024) (n : Nat) :
    resendGroups (n + 1) (i :: l) = [(i, 0 :: l.map (fun j => j - i))] := by
  have htake : (i :: l).takeWhile (fun y => decide (y < i + 1024)) = i :: l :=
    List.takeWhile_eq_self_iff.mpr fun y hy => by
      rcases List.mem_cons.mp hy with rfl | hy
      · simp
      · simpa using h y hy
  unfold resendGroups
  simp only [htake, List.drop_length, List.map_cons, Nat.sub_self]
  cases n <;> rfl

/-- The state in which the missing packets of a message are asked for again. -/
def reasked (f : Flow) (first : Nat) (r : Reasm) (s : State) : State :=
  bump cE2e f.q.val 8 { s with e2e := { s.e2e with
    reasm := aset (keyOf f, first) { r with lastReq := s.time } s.e2e.reasm } }

/-- A message whose missing packets one ResendReq can name has them asked for again. -/
theorem reasmTimeout_of_due {f : Flow} {first : BitVec 24} {now i : Nat} {l : List Nat} {r : Reasm} {s : State}
    (hrun : Running s) (hr : afind s.e2e.reasm (keyOf f, first.toNat) = some r)
    (hdue : r.lastReq + 1000 * reasmUs s f.q.val ≤ max s.time now)
    (hmiss : (List.range r.pktCount).filter (fun j => !(r.got.contains j)) = i :: l) (hnear : ∀ j ∈ l, j < i + 1024) :
    execReasmTimeout f first now s = .next (sendPlain (keyOf f)
      (controlPkt s (keyOf f) tResendReq (first.toNat + i) (0 :: l.map (fun j => j - i)))
      (reasked f first.toNat r (advance now s))) := by
  have hr' : afind (advance now s).e2e.reasm (keyOf f, first.toNat) = some r := hr
  have hdue' : r.lastReq + 1000 * reasmUs (advance now s) f.q.val ≤ (advance now s).time := hdue
  refine congrArg Host.Outcome.next ((live_of hrun).trans ?_)
  simp only [hr', if_pos hdue', hmiss, List.length_cons, resendGroups_of_near hnear, forEach_cons, forEach_nil]
  rfl

/-- Settles O37: each clause by the lemma of its command, on the state in which the packet is acted on or the timer runs. -/
theorem transportCommandsComplete : Obligations.TransportCommandsComplete := by
  unfold Obligations.TransportCommandsComplete
  refine ⟨?_, ?_, ?_, ?_, ?_, ?_, ?_, ?_, ?_, ?_, ?_, ?_, ?_, ?_, ?_, ?_, ?_, ?_⟩
  · intro n p q s hrun hp ht hteth hend
    obtain ⟨harr, -, -, -⟩ := acceptedState_arrives hp
    have hlease : ∀ j, lease (acceptedState n.val p q s) j = lease s j := lease_congr (only_agree harr.1 .leases rfl)
    have htime : (acceptedState n.val p q s).time = s.time := only_agree harr.1 .time rfl
    have hheld : tethersOf (acceptedState n.val p q s) (.ep p.src.toNat) ≠ 0 := by
      rwa [tethersOf_congr (only_agree harr.1 .tethers rfl)]
    have hno : ¬ Overdue (acceptedState n.val p q s) (.ep p.src.toNat) := fun h => by
      obtain ⟨-, h⟩ := h
      rw [hlease, htime] at h
      exact absurd hend (not_le.mpr h)
    have hact : actTetherBeat p (acceptedState n.val p q s) = renew (.ep p.src.toNat) (acceptedState n.val p q s) :=
      if_pos (by rw [ht]; rfl)
    have hl := lease_renew (p := .ep p.src.toNat) rfl (acceptedState n.val p q s)
    rw [if_neg hheld, if_neg hno, hlease, htime] at hl
    refine ⟨renew (.ep p.src.toNat) (acceptedState n.val p q s),
      congrArg Host.Outcome.next ((live_of hrun).trans ((terminate_of_passes hp _).trans hact)), ?_, ?_, fun j hj => ?_⟩
    · rw [hl]
      rfl
    · rw [hl]
    · exact (lease_renew_others rfl _ j hj).trans (hlease j)
  · intro n p q s hrun hp hlo hhi hreq hring
    obtain ⟨harr, -, -, -⟩ := acceptedState_arrives hp
    obtain ⟨-, hreq', hring', -⟩ := e2e_of_arrives harr
    have hact : actResponse q p (acceptedState n.val p q s) = bump cE2e q 15 (acceptedState n.val p q s) :=
      actResponse_unmatched hlo hhi (hreq'.trans hreq) (hring'.trans hring)
    have honly : Only (.cnt :: termAreas) s (bump cE2e q 15 (acceptedState n.val p q s)) :=
      only_trans (only_mono harr.1 rfl) (only_mono (only_bump _ _ _ _) rfl)
    refine ⟨_, congrArg Host.Outcome.next ((live_of hrun).trans ((terminate_of_passes hp _).trans hact)), ?_,
      sameMemory_of_only honly rfl rfl, que_of_only honly rfl rfl rfl rfl⟩
    rw [cntGet_bump_same, cntGet_congr (only_agree harr.1 .cnt rfl)]
  · intro n p q r s hrun hp ht hok hlen hvc hreq hq hother hseq hfetch hst hgroup hrev
    obtain ⟨harr, -, -, hsolo⟩ := acceptedState_arrives hp
    obtain ⟨-, hreq', -, -⟩ := e2e_of_arrives harr
    have hque := que_of_only harr.1 rfl rfl rfl rfl
    generalize hu : ({ acceptedState n.val p q s with e2e := { (acceptedState n.val p q s).e2e with requests := [] } } :
      State) = u
    have huque : u.que = s.que := hu ▸ hque
    have husolo : u.pair.st = .solo := hu ▸ (congrArg PairState.st (only_agree harr.1 .pair rfl)).trans hsolo
    have hqueue (j : Nat) : queue u j = queue s j := queue_congr (congrArg QueState.queues huque) j
    have hgrp (j : Nat) : group u j = group s j := group_congr (congrArg QueState.groups huque) j
    have htime : u.time = s.time := hu ▸ only_agree harr.1 .time rfl
    have hcnt : u.cnt = s.cnt := hu ▸ only_agree harr.1 .cnt rfl
    have hact : actResponse q p (acceptedState n.val p q s) = descArrive r.queue p.payload u :=
      hu ▸ actResponse_ringRead ht hok hlen hvc (hreq'.trans hreq) hq hother hseq
    have hdesc := descArrive_of_running (n := r.queue) (d := p.payload) husolo (by rw [hqueue, hfetch])
      (by rw [hqueue, hst]) (by rw [hgrp, hgroup]) (by rw [hgrp, hrev])
    refine ⟨_, congrArg Host.Outcome.next ((live_of hrun).trans ((terminate_of_passes hp _).trans (hact.trans hdesc))),
      ?_, ?_, ?_, fun j hj => ?_⟩
    · exact hu ▸ rfl
    · refine (queue_setQueue r.queue r.queue _ u).trans ?_
      rw [if_pos rfl, hqueue, htime, slice_eq_take hlen]
    · rw [cntGet_bump_same]
      exact congrArg (satAdd (2 ^ 64 - 1) · 1) (cntGet_congr hcnt _ _ _)
    · refine (queue_setQueue r.queue j _ u).trans ?_
      rw [if_neg hj, hqueue]
  · intro n p q w s hrun hp ht hvc hring hq hother hseq hnone
    obtain ⟨harr, -, -, -⟩ := acceptedState_arrives hp
    obtain ⟨-, hreq', hring', -⟩ := e2e_of_arrives harr
    have hque := que_of_only harr.1 rfl rfl rfl rfl
    have hact := actResponse_ringWrite (q := q) (p := p) (s := acceptedState n.val p q s) ht hvc (hring'.trans hring) hq
      hother hseq (by rwa [hque])
    exact ⟨_, congrArg Host.Outcome.next ((live_of hrun).trans ((terminate_of_passes hp _).trans hact)), rfl, hreq'⟩
  · intro n p q s hrun hp ht hsend hfence hfresh
    obtain ⟨harr, hquiet, -, hsolo⟩ := acceptedState_arrives hp
    obtain ⟨hsend', -, -, hquiet'⟩ := e2e_of_arrives harr
    generalize hu : acceptedState n.val p q s = u at *
    have hact : actRecall q p u =
        sendPacket q (mkPacket u tRecallMiss 3 p.src.toNat p.tenant.toNat (BitVec.ofNat 64 (argPva p)) []) u :=
      if_pos (by rcases ht with h | h <;> rw [h] <;> decide)
    generalize hk : mkPacket u tRecallMiss 3 p.src.toNat p.tenant.toNat (BitVec.ofNat 64 (argPva p)) [] = k at hact
    have hdst : k.dst.toNat = p.src.toNat := by rw [← hk]; simp [mkPacket]
    have hvc : k.vc.toNat = 3 := by rw [← hk]; rfl
    have htyp : k.typ.toNat = tRecallMiss := by rw [← hk]; rfl
    have harg : k.arg0 = BitVec.ofNat 64 (argPva p) := by rw [← hk]; rfl
    have hpay : k.payload = [] := by rw [← hk]; rfl
    have hflow := flowPackets_sendPacket (q := q) (p := k) (s := u)
      ((congrArg PairState.st (only_agree harr.1 .pair rfl)).trans hsolo) (hsend'.trans hsend) (hquiet'.trans hquiet)
      ((congrArg (·.fencedBlocks) (only_agree harr.1 .fen rfl)).trans hfence) hpay
    rw [hdst, hvc, htyp, harg, hpay] at hflow
    have hsent := (within_sendPacket q k u).1
    have hdir : u.dir = s.dir := hu ▸ acceptedState_dir hp hfresh
    refine ⟨sendPacket q k u, ?_, hflow, fun a => ?_, (only_agree hsent .dir rfl).trans hdir⟩
    · exact congrArg Host.Outcome.next ((live_of hrun).trans ((terminate_of_passes hp _).trans
        ((congrArg (actRecall q p) hu).trans hact)))
    · exact (sameMemory_of_only hsent rfl rfl a).trans (sameMemory_of_only harr.1 rfl rfl a)
  · intro n p q c s hrun hp ht hc hw hring hstall hque
    have htaken := (taken_takeFrame n.val p s).1
    have he2e : (takeFrame n.val p s).e2e = s.e2e := only_agree htaken .e2e rfl
    have hqueue := que_of_only htaken rfl rfl rfl rfl
    generalize hk : ackedFlow s n.val q p = k at *
    have hack := applyAck_effect (p := p) (s := takeFrame n.val p s)
      ((sendCtx_congr (congrArg E2eState.send he2e) k).trans hc) hw (by rw [he2e, hring]) (by rwa [he2e]) (by rwa [hqueue])
    have htyp : p.typ.toNat = tAck := by
      rw [ht]
      rfl
    have honly : Only [.out, .ports, .vcs, .e2e] s (setSend k (ackedCtx (takeFrame n.val p s) p c) (takeFrame n.val p s)) :=
      only_trans (only_mono htaken rfl) (only_mono (only_setSend k _ _) rfl)
    refine ⟨setSend k (ackedCtx (takeFrame n.val p s) p c) (takeFrame n.val p s), ?_, ?_, fun j hj => ?_,
      sameMemory_of_only honly rfl rfl, que_of_only honly rfl rfl rfl rfl⟩
    · refine congrArg Host.Outcome.next ((live_of hrun).trans ((terminate_of_passesPlain hp _).trans ?_))
      simp only [htyp, if_true, ackedFlow_takeFrame, hk]
      exact hack
    · rw [sendCtx_setSend, if_pos rfl]
      have htime : (takeFrame n.val p s).time = s.time := only_agree htaken .time rfl
      simp only [ackedCtx, htime]
    · rw [sendCtx_setSend, if_neg hj, sendCtx_congr (congrArg E2eState.send he2e)]
  · intro f now n c k d s hrun hc hdue hpair hk hport
    have hother := keyOf_other hpair
    generalize hu : setRecv (keyOf f) { c with ackDue := none } (advance now s) = u
    generalize hp : controlPkt (advance now s) (keyOf f) tAck c.base (c.bits.map (fun q => (q + 2 ^ 24 - c.base) % 2 ^ 24)) =
      p
    have hpkt : plainPkt (keyOf f) p u = k := by
      rw [hk, plainPkt, srcOn_keyOf hpair, ← hp, ← hu]
      rfl
    have hrof : u.rof = s.rof := hu ▸ rfl
    have hsend := sendPlain_of_port (k := keyOf f) (p := p) (n := n) (s := u) hother
      (by rw [hpkt, keyOf_q, choosePort_congr hrof, hport])
    rw [hpkt, port_congr (congrArg RofState.ports hrof)] at hsend
    have honly : Only [.time, .cnt, .ports, .rofRest, .e2e] s u := hu ▸ only_trans (only_mono (only_advance now s) rfl)
      (only_mono (only_setRecv (keyOf f) _ _) rfl)
    refine ⟨sendPlain (keyOf f) p u, ?_, ?_, fun j hj => ?_, hsend.1, fun j hj => (hsend.2 j hj).trans
      (port_congr (congrArg RofState.ports hrof) j), only_trans honly (only_mono (only_sendPlain _ _ _) rfl)⟩
    · have hc' : recvCtx (advance now s) (keyOf f) = some c := hc
      refine congrArg Host.Outcome.next ((live_of hrun).trans ?_)
      simp only [hc', hdue, hp, hu]
    · rw [recvCtx_of_e2e (sendPlain_e2e _ _ _), ← hu, recvCtx_setRecv, if_pos rfl]
    · rw [recvCtx_of_e2e (sendPlain_e2e _ _ _), ← hu, recvCtx_setRecv, if_neg hj]
      rfl
  · intro n p q c s hrun hp ht hc
    have htaken := (taken_takeFrame n.val p s).1
    have hctx (j : FlowKey) : sendCtx (takeFrame n.val p s) j = sendCtx s j :=
      sendCtx_congr (congrArg E2eState.send (only_agree htaken .e2e rfl)) j
    have htime : (takeFrame n.val p s).time = s.time := only_agree htaken .time rfl
    generalize hk : ackedFlow s n.val q p = k at *
    have hexec := resendreq_of_passes hrun hp ht
    rw [hk] at hexec
    obtain ⟨hothers, hloop, hheld⟩ := resendLoop_effect q k (p.arg0.toNat % 2 ^ 24) p (takeFrame n.val p s)
    have honly := only_trans (only_mono (m := [.out, .ports, .vcs, .cnt, .rofRest, .e2e]) htaken rfl) (only_mono hloop rfl)
    refine ⟨_, hexec, fun i x hi hbit hx hold => (hheld i hi hbit).trans ?_, fun j hj => (hothers j hj).trans (hctx j),
      sameMemory_of_only honly rfl rfl, que_of_only honly rfl rfl rfl rfl⟩
    rw [heldPkt_congr (hctx k), hx]
    simp only [heldAfter, Option.map_some, htime, if_pos hold, resent, stamp_congr htime]
  · intro n p q i s hrun hp ht hone hnone
    have htaken := (taken_takeFrame n.val p s).1
    have he2e : (takeFrame n.val p s).e2e = s.e2e := only_agree htaken .e2e rfl
    have hnone' : heldPkt (takeFrame n.val p s) (ackedFlow s n.val q p) ((p.arg0.toNat % 2 ^ 24 + i) % 2 ^ 24) = none :=
      (heldPkt_congr (sendCtx_congr (congrArg E2eState.send he2e) _) _).trans hnone
    have hexec := resendreq_of_passes hrun hp ht
    rw [hone, forEach_cons, forEach_nil, resendNamed, hnone'] at hexec
    refine ⟨_, hexec, ?_, he2e⟩
    rw [cntGet_bump_same, cntGet_congr (only_agree htaken .cnt rfl)]
  · intro f seq now x s hrun hx hdue
    have hx' : heldPkt (advance now s) (keyOf f) seq.toNat = some x := hx
    have hdue' : x.lastTx + 1000 * resendUs (advance now s) f.q.val ≤ (advance now s).time := hdue
    obtain ⟨c, hc, -⟩ := ctx_of_heldPkt hx'
    obtain ⟨-, hothers, honly, -, hcnt⟩ := resend_effect (x := x) hc
    refine ⟨resend (keyOf f) x (advance now s), ?_, ?_, ?_, hothers,
      only_trans (only_mono (only_advance now s) rfl) (only_mono honly rfl)⟩
    · refine congrArg Host.Outcome.next ((live_of hrun).trans ?_)
      simp only [hx', if_pos hdue']
    · rw [heldPkt_resend hx', if_pos rfl]
      rfl
    · rw [keyOf_q] at hcnt
      exact hcnt
  · intro f seq now x c s hrun hx hdue hc hw hplain hstall
    have hx' : heldPkt (advance now s) (keyOf f) seq.toNat = some x := hx
    have hdue' : x.first + 1000 * resendLimitUs (advance now s) f.q.val ≤ (advance now s).time := hdue
    have hfind : c.pkts.find? (isHeld seq.toNat) = some x := (heldPkt_of_ctx hc _).symm.trans hx
    have hlost : c.pkts.filter (fun y => !y.acked) ≠ [] := by
      refine List.ne_nil_of_mem (List.mem_filter.mpr ⟨List.mem_of_find?_eq_some hfind, ?_⟩)
      have := List.find?_some hfind
      simp only [isHeld, Bool.and_eq_true] at this
      exact this.2
    have hfail := failFlow_effect (k := keyOf f) (s := advance now s) hc hw hplain hstall
    refine ⟨countFailed (keyOf f) (c.pkts.filter (fun y => !y.acked)) (setSend (keyOf f) (failedCtx c) (advance now s)),
      ?_, ?_, ?_, fun j hj => ?_, ?_⟩
    · refine congrArg Host.Outcome.next ((live_of hrun).trans ?_)
      simp only [hx', if_pos hdue']
      exact hfail
    · rw [sendCtx_countFailed, if_pos rfl]
      rfl
    · have := cntGet_countFailed (keyOf f) _ hlost (setSend (keyOf f) (failedCtx c) (advance now s))
      rw [keyOf_q] at this
      exact this
    · rw [sendCtx_countFailed, if_neg hj]
      rfl
    · exact only_trans (only_trans (only_mono (only_advance now s) rfl) (only_mono (only_setSend _ _ _) rfl))
        (only_mono (only_countFailed _ _ _) rfl)
  · intro f now c s hrun hc hopen hdue hw hplain hstall
    have hc' : sendCtx (advance now s) (keyOf f) = some c := hc
    have hdue' : (c.isOpen && decide (c.lastAck + 2000000 ≤ (advance now s).time)) = true := by
      rw [hopen, Bool.true_and]
      exact decide_eq_true hdue
    have hfail := failFlow_effect (k := keyOf f) (s := advance now s) hc hw hplain hstall
    refine ⟨countFailed (keyOf f) (c.pkts.filter (fun y => !y.acked)) (setSend (keyOf f) (failedCtx c) (advance now s)),
      ?_, ?_, fun j hj => ?_, ?_⟩
    · refine congrArg Host.Outcome.next ((live_of hrun).trans ?_)
      simp only [hc', hdue', if_true]
      exact hfail
    · rw [sendCtx_countFailed, if_pos rfl]
      rfl
    · rw [sendCtx_countFailed, if_neg hj]
      rfl
    · exact only_trans (only_trans (only_mono (only_advance now s) rfl) (only_mono (only_setSend _ _ _) rfl))
        (only_mono (only_countFailed _ _ _) rfl)
  · intro f now c s hrun hc hopen hacked hw hdue hstall
    have hc' : sendCtx (advance now s) (keyOf f) = some c := hc
    have hgo : (!c.isOpen && (oldestUnacked c).isNone && c.waiting.isEmpty &&
        decide (c.lastTx + 6000000 ≤ (advance now s).time)) = true := by
      have hdue' : c.lastTx + 6000000 ≤ (advance now s).time := hdue
      simp only [hopen, hacked, hw, hdue', Bool.not_false, Option.isNone_none, List.isEmpty_nil, Bool.and_self, decide_true]
    have hflush := flushStalled_of_none (n := 3) ((keyOf f).q % 4)
      (s := { advance now s with e2e := { (advance now s).e2e with send := adel (keyOf f) s.e2e.send } })
      (fun d hd => hstall d (List.mem_filter.mp hd).1)
    refine ⟨{ advance now s with e2e := { (advance now s).e2e with send := adel (keyOf f) s.e2e.send } }, ?_, ?_,
      fun j hj => ?_, only_trans (only_mono (only_advance now s) rfl) (only_mono (only_setE2e _ _) rfl)⟩
    · refine congrArg Host.Outcome.next ((live_of hrun).trans ?_)
      simp only [hc', hgo, if_true]
      exact hflush
    · exact (afind_adel _ _ _).trans (if_pos rfl)
    · exact (afind_adel _ _ _).trans (if_neg hj)
  · intro f now c s hrun hc hdue
    obtain ⟨honly, he2e⟩ := retireDue_of_due (k := keyOf f) (s := advance now s) hc hdue
    have hreasm (k : FlowKey) (i : Nat) : afind (retireDue (keyOf f) (advance now s)).e2e.reasm (k, i) =
        if k = keyOf f then none else afind s.e2e.reasm (k, i) := by
      rw [he2e]
      refine (afind_filter (fun a : FlowKey × Nat => !(decide (a.1 = keyOf f))) _ _).trans ?_
      by_cases h : k = keyOf f <;> simp [h]
    have hrecv (k : FlowKey) : recvCtx (retireDue (keyOf f) (advance now s)) k =
        if k = keyOf f then none else recvCtx s k := by
      unfold recvCtx
      rw [he2e]
      exact afind_adel _ _ _
    exact ⟨_, congrArg Host.Outcome.next (live_of hrun), (hrecv _).trans (if_pos rfl),
      fun j hj => (hrecv j).trans (if_neg hj), fun i => (hreasm _ i).trans (if_pos rfl),
      fun j i hj => (hreasm j i).trans (if_neg hj),
      only_trans (only_mono (only_advance now s) rfl) (only_mono honly rfl)⟩
  · intro f first now n i l r k s hrun hr hdue hmiss hnear hpair hk hport
    have hexec := reasmTimeout_of_due hrun hr hdue hmiss hnear
    generalize hp : controlPkt s (keyOf f) tResendReq (first.toNat + i) (0 :: l.map (fun j => j - i)) = p at *
    generalize hu : reasked f first.toNat r (advance now s) = u at *
    have hpkt : plainPkt (keyOf f) p u = k := by
      rw [hk, plainPkt, srcOn_keyOf hpair, ← hu]
      rfl
    have hrof : u.rof = s.rof := hu ▸ rfl
    have hsend := sendPlain_of_port (k := keyOf f) (p := p) (n := n) (s := u) (keyOf_other hpair)
      (by rw [hpkt, keyOf_q, choosePort_congr hrof, hport])
    rw [hpkt, port_congr (congrArg RofState.ports hrof)] at hsend
    have honly : Only [.time, .cnt, .ports, .rofRest, .e2e] s u := by
      rw [← hu]
      exact only_trans (only_trans (only_mono (only_advance now s) rfl) (only_mono (only_setE2e _ _) rfl))
        (only_mono (only_bump _ _ _ _) rfl)
    have hkey : cntKey cE2e f.q.val 8 < cntKey cUtil 0 0 := by
      have := f.q.isLt
      simp only [cntKey, cE2e, cUtil]
      omega
    refine ⟨sendPlain (keyOf f) p u, hexec, ?_, ?_, hsend.1, fun j hj => (hsend.2 j hj).trans
      (port_congr (congrArg RofState.ports hrof) j), only_trans honly (only_mono (only_sendPlain _ _ _) rfl)⟩
    · rw [sendPlain_e2e, ← hu]
      exact (afind_aset _ _ _ _).trans (if_pos rfl)
    · rw [cntGet_of_within (within_sendPlain (keyOf f) p u) hkey, ← hu, reasked, cntGet_bump_same]
      rfl
  · intro q src tag now r s hrun hr hres hdue
    have hr' : afind (advance now s).e2e.retained (q.val, src.toNat, tag.toNat) = some r := hr
    have hgo : (r.result.isSome && decide (r.time + 2000000 ≤ (advance now s).time)) = true := by
      rw [hres, Bool.true_and]
      exact decide_eq_true hdue
    refine ⟨{ advance now s with e2e := { (advance now s).e2e with
        retained := adel (q.val, src.toNat, tag.toNat) s.e2e.retained } }, ?_, ?_, fun k hk => ?_,
      only_trans (only_mono (only_advance now s) rfl) (only_mono (only_setE2e _ _) rfl)⟩
    · refine congrArg Host.Outcome.next ((live_of hrun).trans ?_)
      simp only [hr', hgo, if_true]
      rfl
    · exact (afind_adel _ _ _).trans (if_pos rfl)
    · exact (afind_adel _ _ _).trans (if_neg hk)
  · intro now u s hrun hquiet hdue hw
    have hquiet' : (advance now s).e2e.quietUntil = some u := hquiet
    have hdue' : u ≤ (advance now s).time := hdue
    refine congrArg Host.Outcome.next ((live_of hrun).trans ?_)
    simp only [hquiet', if_pos hdue']
    refine forEach_keeps (P := fun t => t = { s with time := max s.time now, e2e := { s.e2e with quietUntil := none } }) _
      (fun k t h => ?_) rfl
    rw [h]
    exact flushFlow_of_idle fun c hc => hw _ (mem_of_afind hc)
  · intro f now c p s hrun hsolo hc hw hmade hst
    have hflush := flushFlow_of_made (k := keyOf f) (s := advance now s) hsolo hc hw hmade hst
    refine ⟨_, congrArg Host.Outcome.next ((live_of hrun).trans hflush), ?_, fun j hj => ?_,
      only_trans (only_mono (only_advance now s) rfl) (only_mono (only_launch _ _ _ _) rfl)⟩
    · rw [sendCtx_launch, if_pos rfl]
      simp only [startedCtx, hmade]
      rfl
    · rw [sendCtx_launch, if_neg hj]
      rfl

end Sys2Proof.Machine
end

section
/-! SUPPORT. What ring writes and notifications keep (R141, R146): a write into pool memory, and the recalls that it may start,
leave chapter 2's tables, the completion indices and the descriptors in flight as they are, and take no output back. In the
order of the model's files. -/

namespace Sys2Proof.Machine

open Sys2Proof.Safety

/-- The slots of the descriptors in flight. -/
def flightSlots (x : Queue) : List Nat := x.flight.map (·.slot)

/-- Chapter 2's tables, the directory scans, every queue's completion index and its descriptors' slots read the same, and
what was sent stays sent. -/
structure KeepsRings (s t : State) : Prop where
  pool : t.pool = s.pool
  scans : t.dir.scans = s.dir.scans
  rings : ∀ n, (queue t n).cqTail = (queue s n).cqTail ∧ flightSlots (queue t n) = flightSlots (queue s n)
  out : ∀ o ∈ s.out, o ∈ t.out

/-- The parts of the state in which none of that stands. -/
def offRing (a : Area) : Bool :=
  !([.out, .extents, .members, .tethers, .leases, .quotas, .kites, .dir, .queues].contains a)

theorem keepsRings_refl (s : State) : KeepsRings s s := ⟨rfl, rfl, fun _ => ⟨rfl, rfl⟩, fun _ h => h⟩

theorem keepsRings_trans {s t u : State} (h : KeepsRings s t) (h' : KeepsRings t u) : KeepsRings s u :=
  ⟨h'.pool.trans h.pool, h'.scans.trans h.scans,
    fun n => ⟨(h'.rings n).1.trans (h.rings n).1, (h'.rings n).2.trans (h.rings n).2⟩, fun o ho => h'.out o (h.out o ho)⟩

theorem keepsRings_of_only {l : List Area} {s t : State} (h : Only l s t) (hl : l.all offRing = true) : KeepsRings s t := by
  have off (a : Area) (ha : offRing a = false) : agree s t a := only_agree h a (by
    by_contra hc
    have hmem := List.contains_iff_mem.mp (Bool.eq_true_of_not_eq_false hc)
    rw [List.all_eq_true.mp hl a hmem] at ha
    cases ha)
  have hpool : t.pool = s.pool := by
    have he : t.pool.extents = s.pool.extents := off .extents rfl
    have hm : t.pool.members = s.pool.members := off .members rfl
    have ht : t.pool.tethers = s.pool.tethers := off .tethers rfl
    have hls : t.pool.leases = s.pool.leases := off .leases rfl
    have hq : t.pool.quotas = s.pool.quotas := off .quotas rfl
    have hk : t.pool.kites = s.pool.kites := off .kites rfl
    revert he hm ht hls hq hk
    cases t.pool
    cases s.pool
    rintro rfl rfl rfl rfl rfl rfl
    rfl
  have hdir : t.dir = s.dir := off .dir rfl
  have hout : t.out = s.out := off .out rfl
  have hque (n : Nat) : queue t n = queue s n := queue_congr (off .queues rfl) n
  exact ⟨hpool, by rw [hdir], fun n => by rw [hque]; exact ⟨rfl, rfl⟩, fun o ho => by rwa [hout]⟩

section Chain
variable {s t : State}

/-- A step outside the rings. -/
theorem KeepsRings.only {l : List Area} {u : State} (h : KeepsRings s t) (ho : Only l t u) (hl : l.all offRing = true) :
    KeepsRings s u := keepsRings_trans h (keepsRings_of_only ho hl)

theorem KeepsRings.forEach {α : Type} {f : α → State → State} (xs : List α)
    (hf : ∀ a {t}, KeepsRings s t → KeepsRings s (f a t)) (h : KeepsRings s t) : KeepsRings s (forEach xs f t) :=
  forEach_keeps (P := KeepsRings s) xs (fun a _ ht => hf a ht) h

theorem KeepsRings.ite {c : Prop} [Decidable c] {u : State} (ht : KeepsRings s t) (hu : KeepsRings s u) :
    KeepsRings s (if c then t else u) := by
  split
  · exact ht
  · exact hu

theorem KeepsRings.when {c : Bool} {f : State → State} (h : KeepsRings s t) (hf : KeepsRings s (f t)) :
    KeepsRings s (when c f t) := .ite hf h

/-! Setters and shared operations. -/

theorem KeepsRings.bump (f n i : Nat) (h : KeepsRings s t) : KeepsRings s (bump f n i t) := h.only (only_bump f n i t) rfl
theorem KeepsRings.cntAdd (f n i k : Nat) (h : KeepsRings s t) : KeepsRings s (cntAdd f n i k t) :=
  h.only (only_cntAdd f n i k t) rfl
theorem KeepsRings.setFree (x : Nat) (h : KeepsRings s t) : KeepsRings s { t with free := x } := h.only (only_setFree x t) rfl
theorem KeepsRings.setPair (x : PairState) (h : KeepsRings s t) : KeepsRings s { t with pair := x } :=
  h.only (only_setPair x t) rfl
theorem KeepsRings.setE2e (x : E2eState) (h : KeepsRings s t) : KeepsRings s { t with e2e := x } :=
  h.only (only_setE2e x t) rfl

theorem KeepsRings.setMem (x : MemState) (h : KeepsRings s t) : KeepsRings s { t with mem := x } :=
  ⟨h.pool, h.scans, h.rings, h.out⟩
theorem KeepsRings.setCxl (x : CxlState) (h : KeepsRings s t) : KeepsRings s { t with cxl := x } :=
  ⟨h.pool, h.scans, h.rings, h.out⟩
theorem KeepsRings.setXunit (q : Nat) (u : XltUnit) (h : KeepsRings s t) : KeepsRings s (setXunit q u t) :=
  ⟨h.pool, h.scans, h.rings, h.out⟩
theorem KeepsRings.setGroup (g : Nat) (x : Group) (h : KeepsRings s t) : KeepsRings s (setGroup g x t) :=
  ⟨h.pool, h.scans, h.rings, h.out⟩

/-- The directory changes, its scans do not. -/
theorem KeepsRings.dirWith {x : DirState} (h : KeepsRings s t) (hx : x.scans = t.dir.scans) :
    KeepsRings s { t with dir := x } := ⟨h.pool, hx.trans h.scans, h.rings, h.out⟩
theorem KeepsRings.setLine (l : Nat) (x : Line) (h : KeepsRings s t) : KeepsRings s (setLine l x t) := h.dirWith rfl

/-- A queue changes, its completion index and its descriptors' slots do not. -/
theorem KeepsRings.setQueue {n : Nat} {x : Queue} (h : KeepsRings s t) (hc : x.cqTail = (queue t n).cqTail)
    (hf : flightSlots x = flightSlots (queue t n)) : KeepsRings s (setQueue n x t) := by
  refine ⟨h.pool, h.scans, fun k => ?_, h.out⟩
  rw [queue_setQueue]
  split
  · next hk => exact ⟨hc.trans (hk ▸ (h.rings k).1), hf.trans (hk ▸ (h.rings k).2)⟩
  · exact h.rings k

/-- An output is sent, held back or gated. -/
theorem KeepsRings.emit (o : Out) (h : KeepsRings s t) : KeepsRings s (emit o t) := by
  have said : KeepsRings s { t with out := o :: t.out } :=
    ⟨h.pool, h.scans, h.rings, fun p hp => List.mem_cons_of_mem o (h.out p hp)⟩
  unfold Machine.emit
  exact .ite (.ite h (.ite (h.setPair _) said)) said

theorem KeepsRings.alert (k : Alert) (vals : List Nat) (h : KeepsRings s t) : KeepsRings s (alert k vals t) := h.emit _

theorem KeepsRings.hostLog (d k typ : Nat) (vals : List Nat) (h : KeepsRings s t) : KeepsRings s (hostLog d k typ vals t) := by
  unfold Machine.hostLog
  exact .ite h (.ite ((h.setCxl _).emit _) (h.setCxl _))

theorem KeepsRings.cross (a b n : Nat) (h : KeepsRings s t) : KeepsRings s (cross a b n t) :=
  h.only (within_cross a b n t).1 rfl
theorem KeepsRings.sendPacket (q : Nat) (p : Packet) (h : KeepsRings s t) : KeepsRings s (sendPacket q p t) :=
  h.only (within_sendPacket q p t).1 rfl
theorem KeepsRings.orderRec (r : OrderRec) (h : KeepsRings s t) : KeepsRings s (orderRec r t) :=
  h.only (within_orderRec r t).1 rfl
theorem KeepsRings.feed (q : Nat) (o : Option (Nat × Nat)) (b : List Byte) (h : KeepsRings s t) :
    KeepsRings s (feed q o b t) := h.only (within_feed q o b t).1 rfl

/-! Memory. -/

theorem KeepsRings.memErr (k l n : Nat) (w : Src) (h : KeepsRings s t) : KeepsRings s (memErr k l n w t) := by
  unfold Machine.memErr
  exact .ite ((h.setMem _).bump _ _ _) (h.setMem _)

theorem KeepsRings.openRow (pc a : Nat) (h : KeepsRings s t) : KeepsRings s (openRow pc a t) := by
  unfold Machine.openRow
  extract_lets b
  split
  · exact h
  · split
    extract_lets
    exact .ite ((h.setMem _).cntAdd _ _ _ _) (h.setMem _)

theorem KeepsRings.remapRow (l : Nat) (w : Src) (h : KeepsRings s t) : KeepsRings s (remapRow l w t) := by
  unfold Machine.remapRow
  split
  exact .ite h (.ite (h.memErr _ _ _ _) (((h.setMem _).memErr _ _ _ _).bump _ _ _))

theorem KeepsRings.noteCorrected (l : Nat) (w : Src) (h : KeepsRings s t) : KeepsRings s (noteCorrected l w t) := by
  unfold Machine.noteCorrected
  split
  exact .ite ((((h.bump _ _ _).bump _ _ _).setMem _).remapRow l w) (((h.bump _ _ _).bump _ _ _).setMem _)

theorem KeepsRings.mediaEvent (l : Nat) (h : KeepsRings s t) : KeepsRings s (mediaEvent l t) := by
  unfold Machine.mediaEvent
  exact .ite h (.forEach _ (fun d _ hu => .ite (hu.hostLog d _ _ _) hu) h)

theorem KeepsRings.noteUncorrectable (l : Nat) (w : Src) (h : KeepsRings s t) : KeepsRings s (noteUncorrectable l w t) := by
  unfold Machine.noteUncorrectable
  split
  exact ((((h.bump _ _ _).bump _ _ _).memErr _ _ _ _).remapRow _ _).mediaEvent _

theorem KeepsRings.noteCmd (pc c : Nat) (h : KeepsRings s t) : KeepsRings s (noteCmd pc c t) := h.setMem _

theorem KeepsRings.followWrite (l : Nat) (d : List Byte) (h : KeepsRings s t) : KeepsRings s (followWrite l d t) := by
  unfold Machine.followWrite
  exact .ite (.ite ((h.orderRec _).setPair _) (.ite h (h.setPair _))) h

theorem KeepsRings.storeRaw (l : Nat) (d : List Byte) (h : KeepsRings s t) : KeepsRings s (storeRaw l d t) := by
  unfold Machine.storeRaw
  split
  extract_lets u v
  have hv : KeepsRings s v := (((h.followWrite l d).bump _ _ _).openRow _ _).noteCmd _ _
  exact .ite (hv.setMem _) ((hv.setMem _).setMem _)

theorem KeepsRings.poisonRaw (l : Nat) (h : KeepsRings s t) : KeepsRings s (poisonRaw l t) := h.setMem _

theorem KeepsRings.storeLine (l : Nat) (d : List Byte) (h : KeepsRings s t) : KeepsRings s (storeLine l d t) := by
  unfold Machine.storeLine
  split
  · exact h.storeRaw _ _
  · exact (h.storeRaw _ _).storeRaw _ _

theorem KeepsRings.poisonLine (l : Nat) (h : KeepsRings s t) : KeepsRings s (poisonLine l t) := by
  unfold Machine.poisonLine
  split
  · exact h.poisonRaw _
  · exact (h.poisonRaw _).poisonRaw _

theorem KeepsRings.readCode (l ten : Nat) (w : Src) (h : KeepsRings s t) : KeepsRings s (readCode l ten w t).2 := by
  unfold Machine.readCode
  split
  next pc a _ =>
  extract_lets u e lim det
  have hu : KeepsRings s u := ((h.bump _ _ _).openRow pc a).noteCmd _ _
  clear_value u
  have two {c : Prop} [Decidable c] {x y : LineRead × State} (hx : KeepsRings s x.2) (hy : KeepsRings s y.2) :
      KeepsRings s (if c then x else y).2 := by split <;> assumption
  refine two ((hu.memErr _ _ _ _).mediaEvent _) (two (hu.bump _ _ _) (two (two ((hu.bump _ _ _).memErr _ _ _ _)
    (two ((hu.setMem _).noteCorrected _ _) hu)) (two (hu.noteCorrected _ _) (two (hu.noteUncorrectable _ _)
    (two ((hu.setFree _).noteUncorrectable _ _) ?_)))))
  exact (((hu.setFree _).setFree _).setMem _).noteCorrected _ _

theorem KeepsRings.readAs (l ten : Nat) (w : Src) (h : KeepsRings s t) : KeepsRings s (readAs l ten w t).2 := by
  have hr := h.readCode l ten w
  unfold Machine.readAs
  split
  · next d u hd =>
    rw [hd] at hr
    split
    · exact hr.setFree _
    · exact hr
  · exact hr

theorem KeepsRings.mergeWriteback (l : Nat) (h : KeepsRings s t) : KeepsRings s (mergeWriteback l t) := by
  unfold Machine.mergeWriteback
  split
  · exact h
  · next e _ =>
    extract_lets u
    have hu : KeepsRings s u := .when h (h.bump _ _ _)
    clear_value u
    have hr := (hu.bump cMem 0 2).readAs l e.tenant (internalSrc 5)
    split
    · exact hu.storeLine _ _
    · split
      · next hd => rw [hd] at hr; exact hr.storeLine _ _
      · next hd => rw [hd] at hr; exact ((hr.setMem _).bump _ _ _).memErr _ _ _ _

theorem KeepsRings.mergeRoom (l : Nat) (h : KeepsRings s t) : KeepsRings s (mergeRoom l t) := by
  unfold Machine.mergeRoom
  extract_lets pc mine u
  split
  · exact h
  · split
    · exact h.mergeWriteback _
    · exact h

theorem KeepsRings.mergeBytes (l mask : Nat) (d : List Byte) (who : Part) (ten : Nat) (h : KeepsRings s t) :
    KeepsRings s (mergeBytes l mask d who ten t) := by
  unfold Machine.mergeBytes
  extract_lets u old e
  have hu : KeepsRings s u := .ite h (h.mergeRoom l)
  exact hu.setMem _

theorem KeepsRings.writeMasked (l mask : Nat) (d : List Byte) (who : Part) (ten : Nat) (h : KeepsRings s t) :
    KeepsRings s (writeMasked l mask d who ten t) := by
  unfold Machine.writeMasked
  exact .ite (h.storeLine _ _) (.ite h (h.mergeBytes _ _ _ _ _))

/-! Translation. -/

theorem KeepsRings.walkFill (q ten a : Nat) (h : KeepsRings s t) : KeepsRings s (walkFill q ten a t) := by
  unfold Machine.walkFill
  exact .ite h (h.setXunit _ _)

theorem KeepsRings.translate (q ten a : Nat) (who : Part) (via : Via) (acc : Access) (h : KeepsRings s t) :
    KeepsRings s (translate q ten a who via acc t).2 := by
  unfold Machine.translate
  split
  · split <;> exact h
  · split
    · exact .ite h (h.walkFill _ _ _)
    · exact h
    · extract_lets u
      have hu : KeepsRings s u := (h.walkFill _ _ _).setXunit _ _
      split <;> exact hu

theorem KeepsRings.refuse (q ten a : Nat) (r : Refuse) (k i : Nat) (h : KeepsRings s t) :
    KeepsRings s (refuse q ten a r k i t) := by
  have hlog : KeepsRings s (logFault q (faultRec t q ten a r k i) t) := by
    unfold logFault
    exact .ite ((h.setXunit _ _).bump _ _ _) (h.setXunit _ _)
  exact .ite (hlog.alert _ _) hlog

end Chain

end Sys2Proof.Machine
end

section
/-! SUPPORT. A write at its home keeps what ring writes keep (Table 4.4): its answer, the recalls it starts, its line's wait for
them, and the way of a queue block's own write to its line, where no directory scan is under way. -/

namespace Sys2Proof.Machine

open Sys2Proof.Safety

/-- A write of bytes of one line, and no contribution. -/
structure PlainWrite (r : LineReq) : Prop where
  kind : r.kind = .wrPart ∨ r.kind = .wrLine
  win : r.win = none

section Chain
variable {s t : State}

/-! Answers. -/

theorem KeepsRings.sendReply (id : Nat) (r : Reply) (k : ReqKind) (st : Status) (d : List Byte) (h : KeepsRings s t) :
    KeepsRings s (sendReply id r k st d t) := by
  cases r with
  | silent => exact h
  | kept => exact h.dirWith rfl
  | cxl ld tag => exact (KeepsRings.when h (h.bump _ _ _)).emit _
  | rof src dst vc seq ten tag => exact .ite h (h.sendPacket _ _)

theorem KeepsRings.closePend (id : Nat) (h : KeepsRings s t) : KeepsRings s (closePend id t) := by
  unfold Machine.closePend
  split
  · exact h
  · exact .ite (.sendReply _ _ _ _ _ (h.dirWith rfl)) h

theorem KeepsRings.pendDone (id : Nat) (st : Status) (pos : Nat) (b : List Byte) (h : KeepsRings s t) :
    KeepsRings s (pendDone id st pos b t) := by
  unfold Machine.pendDone
  split
  · exact h
  · exact .closePend _ (h.dirWith rfl)

theorem KeepsRings.contribLine (r : LineReq) (st : Status) (h : KeepsRings s t) : KeepsRings s (contribLine r st t) := by
  unfold Machine.contribLine
  split
  · exact .when h (h.bump _ _ _)
  · split
    · exact h
    · next p _ =>
      extract_lets x y dir u
      have hu : KeepsRings s u := h.dirWith rfl
      clear_value u
      refine .ite hu ?_
      split
      · exact (hu.bump _ _ _).bump _ _ _
      · exact hu.bump _ _ _
      · exact hu
  · exact h

theorem KeepsRings.unretain (r : LineReq) (st : Status) (h : KeepsRings s t) : KeepsRings s (unretain r st t) := by
  unfold Machine.unretain
  split
  · split
    · exact .forEach _ (fun _ _ hu => hu.pendDone _ _ _ _) (h.setE2e _)
    · exact h
  · exact h

/-- A failure is noted in a descriptor, whose slot stays. -/
theorem slot_failAt (pos : Nat) (st : Status) (ext : List Byte) (d : Desc) : (failAt pos st ext d).slot = d.slot := by
  unfold failAt
  split
  · split <;> rfl
  · rfl

theorem KeepsRings.beatFailed (r : LineReq) (st : Status) (h : KeepsRings s t) : KeepsRings s (beatFailed r st t) := by
  unfold Machine.beatFailed
  split
  · exact h
  · refine .ite h (h.setQueue rfl ?_)
    unfold flightSlots
    rw [List.map_map]
    refine List.map_congr_left fun d _ => ?_
    simp only [Function.comp_apply]
    split
    · exact slot_failAt _ _ _ d
    · rfl

theorem KeepsRings.lineDone (r : LineReq) (st : Status) (pos : Nat) (b : List Byte) (h : KeepsRings s t) :
    KeepsRings s (lineDone r st pos b t) := (((h.unretain r st).beatFailed r st).contribLine r st).pendDone _ _ _ _

theorem KeepsRings.respond (l : Nat) (r : LineReq) (st : Status) (pos : Nat) (b : List Byte) (h : KeepsRings s t) :
    KeepsRings s (respond l r st pos b t) := (h.cross _ _ _).lineDone _ _ _ _

/-! Recalls. -/

theorem KeepsRings.sendRecall (l : Nat) (r : Recall) (h : KeepsRings s t) : KeepsRings s (sendRecall l r t) := by
  unfold Machine.sendRecall
  extract_lets u
  have hu : KeepsRings s u := h.bump _ _ _
  split
  · exact ((hu.cross _ _ _).bump _ _ _).emit _
  · exact hu.sendPacket _ _
  · exact hu

theorem KeepsRings.startRecall (l : Nat) (ps : List Part) (share : Bool) (target : DirEntry) (r : LineReq)
    (h : KeepsRings s t) : KeepsRings s (startRecall l ps share target r t) := by
  unfold Machine.startRecall
  split
  exact .forEach _ (fun _ _ hu => hu.sendRecall l _) (h.setLine l _)

theorem KeepsRings.recallAll (l : Nat) (h : KeepsRings s t) : KeepsRings s (recallAll l t) := by
  unfold Machine.recallAll
  extract_lets x dir u
  have hu : KeepsRings s u := h.dirWith rfl
  clear_value u
  refine .ite (.forEach _ (fun _ _ hv => hv.sendRecall l _) (hu.setLine l _)) (.ite hu (.ite (hu.dirWith rfl) ?_))
  split
  exact hu.startRecall _ _ _ _ _

/-! A write at its line. -/

theorem KeepsRings.dropBuf (l : Nat) (h : KeepsRings s t) : KeepsRings s (dropBuf l t) := h.setLine l _
theorem KeepsRings.setDir (l : Nat) (d : DirEntry) (h : KeepsRings s t) : KeepsRings s (setDir l d t) := h.setLine l _
theorem KeepsRings.endTrans (l : Nat) (h : KeepsRings s t) : KeepsRings s (endTrans l t) := h.setLine l _
theorem KeepsRings.requeue (l : Nat) (r : LineReq) (h : KeepsRings s t) : KeepsRings s (requeue l r t) := h.setLine l _

theorem KeepsRings.settleContrib (l : Nat) (h : KeepsRings s t) : KeepsRings s (settleContrib l t) := by
  unfold Machine.settleContrib
  split
  · exact .ite (h.mergeWriteback l) h
  · exact h

theorem KeepsRings.marked (ten a l : Nat) (f : State → State) (h : KeepsRings s (f t)) :
    KeepsRings s (marked ten a l f t) := by
  unfold Machine.marked
  exact .ite h (.forEach _ (fun g _ hu => hu.setGroup g _) h)

theorem KeepsRings.perform (l : Nat) {r : LineReq} (home : Bool) (hr : PlainWrite r) (h : KeepsRings s t) :
    KeepsRings s (perform l r home t) := by
  have hc := h.settleContrib l
  unfold Machine.perform
  rcases hr.kind with hk | hk <;> rw [hk]
  · exact (KeepsRings.ite (hc.poisonLine l) (hc.writeMasked _ _ _ _ _)).respond _ _ _ _ _
  · exact (KeepsRings.when (hc.storeLine _ _) ((hc.storeLine _ _).poisonLine _)).respond _ _ _ _ _

theorem KeepsRings.finish (l : Nat) {r : LineReq} (d : DirEntry) (home : Bool) (hr : PlainWrite r) (h : KeepsRings s t) :
    KeepsRings s (finish l r d home t) := by
  have gone (u : State) (hu : KeepsRings s u) : KeepsRings s (serveGone l r u) := by
    unfold serveGone
    rcases hr.kind with hk | hk <;> rw [hk] <;> exact hu.respond _ _ _ _ _
  have served (u : State) (hu : KeepsRings s u) :
      KeepsRings s (Machine.dropBuf l (Machine.marked r.tenant (r.pva + r.pos) l (Machine.perform l r home) u)) :=
    (KeepsRings.marked _ _ _ _ (hu.perform l home hr)).dropBuf l
  unfold Machine.finish
  refine .ite (gone _ ((h.endTrans l).setDir l _)) ?_
  rcases hr.kind with hk | hk <;> rw [hk] <;> exact served _ ((h.endTrans l).setDir l d)

theorem KeepsRings.serve (l : Nat) {r : LineReq} (hr : PlainWrite r) (h : KeepsRings s t) : KeepsRings s (serve l r t) := by
  have line : KeepsRings s (serveLine l r t) := by
    unfold serveLine
    extract_lets d ps recallOr
    have row (d' : DirEntry) : KeepsRings s (recallOr ps false d' r t) := .ite (h.finish l _ _ hr) (h.startRecall _ _ _ _ _)
    cases d.st with
    | u => exact h.requeue l r
    | i => rcases hr.kind with hk | hk <;> rw [hk] <;> exact h.finish l _ _ hr
    | s => rcases hr.kind with hk | hk <;> rw [hk] <;> exact row _
    | o => rcases hr.kind with hk | hk <;> rw [hk] <;> exact h.startRecall _ _ _ _ _
  unfold Machine.serve
  rcases hr.kind with hk | hk <;> rw [hk] <;> exact line

/-! Acceptance. -/

theorem KeepsRings.settleCycle (h : KeepsRings s t) : KeepsRings s (settleCycle t) := by
  unfold Machine.settleCycle
  exact .ite h (h.dirWith rfl)

theorem KeepsRings.fetchHandOver (l : Nat) (h : KeepsRings s t) : KeepsRings s (fetchHandOver l t) := by
  unfold Machine.fetchHandOver
  split
  · next k _ =>
    unfold handOver
    split
    · exact h
    · exact .ite h ((((h.mergeWriteback k).setLine _ _).setLine _ _).setMem _)
  · exact h

theorem scanLine_of_none (l : Nat) (h : t.dir.scans = []) : scanLine l t = t := by
  simp [scanLine, h]

theorem KeepsRings.lookAt (l : Nat) (hscan : s.dir.scans = []) (h : KeepsRings s t) : KeepsRings s (lookAt l t) := by
  have hc := h.settleCycle.fetchHandOver l
  unfold Machine.lookAt
  rw [scanLine_of_none l (hc.scans.trans hscan)]
  have hd : KeepsRings s (recallDue l (Machine.fetchHandOver l (Machine.settleCycle t))) := .ite (hc.recallAll l) hc
  exact .ite (hd.dropBuf l) hd

theorem KeepsRings.takeIn (l p : Nat) {r : LineReq} (hr : PlainWrite r) (h : KeepsRings s t) : KeepsRings s (takeIn l p r t) := by
  have disarm (q : Nat) (u : State) : orderDisarm q r u = (r, u) := by simp [orderDisarm, hr.win]
  unfold Machine.takeIn
  extract_lets q dir u v w
  have hu : KeepsRings s u := h.dirWith rfl
  have hv : KeepsRings s v := by
    unfold v
    split
    · exact hu.orderRec _
    · exact hu
  have hw : KeepsRings s w := hv.feed _ _ _
  rw [disarm]
  exact .ite (hw.setLine _ _) (hw.serve l hr)

theorem KeepsRings.accept (l p : Nat) {r : LineReq} (hr : PlainWrite r) (hscan : s.dir.scans = []) (h : KeepsRings s t) :
    KeepsRings s (accept l p r t) :=
  .ite ((h.lookAt _ hscan).takeIn _ p hr) ((h.lookAt _ hscan).dirWith rfl)

theorem KeepsRings.deliver (l p : Nat) {r : LineReq} (c : Bool) (hr : PlainWrite r) (hscan : s.dir.scans = [])
    (h : KeepsRings s t) : KeepsRings s (deliver l p r c t) := by
  unfold Machine.deliver
  extract_lets q r' dir u
  have hr' : PlainWrite r' := ⟨hr.kind, hr.win⟩
  have hu : KeepsRings s u := h.dirWith rfl
  exact .ite (.ite ((hu.cross _ _ _).setPair _) ((hu.cross _ _ _).accept _ _ hr' hscan))
    (.lineDone _ _ _ _ (.when hu (hu.bump _ _ _)))

/-! Notification. -/

theorem KeepsRings.poolWrite (q ten a : Nat) (who : Part) (d : List Byte) (o : Option (Nat × Nat)) (hscan : s.dir.scans = [])
    (h : KeepsRings s t) : KeepsRings s (poolWrite q ten a who d t o).2 := by
  have hx := h.translate q ten a who (.inPool false) .write
  unfold Machine.poolWrite
  split
  · next he => rw [he] at hx; exact hx
  · next he =>
    rw [he] at hx
    refine hx.deliver _ _ _ ⟨?_, rfl⟩ hscan
    simp only
    split
    · exact .inr rfl
    · exact .inl rfl

theorem KeepsRings.notify (n : Nat) (hscan : s.dir.scans = []) (h : KeepsRings s t) : KeepsRings s (notify n t) := by
  unfold Machine.notify
  extract_lets x g u
  have hu : KeepsRings s u := h.setQueue rfl rfl
  clear_value u
  split
  · split
    · exact hu.emit _
    · exact hu
  · exact hu.sendPacket _ _
  · have hw := hu.poolWrite g.quadrant g.tenant x.notifyPva (grpPart n) (leBytes 8 (seenTail x)) (some (n, ringSlot)) hscan
    split
    · next he => rw [he] at hw; exact hw
    · next he => rw [he] at hw; exact hw.refuse _ _ _ _ _ _
  · exact hu

theorem KeepsRings.settlePosts (n : Nat) (hscan : s.dir.scans = []) (h : KeepsRings s t) : KeepsRings s (settlePosts n t) := by
  have note {u : State} (hu : KeepsRings s u) : KeepsRings s (noteNotify n u) :=
    .ite (.notify n hscan (hu.setQueue rfl rfl)) (hu.setQueue rfl rfl)
  unfold Machine.settlePosts
  exact .ite h (.forEach _ (fun _ _ hu => note hu) (h.setQueue rfl rfl))

end Chain

end Sys2Proof.Machine
end

section
/-! SUPPORT. A completion goes to its ring slot (R139 to R143): what its delivery reads of the state, and its effect where the
ring is open. -/

namespace Sys2Proof.Machine

open Sys2Proof.Safety

/-! What a delivery reads. -/

/-- A queue without its descriptors in flight. -/
def noFlight (x : Queue) : Queue := { x with flight := [] }

/-- Everything that the delivery of a completion of queue `n` reads is the same, but for the descriptors in flight. -/
structure SameRing (n : Nat) (s u : State) : Prop where
  halts : halted u = halted s
  time : u.time = s.time
  queue : noFlight (queue u n) = noFlight (queue s n)
  group : group u (n / 8) = group s (n / 8)
  units : u.xlt.units = s.xlt.units
  ports : u.cxl.ports = s.cxl.ports
  pair : u.pair = s.pair
  scans : u.dir.scans = s.dir.scans
  waitIn : u.dir.waitIn = s.dir.waitIn

theorem sameRing_refl (n : Nat) (s : State) : SameRing n s s := ⟨rfl, rfl, rfl, rfl, rfl, rfl, rfl, rfl, rfl⟩

theorem sameRing_trans {n : Nat} {s t u : State} (h : SameRing n s t) (h' : SameRing n t u) : SameRing n s u :=
  ⟨h'.halts.trans h.halts, h'.time.trans h.time, h'.queue.trans h.queue, h'.group.trans h.group, h'.units.trans h.units,
    h'.ports.trans h.ports, h'.pair.trans h.pair, h'.scans.trans h.scans, h'.waitIn.trans h.waitIn⟩

/-- A delivery reads nothing of the part. -/
def offDelivery (a : Area) : Bool :=
  !([.time, .xunits, .dir, .groups, .queues, .cxlPorts, .secRest, .pair, .clk].contains a)

theorem sameRing_of_only {l : List Area} {s t : State} (n : Nat) (h : Only l s t) (hl : l.all offDelivery = true) :
    SameRing n s t := by
  have off (a : Area) (ha : offDelivery a = false) : agree s t a := only_agree h a (by
    by_contra hc
    have hmem := List.contains_iff_mem.mp (Bool.eq_true_of_not_eq_false hc)
    rw [List.all_eq_true.mp hl a hmem] at ha
    cases ha)
  have hclk : t.clk = s.clk := off .clk rfl
  have hzero : t.sec.keysZeroised = s.sec.keysZeroised := by
    have h' : { t.sec with tenants := [], sealeds := [] } = { s.sec with tenants := [], sealeds := [] } := off .secRest rfl
    have hz := congrArg SecState.keysZeroised h'
    exact hz
  have hdir : t.dir = s.dir := off .dir rfl
  refine ⟨?_, off .time rfl, ?_, group_congr (off .groups rfl) _, off .xunits rfl, off .cxlPorts rfl, off .pair rfl,
    by rw [hdir], by rw [hdir]⟩
  · unfold halted
    rw [hclk, hzero]
  · rw [queue_congr (off .queues rfl)]

/-- The descriptors in flight of the queue itself are no part of it. -/
theorem sameRing_setFlight (n : Nat) (l : List Desc) (s : State) :
    SameRing n s (setQueue n { queue s n with flight := l } s) :=
  ⟨rfl, rfl, by rw [queue_setQueue, if_pos rfl]; rfl, rfl, rfl, rfl, rfl, rfl, rfl⟩

section Same
variable {n : Nat} {s u : State} (h : SameRing n s u)
include h

theorem SameRing.read {α : Type} (f : Queue → α) (hf : ∀ x, f (noFlight x) = f x) :
    f (Machine.queue u n) = f (Machine.queue s n) := by rw [← hf, h.queue, hf]

theorem SameRing.ringOpen {ld a : Nat} (ho : RingOpen s n ld a) : RingOpen u n ld a := by
  obtain ⟨hsolo, hst, hown, hrev, hheld, hawait, hplace, hlink, hscan, hx⟩ := ho
  refine ⟨h.pair ▸ hsolo, h.group ▸ hst, h.group ▸ hown, h.group ▸ hrev, h.group ▸ hheld,
    (h.read Queue.awaiting fun _ => rfl).trans hawait, (h.read Queue.placement fun _ => rfl).trans hplace, ?_,
    h.scans.trans hscan, ?_⟩
  · unfold hostLinkUp cxlPort at hlink ⊢
    rwa [h.ports]
  · rw [h.read Queue.pasid fun _ => rfl, h.read Queue.cqBase fun _ => rfl,
      h.read Queue.cqTail fun _ => rfl, h.read Machine.cqSize fun _ => rfl]
    unfold hostXlat xunit at hx ⊢
    rwa [h.units]

theorem SameRing.unordered (c : Compl) : unordered u c = unordered s c := by
  unfold Machine.unordered
  rw [h.waitIn]

end Same

theorem SameRing.delivered {c : Compl} {ld a : Nat} {s u t : State} (h : SameRing c.queue s u) (hd : Delivered c ld a u t) :
    Delivered c ld a s t := by
  have hbytes : complBytes u c (Machine.queue s c.queue).cqTail.toNat (cqSize (Machine.queue s c.queue)) true =
      complBytes s c (Machine.queue s c.queue).cqTail.toNat (cqSize (Machine.queue s c.queue)) true := by
    unfold complBytes
    rw [h.read Machine.sqSize fun _ => rfl, h.time]
  unfold Delivered at hd ⊢
  rwa [h.read Queue.pasid fun _ => rfl, h.read Queue.cqTail fun _ => rfl, h.read Machine.cqSize fun _ => rfl, hbytes] at hd

/-! The write of a completion. -/

theorem pairVerified_of_solo {s : State} (c : Compl) (h : s.pair.st = .solo) : pairVerified s c = true := by
  simp [pairVerified, paired, h]

theorem pairFailed_of_solo {s : State} (c : Compl) (h : s.pair.st = .solo) : pairFailed s c = false := by
  simp [pairFailed, paired, h]

theorem gated_of_solo {s : State} (hrun : Running s) (h : s.pair.st = .solo) : gated s = false := by
  simp [gated, paired, h, hrun]

theorem feed_of_solo {s : State} (q : Nat) (o : Option (Nat × Nat)) (b : List Byte) (h : s.pair.st = .solo) :
    feed q o b s = s := by
  simp [feed, h]

theorem emit_of_solo {s : State} (o : Out) (hrun : Running s) (h : s.pair.st = .solo) :
    emit o s = { s with out := o :: s.out } := by
  simp [emit, gated_of_solo hrun h, awaitsAck, h]

/-- The completion has gone to its slot and the index moved on, before anything is notified. -/
def slotWritten (c : Compl) (ld a : Nat) (s : State) : State :=
  let x := queue s c.queue
  let bytes := complBytes s c x.cqTail.toNat (cqSize x) true
  setQueue c.queue { x with
    cqTail := x.cqTail + 1, extOut := none
    posts := x.posts ++ [{ idx := x.cqTail.toNat, addr := x.cqBase + 32 * (x.cqTail.toNat % cqSize x), notify := c.notify }] }
    { s with out := .dmaWrite ld x.pasid a bytes :: s.out }

theorem writeCompl_of_open {c : Compl} {ld a : Nat} {s : State} (hrun : Running s) (ho : RingOpen s c.queue ld a)
    (hext : c.ext = []) : writeCompl c s = (.ok, settlePosts c.queue (bump cQue 0 1
      (when (decide (c.status = .unverified)) (bump cPair 0 4) (slotWritten c ld a s)))) := by
  obtain ⟨hsolo, -, hown, -, -, -, hplace, hlink, -, hx⟩ := ho
  have hready : ringReady c.queue [(queue s c.queue).cqBase + 32 * ((queue s c.queue).cqTail.toNat %
      cqSize (queue s c.queue))] s = (.ok, s) := by
    simp [ringReady, hplace, hown, follows_of_solo hsolo, gated_of_solo hrun hsolo, hlink, hx]
  have hwrite (i : Nat) (d : List Byte) : ringWrite c.queue ((queue s c.queue).cqBase + 32 *
      ((queue s c.queue).cqTail.toNat % cqSize (queue s c.queue))) i c d s =
      (true, { s with out := .dmaWrite ld (queue s c.queue).pasid a d :: s.out }) := by
    simp [ringWrite, hplace, hown, follows_of_solo hsolo, hx, feed_of_solo _ _ _ hsolo, emit_of_solo _ hrun hsolo]
  unfold writeCompl
  simp only [pairFailed_of_solo c hsolo, pairVerified_of_solo c hsolo, Bool.false_and, Bool.false_eq_true, if_false, hext,
    List.isEmpty_nil, if_true, hready, writeExt, hwrite]
  rfl

/-- What the delivery of a completion gives, and what it leaves. -/
structure Delivers (c : Compl) (ld a : Nat) (s t : State) : Prop where
  delivered : Delivered c ld a s t
  pool : t.pool = s.pool

theorem deliverCompl_of_open {c : Compl} {ld a : Nat} {s : State} (hrun : Running s) (ho : RingOpen s c.queue ld a)
    (hext : c.ext = []) (hw : c.window = false) : Delivers c ld a s (deliverCompl c s) := by
  have hwrite := writeCompl_of_open hrun ho hext
  obtain ⟨hsolo, hst, hown, hrev, hheld, hawait, hplace, hlink, hscan, hx⟩ := ho
  generalize hu : settlePosts c.queue _ = u at hwrite
  have hnotes : KeepsRings (slotWritten c ld a s) u := by
    rw [← hu]
    have h := keepsRings_refl (slotWritten c ld a s)
    exact ((KeepsRings.when h (h.bump _ _ _)).bump _ _ _).settlePosts _ hscan
  have hret : deliverCompl c s = retireDesc c u := by
    unfold deliverCompl
    simp only [hst, hrev, hheld, hawait, hwrite, Bool.false_and, Bool.false_eq_true, if_false, List.any_nil,
      List.isEmpty_nil, Bool.not_true]
  have hkeep : (retireDesc c u).pool = u.pool ∧ (retireDesc c u).out = u.out ∧
      (queue (retireDesc c u) c.queue).cqTail = (queue u c.queue).cqTail ∧
      (queue (retireDesc c u) c.queue).flight = (queue u c.queue).flight.filter (fun d => d.slot != c.slot) := by
    unfold retireDesc settleDisable
    simp only [hw, Bool.false_eq_true, if_false]
    split <;> simp [queue_setQueue]
  obtain ⟨hpool, hout, htail, hflight⟩ := hkeep
  rw [hret]
  refine ⟨⟨?_, ?_, ?_⟩, hpool.trans hnotes.pool⟩
  · rw [hout]
    exact hnotes.out _ List.mem_cons_self
  · rw [htail, (hnotes.rings c.queue).1]
    simp [slotWritten]
  · intro d hd
    rw [hflight] at hd
    simpa using (List.mem_filter.mp hd).2

/-- A completion whose descriptor's effects are ordered goes to its slot. -/
theorem complete_of_open {c : Compl} {ld a : Nat} {s : State} (hrun : Running s) (ho : RingOpen s c.queue ld a)
    (hext : c.ext = []) (hw : c.window = false) (hord : unordered s c = false) : Delivers c ld a s (complete c s) := by
  unfold complete
  extract_lets x u
  have hu : SameRing c.queue s u := sameRing_setFlight c.queue _ s
  have hmay : mayComplete u c = true := by
    simp [mayComplete, hu.unordered, hord, pairVerified_of_solo c (hu.ringOpen ho).1]
  obtain ⟨hd, hp⟩ := deliverCompl_of_open (hu.halts.trans hrun) (hu.ringOpen ho) hext hw
  rw [if_pos hmay]
  exact ⟨hu.delivered hd, hp⟩

end Sys2Proof.Machine
end

section
/-! PROOFS. Kite descriptors (R53 to R57, R138, Tables 2.9a, 2.9b). -/

namespace Sys2Proof.Machine

open Sys2Proof.Safety

/-! Frames. -/

theorem only_setLine (l x s) : Only [.dir] s (setLine l x s) :=
  ⟨rfl, rfl, fun a h => by cases a with | dir => cases h | routes => exact ⟨rfl, rfl⟩ | _ => rfl⟩

theorem only_setDirState (x s) : Only [.dir] s { s with dir := x } :=
  ⟨rfl, rfl, fun a h => by cases a with | dir => cases h | routes => exact ⟨rfl, rfl⟩ | _ => rfl⟩

theorem only_setQueue (n x s) : Only [.queues] s (setQueue n x s) :=
  ⟨rfl, rfl, fun a h => by cases a with | queues => cases h | routes => exact ⟨rfl, rfl⟩ | _ => rfl⟩

theorem only_emit (o s) : Only [.out, .pair] s (emit o s) := by
  have said : Only [.out, .pair] s { s with out := o :: s.out } := only_mono (only_said o s) rfl
  unfold emit
  exact only_ite (only_ite (only_refl _ s) (only_ite (only_mono (only_setPair _ s) rfl) said)) said

/-- The parts that a recall of lines may change. -/
abbrev recallAreas : List Area := .out :: .dir :: flowAreas

theorem only_sendRecall (l r s) : Only recallAreas s (sendRecall l r s) := by
  unfold sendRecall
  extract_lets u
  have hu : Only recallAreas s u := only_mono (only_bump _ _ _ s) rfl
  refine only_trans hu ?_
  clear_value u
  split
  · exact only_trans (only_trans (only_mono (within_cross _ _ _ u).1 rfl) (only_mono (only_bump _ _ _ _) rfl))
      (only_mono (only_emit _ _) rfl)
  · exact only_mono (within_sendPacket _ _ u).1 rfl
  · exact only_refl _ u

theorem only_startRecall (l ps share target r s) : Only recallAreas s (startRecall l ps share target r s) := by
  unfold startRecall
  split
  exact only_trans (only_mono (only_setLine l _ s) rfl) (only_forEach _ _ fun _ t => only_sendRecall l _ t)

theorem only_recallOwned (bs s) : Only recallAreas s (recallOwned bs s) := by
  refine only_forEach _ _ fun c t => ?_
  simp only
  split
  · exact only_refl _ t
  · exact only_startRecall _ _ _ _ _ t

/-- The parts that the release of a tether or an extent may change. -/
abbrev releaseAreas : List Area := [.out, .extents, .tethers, .leases, .kites, .invals, .coreRest, .wins, .cxlRest]

theorem only_dropGrant (d g s) : Only releaseAreas s (dropGrant d g s) :=
  only_trans (only_trans (only_mono (only_setWdw d g _ s) rfl) (only_mono (only_endExclusive _ d _) rfl))
    (only_mono (only_dropTether _ _ _) rfl)

theorem only_unlinkKite (c e s) : Only [.kites] s (unlinkKite c e s) := by
  unfold unlinkKite
  split
  · split
    · exact only_ite (only_setKite _ _ s) (only_refl _ s)
    · exact only_refl _ s
  · exact only_refl _ s

theorem only_dropDependents (e s) : Only releaseAreas s (dropDependents e s) := by
  unfold dropDependents
  extract_lets s1 s2
  have hgrants : Only releaseAreas s s1 := only_forEach _ s fun x t => only_dropGrant x.1 x.2 t
  have hdc : Only releaseAreas s1 s2 := only_forEach _ s1 fun o u =>
    only_trans (only_mono (only_dropDc o u) rfl) (only_mono (only_fmDone _ _ _) rfl)
  exact only_trans (only_trans (only_trans hgrants hdc)
    (only_forEach _ s2 fun x u => only_mono (only_dropTether _ _ u) rfl)) (only_mono (only_withdrawExtent e _) rfl)

theorem only_beginRelease (e s) : Only releaseAreas s (beginRelease e s) := by
  unfold beginRelease
  simp only
  refine only_trans ?_ (only_mono (only_setExtent e _ _) rfl)
  generalize hu : withdrawExtent e _ = u
  have h : Only releaseAreas s u := by
    rw [← hu]
    exact only_dropDependents e s
  exact only_trans h (only_mono (only_unlinkKite (extent s e).kite e u) rfl)

theorem only_settleRetire (e s) : Only releaseAreas s (settleRetire e s) := by
  unfold settleRetire
  extract_lets x
  split
  · exact only_refl _ s
  · split
    · exact only_refl _ s
    · have hset : Only releaseAreas s (setExtent e { x with st := .retired } s) := only_mono (only_setExtent e _ s) rfl
      exact only_ite (only_ite hset (only_trans hset (only_beginRelease e _))) (only_refl _ s)

theorem only_releaseOne (p o s) : Only releaseAreas s (releaseOne p o s) := by
  have hdrop : Only releaseAreas s (dropTether p o s) := only_mono (only_dropTether p o s) rfl
  cases o with
  | attach e => exact only_trans hdrop (only_settleRetire e _)
  | extent e => exact hdrop
  | group g => exact hdrop

/-! A kite descriptor starts and is ordered at its kite's home. -/

/-- The operation is ordered at the kite's home. -/
def kiteOrdered (n k : Nat) (s : State) : State :=
  let s := settleCycle s
  { s with dir := { s.dir with
    cycle := (k % 4, 2 ^ 40 + k, inputPort s (k % 4) (group s (n / 8)).quadrant 3) :: s.dir.cycle } }

/-- The descriptor has started, and its operation is ordered. -/
structure KiteStarted (n : Nat) (s u : State) : Prop where
  only : Only [.queues, .dir] s u
  same : SameRing n s u

theorem kiteStarted_of_desc {n slot : Nat} {d : Desc} {s : State} (k : Nat) (h : descAt s n slot = some d) :
    KiteStarted n s (kiteOrdered n k (startDesc n slot s)) := by
  have hstart : startDesc n slot s = setDesc n { d with started := true, startTime := s.time } s := by
    unfold startDesc
    rw [h]
  have hcycle (u : State) : Only [.dir] u (settleCycle u) := only_ite (only_refl _ u) (only_setDirState _ u)
  have hsame (u : State) : SameRing n u (kiteOrdered n k u) := by
    have hc : SameRing n u (settleCycle u) := by
      unfold settleCycle
      split
      · exact sameRing_refl n u
      · exact ⟨rfl, rfl, rfl, rfl, rfl, rfl, rfl, rfl, rfl⟩
    exact sameRing_trans hc ⟨rfl, rfl, rfl, rfl, rfl, rfl, rfl, rfl, rfl⟩
  rw [hstart]
  exact ⟨only_trans (only_mono (only_setQueue n _ s) rfl) (only_mono (only_trans (hcycle _) (only_setDirState _ _)) rfl),
    sameRing_trans (sameRing_setFlight n _ s) (hsame _)⟩

/-- A kite descriptor that passes every test is carried out. -/
theorem runKite_of_clean {op n slot : Nat} {d : Desc} {y : Kite} {s : State} (hd : descAt s n slot = some d)
    (hop : dOpcode d = op) (hmay : mayStart s n slot = true) (hclean : kdClean d = true) (hk : kdKite d < 4096)
    (hy : kite s (kdKite d) = some y) (hten : y.tenant = (group s (n / 8)).tenant)
    (hhome : homeReachable s (kdKite d % 4) = true) (hheld : y.held = none) :
    runKite op n slot s = kiteOp n (kdKite d) d y (kiteOrdered n (kdKite d) (startDesc n slot s)) := by
  have hstart : startDesc n slot s = setDesc n { d with started := true, startTime := s.time } s := by
    unfold startDesc
    rw [hd]
  have hy' : kite (startDesc n slot s) (kdKite d) = some y := by rw [hstart]; exact hy
  have hten' : y.tenant = (group (startDesc n slot s) (n / 8)).tenant := by rw [hstart]; exact hten
  have hhome' : homeReachable (startDesc n slot s) (kdKite d % 4) = true := by rw [hstart]; exact hhome
  unfold runKite
  simp only [hd, hop, hmay, hclean, hk, hten', hhome', if_true, if_false, ne_eq, not_true_eq_false, Bool.not_true,
    Bool.false_eq_true, or_self, hy', hheld]
  rfl

/-- The slot of the descriptor that a slot holds. -/
theorem slot_of_descAt {n slot : Nat} {d : Desc} {s : State} (h : descAt s n slot = some d) : d.slot = slot := by
  have := List.find?_some h
  simp only [Bool.and_eq_true, beq_iff_eq] at this
  exact this.1

/-- A kite descriptor completes into an open ring, after steps that a delivery does not read. -/
theorem kiteDone_delivers {n ld a : Nat} {d : Desc} {st : Status} {s u : State} (detail r0 r1 : Nat) (hrun : Running s)
    (ho : RingOpen s n ld a) (hord : unordered s (complOf n d st) = false) (hu : SameRing n s u) :
    Delivered { complOf n d st with detail := detail, result0 := r0, result1 := r1 } ld a s (kiteDone n d st detail r0 r1 u) ∧
      (kiteDone n d st detail r0 r1 u).pool = u.pool := by
  obtain ⟨hd, hp⟩ := complete_of_open (c := { complOf n d st with detail := detail, result0 := r0, result1 := r1 })
    (hu.halts.trans hrun) (hu.ringOpen ho) rfl rfl ((hu.unordered _).trans hord)
  exact ⟨hu.delivered hd, hp⟩

/-! KITE_PUBLISH (R54). -/

/-- The record is held, the extent read-only, its mappings withdrawn. -/
def publishHeld (k : Nat) (y : Kite) (e n slot : Nat) (s : State) : State :=
  withdrawExtent e (setExtent e { extent s e with readOnly := true }
    (setKite k (some { y with held := some (e, n, slot) }) s))

theorem kiteOp_publish {n k : Nat} {d : Desc} {y : Kite} {s : State} (hop : dOpcode d = 0x20) (hseal : y.sealed = false)
    (hst : (extent s (kdExtent d)).st = .active) (hkind : (extent s (kdExtent d)).kind = .ordinary)
    (hten : (extent s (kdExtent d)).tenant = y.tenant) (hlt : kdExtent d < 16384) (hver : y.version = kdVersion d)
    (hmax : kdVersion d ≠ 2 ^ 64 - 1) :
    kiteOp n k d y s = recallOwned (extent s (kdExtent d)).blocks (publishHeld k y (kdExtent d) n d.slot s) := by
  unfold kiteOp
  rw [hop]
  refine (if_neg ?_).trans ((if_neg ?_).trans (if_neg ?_))
  · simp [hseal, hst, hkind, hten, hlt]
  · rw [not_or]
    exact ⟨not_not.mpr hver, hmax⟩
  · simp [hseal]

theorem only_publishHeld (k y e n slot s) : Only [.kites, .extents, .invals, .coreRest] s (publishHeld k y e n slot s) :=
  only_trans (only_trans (only_mono (only_setKite _ _ s) rfl) (only_mono (only_setExtent _ _ _) rfl))
    (only_mono (only_withdrawExtent _ _) rfl)

theorem kite_publishHeld (k : Nat) (y : Kite) (e n slot : Nat) (s : State) (j : Nat) :
    kite (publishHeld k y e n slot s) j = if j = k then some { y with held := some (e, n, slot) } else kite s j := by
  unfold publishHeld
  rw [kite_congr (only_agree (only_withdrawExtent e _) .kites rfl), kite_congr (only_agree (only_setExtent e _ _) .kites rfl),
    kite_setKite]

theorem extent_publishHeld (k : Nat) (y : Kite) (e n slot : Nat) (s : State) (j : Nat) :
    extent (publishHeld k y e n slot s) j = if j = e then { extent s e with readOnly := true } else extent s j := by
  unfold publishHeld
  rw [extent_congr (only_agree (only_withdrawExtent e _) .extents rfl), extent_setExtent,
    extent_congr (only_agree (only_setKite k _ s) .extents rfl)]

theorem invals_publishHeld (k : Nat) (y : Kite) {e : Nat} (n slot : Nat) {s : State} (h : (extent s e).blocks ≠ []) :
    ∃ v ∈ (publishHeld k y e n slot s).xlt.invals, v.withdraws = true ∧ v.tenant = (extent s e).tenant ∧
      v.lo = extentLo (extent s e) ∧ v.hi = extentHi (extent s e) := by
  unfold publishHeld
  generalize hu : setExtent e _ _ = u
  have hx : extent u e = { extent s e with readOnly := true } := by rw [← hu, extent_setExtent, if_pos rfl]
  have hten : (extent u e).tenant = (extent s e).tenant := by rw [hx]
  have hlo : extentLo (extent u e) = extentLo (extent s e) := by simp only [hx, extentLo]
  have hhi : extentHi (extent u e) = extentHi (extent s e) := by simp only [hx, extentHi]
  simp only [withdrawExtent, hten, hlo, hhi]
  obtain ⟨v, hv, hvt, hlo, hhi, hw⟩ := exists_orderInval (t := (extent s e).tenant) true u (extentLo_lt_extentHi h)
  exact ⟨v, hv, hw, hvt, hlo, hhi⟩

theorem kitePublish_completes {n slot : Nat} {d : Desc} {y : Kite} {s u : State} (hu : KiteStarted n s u)
    (hd : d.slot = slot) (hop : dOpcode d = 0x20) (hseal : y.sealed = false)
    (hst : (extent s (kdExtent d)).st = .active) (hkind : (extent s (kdExtent d)).kind = .ordinary)
    (hten : (extent s (kdExtent d)).tenant = y.tenant) (hlt : kdExtent d < 16384) (hver : y.version = kdVersion d)
    (hmax : kdVersion d ≠ 2 ^ 64 - 1) (k : Nat) :
    kite (kiteOp n k d y u) k = some { y with held := some (kdExtent d, n, slot) } ∧
      extent (kiteOp n k d y u) (kdExtent d) = { extent s (kdExtent d) with readOnly := true } ∧
      ((extent s (kdExtent d)).blocks ≠ [] → ∃ v ∈ (kiteOp n k d y u).xlt.invals, v.withdraws = true ∧
        v.tenant = (extent s (kdExtent d)).tenant ∧ v.lo = extentLo (extent s (kdExtent d)) ∧
        v.hi = extentHi (extent s (kdExtent d))) ∧
      Others kite k s (kiteOp n k d y u) ∧ Others extent (kdExtent d) s (kiteOp n k d y u) ∧
      SameMemory s (kiteOp n k d y u) := by
  have hext (e : Nat) : extent u e = extent s e := extent_congr (only_agree hu.only .extents rfl) e
  have hkite (j : Nat) : kite u j = kite s j := kite_congr (only_agree hu.only .kites rfl) j
  rw [← hext] at hst hkind hten
  rw [kiteOp_publish hop hseal hst hkind hten hlt hver hmax, hd]
  have hr := only_recallOwned (extent u (kdExtent d)).blocks (publishHeld k y (kdExtent d) n slot u)
  generalize recallOwned (extent u (kdExtent d)).blocks _ = t at hr
  have hk (j : Nat) : kite t j = _ := (kite_congr (only_agree hr .kites rfl) j).trans (kite_publishHeld k y _ n slot u j)
  have he (j : Nat) : extent t j = _ :=
    (extent_congr (only_agree hr .extents rfl) j).trans (extent_publishHeld k y _ n slot u j)
  have hi : t.xlt.invals = (publishHeld k y (kdExtent d) n slot u).xlt.invals := only_agree hr .invals rfl
  refine ⟨by rw [hk, if_pos rfl], by rw [he, if_pos rfl, hext], fun hb => ?_, fun j hj => by rw [hk, if_neg hj, hkite],
    fun j hj => by rw [he, if_neg hj, hext], fun a => ?_⟩
  · rw [← hext] at hb ⊢
    rw [hi]
    exact invals_publishHeld k y n slot hb
  · exact (sameMemory_of_only hr rfl rfl a).trans ((sameMemory_of_only (only_publishHeld _ _ _ _ _ u) rfl rfl a).trans
      (sameMemory_of_only hu.only rfl rfl a))

/-! KITE_ATTACH (R55, Table 2.9b). -/

/-- A tether within the limits is added, and no extent leaves or enters HELD where it is neither ACTIVE nor HELD. -/
theorem addTether_current {x : Tether} {e : Nat} {s : State} (hobj : x.obj = .attach e) (hst : (extent s e).st = .current)
    (hquota : (s.pool.tethers.filter (fun y => y.tenant == x.tenant)).length < tget 0 s.pool.quotas x.tenant)
    (hmany : tethersOf s x.holder < 65535) (hall : s.pool.tethers.length < 65536) :
    ∃ u, addTether x s = (true, u) ∧ Only [.tethers, .leases] s u ∧ u.pool.tethers = s.pool.tethers ++ [x] := by
  have hset (l : Lease) : Only [.tethers, .leases] s
      (setLease x.holder l { s with pool := { s.pool with tethers := s.pool.tethers ++ [x] } }) :=
    only_trans (only_mono (only_setTethers _ s) rfl) (only_mono (only_setLease _ _ _) rfl)
  have hno : ¬(tget 0 s.pool.quotas x.tenant ≤ (s.pool.tethers.filter (fun y => y.tenant == x.tenant)).length ∨
      65535 ≤ tethersOf s x.holder ∨ 65536 ≤ s.pool.tethers.length) := by omega
  suffices h : ∃ l, addTether x s =
      (true, setLease x.holder l { s with pool := { s.pool with tethers := s.pool.tethers ++ [x] } }) by
    obtain ⟨l, hl⟩ := h
    exact ⟨_, hl, hset l, rfl⟩
  unfold addTether
  extract_lets used l l' pool v
  rw [if_neg hno]
  refine ⟨l', congrArg (Prod.mk true) ?_⟩
  have hx : (extent v e).st = .current := hst
  have hhold : holdExtent e v = v := by simp [holdExtent, hx]
  have hunhold : unholdExtent e v = v := by simp [unholdExtent, hx]
  simp only [hobj, tetherExtent, hhold, hunhold, ite_self]
  rfl

theorem kiteOp_attach {n k e : Nat} {d : Desc} {y : Kite} {s u : State} (hop : dOpcode d = 0x21) (hcur : kdCurrent d = true)
    (hver : y.version ≠ 0) (hext : y.extent = some e)
    (hu : addTether { holder := .grp (n / 8), obj := .attach e, tenant := y.tenant } s = (true, u)) :
    kiteOp n k d y s = kiteDone n d .ok 0 y.version (extent u e).pvaBase u := by
  have h0 : (y.version == 0) = false := by simp [hver]
  unfold kiteOp
  simp only [hop, hcur, h0, hext, hu, Bool.true_or, Bool.and_false, Bool.false_eq_true, if_false, if_true]

/-! KITE_DETACH (R138). -/

theorem kiteOp_detach {n k e : Nat} {d : Desc} {y : Kite} {s : State} (hop : dOpcode d = 0x22)
    (hver : versionExt s k (kdVersion d) isVersionSt = some e)
    (hany : s.pool.tethers.any (fun x => x.holder == .grp (n / 8) && x.obj == .attach e) = true) :
    kiteOp n k d y s = kiteDone n d .ok 0 (kdVersion d) 0 (releaseOne (.grp (n / 8)) (.attach e) s) := by
  unfold kiteOp
  simp only [hop, hver, hany, if_true]

/-! KITE_RECLAIM (R56, R138). -/

theorem kiteOp_reclaim {n k e : Nat} {d : Desc} {y : Kite} {s : State} (hop : dOpcode d = 0x23) (hkeep : y.keepRetired = true)
    (hseal : y.sealed = false)
    (hver : versionExt s k (kdVersion d) (fun st => decide (st = .retired)) = some e) :
    kiteOp n k d y s = kiteDone n d .ok 0 (kdVersion d) (extent s e).pvaBase
      (orderInval (extent s e).tenant (extentLo (extent s e)) (extentHi (extent s e)) false
        (setExtent e { extent s e with st := .active, readOnly := false, kite := none, version := 0 } s)) := by
  unfold kiteOp
  simp only [hop, hver, hkeep, hseal, Bool.not_true, Bool.false_eq_true, if_false]

/-! KITE_PUBLISH_DRAINED (R54 steps 3 to 5). -/

/-- The new version is the record's, and its extent is CURRENT. -/
def published (k : Nat) (y : Kite) (e : Nat) (s : State) : State :=
  setKite k (some { y with version := y.version + 1, extent := some e, held := none })
    (setExtent e { extent s e with st := .current, kite := some k, version := y.version + 1, releaseWaits := false } s)

/-- Without an extent before it, a version whose withdrawals and recalls have drained is written and completes. -/
theorem execKitePublishDrained_of_first {k : Fin 4096} {e n slot : Nat} {d : Desc} {y : Kite} {s : State} (hrun : Running s)
    (hy : kite s k.val = some y) (hheld : y.held = some (e, n, slot)) (hwait : y.waiting = []) (hext : y.extent = none)
    (hlines : s.dir.lines = [])
    (hdrain : drainPending s (extent s e).tenant (extentLo (extent s e)) (extentHi (extent s e)) = false)
    (hrel : (extent s e).releaseWaits = false) (hd : descAt s n slot = some d) :
    execKitePublishDrained k s = .next (kiteDone n d .ok 0 (y.version + 1) 0 (published k.val y e s)) := by
  have hd' : descAt (published k.val y e s) n slot = some d := hd
  have hnone : heldLines s (extent s e).blocks (fun l => decide (l.dir.st = .o) || decide (l.dir.st = .u) ||
      !l.recalls.isEmpty) = [] := by simp [heldLines, hlines]
  refine congrArg Host.Outcome.next ((live_of hrun).trans ?_)
  simp only [hy, hheld, hwait, hext, hdrain, hnone, hrel, List.isEmpty_nil, Bool.not_true, Bool.false_and,
    Bool.false_eq_true, if_false, List.length_nil, kiteDrain]
  unfold published at hd' ⊢
  simp only [hwait] at hd' ⊢
  rw [hd']

/-- Settles O11: each descriptor comes to its operation by `runKite_of_clean`, and completes by `complete_of_open`. -/
theorem kiteCommandsComplete : Obligations.KiteCommandsComplete := by
  unfold Obligations.KiteCommandsComplete
  refine ⟨?_, ?_, ?_, ?_, ?_⟩
  · intro n slot d y s hrun hd hop hmay hclean hk hy hten hhome hheld hseal hst hkind hxten hlt hver hmax
    refine ⟨_, congrArg Host.Outcome.next ((live_of hrun).trans
      (runKite_of_clean hd hop hmay hclean hk hy hten hhome hheld)), ?_⟩
    exact kitePublish_completes (kiteStarted_of_desc _ hd) (slot_of_descAt hd) hop hseal hst hkind hxten hlt hver hmax _
  · intro k e n slot ld h d y s hrun hy hheld hwait hext hlines hdrain hrel hd hord ho
    refine ⟨_, execKitePublishDrained_of_first hrun hy hheld hwait hext hlines hdrain hrel hd, ?_⟩
    have honly : Only [.kites, .extents] s (published k.val y e s) :=
      only_trans (only_mono (only_setExtent _ _ s) rfl) (only_mono (only_setKite _ _ _) rfl)
    obtain ⟨hdel, hpool⟩ := kiteDone_delivers 0 (y.version + 1) 0 hrun ho hord (sameRing_of_only n honly rfl)
    have hkite (j : Nat) := (kite_congr (congrArg PoolState.kites hpool) j).trans (kite_setKite k.val j _ _)
    have hextent (j : Nat) : extent _ j = _ :=
      (extent_congr (congrArg PoolState.extents hpool) j).trans
        ((extent_congr (only_agree (only_setKite k.val _ _) .extents rfl) j).trans (extent_setExtent e j _ s))
    refine ⟨by rw [hkite, if_pos rfl], ?_, hdel, fun j hj => ?_, fun j hj => by rw [hextent, if_neg hj]⟩
    · rw [hextent, if_pos rfl, ← hrel]
    · rw [hkite, if_neg hj]
      exact kite_congr (only_agree (only_setExtent e _ s) .kites rfl) j
  · intro n slot e ld h d y s hrun hd hop hmay hclean hk hy hten hhome hheld hcur hver hext hst hquota hmany hall hord ho
    have hstart := kiteStarted_of_desc (kdKite d) hd
    have hrunKite := runKite_of_clean hd hop hmay hclean hk hy hten hhome hheld
    generalize kiteOrdered n.val (kdKite d) _ = u at hstart hrunKite
    have hteth : u.pool.tethers = s.pool.tethers := only_agree hstart.only .tethers rfl
    have hquo : u.pool.quotas = s.pool.quotas := only_agree hstart.only .quotas rfl
    have hkites : u.pool.kites = s.pool.kites := only_agree hstart.only .kites rfl
    have hex : extent u e = extent s e := extent_congr (only_agree hstart.only .extents rfl) e
    obtain ⟨v, hadd, hv, htv⟩ := addTether_current
      (x := { holder := .grp (n.val / 8), obj := .attach e, tenant := y.tenant }) (s := u) rfl (hex ▸ hst)
      (by rw [hteth, hquo]; exact hquota) (by rw [tethersOf_congr hteth]; exact hmany) (by rw [hteth]; exact hall)
    have hexv : extent v e = extent s e := (extent_congr (only_agree hv .extents rfl) e).trans hex
    obtain ⟨hdel, hpool⟩ := kiteDone_delivers 0 y.version (extent v e).pvaBase hrun ho hord
      (sameRing_trans hstart.same (sameRing_of_only n.val hv rfl))
    refine ⟨_, congrArg Host.Outcome.next ((live_of hrun).trans (hrunKite.trans (kiteOp_attach hop hcur hver hext hadd))),
      ?_, ?_, ?_⟩
    · rw [hpool, htv, hteth]
    · rw [hexv] at hdel ⊢
      exact hdel
    · rw [hpool]
      exact (only_agree hv .kites rfl).trans hkites
  · intro n slot e ld h d y s hrun hd hop hmay hclean hk hy hten hhome hheld hver hany hord ho
    have hstart := kiteStarted_of_desc (kdKite d) hd
    have hrunKite := runKite_of_clean hd hop hmay hclean hk hy hten hhome hheld
    generalize kiteOrdered n.val (kdKite d) _ = u at hstart hrunKite
    have hteth : u.pool.tethers = s.pool.tethers := only_agree hstart.only .tethers rfl
    have hexts : u.pool.extents = s.pool.extents := only_agree hstart.only .extents rfl
    obtain ⟨hdel, hpool⟩ := kiteDone_delivers 0 (kdVersion d) 0 hrun ho hord
      (sameRing_trans hstart.same (sameRing_of_only n.val (only_releaseOne (.grp (n.val / 8)) (.attach e) u) rfl))
    have hany' : u.pool.tethers.any (fun x => x.holder == .grp (n.val / 8) && x.obj == .attach e) = true := by rwa [hteth]
    have hver' : versionExt u (kdKite d) (kdVersion d) isVersionSt = some e := by
      unfold versionExt at hver ⊢
      rwa [hexts]
    refine ⟨_, congrArg Host.Outcome.next ((live_of hrun).trans (hrunKite.trans (kiteOp_detach hop hver' hany'))), ?_, hdel⟩
    obtain ⟨x, hx, hxp⟩ := List.any_eq_true.mp hany'
    simp only [Bool.and_eq_true, beq_iff_eq] at hxp
    rw [hpool, ← hteth]
    exact count_releaseOne ⟨x, hx, hxp⟩
  · intro n slot e ld h d y s hrun hd hop hmay hclean hk hy hten hhome hheld hkeep hseal hver hord ho
    have hstart := kiteStarted_of_desc (kdKite d) hd
    have hrunKite := runKite_of_clean hd hop hmay hclean hk hy hten hhome hheld
    generalize kiteOrdered n.val (kdKite d) _ = u at hstart hrunKite
    have hkites : u.pool.kites = s.pool.kites := only_agree hstart.only .kites rfl
    have hexts : u.pool.extents = s.pool.extents := only_agree hstart.only .extents rfl
    have hex (j : Nat) : extent u j = extent s j := extent_congr hexts j
    have hver' : versionExt u (kdKite d) (kdVersion d) (fun st => decide (st = .retired)) = some e := by
      unfold versionExt at hver ⊢
      rwa [hexts]
    have hrec := kiteOp_reclaim (n := n.val) hop hkeep hseal hver'
    generalize hv : orderInval _ _ _ false _ = v at hrec
    have honly : Only [.extents, .invals] u v := by
      rw [← hv]
      exact only_trans (only_mono (only_setExtent _ _ u) rfl) (only_mono (only_orderInval_false _ _ _ _) rfl)
    have hexv (j : Nat) : extent v j = if j = e then
        { extent s e with st := .active, readOnly := false, kite := none, version := 0 } else extent s j := by
      rw [← hv, extent_orderInval, extent_setExtent, hex, hex]
    obtain ⟨hdel, hpool⟩ := kiteDone_delivers 0 (kdVersion d) (extent s e).pvaBase hrun ho hord
      (sameRing_trans hstart.same (sameRing_of_only n.val honly rfl))
    have hext (j : Nat) := (extent_congr (congrArg PoolState.extents hpool) j).trans (hexv j)
    rw [hex] at hrec
    refine ⟨_, congrArg Host.Outcome.next ((live_of hrun).trans (hrunKite.trans hrec)), by rw [hext, if_pos rfl], hdel,
      fun j hj => by rw [hext, if_neg hj], ?_⟩
    rw [hpool]
    exact (only_agree honly .kites rfl).trans hkites

end Sys2Proof.Machine
end

section
/-! PROOFS. Move operations: a TLOAD need not pass its pre-check (O17).

The pre-check of a row asks for the standing of the job's image at the row's first byte and again at its last one (R49, R78),
each time at the extent that covers that byte. `Maps` speaks of the first byte. Where an extent that starts inside the row
overlaps the sealed region of the row, the last byte's extent is another one, whose list does not name the image: the row
lies in one leaf of a region that admits the job, and the move is refused NOT_ADMITTED. The states of O17 are not confined
to extents that lie apart. -/

namespace Sys2Proof.Machine

open Sys2Proof.Safety

/-! Bytes in memory. -/

/-- A run of bytes reads back, every other byte as before. -/
theorem tget_putBytes (d : List Byte) (a b : Nat) (m : List Host.Cell) :
    tget 0 (putBytes d a m) b = if a ≤ b ∧ b < a + d.length then byteAt d (b - a) else tget 0 m b := by
  induction d generalizing a m with
  | nil => rw [if_neg (by simp)]; rfl
  | cons x r ih =>
    rw [putBytes, ih, tget_tput]
    by_cases hb : b = a
    · subst hb
      simp [byteAt]
    · by_cases hin : a + 1 ≤ b ∧ b < a + 1 + r.length
      · rw [if_pos hin, if_pos (by simp only [List.length_cons]; omega), show b - a = (b - (a + 1)) + 1 by omega]
        rfl
      · rw [if_neg hin, if_neg hb, if_neg (by simp only [List.length_cons]; omega)]

theorem length_leBytes (n x : Nat) : (leBytes n x).length = n := by
  induction n generalizing x with
  | zero => rfl
  | succ n ih => simp [leBytes, ih]

theorem leNat_leBytes (n x : Nat) : leNat (leBytes n x) = x % 256 ^ n := by
  induction n generalizing x with
  | zero => simp [leBytes, leNat, Nat.mod_one]
  | succ n ih => simp [leBytes, leNat, ih, Nat.pow_succ', Nat.mod_mul]

/-- The bytes of a list, read one by one. -/
theorem map_byteAt_range (d : List Byte) : (List.range d.length).map (byteAt d) = d := by
  refine List.ext_getElem (by simp) fun i _ h => ?_
  simp [byteAt, List.getElem?_eq_getElem h]

/-! The state of the refutation. -/

/-- A TLOAD of one row of 128 bytes from slot 0. -/
def tloadWord : BitVec 128 := Tests.wOp 0x10 0 0 4 0 0 0 16 0

/-- Context 0 of core 3 in job 1, about to dispatch it. -/
def tloadTurn : Turn :=
  { n := 3, i := 0, jid := 1, j := Tests.wJob tloadWord, x := { st := .ready, regs := [(1, 5), (2, 64)] }, w := tloadWord }

/-- The tag of page 1 of extent 1 while it holds zeros. -/
def zeroPageTag : BitVec 128 := Config.gmac 0 1 1 (List.replicate 4096 0)

/-- Slot 0 names address 4096 of a sealed region that admits the job's image; extent 0 starts one byte above it. The tag
area holds the tag of the page, which is zero. -/
def overlapped : State :=
  let s := Tests.wCore tloadWord
  { s with
    pool := { s.pool with extents := [
      (0, { st := .active, tenant := 1, pvaBase := 4097, blocks := [2] }),
      (1, { st := .sealed, kind := .sealed, tenant := 1, blocks := [0], rights := { read := true } })] }
    sec := { s.sec with sealeds := [(1, { admitted := [0] })] }
    mem := { s.mem with bytes := putBytes (leBytes 16 zeroPageTag.toNat) (tagBase s + 16) [] } }

/-- A byte of `overlapped`: the tag's, or zero. -/
theorem readByte_overlapped (a : Nat) : readByte overlapped a =
    if tagBase overlapped + 16 ≤ a ∧ a < tagBase overlapped + 16 + 16 then
      byteAt (leBytes 16 zeroPageTag.toNat) (a - (tagBase overlapped + 16)) else 0 := by
  have h := tget_putBytes (leBytes 16 zeroPageTag.toNat) (tagBase overlapped + 16) a []
  rw [length_leBytes] at h
  exact (readByte_eq overlapped a).trans h

/-- The page that the row lies in is zero. -/
theorem page_overlapped : (List.range 4096).map (fun k => readByte overlapped (4096 + k)) = List.replicate 4096 0 := by
  refine List.eq_replicate_iff.mpr ⟨by simp, fun b hb => ?_⟩
  obtain ⟨k, hk, rfl⟩ := List.mem_map.mp hb
  have hlow : 8192 ≤ tagBase overlapped := by decide
  rw [readByte_overlapped, if_neg (by have := List.mem_range.mp hk; omega)]

/-- The page's place in the tag area holds its tag. -/
theorem tag_overlapped : (List.range 16).map (fun k => readByte overlapped (tagBase overlapped + 16 + k)) =
    leBytes 16 zeroPageTag.toNat := by
  have h := map_byteAt_range (leBytes 16 zeroPageTag.toNat)
  rw [length_leBytes] at h
  refine (List.map_congr_left fun k hk => ?_).trans h
  have := List.mem_range.mp hk
  rw [readByte_overlapped, if_pos (by omega), Nat.add_sub_cancel_left]

theorem gmacOk_overlapped : gmacOk overlapped 1 4096 128 = true := by
  have hext : extentAt overlapped 1 4096 = some 1 := by decide
  have hone : (4096 % 4096 + 128 + 4095) / 4096 = 1 := rfl
  have htag : leNat (leBytes 16 zeroPageTag.toNat) = zeroPageTag.toNat :=
    (leNat_leBytes 16 _).trans (Nat.mod_eq_of_lt zeroPageTag.isLt)
  unfold gmacOk
  simp only [hext, hone, List.range_one, List.all_cons, List.all_nil, Bool.and_true, Bool.or_eq_true, decide_eq_true_eq]
  right
  rw [← tag_overlapped] at htag
  refine htag.trans ?_
  unfold zeroPageTag
  rw [← page_overlapped]
  rfl

theorem dispatches_overlapped : Running overlapped ∧ Dispatches overlapped 3 0 tloadTurn .tload ∧ OpenMemory overlapped := by
  decide +kernel

theorem maps_overlapped : Maps overlapped 0 1 4096 128 (.grp 1) (moveActor overlapped tloadTurn 4096).via .read 4096 := by
  decide +kernel

/-- The move is refused: its engine's queue is empty. -/
theorem engines_execTload_overlapped : ∀ t, execTload 3 0 overlapped = .next t →
    tget [] (coreOf t 3).engines 3 = [] := by
  rintro _ ⟨⟩
  decide +kernel

/-- Refutes O17: the clause of TLOAD, in the state `overlapped`, where the row's last byte lies in an extent of its own that
does not admit the job's image. -/
theorem not_moveCommandsComplete : ¬ Obligations.MoveCommandsComplete := by
  unfold Obligations.MoveCommandsComplete
  rintro ⟨hload, -⟩
  obtain ⟨hrun, hturn, hopen⟩ := dispatches_overlapped
  obtain ⟨t, ht, ⟨-, -, hqueue⟩, -⟩ := hload 3 0 4096 tloadTurn overlapped hrun hturn rfl rfl rfl rfl (by decide) hopen
    maps_overlapped gmacOk_overlapped
  have hnone := congrArg List.length (engines_execTload_overlapped t ht)
  exact absurd (hqueue.symm.trans hnone) (by decide)

end Sys2Proof.Machine
end

section
/-! SUPPORT. What a memory access, a home agent's answer and a queue's delivery keep of chapter 3's state: the address
translation caches, the table roots and the invalidations. They fill the TLB and write fault records, and no more. -/

namespace Sys2Proof.Machine

open Sys2Proof.Safety

/-- The address translation caches that the units' tables list. -/
def atcOf (t : Tbl XltUnit) (q : Nat) : List AtcEntry := (tget {} t q).atc

/-- The ATC of every unit, the table roots and the invalidations. -/
def fixedXlt (s : State) : (Nat → List AtcEntry) × Tbl Roots × List Inval := (atcOf s.xlt.units, s.xlt.roots, s.xlt.invals)

@[simp] theorem fixedXlt_mk (p o t f g cnt obs pool xlt dir mem rof e2e que nm core sch cxl sec fen pair clk map) :
    fixedXlt ⟨p, o, t, f, g, cnt, obs, pool, xlt, dir, mem, rof, e2e, que, nm, core, sch, cxl, sec, fen, pair, clk, map⟩ =
      (atcOf xlt.units, xlt.roots, xlt.invals) := (rfl)

@[simp] theorem fixedXlt_eta (s : State) : (atcOf s.xlt.units, s.xlt.roots, s.xlt.invals) = fixedXlt s := (rfl)

@[simp] theorem fixedXlt_ite (c : Prop) [Decidable c] (s t : State) :
    fixedXlt (if c then s else t) = if c then fixedXlt s else fixedXlt t := apply_ite ..

@[simp] theorem fixedXlt_ite_snd {α : Type} (c : Prop) [Decidable c] (p q : α × State) :
    fixedXlt (if c then p else q).2 = if c then fixedXlt p.2 else fixedXlt q.2 :=
  apply_ite (fun p : α × State => fixedXlt p.2) ..

/-- The state of a pair that `split` has taken apart. -/
theorem fixedXlt_of_eq {α : Type} {p : α × State} {a : α} {t : State} (h : p = (a, t)) : fixedXlt t = fixedXlt p.2 := by
  rw [h]

/-- What each turn of a fold that carries a value beside the state keeps, the fold keeps. -/
@[simp] theorem fixedXlt_foldl_snd {α β : Type} (l : List β) (f : α × State → β → α × State) (p : α × State)
    (h : ∀ p b, fixedXlt (f p b).2 = fixedXlt p.2) : fixedXlt (l.foldl f p).2 = fixedXlt p.2 := by
  induction l generalizing p with
  | nil => rfl
  | cons b l ih => exact (ih (f p b)).trans (h p b)

theorem fixedXlt_of_only {l : List Area} {s t : State} (h : Only l s t)
    (hl : (l.contains .xunits || l.contains .roots || l.contains .invals) = false) : fixedXlt t = fixedXlt s := by
  simp only [Bool.or_eq_false_iff] at hl
  obtain ⟨⟨hu, hr⟩, hi⟩ := hl
  have hunits : t.xlt.units = s.xlt.units := only_agree h .xunits hu
  have hroots : t.xlt.roots = s.xlt.roots := only_agree h .roots hr
  have hinvals : t.xlt.invals = s.xlt.invals := only_agree h .invals hi
  simp only [fixedXlt, hunits, hroots, hinvals]

@[simp] theorem fixedXlt_setXunit {q : Nat} {u : XltUnit} (s : State) (h : u.atc = (xunit s q).atc) :
    fixedXlt (setXunit q u s) = fixedXlt s := by
  have hatc : atcOf (setXunit q u s).xlt.units = atcOf s.xlt.units := by
    funext k
    change (xunit (setXunit q u s) k).atc = (xunit s k).atc
    rw [xunit_setXunit]
    split
    · next hk => rw [hk, h]
    · rfl
  exact congrArg (fun a => (a, s.xlt.roots, s.xlt.invals)) hatc

/-! The writers of the state, and its loops. -/

@[simp] theorem fixedXlt_cross (a b n s) : fixedXlt (cross a b n s) = fixedXlt s :=
  fixedXlt_of_only (within_cross a b n s).1 rfl
@[simp] theorem fixedXlt_sendPacket (q p s) : fixedXlt (sendPacket q p s) = fixedXlt s :=
  fixedXlt_of_only (within_sendPacket q p s).1 rfl
@[simp] theorem fixedXlt_orderRec (r s) : fixedXlt (orderRec r s) = fixedXlt s :=
  fixedXlt_of_only (within_orderRec r s).1 rfl
@[simp] theorem fixedXlt_feed (q o b s) : fixedXlt (feed q o b s) = fixedXlt s :=
  fixedXlt_of_only (within_feed q o b s).1 rfl

@[simp] theorem fixedXlt_emit (o s) : fixedXlt (emit o s) = fixedXlt s := by
  rw [emit_frame]
  rfl

@[simp] theorem fixedXlt_cntAdd (f n i k s) : fixedXlt (cntAdd f n i k s) = fixedXlt s := by simp [cntAdd]

@[simp] theorem fixedXlt_bump (f n i s) : fixedXlt (bump f n i s) = fixedXlt s := by simp [bump]

@[simp] theorem fixedXlt_drawBytes (n s) : fixedXlt (drawBytes n s).2 = fixedXlt s := by simp [drawBytes]

@[simp] theorem fixedXlt_drawBool (s) : fixedXlt (drawBool s).2 = fixedXlt s := by simp [drawBool]

@[simp] theorem fixedXlt_event (code body s) : fixedXlt (event code body s) = fixedXlt s := by
  rw [event_frame]
  rfl

@[simp] theorem fixedXlt_setLine (l x s) : fixedXlt (setLine l x s) = fixedXlt s := by simp [setLine]

@[simp] theorem fixedXlt_setQueue (n x s) : fixedXlt (setQueue n x s) = fixedXlt s := by simp [setQueue]

@[simp] theorem fixedXlt_setGroup (g x s) : fixedXlt (setGroup g x s) = fixedXlt s := by simp [setGroup]

@[simp] theorem fixedXlt_setWindow (w x s) : fixedXlt (setWindow w x s) = fixedXlt s := by simp [setWindow]

@[simp] theorem fixedXlt_setCxlPort (p x s) : fixedXlt (setCxlPort p x s) = fixedXlt s := by simp [setCxlPort]

@[simp] theorem fixedXlt_hostLog (d k typ vals s) :
    fixedXlt (hostLog d k typ vals s) = fixedXlt s := by simp [hostLog]

@[simp] theorem fixedXlt_forEach {α : Type} (l : List α) (f : α → State → State) (s)
    (hf : ∀ a t, fixedXlt (f a t) = fixedXlt t) :
    fixedXlt (forEach l f s) = fixedXlt s :=
  forEach_keeps (P := fun t => fixedXlt t = fixedXlt s) l (fun a t h => (hf a t).trans h) rfl

@[simp] theorem fixedXlt_when (c f s)
    (hf : ∀ t, fixedXlt (f t) = fixedXlt t) :
    fixedXlt (when c f s) = fixedXlt s := by simp [when, hf]

/-! Memory reads and writes. -/

@[simp] theorem fixedXlt_memErr (kind line symbols w s) :
    fixedXlt (memErr kind line symbols w s) = fixedXlt s := by simp [memErr]

@[simp] theorem fixedXlt_openRow (pc a s) : fixedXlt (openRow pc a s) = fixedXlt s := by simp [openRow]

@[simp] theorem fixedXlt_remapRow (line w s) : fixedXlt (remapRow line w s) = fixedXlt s := by simp [remapRow]

@[simp] theorem fixedXlt_noteCorrected (line w s) :
    fixedXlt (noteCorrected line w s) = fixedXlt s := by simp [noteCorrected]

@[simp] theorem fixedXlt_mediaEvent (l s) : fixedXlt (mediaEvent l s) = fixedXlt s := by simp [mediaEvent]

@[simp] theorem fixedXlt_noteUncorrectable (line w s) :
    fixedXlt (noteUncorrectable line w s) = fixedXlt s := by simp [noteUncorrectable]

@[simp] theorem fixedXlt_noteCmd (pc cmd s) : fixedXlt (noteCmd pc cmd s) = fixedXlt s := by simp [noteCmd]

@[simp] theorem fixedXlt_followWrite (l d s) : fixedXlt (followWrite l d s) = fixedXlt s := by simp [followWrite]

@[simp] theorem fixedXlt_storeRaw (l d s) : fixedXlt (storeRaw l d s) = fixedXlt s := by simp [storeRaw]

@[simp] theorem fixedXlt_poisonRaw (l s) : fixedXlt (poisonRaw l s) = fixedXlt s := by simp [poisonRaw]

@[simp] theorem fixedXlt_storeLine (l d s) : fixedXlt (storeLine l d s) = fixedXlt s := by
  unfold storeLine
  split <;> simp

@[simp] theorem fixedXlt_poisonLine (l s) : fixedXlt (poisonLine l s) = fixedXlt s := by
  unfold poisonLine
  split <;> simp

@[simp] theorem fixedXlt_readCode (l ten w s) : fixedXlt (readCode l ten w s).2 = fixedXlt s := by simp [readCode]

@[simp] theorem fixedXlt_readAs (l ten w s) : fixedXlt (readAs l ten w s).2 = fixedXlt s := by
  unfold readAs
  split
  · next h => split <;> simp [fixedXlt_of_eq h]
  · simp

@[simp] theorem fixedXlt_readStored (l w s) : fixedXlt (readStored l w s).2 = fixedXlt s := by simp [readStored]

@[simp] theorem fixedXlt_mergeWriteback (l s) : fixedXlt (mergeWriteback l s) = fixedXlt s := by
  unfold mergeWriteback
  split
  · rfl
  · simp only
    split
    · simp
    · split <;> next h => simp [fixedXlt_of_eq h]

@[simp] theorem fixedXlt_mergeRoom (l s) : fixedXlt (mergeRoom l s) = fixedXlt s := by
  unfold mergeRoom
  simp only
  split
  · rfl
  · split <;> simp

@[simp] theorem fixedXlt_mergeBytes (l mask d who ten s) :
    fixedXlt (mergeBytes l mask d who ten s) = fixedXlt s := by simp [mergeBytes]

@[simp] theorem fixedXlt_readLine (l w s) : fixedXlt (readLine l w s).2 = fixedXlt s := by simp [readLine]

@[simp] theorem fixedXlt_writeMasked (l mask d who ten s) :
    fixedXlt (writeMasked l mask d who ten s) = fixedXlt s := by simp [writeMasked]

/-! Translations fill the TLB and log faults. -/

@[simp] theorem fixedXlt_tlbFill (q e s) : fixedXlt (tlbFill q e s) = fixedXlt s := by simp [tlbFill]

@[simp] theorem fixedXlt_walkFill (q t pva s) : fixedXlt (walkFill q t pva s) = fixedXlt s := by simp [walkFill]

@[simp] theorem fixedXlt_translate (q t pva who via acc s) :
    fixedXlt (translate q t pva who via acc s).2 = fixedXlt s := by
  unfold translate
  split
  · split <;> rfl
  · split
    · simp
    · rfl
    · split <;> simp

@[simp] theorem fixedXlt_logFault (q f s) : fixedXlt (logFault q f s) = fixedXlt s := by simp [logFault]

@[simp] theorem fixedXlt_refuse (q t pva r source sourceId s) :
    fixedXlt (refuse q t pva r source sourceId s) = fixedXlt s := by simp [refuse]

/-! Home agents answer requests and recall copies. -/

@[simp] theorem fixedXlt_sendReply (id r k st d s) : fixedXlt (sendReply id r k st d s) = fixedXlt s := by
  unfold sendReply
  split <;> simp

@[simp] theorem fixedXlt_countApplied (red home s) :
    fixedXlt (countApplied red home s) = fixedXlt s := by simp [countApplied]

@[simp] theorem fixedXlt_contribLine (r st s) : fixedXlt (contribLine r st s) = fixedXlt s := by
  unfold contribLine
  split
  · simp
  · split
    · rfl
    · simp only
      split
      · simp
      · split <;> simp
  · rfl

@[simp] theorem fixedXlt_closePend (id s) : fixedXlt (closePend id s) = fixedXlt s := by
  unfold closePend
  split <;> simp

@[simp] theorem fixedXlt_pendDone (id st pos b s) : fixedXlt (pendDone id st pos b s) = fixedXlt s := by
  unfold pendDone
  split <;> simp

@[simp] theorem fixedXlt_sendRecall (l r s) : fixedXlt (sendRecall l r s) = fixedXlt s := by
  unfold sendRecall
  split <;> simp

@[simp] theorem fixedXlt_startRecall (l hs share target req s) :
    fixedXlt (startRecall l hs share target req s) = fixedXlt s := by simp [startRecall]

@[simp] theorem fixedXlt_answerCopies (w st old s) :
    fixedXlt (answerCopies w st old s) = fixedXlt s := by simp [answerCopies]

@[simp] theorem fixedXlt_unretain (r st s) : fixedXlt (unretain r st s) = fixedXlt s := by
  unfold unretain
  split
  · split <;> simp
  · rfl

@[simp] theorem fixedXlt_beatFailed (r st s) : fixedXlt (beatFailed r st s) = fixedXlt s := by
  unfold beatFailed
  split <;> simp

@[simp] theorem fixedXlt_lineDone (r st pos b s) :
    fixedXlt (lineDone r st pos b s) = fixedXlt s := by simp [lineDone]

@[simp] theorem fixedXlt_respond (l r st pos b s) :
    fixedXlt (respond l r st pos b s) = fixedXlt s := by simp [respond]

@[simp] theorem fixedXlt_fetchLine (l w s) : fixedXlt (fetchLine l w s).2 = fixedXlt s := by
  unfold fetchLine
  split <;> simp

@[simp] theorem fixedXlt_serveRead (l r s) : fixedXlt (serveRead l r s) = fixedXlt s := by
  unfold serveRead
  split <;> next h => simp [fixedXlt_of_eq h]

@[simp] theorem fixedXlt_retain (q r st old s) : fixedXlt (retain q r st old s) = fixedXlt s := by
  unfold retain
  split <;> simp

@[simp] theorem fixedXlt_atomicOn (l r atHome d s) :
    fixedXlt (atomicOn l r atHome d s).2 = fixedXlt s := by simp [atomicOn]

@[simp] theorem fixedXlt_doAtomics (l rs atHome s) : fixedXlt (doAtomics l rs atHome s) = fixedXlt s := by
  unfold doAtomics
  simp only
  split
  · rfl
  · split
    · next h => simp [fixedXlt_of_eq h]
    · next h => simp [fixedXlt_of_eq h]

@[simp] theorem fixedXlt_settleContrib (l s) : fixedXlt (settleContrib l s) = fixedXlt s := by
  unfold settleContrib
  split <;> simp

@[simp] theorem fixedXlt_mergeFetch (l w s) : fixedXlt (mergeFetch l w s).2 = fixedXlt s := by
  unfold mergeFetch
  split
  · split
    · rfl
    · split <;> next h => simp [fixedXlt_of_eq h]
  · split <;> next h => simp [fixedXlt_of_eq h]

@[simp] theorem fixedXlt_mergePut (l r d s) : fixedXlt (mergePut l r d s) = fixedXlt s := by simp [mergePut]

@[simp] theorem fixedXlt_mergeCombine (l r s) : fixedXlt (mergeCombine l r s).2 = fixedXlt s := by
  unfold mergeCombine
  split <;> next h => simp [fixedXlt_of_eq h]

@[simp] theorem fixedXlt_winFailed (w chunk s) :
    fixedXlt (winFailed w chunk s) = fixedXlt s := by simp [winFailed]

@[simp] theorem fixedXlt_perform (l r atHome s) : fixedXlt (perform l r atHome s) = fixedXlt s := by
  unfold perform
  split
  · simp
  · simp
  · simp
  · split <;> next h => simp [fixedXlt_of_eq h]
  · simp
  · rfl

@[simp] theorem fixedXlt_marked (ten pva l f s)
    (hf : ∀ t, fixedXlt (f t) = fixedXlt t) :
    fixedXlt (marked ten pva l f s) = fixedXlt s := by simp [marked, hf]

@[simp] theorem fixedXlt_setDir (l d s) : fixedXlt (setDir l d s) = fixedXlt s := by simp [setDir]

@[simp] theorem fixedXlt_dropBuf (l s) : fixedXlt (dropBuf l s) = fixedXlt s := by simp [dropBuf]

@[simp] theorem fixedXlt_allocate (l s) : fixedXlt (allocate l s).2 = fixedXlt s := by
  unfold allocate
  extract_lets m free
  clear_value free
  split
  · rfl
  · split
    · rfl
    · split
      · rfl
      · extract_lets t
        split
        · rfl
        · split
          extract_lets rq hs
          split
          · exact (fixedXlt_bump ..).trans (fixedXlt_setLine ..)
          · exact fixedXlt_startRecall ..

@[simp] theorem fixedXlt_orderDisarm (h r s) : fixedXlt (orderDisarm h r s).2 = fixedXlt s := by
  unfold orderDisarm
  split <;> simp

@[simp] theorem fixedXlt_releaseHolds (beat ls s) :
    fixedXlt (releaseHolds beat ls s) = fixedXlt s := by simp [releaseHolds]

@[simp] theorem fixedXlt_setContribution (c s) :
    fixedXlt (setContribution c s) = fixedXlt s := by simp [setContribution]

@[simp] theorem fixedXlt_mergeFetchAll (w l s) : fixedXlt (mergeFetchAll w l s).2 = fixedXlt s := by
  induction l generalizing s with
  | nil => rfl
  | cons x r ih =>
    unfold mergeFetchAll
    split
    · next h => simp [fixedXlt_of_eq h]
    · next h => split <;> next h' => simp [fixedXlt_of_eq h', ih, fixedXlt_of_eq h]

@[simp] theorem fixedXlt_endTrans (l s) : fixedXlt (endTrans l s) = fixedXlt s := by simp [endTrans]

@[simp] theorem fixedXlt_requeue (l r s) : fixedXlt (requeue l r s) = fixedXlt s := by simp [requeue]

@[simp] theorem fixedXlt_applyContribution (l r c s) : fixedXlt (applyContribution l r c s) = fixedXlt s := by
  unfold applyContribution
  simp only
  split <;> next h => simp [fixedXlt_of_eq h]

@[simp] theorem fixedXlt_contribute (l r hold s)
    (hhold : ∀ a b t, fixedXlt (hold a b t) = fixedXlt t) :
    fixedXlt (contribute l r hold s) = fixedXlt s := by
  unfold contribute
  split <;> simp [hhold]

@[simp] theorem fixedXlt_serveGone (l r s) : fixedXlt (serveGone l r s) = fixedXlt s := by
  unfold serveGone
  split <;> simp

@[simp] theorem fixedXlt_finish (l r target atHome s) : fixedXlt (finish l r target atHome s) = fixedXlt s := by
  unfold finish
  split
  · simp
  · split <;> simp

@[simp] theorem fixedXlt_countCoarse (l old new s) :
    fixedXlt (countCoarse l old new s) = fixedXlt s := by simp [countCoarse]

@[simp] theorem fixedXlt_serveLine (l r s) : fixedXlt (serveLine l r s) = fixedXlt s := by
  unfold serveLine
  extract_lets d hs recallOr o
  have hr (dest : List Part) (share : Bool) (t : DirEntry) (r : LineReq) (u : State) :
      fixedXlt (recallOr dest share t r u) = fixedXlt u := by
    simp [recallOr]
  split
  · exact fixedXlt_requeue ..
  · split
    · split <;> next h => simp [fixedXlt_of_eq h]
    · split <;> next h => simp [fixedXlt_of_eq h]
    · split <;> next h => simp [fixedXlt_of_eq h]
    · exact fixedXlt_finish ..
  · split
    · exact fixedXlt_finish ..
    · exact fixedXlt_finish ..
    · exact fixedXlt_finish ..
    · simp
    · exact hr ..
    · exact hr ..
    · exact hr ..
  · split
    · split <;> simp
    · simp
    · exact fixedXlt_finish ..
    · split <;> simp
    · split <;> simp
    · split <;> simp
    · exact fixedXlt_startRecall ..

@[simp] theorem fixedXlt_holdLine (l r s) : fixedXlt (holdLine l r s) = fixedXlt s := by simp [holdLine]

@[simp] theorem fixedXlt_serve (l r s) : fixedXlt (serve l r s) = fixedXlt s := by
  unfold serve
  split <;> simp

@[simp] theorem fixedXlt_recallsDone (l s) : fixedXlt (recallsDone l s) = fixedXlt s := by
  unfold recallsDone
  extract_lets x
  split
  · split
    · exact fixedXlt_setLine ..
    · exact fixedXlt_finish ..
  · split
    · exact (fixedXlt_setDir ..).trans (fixedXlt_endTrans ..)
    · exact (fixedXlt_setDir ..).trans (fixedXlt_endTrans ..)

@[simp] theorem fixedXlt_absorbData (l d poisoned s) :
    fixedXlt (absorbData l d poisoned s) = fixedXlt s := by simp [absorbData]

@[simp] theorem fixedXlt_recallAnswer (l h data poisoned s) :
    fixedXlt (recallAnswer l h data poisoned s) = fixedXlt s := by
  unfold recallAnswer
  split <;> simp

@[simp] theorem fixedXlt_loseCopy (l sc s) : fixedXlt (loseCopy l sc s) = fixedXlt s := by simp [loseCopy]

@[simp] theorem fixedXlt_scanOne (l sc s) : fixedXlt (scanOne l sc s) = fixedXlt s := by
  unfold scanOne
  split
  · rfl
  · extract_lets x h
    split
    · split
      · simp
      · split
        · exact (fixedXlt_setLine ..).trans (fixedXlt_loseCopy ..)
        · exact fixedXlt_setLine ..
    · split
      · rfl
      · split
        exact fixedXlt_startRecall ..

@[simp] theorem fixedXlt_pruneScans (s) : fixedXlt (pruneScans s) = fixedXlt s := by simp [pruneScans]

@[simp] theorem fixedXlt_scanLine (l s) : fixedXlt (scanLine l s) = fixedXlt s := by simp [scanLine]

@[simp] theorem fixedXlt_settleCycle (s) : fixedXlt (settleCycle s) = fixedXlt s := by simp [settleCycle]

@[simp] theorem fixedXlt_handOver (l s) : fixedXlt (handOver l s) = fixedXlt s := by
  unfold handOver
  split <;> simp

@[simp] theorem fixedXlt_fetchHandOver (t s) : fixedXlt (fetchHandOver t s) = fixedXlt s := by
  unfold fetchHandOver
  split <;> simp

@[simp] theorem fixedXlt_settleBuf (l s) : fixedXlt (settleBuf l s) = fixedXlt s := by simp [settleBuf]

@[simp] theorem fixedXlt_takeIn (l p r s) : fixedXlt (takeIn l p r s) = fixedXlt s := by
  unfold takeIn
  split <;> simp

@[simp] theorem fixedXlt_recallAll (l s) : fixedXlt (recallAll l s) = fixedXlt s := by
  unfold recallAll
  extract_lets x d u
  have hu : fixedXlt u = fixedXlt s := by simp [u]
  split
  · simp [hu]
  · split
    · exact hu
    · split
      · simp [hu]
      · split
        exact (fixedXlt_startRecall ..).trans hu

@[simp] theorem fixedXlt_recallDue (l s) : fixedXlt (recallDue l s) = fixedXlt s := by simp [recallDue]

@[simp] theorem fixedXlt_lookAt (l s) : fixedXlt (lookAt l s) = fixedXlt s := by simp [lookAt]

@[simp] theorem fixedXlt_accept (l p r s) : fixedXlt (accept l p r s) = fixedXlt s := by simp [accept]

@[simp] theorem fixedXlt_answerUnreachable (r isCxlWrite s) :
    fixedXlt (answerUnreachable r isCxlWrite s) = fixedXlt s := by simp [answerUnreachable]

@[simp] theorem fixedXlt_deliver (l localPort r isCxlWrite s) :
    fixedXlt (deliver l localPort r isCxlWrite s) = fixedXlt s := by simp [deliver]

/-! Queues deliver completions and fetch descriptors. -/

@[simp] theorem fixedXlt_undeliverable (n s) : fixedXlt (undeliverable n s) = fixedXlt s := by
  unfold undeliverable
  simp only
  split <;> simp

@[simp] theorem fixedXlt_settleDisable (n s) :
    fixedXlt (settleDisable n s) = fixedXlt s := by simp [settleDisable]

@[simp] theorem fixedXlt_setGroupSt (g st s) : fixedXlt (setGroupSt g st s) = fixedXlt s := by simp [setGroupSt]

@[simp] theorem fixedXlt_poolWrite (q t pva who d s owner) :
    fixedXlt (poolWrite q t pva who d s owner).2 = fixedXlt s := by
  unfold poolWrite
  split <;> next h => simp [fixedXlt_of_eq h]

@[simp] theorem fixedXlt_ringReady (n addrs s) : fixedXlt (ringReady n addrs s).2 = fixedXlt s := by
  unfold ringReady
  simp only
  split
  · iterate 3 (split; · rfl)
    split <;> simp
  · rfl
  · rfl
  · rfl

@[simp] theorem fixedXlt_ringWrite (n addr i c d s) : fixedXlt (ringWrite n addr i c d s).2 = fixedXlt s := by
  unfold ringWrite
  simp only
  split
  · split
    · simp
    · split <;> simp
  · simp
  · split <;> next h => simp [fixedXlt_of_eq h]
  · rfl

@[simp] theorem fixedXlt_notify (n s) : fixedXlt (notify n s) = fixedXlt s := by
  unfold notify
  simp only
  split
  · split <;> simp
  · simp
  · split <;> next h => simp [fixedXlt_of_eq h]
  · simp

@[simp] theorem fixedXlt_noteNotify (n s) : fixedXlt (noteNotify n s) = fixedXlt s := by simp [noteNotify]

@[simp] theorem fixedXlt_settlePosts (n s) : fixedXlt (settlePosts n s) = fixedXlt s := by simp [settlePosts]

@[simp] theorem fixedXlt_writeExt (c extA i s) :
    fixedXlt (writeExt c extA i s).2 = fixedXlt s := by simp [writeExt]

@[simp] theorem fixedXlt_writeCompl (c s) : fixedXlt (writeCompl c s).2 = fixedXlt s := by
  unfold writeCompl
  simp only
  split
  · next h =>
    split
    · next h' =>
      split <;> next h'' => simp [fixedXlt_of_eq h'', fixedXlt_of_eq h', fixedXlt_of_eq h]
    · simp [fixedXlt_of_eq h]
  · simp

@[simp] theorem fixedXlt_retireDesc (c s) : fixedXlt (retireDesc c s) = fixedXlt s := by simp [retireDesc]

@[simp] theorem fixedXlt_holdCompl (c s) : fixedXlt (holdCompl c s) = fixedXlt s := by simp [holdCompl]

@[simp] theorem fixedXlt_deliverCompl (c s) : fixedXlt (deliverCompl c s) = fixedXlt s := by
  unfold deliverCompl
  simp only
  split
  · rfl
  · rfl
  · simp
  · iterate 3 (split; · simp)
    split <;> next h => simp [fixedXlt_of_eq h]

@[simp] theorem fixedXlt_flushAwaiting (n s) :
    fixedXlt (flushAwaiting n s) = fixedXlt s := by simp [flushAwaiting]

@[simp] theorem fixedXlt_issueFetch (n s) : fixedXlt (issueFetch n s) = fixedXlt s := by
  unfold issueFetch
  split
  · simp only
    split
    · rfl
    · split <;> simp
  · rfl

end Sys2Proof.Machine
end

section
/-! SUPPORT. Translation events (R63 to R84): walks and fault records, what an invalidation does at a unit, a beat beyond the
drain bound, a table switch, the end of an ATS invalidation. -/

namespace Sys2Proof.Machine

open Sys2Proof.Safety

/-! Setters. -/

theorem only_setXunit (q u s) : Only [.xunits] s (setXunit q u s) :=
  ⟨rfl, rfl, fun a h => by cases a with | xunits => cases h | routes => exact ⟨rfl, rfl⟩ | _ => rfl⟩

theorem only_setRoots (t r s) : Only [.roots] s (setRoots t r s) :=
  ⟨rfl, rfl, fun a h => by cases a with | roots => cases h | routes => exact ⟨rfl, rfl⟩ | _ => rfl⟩

theorem only_setQueues (x s) : Only [.queues] s { s with que := { s.que with queues := x } } :=
  ⟨rfl, rfl, fun a h => by cases a with | queues => cases h | routes => exact ⟨rfl, rfl⟩ | _ => rfl⟩

theorem others_xunit_setXunit (q : Nat) (u : XltUnit) (s : State) : Others xunit q s (setXunit q u s) := fun k hk => by
  rw [xunit_setXunit, if_neg hk]

/-- An output that the pair's gate would hold back is sent where the gate is open and nothing is awaited. -/
theorem emit_of_open {o : Out} {s : State} (hg : gated s = false) (ha : awaitsAck s = false) :
    emit o s = { s with out := o :: s.out } := by
  simp [emit, hg, ha]

/-! Walks and fault records. -/

/-- A ring with a free place takes the record (R84). -/
theorem logFault_of_room {q : Nat} {f : FaultRec} {s : State} (h : (xunit s q).faultHead + 1 ≠ (xunit s q).faultTail) :
    logFault q f s = setXunit q { xunit s q with
      faultLog := tput none (xunit s q).faultLog (xunit s q).faultHead.toNat (some f)
      faultHead := (xunit s q).faultHead + 1, faultSeq := (xunit s q).faultSeq + 1 } s := if_neg h

/-! An invalidation reaches a unit (R72). -/

/-- The unit drains its entries, its operations learn the range, and it has received one invalidation more. -/
def drainUnit (q t lo hi : Nat) (p : TlbEntry → Bool) (w : WalkEntry → Bool) (s : State) : State :=
  nextTurn q (cutMessages q t lo hi (drainEntries q p w s))

/-- Entries of a table that are mapped to values of which `g` reads the same. -/
theorem tget_map_congr {α β : Type} (g : α → β) {F : Nat × α → Nat × α} (hkey : ∀ c, (F c).1 = c.1)
    (hval : ∀ c, g (F c).2 = g c.2) (d : α) (t : Tbl α) (k : Nat) : g (tget d (t.map F) k) = g (tget d t k) := by
  induction t with
  | nil => rfl
  | cons c r ih =>
    simp only [List.map_cons, tget, hkey c]
    split
    · exact hval c
    · exact ih

theorem noFlight_cutMessages (q t lo hi s) (n : Nat) : noFlight (queue (cutMessages q t lo hi s) n) = noFlight (queue s n) := by
  refine tget_map_congr noFlight (fun c => ?_) (fun c => ?_) {} s.que.queues n
  · split <;> rfl
  · split <;> rfl

theorem only_cutMessages (q t lo hi s) : Only [.e2e, .queues] s (cutMessages q t lo hi s) :=
  only_trans (t := { s with e2e := (cutMessages q t lo hi s).e2e }) (only_mono (only_setE2e _ s) rfl)
    (only_mono (only_setQueues _ _) rfl)

theorem only_drainUnit (q t lo hi p w s) : Only [.xunits, .e2e, .queues] s (drainUnit q t lo hi p w s) :=
  only_trans (only_mono (only_setXunit _ _ s) rfl)
    (only_trans (only_mono (only_cutMessages q t lo hi _) rfl) (only_mono (only_setXunit _ _ _) rfl))

theorem noFlight_drainUnit (q t lo hi p w s) (n : Nat) : noFlight (queue (drainUnit q t lo hi p w s) n) = noFlight (queue s n) :=
  noFlight_cutMessages q t lo hi _ n

theorem xunit_drainUnit (q t lo hi p w s) (k : Nat) : xunit (drainUnit q t lo hi p w s) k =
    if k = q then { xunit s q with
      tlb := (xunit s q).tlb.map (fun e => if p e then { e with draining := true } else e)
      walkCache := (xunit s q).walkCache.map (fun e => if w e then { e with draining := true } else e)
      turns := (xunit s q).turns + 1 } else xunit s k := by
  have hcut (u : State) (j : Nat) : xunit (cutMessages q t lo hi u) j = xunit u j := rfl
  simp only [drainUnit, nextTurn, drainEntries, xunit_setXunit, hcut, if_true]
  split
  · rfl
  · rfl

/-! Beats beyond the drain bound (R74). -/

/-- The parts that an answer touches. -/
abbrev answerAreas : List Area := [.out, .free, .cnt, .dir, .ports, .rofRest, .e2e, .pair]

/-- An answer touches those parts, and no request that waits at a home's port. -/
def Answers (s t : State) : Prop := Only answerAreas s t ∧ t.dir.waitIn = s.dir.waitIn

theorem answers_refl (s : State) : Answers s s := ⟨only_refl _ s, rfl⟩

theorem answers_trans {s t u : State} (h : Answers s t) (h' : Answers t u) : Answers s u :=
  ⟨only_trans h.1 h'.1, h'.2.trans h.2⟩

/-- A change outside the directory. -/
theorem answers_of_only {l : List Area} {s t : State} (h : Only l s t)
    (hl : (l.all answerAreas.contains && !(l.contains .dir)) = true) : Answers s t := by
  simp only [Bool.and_eq_true, Bool.not_eq_true'] at hl
  exact ⟨only_mono h hl.1, congrArg DirState.waitIn (only_agree h .dir hl.2)⟩

theorem answers_dirWith {x : DirState} (s : State) (h : x.waitIn = s.dir.waitIn) : Answers s { s with dir := x } :=
  ⟨only_mono (only_setDirState x s) rfl, h⟩

theorem answers_when {c : Bool} {f : State → State} {s : State} (h : Answers s (f s)) : Answers s (when c f s) := by
  cases c
  · exact answers_refl s
  · exact h

theorem answers_bump (f n i s) : Answers s (bump f n i s) := answers_of_only (only_bump f n i s) rfl

theorem answers_sendReply (id r k st d s) : Answers s (sendReply id r k st d s) := by
  cases r with
  | silent => exact answers_refl s
  | kept => exact answers_dirWith s rfl
  | cxl ld tag => exact answers_trans (answers_when (answers_bump _ _ _ s)) (answers_of_only (only_emit _ _) rfl)
  | rof src dst vc seq ten tag =>
    unfold sendReply
    simp only
    split
    · exact answers_refl s
    · exact answers_of_only (within_sendPacket _ _ s).1 rfl

theorem answers_closePend (id s) : Answers s (closePend id s) := by
  unfold closePend
  split
  · exact answers_refl s
  · split
    · exact answers_trans (answers_dirWith s (by rfl)) (answers_sendReply _ _ _ _ _ _)
    · exact answers_refl s

theorem answers_pendDone (id st pos b s) : Answers s (pendDone id st pos b s) := by
  unfold pendDone
  split
  · exact answers_refl s
  · exact answers_trans (answers_dirWith s (by rfl)) (answers_closePend id _)

theorem answers_contribLine (r st s) : Answers s (contribLine r st s) := by
  unfold contribLine
  split
  · exact answers_when (answers_bump _ _ _ s)
  · split
    · exact answers_refl s
    · extract_lets x y dir u
      have hu : Answers s u := answers_dirWith s rfl
      split
      · exact hu
      · split
        · exact answers_trans hu (answers_trans (answers_bump _ _ _ u) (answers_bump _ _ _ _))
        · exact answers_trans hu (answers_bump _ _ _ u)
        · exact hu
  · exact answers_refl s

theorem answers_unretain (r st s) : Answers s (unretain r st s) := by
  unfold unretain
  split
  · split
    · exact forEach_keeps (P := Answers s) _ (fun _ t h => answers_trans h (answers_pendDone _ _ _ _ t))
        (answers_of_only (only_setE2e _ s) rfl)
    · exact answers_refl s
  · exact answers_refl s

/-- A beat that no descriptor owns is answered. -/
theorem answers_respond (l r st pos b s) (h : r.owner = none) : Answers s (respond l r st pos b s) := by
  have hfailed (u : State) : beatFailed r st u = u := by simp [beatFailed, h]
  unfold respond lineDone
  rw [hfailed]
  exact answers_trans (answers_of_only (within_cross _ _ _ s).1 rfl) (answers_trans (answers_unretain r st _)
    (answers_trans (answers_contribLine r st _) (answers_pendDone _ _ _ _ _)))

theorem Answers.nothingDue {s t : State} (h : Answers s t) (hdue : NothingDue s) : NothingDue t := by
  obtain ⟨honly, -⟩ := h
  obtain ⟨hwin, hver, hque, hobj⟩ := hdue
  have hnm : t.nm = s.nm := only_agree honly .windows rfl
  have hqs : t.que.queues = s.que.queues := only_agree honly .queues rfl
  have hrest := congrArg QueState.unverified (only_agree honly .queRest rfl)
  have hobjs := congrArg CoreState.objs (only_agree honly .coreRest rfl)
  exact ⟨hnm ▸ hwin, hrest.trans hver, hqs ▸ hque, hobjs ▸ hobj⟩

/-- Where nothing is due, an ordering sets nothing in motion. -/
theorem settleOrder_of_nothingDue {s : State} (h : NothingDue s) : settleOrder s = s := by
  obtain ⟨hwin, hver, hque, -⟩ := h
  have hwins : settleWindows s = s := by
    have : s.nm.windows.filter (fun c => c.2.due) = [] := List.filter_eq_nil_iff.mpr fun c hc => by simp [hwin c hc]
    rw [settleWindows, this]
    rfl
  have hvers : deliverVerified s = s := by
    have hq : { s.que with unverified := [] } = s.que := by rw [← hver]
    simp only [deliverVerified, hver, List.filter_nil, forEach_nil, hq]
  have hrings : settleRings s = s := by
    have : s.que.queues.filter (fun c => c.2.extOut.isSome || !c.2.posts.isEmpty) = [] :=
      List.filter_eq_nil_iff.mpr fun c hc => by simp [hque c hc]
    rw [settleRings, this]
    rfl
  rw [settleOrder, hwins, hvers, hrings]

theorem roots_congr {s t : State} (h : t.xlt.roots = s.xlt.roots) (k : Nat) : roots t k = roots s k := by
  unfold roots
  rw [h]

theorem xunit_congr {s t : State} (h : t.xlt.units = s.xlt.units) (q : Nat) : xunit t q = xunit s q := by
  unfold xunit
  rw [h]

/-- The unit's bound is noted in the invalidation, and the beat that waited has left its port. -/
def boundNoted (q : Nat) (v : Inval) (now : Nat) (s : State) : State :=
  { setInvals [{ v with bounded := q :: v.bounded }] (advance now s) with dir := { s.dir with waitIn := [] } }

theorem xunit_boundNoted (q v now s) (k : Nat) : xunit (boundNoted q v now s) k = xunit s k := rfl

theorem exec_drainBoundExpiry {q : Fin 4} {c : Fin 1024} {lo hi now at_ l p : Nat} {v : Inval} {r : LineReq} {s : State}
    (hrun : Running s) (hone : s.xlt.invals = [v]) (hv : inProgress q.val c.val lo hi v = true)
    (hreached : tget none v.reached q.val = some at_) (hwithdraws : v.withdraws = true) (hfirst : q.val ∉ v.bounded)
    (hbound : at_ + 1000 * drainBoundUs s q.val ≤ max s.time now) (hlines : s.dir.lines = [])
    (hwait : s.dir.waitIn = [(l, p, r)]) (hbeat : drainBeat q.val v r = true) (howner : r.owner = none) :
    exec (.drainBoundExpiry q c lo hi now) s = .next (settleOrder (cancelBeat l r (boundNoted q.val v now s))) := by
  have hlate : ¬((advance now s).time < at_ + 1000 * drainBoundUs (advance now s) q.val ∨ v.bounded.contains q.val) := by
    rw [List.contains_iff_mem]
    exact not_or.mpr ⟨Nat.not_lt.mpr hbound, hfirst⟩
  simp only [exec, execDrainBoundExpiry, live_of hrun, advance_xlt, hone, List.find?_cons_of_pos, hv, hreached,
    Option.getD_some, if_neg hlate]
  simp [hwithdraws, modFirst, hv, orderedBeats, hlines, hwait, hbeat, howner, cancelAll, setInvals, boundNoted]

/-! Table switches (R77). -/

/-- Every entry of the unit that `p` names drains. -/
def Drained (p : TlbEntry → Bool) (q : Nat) (s : State) : Prop := ∀ e ∈ (xunit s q).tlb, p e = true → e.draining = true

/-- A unit that drains its entries has them drained, and another unit's stay so. -/
theorem drained_drainUnit {p : TlbEntry → Bool} {q k : Nat} (t lo hi w)
    {s : State} (h : k = q ∨ Drained p q s) : Drained p q (drainUnit k t lo hi p w s) := by
  intro e he hpe
  rw [xunit_drainUnit] at he
  by_cases hqk : q = k
  · rw [if_pos hqk] at he
    obtain ⟨e', -, rfl⟩ := List.mem_map.mp he
    by_cases hhit : p e' = true
    · rw [if_pos hhit]
    · rw [if_neg hhit] at hpe
      exact absurd hpe hhit
  · rw [if_neg hqk] at he
    exact h.resolve_left (Ne.symm hqk) e he hpe

/-- Units that drain in turn all have their entries drained. -/
theorem drained_forEach {p : TlbEntry → Bool} {q : Nat} (t lo hi w)
    {l : List Nat} (hq : q ∈ l) (s : State) : Drained p q (forEach l (fun k => drainUnit k t lo hi p w) s) := by
  induction l generalizing s with
  | nil => cases hq
  | cons k r ih =>
    rcases List.mem_cons.mp hq with rfl | hr
    · exact forEach_keeps (P := Drained p q) r (fun k u h => drained_drainUnit t lo hi w (.inr h))
        (drained_drainUnit t lo hi w (.inl rfl))
    · exact ih hr _

/-- The entries of a tenant under one selector. -/
def underSel (t : Nat) (sel : Bool) (e : TlbEntry) : Bool := decide (e.tenant = t) && (e.sel == sel)

/-- The walk-cache entries of a tenant under one selector. -/
def walkUnderSel (t : Nat) (sel : Bool) (e : WalkEntry) : Bool := decide (e.tenant = t) && (e.sel == sel)

/-- The shadow root is written, and becomes the one selected. -/
def flipRoots (root : BitVec 26) (r : Roots) : Roots := { r with
  rootA := if r.activeSel then root.toNat else r.rootA
  rootB := if r.activeSel then r.rootB else root.toNat
  activeSel := !r.activeSel, switchPending := true }

/-- What `r` holds where `r₀` has its shadow root. -/
def shadowRoot (r₀ r : Roots) : Nat := if r₀.activeSel then r.rootA else r.rootB

/-- What `r` holds where `r₀` has the root that it uses. -/
def usedRoot (r₀ r : Roots) : Nat := if r₀.activeSel then r.rootB else r.rootA

theorem flipRoots_shadow (root : BitVec 26) (r : Roots) : shadowRoot r (flipRoots root r) = root.toNat := by
  cases h : r.activeSel <;> simp [shadowRoot, flipRoots, h]

theorem flipRoots_used (root : BitVec 26) (r : Roots) : usedRoot r (flipRoots root r) = usedRoot r r := by
  cases h : r.activeSel <;> simp [usedRoot, flipRoots, h]

/-- The tenant has changed its root, and the invalidation of its whole space is ordered. -/
def switchOrdered (t : Nat) (root : BitVec 26) (s : State) : State :=
  setInvals (s.xlt.invals ++ [(List.range 4).foldl (fun v q => reach (setRoots t (flipRoots root (roots s t)) s) q v)
    { tenant := t, lo := 0, hi := 2 ^ 48, withdraws := true, isSwitch := true }])
    (setRoots t (flipRoots root (roots s t)) s)

/-- A switch orders the invalidation, and then every unit drains. -/
theorem orderSwitch_eq (t : Nat) (root : BitVec 26) (s : State) : orderSwitch t root s =
    forEach (List.range 4) (fun q => drainUnit q t 0 (2 ^ 48) (underSel t (roots s t).activeSel)
      (walkUnderSel t (roots s t).activeSel)) (switchOrdered t root s) := rfl

/-! Host addresses (R81 to R83). -/

/-- An ATS invalidation ends where nothing holds an output back: its completion is sent. -/
theorem finishAts_of_open {q : Nat} {v : AtsInval} {s : State} (hg : gated s = false) (ha : awaitsAck s = false) :
    (finishAts q v s).out = .atsInvalComplete v.ld v.itag :: s.out ∧
      (xunit (finishAts q v s) q).atsInvals = (xunit s q).atsInvals.erase v ∧ Others xunit q s (finishAts q v s) ∧
      Only [.out, .xunits] s (finishAts q v s) := by
  unfold finishAts
  rw [emit_of_open (by exact hg) (by exact ha)]
  refine ⟨rfl, ?_, others_xunit_setXunit _ _ s, ?_⟩
  · exact congrArg XltUnit.atsInvals ((xunit_setXunit _ _ _ _).trans (if_pos rfl))
  · exact only_trans (only_mono (only_setXunit _ _ s) rfl) (only_mono (only_said _ _) rfl)

theorem atsFind_names {s : State} {d itag : Nat} {v : AtsInval} (h : atsFind s d itag = some v) : v.ld = d ∧ v.itag = itag := by
  have := List.find?_some h
  simpa using this

/-- Where no DMA read is open, there is none to mark. -/
theorem mapDmaReads_of_none {s : State} (h : s.cxl.dmaReads = []) (f : DmaRead → DmaRead) :
    { s with cxl := { s.cxl with dmaReads := s.cxl.dmaReads.map f } } = s := by
  have hmap : s.cxl.dmaReads.map f = s.cxl.dmaReads := by simp [h]
  rw [hmap]

end Sys2Proof.Machine
end

section
/-! PROOFS. Translation events complete. -/

namespace Sys2Proof.Machine

open Sys2Proof.Safety

/-! Walks and fault records. -/

/-- The clause of WALK_RESULT where the walk comes to a leaf that lets the participant in. -/
theorem walkResult_fills (q : Fin 4) (c : Fin 1024) (pva : BitVec 48) (who : Part) (port adm : Bool) (acc : Access)
    (ents : List (BitVec 64 × Bool)) (level : Nat) (e : Pte) (s : State) (hrun : Running s)
    (hwalk : walkEntries s 0 ents = .leaf level e)
    (hcheck : leafCheck (runEntry s c.val pva.toNat level e).leaf who (if port then .port else .inPool adm) acc = none) :
    ∃ t, exec (.walkResult q c pva who port adm acc ents) s = .next t ∧
      (xunit t q.val).tlb.head? = some (runEntry s c.val pva.toNat level e) ∧
      (xunit t q.val).faultHead = (xunit s q.val).faultHead ∧ Others xunit q.val s t ∧ Only [.xunits] s t := by
  have hexec : exec (.walkResult q c pva who port adm acc ents) s =
      .next (tlbFill q.val (runEntry s c.val pva.toNat level e) s) := by
    simp [exec, execWalkResult, live_of hrun, hwalk, hcheck]
  refine ⟨_, hexec, ?_, ?_, others_xunit_setXunit _ _ s, only_setXunit _ _ s⟩
  · simp [tlbFill]
  · simp [tlbFill]

/-- The clause of WALK_RESULT where the root entry is not present. -/
theorem walkResult_notPresent (q : Fin 4) (c : Fin 1024) (pva : BitVec 48) (who : Part) (port adm : Bool) (acc : Access)
    (ents : List (BitVec 64 × Bool)) (s : State) (hrun : Running s) (hwalk : walkEntries s 0 ents = .fault .notPresent 0)
    (hroom : (xunit s q.val).faultHead + 1 ≠ (xunit s q.val).faultTail) :
    ∃ t, exec (.walkResult q c pva who port adm acc ents) s = .next t ∧
      (xunit t q.val).faultHead = (xunit s q.val).faultHead + 1 ∧
      tget none (xunit t q.val).faultLog (xunit s q.val).faultHead.toNat = some
        { time := s.time, pva := pva.toNat, reason := 1, access := accCode acc, level := 0, tenant := c.val
          extent := none, source := (srcOf who c.val).source, sourceId := (srcOf who c.val).sourceId
          tableEpoch := (roots s c.val).tableEpoch, seq := (xunit s q.val).faultSeq.toNat } ∧
      Others xunit q.val s t ∧ Only [.xunits] s t := by
  have hexec : exec (.walkResult q c pva who port adm acc ents) s =
      .next (logFault q.val (faultRec s q.val c.val pva.toNat
        { reason := .notPresent, access := accCode acc, level := 0, extent := none }
        (srcOf who c.val).source (srcOf who c.val).sourceId) s) := by
    simp [exec, execWalkResult, live_of hrun, hwalk, refuse]
  refine ⟨_, hexec, ?_⟩
  rw [logFault_of_room hroom]
  refine ⟨by simp, ?_, others_xunit_setXunit _ _ s, only_setXunit _ _ s⟩
  simp [faultRec, Reason.code, Nat.mod_eq_of_lt pva.isLt]

/-! An invalidation reaches a unit (R72). -/

/-- The clause of INVALIDATION. -/
theorem invalidation_completes (q : Fin 4) (c : Fin 1024) (lo hi now : Nat) (v : Inval) (s : State) (hrun : Running s)
    (hone : s.xlt.invals = [v]) (hv : awaits q.val c.val lo hi v = true) :
    ∃ t, exec (.invalidation q c lo hi now) s = .next t ∧
      t.xlt.invals = [{ v with reached := tput none v.reached q.val (some (max s.time now))
                               beats := tput 0 v.beats q.val s.dir.nextBeat
                               turn := tput 0 v.turn q.val (xunit s q.val).turns }] ∧
      (xunit t q.val).tlb = (xunit s q.val).tlb.map (fun e =>
        if overlapsEntry c.val lo hi e then { e with draining := true } else e) ∧
      Others xunit q.val s t ∧ (∀ n, { queue t n with flight := [] } = { queue s n with flight := [] }) ∧
      Only [.time, .xunits, .invals, .e2e, .queues] s t := by
  have hnew : atUnit q.val v = false := by
    simp only [awaits, Bool.and_eq_true] at hv
    simp [atUnit, hv.1.2]
  have hexec : exec (.invalidation q c lo hi now) s = .next (drainUnit q.val c.val lo hi (overlapsEntry c.val lo hi)
      (overlapsWalk c.val lo hi) (setInvals [reach (advance now s) q.val v] (advance now s))) := by
    simp [exec, execInvalidation, live_of hrun, invPending, hone, hv, hnew, modFirst, drainUnit]
  refine ⟨_, hexec, rfl, ?_, fun k hk => ?_, noFlight_drainUnit _ _ _ _ _ _ _, ?_⟩
  · rw [xunit_drainUnit, if_pos rfl]
    rfl
  · rw [xunit_drainUnit, if_neg hk]
    rfl
  · exact only_trans (only_mono (only_advance now s) rfl) (only_trans (only_mono (only_setInvals _ _) rfl)
      (only_mono (only_drainUnit _ _ _ _ _ _ _) rfl))

/-- The clause of INVALIDATION_COMPLETE. -/
theorem invalidationComplete_completes (q : Fin 4) (c : Fin 1024) (lo hi : Nat) (v : Inval) (s : State) (hrun : Running s)
    (hone : s.xlt.invals = [v]) (hv : inProgress q.val c.val lo hi v = true) (hlines : s.dir.lines = [])
    (hwait : s.dir.waitIn = []) (hwins : s.cxl.wins = []) (hswitch : v.isSwitch = false)
    (hdone : ∀ k, k < 4 → k ≠ q.val → k ∈ v.done) :
    ∃ t, exec (.invalidationComplete q c lo hi) s = .next t ∧ t.xlt.invals = [] ∧
      (xunit t q.val).tlb = (xunit s q.val).tlb.filter (fun e => !(e.draining && overlapsEntry c.val lo hi e)) ∧
      Others xunit q.val s t ∧ Only [.xunits, .invals] s t := by
  have hv' := hv
  simp only [inProgress, Bool.and_eq_true, decide_eq_true_eq] at hv'
  obtain ⟨⟨⟨-, hten⟩, hlo⟩, hhi⟩ := hv'
  have hall (u : State) (w : Inval) (hw : w.done = q.val :: v.done) : invalDone u w = true := by
    refine List.all_eq_true.mpr fun k hk => Bool.or_eq_true _ _ ▸ .inl (List.contains_iff_mem.mpr ?_)
    rw [hw, List.mem_cons]
    exact or_iff_not_imp_left.mpr (hdone k (List.mem_range.mp hk))
  have hexec : exec (.invalidationComplete q c lo hi) s = .next (setInvals [] (setXunit q.val { xunit s q.val with
      tlb := (xunit s q.val).tlb.filter (fun e => !(e.draining && overlapsEntry c.val lo hi e))
      walkCache := (xunit s q.val).walkCache.filter (fun e => !(e.draining && overlapsWalk c.val lo hi e)) } s)) := by
    simp [exec, execInvalidationComplete, live_of hrun, hone, hv, hten, hlo, hhi, orderedBeats, hlines, waitingBeats, hwait,
      earlierOpen, reportInval, setXunit, modFirst, hswitch, hall, setInvals, settleOpenings, hwins]
  refine ⟨_, hexec, rfl, ?_, others_xunit_setXunit _ _ s, ?_⟩
  · exact congrArg XltUnit.tlb ((xunit_setXunit _ _ _ _).trans (if_pos rfl))
  · exact only_trans (only_mono (only_setXunit _ _ s) rfl) (only_mono (only_setInvals _ _) rfl)

/-! Beats beyond the drain bound (R74). -/

/-- The clause of DRAIN_BOUND_EXPIRY. -/
theorem drainBoundExpiry_completes (q : Fin 4) (c : Fin 1024) (lo hi now at_ : Nat) (v : Inval) (r : LineReq) (s : State)
    (hrun : Running s) (hone : s.xlt.invals = [v]) (hv : inProgress q.val c.val lo hi v = true)
    (hreached : tget none v.reached q.val = some at_) (hwithdraws : v.withdraws = true) (hfirst : q.val ∉ v.bounded)
    (hbound : at_ + 1000 * drainBoundUs s q.val ≤ max s.time now) (hlines : s.dir.lines = [])
    (hwait : s.dir.waitIn.map (·.2.2) = [r]) (hbeat : drainBeat q.val v r = true) (howner : r.owner = none)
    (hpend : tget none s.dir.pends r.pend = none) (hroom : (xunit s q.val).faultHead + 1 ≠ (xunit s q.val).faultTail)
    (hdue : NothingDue s) :
    ∃ t, exec (.drainBoundExpiry q c lo hi now) s = .next t ∧ t.dir.waitIn = [] ∧
      (∀ w ∈ t.xlt.invals, q.val ∈ w.bounded) ∧
      (∃ f, tget none (xunit t q.val).faultLog (xunit s q.val).faultHead.toNat = some f ∧ f.reason = 7 ∧
        f.pva = (r.pva + r.pos) % 2 ^ 48) ∧
      SameMemory s t := by
  obtain ⟨⟨l, p, r⟩, hw, rfl⟩ := List.map_eq_singleton_iff.mp hwait
  have hq : r.entryQ = q.val := by
    simp only [drainBeat, isBeat, Bool.and_eq_true, decide_eq_true_eq] at hbeat
    tauto
  have hexec := exec_drainBoundExpiry (now := now) hrun hone hv hreached hwithdraws hfirst hbound hlines hw hbeat howner
  generalize hu : logFault r.entryQ (cancelRec (boundNoted q.val v now s) l r) (boundNoted q.val v now s) = u
  have hroom' : (xunit (boundNoted q.val v now s) r.entryQ).faultHead + 1 ≠
      (xunit (boundNoted q.val v now s) r.entryQ).faultTail := hq ▸ hroom
  rw [logFault_of_room hroom'] at hu
  have hdueu : NothingDue u := hu ▸ hdue
  have hans : Answers u (cancelBeat l r (boundNoted q.val v now s)) := by
    unfold cancelBeat
    rw [logFault_of_room hroom', hu]
    exact answers_respond _ _ _ _ _ u howner
  have hsettled := settleOrder_of_nothingDue (hans.nothingDue hdueu)
  obtain ⟨honly, hwaits⟩ := hans
  refine ⟨_, hexec.trans (congrArg _ hsettled), ?_, ?_, ?_, ?_⟩
  · rw [hwaits, ← hu]
    rfl
  · rw [only_agree honly .invals rfl, ← hu]
    intro w hwmem
    rw [List.mem_singleton.mp hwmem]
    exact List.mem_cons_self
  · refine ⟨cancelRec (boundNoted q.val v now s) l r, ?_, rfl, rfl⟩
    rw [xunit_congr (only_agree honly .xunits rfl), ← hu, hq, xunit_setXunit, if_pos rfl, xunit_boundNoted]
    exact tget_tput_same none (some (cancelRec (boundNoted q.val v now s) l r)) (xunit s q.val).faultLog _
  · intro a
    rw [readByte_congr (only_agree honly .bytes rfl) (only_agree honly .merge rfl), ← hu]
    rfl

/-! Table switches (R77). -/

/-- The clause of TABLE_SWITCH. -/
theorem tableSwitch_completes (c : Fin 1024) (root : BitVec 26) (now : Nat) (s : State) (hrun : Running s)
    (hidle : (roots s c.val).switchPending = false) :
    ∃ t, exec (.tableSwitch c root now) s = .next t ∧
      (roots t c.val).activeSel = !(roots s c.val).activeSel ∧ (roots t c.val).switchPending = true ∧
      (if (roots s c.val).activeSel then (roots t c.val).rootA else (roots t c.val).rootB) = root.toNat ∧
      (if (roots s c.val).activeSel then (roots t c.val).rootB else (roots t c.val).rootA) =
        (if (roots s c.val).activeSel then (roots s c.val).rootB else (roots s c.val).rootA) ∧
      (∃ v, t.xlt.invals = s.xlt.invals ++ [v] ∧ v.isSwitch = true ∧ v.tenant = c.val) ∧
      (∀ q, q < 4 → ∀ e ∈ (xunit t q).tlb, e.tenant = c.val → e.sel = (roots s c.val).activeSel →
        e.draining = true) ∧
      Others roots c.val s t ∧ (∀ n, { queue t n with flight := [] } = { queue s n with flight := [] }) ∧
      Only [.time, .xunits, .roots, .invals, .e2e, .queues] s t := by
  have hexec : exec (.tableSwitch c root now) s = .next (orderSwitch c.val root (advance now s)) := by
    have hidle' : (roots (advance now s) c.val).switchPending = false := hidle
    simp [exec, execTableSwitch, live_of hrun, hidle']
  rw [orderSwitch_eq] at hexec
  have honly := only_forEach (List.range 4) (switchOrdered c.val root (advance now s)) fun q =>
    only_drainUnit q c.val 0 (2 ^ 48) (underSel c.val (roots s c.val).activeSel)
      (walkUnderSel c.val (roots s c.val).activeSel)
  have hroots (k : Nat) := (roots_congr (only_agree honly .roots rfl) k).trans (roots_setRoots c.val k _ _)
  have hnew := (hroots c.val).trans (if_pos rfl)
  refine ⟨_, hexec, ?_, ?_, ?_, ?_, ?_, fun q hq e he hten hsel => ?_, fun k hk => ?_, fun n => ?_, ?_⟩
  · exact congrArg Roots.activeSel hnew
  · exact congrArg Roots.switchPending hnew
  · exact (congrArg (shadowRoot (roots s c.val)) hnew).trans (flipRoots_shadow root (roots s c.val))
  · exact (congrArg (usedRoot (roots s c.val)) hnew).trans (flipRoots_used root (roots s c.val))
  · exact ⟨_, only_agree honly .invals rfl, rfl, rfl⟩
  · refine drained_forEach c.val 0 (2 ^ 48) _ (List.mem_range.mpr hq) _ e he ?_
    simp only [underSel, hten, decide_true, Bool.true_and, beq_iff_eq]
    exact hsel
  · exact (hroots k).trans (if_neg hk)
  · exact forEach_keeps (P := fun t => noFlight (queue t n) = noFlight (queue s n)) _
      (fun q t h => (noFlight_drainUnit _ _ _ _ _ _ t n).trans h) rfl
  · exact only_trans (only_mono (only_advance now s) rfl) (only_trans (only_mono (only_setRoots _ _ _) rfl)
      (only_trans (only_mono (only_setInvals _ _) rfl) (only_mono honly rfl)))

/-! Host addresses (R81 to R83). -/

/-- The clause of ATS_TRANSLATION_COMPLETION: what waited for the translation goes on, and leaves the cache as it is. -/
theorem atsTranslationCompletion_fills (d : Fin 64) (pasid page size hpa : Nat) (n : Fin 8192) (s : State)
    (hrun : Running s) :
    ∃ t, exec (.atsTranslationCompletion d pasid page size hpa true n) s = .next t ∧
      (xunit t (d.val / 16)).atc.head? =
        some { ld := d.val, pasid := pasid, page := page, size := size, hpa := hpa, draining := false } := by
  generalize hu : ({ xunit s (d.val / 16) with
    atc := { ld := d.val, pasid := pasid, page := page, size := size, hpa := hpa, draining := false } ::
      (if (xunit s (d.val / 16)).atc.length < 4096 then (xunit s (d.val / 16)).atc
       else (xunit s (d.val / 16)).atc.dropLast) } : XltUnit) = u
  have hexec : exec (.atsTranslationCompletion d pasid page size hpa true n) s =
      .next (issueFetch n.val (flushAwaiting n.val (setXunit (d.val / 16) u s))) := by
    simp [exec, execAtsTranslationCompletion, live_of hrun, ← hu]
  have hkept : (xunit (issueFetch n.val (flushAwaiting n.val (setXunit (d.val / 16) u s))) (d.val / 16)).atc = u.atc := by
    have h : fixedXlt (issueFetch n.val (flushAwaiting n.val (setXunit (d.val / 16) u s))) =
        fixedXlt (setXunit (d.val / 16) u s) := by simp only [fixedXlt_issueFetch, fixedXlt_flushAwaiting]
    refine (congrFun (congrArg Prod.fst h) (d.val / 16)).trans ?_
    exact congrArg XltUnit.atc ((xunit_setXunit _ _ _ _).trans (if_pos rfl))
  refine ⟨_, hexec, ?_⟩
  rw [hkept, ← hu]
  rfl

/-- The clause of ATS_INVALIDATE_REQUEST. -/
theorem atsInvalidateRequest_completes (d : Fin 64) (pasid page size itag now : Nat) (s : State) (hrun : Running s) :
    ∃ t, exec (.atsInvalidateRequest d pasid page size itag now) s = .next t ∧
      (∀ e ∈ (xunit t (d.val / 16)).atc, atsOverlap d.val pasid page size e.ld e.pasid e.page e.size = true →
        e.draining = true) ∧
      (xunit t (d.val / 16)).atc.map (·.hpa) = (xunit s (d.val / 16)).atc.map (·.hpa) ∧
      (∃ v, (xunit t (d.val / 16)).atsInvals = (xunit s (d.val / 16)).atsInvals ++ [v] ∧ v.ld = d.val ∧
        v.itag = itag ∧ v.time = max s.time now) ∧
      Others xunit (d.val / 16) s t ∧ Only [.time, .xunits] s t := by
  refine ⟨_, congrArg Host.Outcome.next (live_of hrun), ?_, ?_, ⟨_, congrArg XltUnit.atsInvals
    ((xunit_setXunit ..).trans (if_pos rfl)), rfl, rfl, rfl⟩, others_xunit_setXunit _ _ (advance now s),
    only_trans (only_mono (only_advance now s) rfl) (only_mono (only_setXunit _ _ _) rfl)⟩
  · simp only [xunit_setXunit, if_true]
    intro e he hover
    obtain ⟨e', he', rfl⟩ := List.mem_map.mp he
    by_cases hhit : atsOverlap d.val pasid page size e'.ld e'.pasid e'.page e'.size = true
    · rw [if_pos hhit]
    · rw [if_neg hhit] at hover
      exact absurd hover hhit
  · simp only [xunit_setXunit, if_true, List.map_map]
    refine List.map_congr_left fun e _ => ?_
    simp only [Function.comp_apply]
    split <;> rfl

/-- The clause of ATS_INVALIDATE_COMPLETE. -/
theorem atsInvalidateComplete_completes (d : Fin 64) (itag : Nat) (v : AtsInval) (s : State) (hrun : Running s)
    (hv : atsFind s d.val itag = some v) (hreads : s.cxl.dmaReads = []) (hg : gated s = false) (ha : awaitsAck s = false) :
    ∃ t, exec (.atsInvalidateComplete d itag) s = .next t ∧ t.out = .atsInvalComplete d.val itag :: s.out ∧
      (xunit t (d.val / 16)).atsInvals = (xunit s (d.val / 16)).atsInvals.erase v ∧
      Others xunit (d.val / 16) s t ∧ Only [.out, .xunits] s t := by
  obtain ⟨hld, hitag⟩ := atsFind_names hv
  have hexec : exec (.atsInvalidateComplete d itag) s = .next (finishAts (d.val / 16) v s) := by
    simp [exec, execAtsInvalidateComplete, live_of hrun, hv, hreads]
  rw [← hld, ← hitag]
  exact ⟨_, hitag ▸ hexec, hld ▸ finishAts_of_open hg ha⟩

/-- The clause of ATS_INVAL_BOUND_EXPIRY. -/
theorem atsInvalBoundExpiry_completes (d : Fin 64) (itag now : Nat) (v : AtsInval) (s : State) (hrun : Running s)
    (hv : atsFind s d.val itag = some v) (hreads : s.cxl.dmaReads = [])
    (hbound : v.time + 1000 * drainBoundUs s (d.val / 16) ≤ max s.time now) (hg : gated s = false)
    (ha : awaitsAck s = false) :
    ∃ t, exec (.atsInvalBoundExpiry d itag now) s = .next t ∧ t.out = .atsInvalComplete d.val itag :: s.out ∧
      (xunit t (d.val / 16)).atsInvals = (xunit s (d.val / 16)).atsInvals.erase v ∧
      Others xunit (d.val / 16) s t := by
  obtain ⟨hld, hitag⟩ := atsFind_names hv
  have hlate : ¬(advance now s).time < v.time + 1000 * drainBoundUs (advance now s) (d.val / 16) := Nat.not_lt.mpr hbound
  have hexec : exec (.atsInvalBoundExpiry d itag now) s = .next (finishAts (d.val / 16) v (advance now s)) := by
    have hv' : atsFind (advance now s) d.val itag = some v := hv
    have hreads' : (advance now s).cxl.dmaReads = [] := hreads
    simp only [exec, execAtsInvalBoundExpiry, live_of hrun, hv', if_neg hlate]
    rw [mapDmaReads_of_none hreads', hreads', List.filter_nil, forEach_nil]
  obtain ⟨hout, hinvals, hothers, -⟩ := finishAts_of_open (q := d.val / 16) (v := v) (s := advance now s) hg ha
  rw [hld, hitag] at hout
  exact ⟨_, hexec, hout, hinvals, hothers⟩

/-! The fault ring's tail (R84). -/

/-- The clause of FAULT_TAIL_WRITE. -/
theorem faultTailWrite_completes (q : Fin 4) (data : BitVec 64) (s : State) (hrun : Running s) :
    ∃ t, exec (.faultTailWrite q data) s = .next t ∧ (xunit t q.val).faultTail.toNat = field data.toNat 8 6 ∧
      (xunit t q.val).overflow = ((xunit s q.val).overflow && !(bitOf data.toNat 16)) ∧
      (xunit t q.val).faultHead = (xunit s q.val).faultHead ∧ (xunit t q.val).faultLog = (xunit s q.val).faultLog ∧
      Others xunit q.val s t ∧ Only [.xunits] s t := by
  refine ⟨_, congrArg Host.Outcome.next (live_of hrun), ?_, ?_, ?_, ?_, others_xunit_setXunit _ _ s, only_setXunit _ _ s⟩
  all_goals rw [xunit_setXunit, if_pos rfl]
  exact (BitVec.toNat_ofNat _ _).trans (Nat.mod_mod _ _)

/-- Settles O8, clause by clause. Where a clause tells what an event leaves alone, the writers of the event's parts say
so; where cancelled beats and resumed transfers run on, what they can touch is said once (`Answers`, `fixedXlt`). -/
theorem translationCommandsComplete : Obligations.TranslationCommandsComplete := by
  unfold Obligations.TranslationCommandsComplete
  exact ⟨walkResult_fills, walkResult_notPresent, invalidation_completes, invalidationComplete_completes,
    drainBoundExpiry_completes, tableSwitch_completes, atsTranslationCompletion_fills, atsInvalidateRequest_completes,
    atsInvalidateComplete_completes, atsInvalBoundExpiry_completes, faultTailWrite_completes⟩

end Sys2Proof.Machine
end
